-- ==== Sys2Proof/Word.lean ====
section
/-!
DEFINITION. Word: the widths the manual names (R2) and the plainest list helpers.
-/
namespace Sys2Proof

/-- A byte of memory. -/
abbrev Byte := BitVec 8

/-- A doubleword: a scalar register or an address as it is computed (R2, R13, R38). -/
abbrev Word := BitVec 64

/-- The 128 bytes of a line as one number, byte j in bits 8j + 7 to 8j (R34). -/
abbrev LineData := BitVec 1024

end Sys2Proof
end

