-- ==== Sys2Proof/Config.lean ====
section
/-!
DEFINITION. Config: what is fixed for a module and what the manual leaves to it. The opaque constants have no value that a
proof could see.
-/
namespace Sys2Proof.Config

/-- Bytes of a line (R34). -/
def lineBytes : Nat := 128

/-- Bytes of a small page (R194). -/
def pageBytes : Nat := 65536

/-- Bytes of a 512 MiB page (R194). -/
def bigPageBytes : Nat := 536870912

/-- Bytes of one HBM stack (R8). -/
def stackBytes : Nat := 68719476736

/-- Bytes of the second tier (R8, R34). -/
def tierBytes : Nat := 35184372088832

/-- Lines that the caches of R34 hold: a scalar L1 and an instruction cache of a core, a cluster's L2 with the local store, and the
last-level cache slices of a section together. -/
def l1Lines : Nat := 65536 / lineBytes
def icacheLines : Nat := 32768 / lineBytes
def l2Lines : Nat := 4194304 / lineBytes
def llcLines : Nat := 32 * 12582912 / lineBytes

/-- Entries of a core's L1 TLB, of a cluster's L2 TLB and of a section's walk cache (R201). -/
def l1Tlb : Nat := 64
def l2Tlb : Nat := 2048
def walkCache : Nat := 256

/-- First address of the local store window (R37). -/
def windowBase : Nat := 0xFFFFFFFFE00000

/-- First address beyond the 56-bit address space (R38). -/
def vaTop : Nat := 0x100000000000000

/-- The timestamp at which a domain rebases and the amount it subtracts (R99). -/
def rebaseAt : Nat := 0xC0000
def rebaseBy : Nat := 0x80000

/-- A time slice and a lane slice, in cycles (R153, R154). -/
def sliceCycles : Nat := 1600000

/-- Stores of one DET thread that the write-combining buffer holds before the excess spills (R110; log entry 21). -/
def wcbEntries : Nat := 64

/-- SHA-512 (R205, R207); log entry 11. -/
opaque sha512 : List Byte → BitVec 512

/-- Verification of an Ed25519 signature: key, message, signature (R205); log entry 11. -/
opaque ed25519Verify : List Byte → List Byte → List Byte → Bool

/-- The Ed25519 signature of a message under a private seed (R208, RFC 8032); log entry 11. -/
opaque ed25519Sign : BitVec 256 → List Byte → BitVec 512

/-- The Ed25519 public key of a private seed (R208); log entry 11. -/
opaque ed25519Public : BitVec 256 → BitVec 256

/-- The seed reconstructed from the physically unclonable function and the helper data in flash, or none where the
reconstruction fails (R208); log entry 11. -/
opaque pufSeed : List Byte → Option (BitVec 256)

/-- The Herueris root public key whose digest the boot ROM holds (R205); log entry 11. -/
opaque rootKey : List Byte

/-- The owner key that an owner certificate names (R205); log entry 11. -/
opaque ownerKeyOf : List Byte → List Byte

/-- A value that the spec leaves open, by the cycle in which it arises (log entry 19). -/
opaque freeWord : Nat → BitVec 64

/-- Flits that some bytes of a command take, less one: what else a flit's payload holds is not given (R391; log entry 98). -/
opaque flitsOf : Nat → BitVec 24

/-- First physical address of the attached second tier (R206; log entry 7). -/
def tierBase : Nat := 16 * stackBytes

/-- Busy cycles of the arithmetic pipe or replay engine, and of the memory pipe, of a strip, by its ordinal (R226); log
entry 17. -/
opaque arithBusy : Nat → BitVec 32
opaque memBusy : Nat → BitVec 32

/-- A byte of host memory as a request that arrives in a cycle finds it, and whether such a request completes with an error (R120);
log entry 25. -/
opaque hostByte : Nat → Nat → BitVec 8
opaque hostFails : Nat → Nat → Bool

/-- The most that the package draws, in watts (R8, R393). -/
def maxPower : Nat := 4500

/-- The package power in watts that HPST.PWR reports, by the millisecond that has passed (R384); log entry 17. -/
opaque packagePower : Nat → BitVec 16

end Sys2Proof.Config
end

