-- ==== Sys2Proof/Syntax.lean ====
section
/-!
DEFINITION. Syntax: every row of the opcode table as a constructor of Instr, with the fields the encoding gives it
(R234 to R242). The rows without an encoding are the steps of the other agents of the machine (spec file 95); their
constructors name what the step acts on.
-/
namespace Sys2Proof

/-- Element types of the T field, in the order of its codes 0 to 7 (R234). -/
inductive ElTy | b | h | w | d | e4 | bf | hf | sf
  deriving DecidableEq, Repr

/-- Access widths of the W field, codes 0 to 3 (R234). -/
inductive Wid | b | h | w | d
  deriving DecidableEq, Repr

/-- The fields of a form-V word after OP (R234, R295). -/
structure VArgs where
  d : BitVec 6
  a : BitVec 6
  b : BitVec 6
  m : BitVec 3
  s : Bool
  t : ElTy
  deriving DecidableEq, Repr

/-- The fields of a form-VF word after OP and FN (R234). -/
structure UArgs where
  d : BitVec 6
  a : BitVec 6
  m : BitVec 3
  t : ElTy
  deriving DecidableEq, Repr

/-- The fields of a form-M word (R279); in the segment forms `b` holds nf - 1. -/
structure MArgs where
  d : BitVec 6
  a : BitVec 6
  b : BitVec 6
  m : BitVec 3
  o : Bool
  k : Bool
  w : Wid
  deriving DecidableEq, Repr

/-- The fields of a form-M word whose B field must be zero. -/
structure M0Args where
  d : BitVec 6
  a : BitVec 6
  m : BitVec 3
  o : Bool
  k : Bool
  w : Wid
  deriving DecidableEq, Repr

/-- The fields of a form-MA word after OP and AOP (R294). -/
structure AArgs where
  d : BitVec 6
  a : BitVec 6
  b : BitVec 6
  m : BitVec 3
  w : Wid
  deriving DecidableEq, Repr

/-- A placement: section, unit (cluster 0-23, or 24 and 25 for the base cores of the section's stacks), core and
context (R9, R27). -/
structure Place where
  sect : Nat
  unit : Nat
  core : Nat
  ctx : Nat
  deriving DecidableEq, Repr

/-- One part of a remote push as it reaches the receiving engine: the keys of R221, the receiving partition, the
buffer handle, the range of offsets that the whole push writes and its number of parts, whether it publishes the buffer when it is complete
(R345), whether it carries no bytes and says only that the push has failed at its sender, or, with `false`, that a kill there has cancelled it
(R123; DESIGN CHOICE, log entry 110), and the runs of bytes by their offsets in the buffer. -/
structure RemotePart where
  src : Nat
  ch : Nat
  id : Nat
  part : Nat
  lo : Int
  hi : Int
  total : Nat
  pubc : Bool
  ends : Option Bool
  dom : Nat
  handle : Nat
  runs : List (Nat × List (BitVec 8))
  deriving DecidableEq, Repr

/-- One member's contribution to a collective (R351): group, instance tag, device index and the element bytes. -/
structure CollPart where
  grp : Nat
  seq : BitVec 64
  dev : Nat
  data : List (BitVec 8)
  deriving DecidableEq, Repr

/-- A barrier message between modules (R161): an arrival at an instance held here, or a completed generation; or threads of another module
that have arrived at a collective VFENCE of a node that spans modules, or will not arrive any more (R111; DEDUCED, log entry 130). -/
inductive BarMsg
  | arrival (launch : Nat) (bar : Nat) (node : Nat) (pts : Nat)
  | complete (launch : Nat) (bar : Nat) (node : Nat) (gen : BitVec 16) (ts : Nat)
  | epoch (launch : Nat) (key : Nat) (n : Nat)
  deriving DecidableEq, Repr

/-- A message that a port has accepted whole (R131, R161, R223, R351). -/
inductive LinkMsg
  | part (x : RemotePart)
  | contribution (x : CollPart)
  | barrier (x : BarMsg)
  deriving DecidableEq, Repr

/-- A flit at a receiver (R223, R391): port, sequence number, type, acknowledged sequence number, credits, whether its CRC
holds, whether it asks for a replay, the acknowledgment that it carries of a push's final SyncCount: the sender's command, its status and
the bytes written (R131, R346, R350), and the message whose last bytes it carries. -/
structure Flit where
  port : Nat
  seq : BitVec 24
  kind : BitVec 8
  ack : BitVec 24
  credits : BitVec 8
  crcOk : Bool
  again : Bool
  report : Option (Nat × Nat × Nat)
  msg : Option LinkMsg
  deriving DecidableEq, Repr

/-- What the resident kernel decides for a LOAD (R253, R255): its page-table stores, the physical page of each virtual page
the image needs, and the format windows it gives the image's requests. -/
structure LoadPlan where
  asid : Nat
  tables : List (Nat × BitVec 64)
  pages : List (Nat × Nat)
  windows : List Nat
  deriving DecidableEq, Repr

/-- The register spaces that agents outside the programs write: the package control space (R59, R101, R202, R209,
R213, R230), and BAR0 and BAR4 of the host link (R383, R384). -/
inductive Space | package | bar0 | bar4
  deriving DecidableEq, Repr

/-- The instructions and the steps of the machine: one constructor per row of the opcode table. The rows with no operands
stand last. -/
inductive Instr
  | add (d : BitVec 6) (a : BitVec 6) (b : BitVec 6)
  | sub (d : BitVec 6) (a : BitVec 6) (b : BitVec 6)
  | and (d : BitVec 6) (a : BitVec 6) (b : BitVec 6)
  | or (d : BitVec 6) (a : BitVec 6) (b : BitVec 6)
  | xor (d : BitVec 6) (a : BitVec 6) (b : BitVec 6)
  | andn (d : BitVec 6) (a : BitVec 6) (b : BitVec 6)
  | sll (d : BitVec 6) (a : BitVec 6) (b : BitVec 6)
  | srl (d : BitVec 6) (a : BitVec 6) (b : BitVec 6)
  | sra (d : BitVec 6) (a : BitVec 6) (b : BitVec 6)
  | mul (d : BitVec 6) (a : BitVec 6) (b : BitVec 6)
  | mulh (d : BitVec 6) (a : BitVec 6) (b : BitVec 6)
  | mulhu (d : BitVec 6) (a : BitVec 6) (b : BitVec 6)
  | div (d : BitVec 6) (a : BitVec 6) (b : BitVec 6)
  | divu (d : BitVec 6) (a : BitVec 6) (b : BitVec 6)
  | rem (d : BitVec 6) (a : BitVec 6) (b : BitVec 6)
  | remu (d : BitVec 6) (a : BitVec 6) (b : BitVec 6)
  | min (d : BitVec 6) (a : BitVec 6) (b : BitVec 6)
  | max (d : BitVec 6) (a : BitVec 6) (b : BitVec 6)
  | minu (d : BitVec 6) (a : BitVec 6) (b : BitVec 6)
  | maxu (d : BitVec 6) (a : BitVec 6) (b : BitVec 6)
  | slt (d : BitVec 6) (a : BitVec 6) (b : BitVec 6)
  | sltu (d : BitVec 6) (a : BitVec 6) (b : BitVec 6)
  | clz (d : BitVec 6) (a : BitVec 6)
  | popc (d : BitVec 6) (a : BitVec 6)
  | sext (d : BitVec 6) (a : BitVec 6) (w : BitVec 6)
  | zext (d : BitVec 6) (a : BitVec 6) (w : BitVec 6)
  | addi (d : BitVec 6) (a : BitVec 6) (i : BitVec 13)
  | andi (d : BitVec 6) (a : BitVec 6) (i : BitVec 13)
  | ori (d : BitVec 6) (a : BitVec 6) (i : BitVec 13)
  | xori (d : BitVec 6) (a : BitVec 6) (i : BitVec 13)
  | slli (d : BitVec 6) (a : BitVec 6) (s : BitVec 6)
  | srli (d : BitVec 6) (a : BitVec 6) (s : BitVec 6)
  | srai (d : BitVec 6) (a : BitVec 6) (s : BitVec 6)
  | slti (d : BitVec 6) (a : BitVec 6) (i : BitVec 13)
  | lih (d : BitVec 6) (i : BitVec 19)
  | addpc (d : BitVec 6) (i : BitVec 19)
  | lds (d : BitVec 6) (a : BitVec 6) (w : Wid) (o : BitVec 11)
  | ldz (d : BitVec 6) (a : BitVec 6) (w : Wid) (o : BitVec 11)
  | st (d : BitVec 6) (a : BitVec 6) (w : Wid) (o : BitVec 11)
  | jalr (d : BitVec 6) (a : BitVec 6) (i : BitVec 13)
  | beq (a : BitVec 6) (b : BitVec 6) (d : BitVec 13)
  | bne (a : BitVec 6) (b : BitVec 6) (d : BitVec 13)
  | blt (a : BitVec 6) (b : BitVec 6) (d : BitVec 13)
  | bge (a : BitVec 6) (b : BitVec 6) (d : BitVec 13)
  | bltu (a : BitVec 6) (b : BitVec 6) (d : BitVec 13)
  | bgeu (a : BitVec 6) (b : BitVec 6) (d : BitVec 13)
  | j (d : BitVec 25)
  | jal (d : BitVec 25)
  | trap (a : BitVec 6)
  | alloc (d : BitVec 6) (a : BitVec 6)
  | free (d : BitVec 6) (a : BitVec 6)
  | launch (d : BitVec 6) (a : BitVec 6)
  | deal (d : BitVec 6) (a : BitVec 6) (b : BitVec 6)
  | prio (a : BitVec 6)
  | srd (d : BitVec 6) (n : BitVec 12)
  | swr (a : BitVec 6) (n : BitVec 12)
  | frame (r : BitVec 6) (n : BitVec 6) (x : BitVec 4) (y : BitVec 4) (z : BitVec 4)
  | vconf (n : BitVec 2)
  | vsetl (d : BitVec 6) (a : BitVec 6) (b : BitVec 6) (w : Wid)
  | vld (x : M0Args)
  | vlds (x : MArgs)
  | vldx (x : MArgs)
  | vldseg (x : MArgs)
  | vldff (x : M0Args)
  | vldsc (d : BitVec 6) (a : BitVec 6)
  | vst (x : M0Args)
  | vsts (x : MArgs)
  | vstx (x : MArgs)
  | vstseg (x : MArgs)
  | vstreamBind (d : BitVec 6) (a : BitVec 6) (b : BitVec 6)
  | vstreamUnbind (d : BitVec 6)
  | vstreamRewind (d : BitVec 6)
  | vamoAdd (x : AArgs)
  | vamoMin (x : AArgs)
  | vamoMax (x : AArgs)
  | vamoFadd (x : AArgs)
  | amoAdd (d : BitVec 6) (a : BitVec 6) (b : BitVec 6)
  | amoAnd (d : BitVec 6) (a : BitVec 6) (b : BitVec 6)
  | amoOr (d : BitVec 6) (a : BitVec 6) (b : BitVec 6)
  | amoXor (d : BitVec 6) (a : BitVec 6) (b : BitVec 6)
  | amoMin (d : BitVec 6) (a : BitVec 6) (b : BitVec 6)
  | amoMax (d : BitVec 6) (a : BitVec 6) (b : BitVec 6)
  | amoMinu (d : BitVec 6) (a : BitVec 6) (b : BitVec 6)
  | amoMaxu (d : BitVec 6) (a : BitVec 6) (b : BitVec 6)
  | amoSwap (d : BitVec 6) (a : BitVec 6) (b : BitVec 6)
  | cas (d : BitVec 6) (a : BitVec 6) (b : BitVec 6)
  | lock (d : BitVec 6) (a : BitVec 6)
  | trylock (d : BitVec 6) (a : BitVec 6)
  | unlock (a : BitVec 6)
  | waitwEq (d : BitVec 6) (a : BitVec 6) (b : BitVec 6)
  | waitwNe (d : BitVec 6) (a : BitVec 6) (b : BitVec 6)
  | waitwLt (d : BitVec 6) (a : BitVec 6) (b : BitVec 6)
  | waitwGe (d : BitVec 6) (a : BitVec 6) (b : BitVec 6)
  | waitwLtu (d : BitVec 6) (a : BitVec 6) (b : BitVec 6)
  | waitwGeu (d : BitVec 6) (a : BitVec 6) (b : BitVec 6)
  | fence (f : Bool) (p : Bool) (v : Bool) (k : Bool) (e : Bool) (l : BitVec 3)
  | vfence (l : BitVec 3)
  | barArrive (n : BitVec 7)
  | barWait (n : BitVec 7)
  | barArrwait (n : BitVec 7)
  | post (k : BitVec 6) (a : BitVec 6)
  | waiti (k : BitVec 6) (a : BitVec 6)
  | waitv (d : BitVec 6) (k : BitVec 6) (b : BitVec 6)
  | cpy (d : BitVec 6) (a : BitVec 6) (b : BitVec 6)
  | cpyf (d : BitVec 6) (a : BitVec 6) (b : BitVec 6)
  | cptile (d : BitVec 6) (a : BitVec 6) (b : BitVec 6)
  | cprem (d : BitVec 6) (a : BitVec 6) (b : BitVec 6)
  | coll (d : BitVec 6) (a : BitVec 6) (b : BitVec 6)
  | publish (a : BitVec 6)
  | shadow (d : BitVec 6) (a : BitVec 6)
  | shadowRelease (d : BitVec 6) (b : BitVec 6)
  | syncw (a : BitVec 6) (b : BitVec 6)
  | cleanr (a : BitVec 6) (b : BitVec 6)
  | invalr (a : BitVec 6) (b : BitVec 6)
  | bankcmd (d : BitVec 6) (a : BitVec 6)
  | xfwait (a : BitVec 6) (b : BitVec 6)
  | syncwait (d : BitVec 6) (a : BitVec 6) (b : BitVec 6)
  | bankwait (d : BitVec 6) (a : BitVec 6)
  | pattach (z : BitVec 6)
  | pldaMem (f : BitVec 2) (a : BitVec 6) (b : BitVec 6) (k : BitVec 4)
  | pldaReg (f : BitVec 2) (a : BitVec 6) (k : BitVec 4)
  | pldbMem (f : BitVec 2) (a : BitVec 6) (b : BitVec 6) (k : BitVec 4)
  | pldbReg (f : BitVec 2) (a : BitVec 6) (k : BitVec 4)
  | pmma (c : BitVec 2) (a : BitVec 6) (k : BitVec 4)
  | pmmas (c : BitVec 2) (a : BitVec 6) (k : BitVec 4)
  | pzero (c : BitVec 2)
  | prdacc (c : BitVec 2) (d : BitVec 6) (b : BitVec 6)
  | pwracc (c : BitVec 2) (a : BitVec 6) (b : BitVec 6)
  | ppub (c : BitVec 2) (l : BitVec 6)
  | pfin (c : BitVec 2)
  | settle (l : BitVec 15)
  | lmark (a : BitVec 6) (d : BitVec 3)
  | lend (c : BitVec 6) (d : BitVec 13)
  | tkarm (d : BitVec 6) (a : BitVec 6) (b : BitVec 6)
  | tkdisarm (b : BitVec 6)
  | tkemit (a : BitVec 6) (b : BitVec 6)
  | tkemitDraft (a : BitVec 6) (b : BitVec 6)
  | tksync (d : BitVec 6)
  | tkconf (a : BitVec 6) (b : BitVec 6)
  | ptsDrift (c : Nat)
  | waitwRecheck (c : Nat)
  | savedWaiterWake (c : Nat)
  | launchAdmit (l : Nat)
  | threadCreate (l : Nat) (p : Place) (c : Nat)
  | timeSliceEnd (c : Nat)
  | preemption (c : Nat)
  | restore (c : Nat) (p : Place)
  | laneSliceEnd (c : Nat)
  | laneHandover (c : Nat)
  | laneGrantChange (k : Nat) (n : Nat)
  | trapDelivery (c : Nat)
  | eventRecordWrite (p : Nat)
  | barMarkerFire (c : Nat)
  | postMarkerFire (c : Nat)
  | detEpochDrain (l : Nat) (n : Nat)
  | chase (k : Nat) (n : Nat)
  | replayIteration (c : Nat) (e : Bool)
  | catchwordVerdict (u : Nat)
  | catchwordDraft (u : Nat)
  | catchwordArmWrite (u : Nat)
  | catchwordRecordTransfer (r : Nat) (u : Nat)
  | syncCount (n : Nat)
  | engineCommandComplete (n : Nat)
  | engineFaultPause (n : Nat)
  | remotePartReceive (x : RemotePart)
  | collContributionReceive (x : CollPart)
  | flitReceive (x : Flit)
  | linkRetrain (p : Nat) (ok : Bool) (acks : List (BitVec 24))
  | bankCommandComplete (n : Nat)
  | bankCommandPause (n : Nat) (r : Nat)
  | bankCommandContinue (n : Nat)
  | pinTimeoutAbort (p : Nat)
  | pressErrorRerun (c : Nat) (again : Bool)
  | linePoison (a : Nat)
  | lineEviction (a : Nat)
  | streamReadahead (c : Nat) (r : Nat)
  | checkpoint (c : Nat)
  | retiredCountStop (c : Nat)
  | kcmdResume (p c : Nat)
  | kcmdKill (p c : Nat)
  | kcmdSave (p c : Nat)
  | kcmdEngres (p c : Nat) (ch : Nat)
  | kcmdEngabt (p c : Nat) (ch : Nat)
  | tlbInvalidate (p : Nat) (v : BitVec 64)
  | tsdprePreset (p : Nat) (v : BitVec 64)
  | formatWindowEnable (n : Nat) (v : BitVec 64)
  | hostDoorbell (v : BitVec 64)
  | hostLoad (x : LoadPlan)
  | hostWindowWrite (a : Nat) (n : Nat) (v : BitVec 64)
  | hostWindowRead (a : Nat) (n : Nat)
  | partitionReset (p : Nat)
  | registerWrite (sp : Space) (a : Nat) (v : BitVec 64)
  | vectorInstructionComplete (c : Nat)
  | engineErrorRepair (n : Nat)
  | bankUnitError (n : Nat)
  | spineError (fatal : Bool)
  | contextStateError (c : Nat)
  | threadTableResSet (p c : Nat)
  | barrierArrivalDelivery (x : BarMsg)
  | vadd (x : VArgs)
  | vsub (x : VArgs)
  | vmul (x : VArgs)
  | vmulh (x : VArgs)
  | vmulhu (x : VArgs)
  | vmacc (x : VArgs)
  | vdiv (x : VArgs)
  | vrem (x : VArgs)
  | vmin (x : VArgs)
  | vmax (x : VArgs)
  | vminu (x : VArgs)
  | vmaxu (x : VArgs)
  | vand (x : VArgs)
  | vor (x : VArgs)
  | vxor (x : VArgs)
  | vsll (x : VArgs)
  | vsrl (x : VArgs)
  | vsra (x : VArgs)
  | vsadd (x : VArgs)
  | vssub (x : VArgs)
  | vaadd (x : VArgs)
  | vsmul (x : VArgs)
  | vwadd (x : VArgs)
  | vwaddu (x : VArgs)
  | vwmul (x : VArgs)
  | vwmulu (x : VArgs)
  | vwmacc (x : VArgs)
  | vwmaccu (x : VArgs)
  | vnclip (x : VArgs)
  | vnclipu (x : VArgs)
  | vfadd (x : VArgs)
  | vfsub (x : VArgs)
  | vfmul (x : VArgs)
  | vfdiv (x : VArgs)
  | vfma (x : VArgs)
  | vfnma (x : VArgs)
  | vfmin (x : VArgs)
  | vfmax (x : VArgs)
  | vfsgnj (x : VArgs)
  | vfsgnjn (x : VArgs)
  | vcmpeq (x : VArgs)
  | vcmpne (x : VArgs)
  | vcmplt (x : VArgs)
  | vcmpltu (x : VArgs)
  | vcmple (x : VArgs)
  | vcmpleu (x : VArgs)
  | vfcmpeq (x : VArgs)
  | vfcmplt (x : VArgs)
  | vfcmple (x : VArgs)
  | vfcmpun (x : VArgs)
  | vsel (x : VArgs)
  | vslideup (d : BitVec 6) (a : BitVec 6) (b : BitVec 6) (m : BitVec 3) (t : ElTy)
  | vslidedn (d : BitVec 6) (a : BitVec 6) (b : BitVec 6) (m : BitVec 3) (t : ElTy)
  | vgatherr (x : VArgs)
  | vmrgk (d : BitVec 6) (a : BitVec 6) (b : BitVec 6) (t : ElTy)
  | vmand (d : BitVec 6) (a : BitVec 6) (b : BitVec 6)
  | vmor (d : BitVec 6) (a : BitVec 6) (b : BitVec 6)
  | vmxor (d : BitVec 6) (a : BitVec 6) (b : BitVec 6)
  | vmandn (d : BitVec 6) (a : BitVec 6) (b : BitVec 6)
  | vmv (x : UArgs)
  | vsplat (x : UArgs)
  | vmvsx (x : UArgs)
  | vmvxs (d : BitVec 6) (a : BitVec 6) (t : ElTy)
  | vid (d : BitVec 6) (m : BitVec 3) (t : ElTy)
  | viota (x : UArgs)
  | vcompress (x : UArgs)
  | vneg (x : UArgs)
  | vabs (x : UArgs)
  | vnot (x : UArgs)
  | vfneg (x : UArgs)
  | vfabs (x : UArgs)
  | vfsqrt (x : UArgs)
  | vfrecip (x : UArgs)
  | vfexp2 (x : UArgs)
  | vfclass (x : UArgs)
  | vredsum (x : UArgs)
  | vredmin (x : UArgs)
  | vredmax (x : UArgs)
  | vredminu (x : UArgs)
  | vredmaxu (x : UArgs)
  | vredand (x : UArgs)
  | vredor (x : UArgs)
  | vredxor (x : UArgs)
  | vfredsum (x : UArgs)
  | vfredmin (x : UArgs)
  | vfredmax (x : UArgs)
  | vmpop (d : BitVec 6) (a : BitVec 6) (m : BitVec 3)
  | vmfirst (d : BitVec 6) (a : BitVec 6) (m : BitVec 3)
  | vmnot (d : BitVec 6) (a : BitVec 6) (m : BitVec 3)
  | vmbefore (d : BitVec 6) (a : BitVec 6) (m : BitVec 3)
  | vmincl (d : BitVec 6) (a : BitVec 6) (m : BitVec 3)
  | vsortk (x : UArgs)
  | vuniq (x : UArgs)
  | vtosf (x : UArgs)
  | vtobf (x : UArgs)
  | vtohf (x : UArgs)
  | vtoe4 (x : UArgs)
  | vtoe4s (x : UArgs)
  | vtoe5 (x : UArgs)
  | vtoe5s (x : UArgs)
  | vtof4 (x : UArgs)
  | vfromf4 (x : UArgs)
  | vtoinr (x : UArgs)
  | vtoinz (x : UArgs)
  | vintof (x : UArgs)
  | vwiden (x : UArgs)
  | vwidenu (x : UArgs)
  | nop
  | yield
  | exit
  | brk
  | vrel
  | pdetach
  | mailboxExtend
  | mailboxQuote
  | mailboxDevcert
  | hostSubmit
  | hostKill
  | hostQuote
  | hostEventWrite
  | powerStateEntry
  | powerWake
  | packageBoot
  deriving DecidableEq, Repr

/-- Whether a constructor is a step of another agent, which no word encodes. -/
def Instr.isEvent : Instr → Bool
  | .ptsDrift _ => true
  | .waitwRecheck _ => true
  | .savedWaiterWake _ => true
  | .launchAdmit _ => true
  | .threadCreate _ _ _ => true
  | .timeSliceEnd _ => true
  | .preemption _ => true
  | .restore _ _ => true
  | .laneSliceEnd _ => true
  | .laneHandover _ => true
  | .laneGrantChange _ _ => true
  | .trapDelivery _ => true
  | .eventRecordWrite _ => true
  | .barMarkerFire _ => true
  | .postMarkerFire _ => true
  | .detEpochDrain _ _ => true
  | .chase _ _ => true
  | .replayIteration _ _ => true
  | .catchwordVerdict _ => true
  | .catchwordDraft _ => true
  | .catchwordArmWrite _ => true
  | .catchwordRecordTransfer _ _ => true
  | .syncCount _ => true
  | .engineCommandComplete _ => true
  | .engineFaultPause _ => true
  | .remotePartReceive _ => true
  | .collContributionReceive _ => true
  | .flitReceive _ => true
  | .linkRetrain _ _ _ => true
  | .bankCommandComplete _ => true
  | .bankCommandPause _ _ => true
  | .bankCommandContinue _ => true
  | .pinTimeoutAbort _ => true
  | .pressErrorRerun _ _ => true
  | .linePoison _ => true
  | .lineEviction _ => true
  | .streamReadahead _ _ => true
  | .checkpoint _ => true
  | .retiredCountStop _ => true
  | .kcmdResume _ _ => true
  | .kcmdKill _ _ => true
  | .kcmdSave _ _ => true
  | .kcmdEngres _ _ _ => true
  | .kcmdEngabt _ _ _ => true
  | .tlbInvalidate _ _ => true
  | .tsdprePreset _ _ => true
  | .formatWindowEnable _ _ => true
  | .mailboxExtend => true
  | .mailboxQuote => true
  | .mailboxDevcert => true
  | .hostDoorbell _ => true
  | .hostLoad _ => true
  | .hostSubmit => true
  | .hostKill => true
  | .hostQuote => true
  | .hostEventWrite => true
  | .hostWindowWrite _ _ _ => true
  | .hostWindowRead _ _ => true
  | .powerStateEntry => true
  | .powerWake => true
  | .packageBoot => true
  | .partitionReset _ => true
  | .registerWrite _ _ _ => true
  | .vectorInstructionComplete _ => true
  | .engineErrorRepair _ => true
  | .bankUnitError _ => true
  | .spineError _ => true
  | .contextStateError _ => true
  | .threadTableResSet _ _ => true
  | .barrierArrivalDelivery _ => true
  | _ => false

end Sys2Proof
end

