-- ==== Sys2Proof/Machine/Queue.lean ====
section
/-!
DEFINITION. Queue: what stands in the vector instruction queue (R29): the operation of an entry and the operands captured with
it.
-/
namespace Sys2Proof.Machine

/-- Integer, saturating and fixed-point majors (R299, R300). -/
inductive VInt
  | add | sub | mul | mulh | mulhu | macc | div | rem | min | max | minu | maxu | and | or | xor | sll | srl | sra
  | sadd | ssub | aadd | smul
  deriving DecidableEq, Repr

/-- Widening majors (R301). -/
inductive VWide | add | addu | mul | mulu | macc | maccu
  deriving DecidableEq, Repr

/-- Floating-point majors (R302). -/
inductive VFp | add | sub | mul | div | ma | nma | min | max | sgnj | sgnjn
  deriving DecidableEq, Repr

/-- Compares (R303). -/
inductive VCmp | eq | ne | lt | ltu | le | leu | feq | flt | fle | fun_
  deriving DecidableEq, Repr

/-- Mask logic (R308). -/
inductive MLog | and | or | xor | andn
  deriving DecidableEq, Repr

/-- Element-wise VUNARY functions of one vector source (R309). -/
inductive VOne | mv | neg | abs | not | fneg | fabs | fsqrt | frecip | fexp2 | fclass
  deriving DecidableEq, Repr

/-- Reductions (R312). -/
inductive VRed | sum | min | max | minu | maxu | and | or | xor | fsum | fmin | fmax
  deriving DecidableEq, Repr

/-- Conversions, functions 34 to 47 (R51, R315). -/
inductive VCvt | sf | bf | hf | e4 | e4s | e5 | e5s | f4 | fromf4 | inr | inz | intof | widen | widenu
  deriving DecidableEq, Repr

/-- Mask partitions (R313). -/
inductive MPart | before | incl
  deriving DecidableEq, Repr

/-- Load and store forms (R279). -/
inductive VMemOp | ld | lds | ldx | ldseg | ldff | ldsc | st | sts | stx | stseg
  deriving DecidableEq, Repr

/-- Operations of VAMO (R294). -/
inductive VAmoOp | add | min | max | fadd
  deriving DecidableEq, Repr

/-- The operation of a queue entry: a vector, vector memory, press or token instruction, a VSETL marker, or a barrier or ring
marker (R29, R160, R162). -/
inductive QOp
  | int (f : VInt) (m : BitVec 3) (s : Bool) (t : ElTy)
  | wide (f : VWide) (m : BitVec 3) (s : Bool) (t : ElTy)
  | nclip (signed : Bool) (m : BitVec 3) (s : Bool) (t : ElTy)
  | fp (f : VFp) (m : BitVec 3) (s : Bool) (t : ElTy)
  | cmp (f : VCmp) (m : BitVec 3) (s : Bool) (t : ElTy)
  | sel (m : BitVec 3) (s : Bool) (t : ElTy)
  | slide (up : Bool) (m : BitVec 3) (t : ElTy)
  | gather (m : BitVec 3) (s : Bool) (t : ElTy)
  | merge (t : ElTy)
  | mlog (f : MLog)
  | one (f : VOne) (m : BitVec 3) (t : ElTy)
  | splat (m : BitVec 3) (t : ElTy)
  | mvsx (m : BitVec 3) (t : ElTy)
  | mvxs (t : ElTy)
  | vid (m : BitVec 3) (t : ElTy)
  | iota (m : BitVec 3) (t : ElTy)
  | compress (m : BitVec 3) (t : ElTy)
  | red (f : VRed) (m : BitVec 3) (t : ElTy)
  | mpop (m : BitVec 3)
  | mfirst (m : BitVec 3)
  | mnot (m : BitVec 3)
  | mpart (f : MPart) (m : BitVec 3)
  | sortk (m : BitVec 3) (t : ElTy)
  | uniq (m : BitVec 3) (t : ElTy)
  | cvt (f : VCvt) (m : BitVec 3) (t : ElTy)
  | mem (f : VMemOp) (m : BitVec 3) (o : Bool) (k : Bool) (w : Wid)
  | amo (f : VAmoOp) (m : BitVec 3) (w : Wid)
  | setvl (vl : Nat) (sew : BitVec 2)
  | bar (n : Nat)
  | post (k : Nat) (it : Nat)
  | attach (rows : Nat)
  | detach
  | pload (isB : Bool) (reg : Bool) (fmt : Nat) (k : Nat)
  | pmma (scaled : Bool) (c : Nat) (koff : Nat) (k : Nat)
  | pzero (c : Nat)
  | prdacc (c : Nat)
  | pwracc (c : Nat)
  | ppub (c : Nat) (ln : Nat)
  | pfin (c : Nat)
  | tkarm
  | tkdisarm
  | tkemit (draft : Bool)
  | tkconf
  /-- A reserved word of a family that the queue takes; it traps at the commit pointer (R297, R319, R362; log entry 83). -/
  | reserved
  deriving DecidableEq, Repr

/-- A queue entry: the address of its instruction and its word (with the register numbers of a FRAME's copy), the operation, the register numbers (stepped by FRAME where it issued the
copy, so possibly above 63), the captured scalars and modes (R20, R29), the progress index (R33), and what a load that
stopped midway keeps: the index operands of an indexed one, which R282 reads before any destination element is written, or the format and block size
of the line that holds byte 0 of a VLDSC (R285). `upto` is where an entry that performs
ahead of its turn stops: the elements whose sources are there (R33). -/
structure QEntry where
  pc : Word
  word : BitVec 32
  op : QOp
  d : Nat
  a : Nat
  b : Nat
  xa : Word
  xb : Word
  rmode : BitVec 2
  vmpol : BitVec 3
  nanz : Bool
  prog : Nat
  upto : Option Nat
  hold : List Nat
  deriving DecidableEq, Repr

end Sys2Proof.Machine
end

