-- ==== Sys2Proof/Machine/State.lean ====
section
/-!
DEFINITION. State: every piece of state the manual gives the machine, as plain data, the outcomes that are no next state,
and the machine right after reset.
-/
namespace Sys2Proof.Machine

/-- Bytes by address, rising, without the value an unlisted address reads as. -/
abbrev Mem := List Host.Cell

/-- A table by number, rising. -/
abbrev Tab (α : Type) := List (Nat × α)

/-- What an unlisted byte of memory reads as (log entries 1 and 2). -/
def unlistedByte : Byte := 0

/-- The canonical form of a memory: addresses strictly rising, and no entry equal to what an unlisted address reads as. -/
abbrev Mem.wf (m : Mem) : Prop := m.Pairwise (fun p q => p.1 < q.1) ∧ ∀ c ∈ m, c.2 ≠ unlistedByte

/-! ### Traps, waits and the thread -/

/-- A raised trap: CAUSE.VS, CODE, DETAIL, EPC, BADVA and where RESUME continues (R26, R210). -/
structure Trap where
  vs : Bool
  code : BitVec 8
  detail : BitVec 8
  epc : Word
  badva : Word
  resume : Word
  deriving DecidableEq, Repr

/-- Thread-table STATE (R220). -/
inductive TState | free | running | saved | savedWaiting | suspended
  deriving DecidableEq, Repr

/-- The conditions of WAITW (R338), and the generation of a sync word (R124). -/
inductive WCond | eq | ne | lt | ge | ltu | geu | gen
  deriving DecidableEq, Repr

/-- What a waiting or stalled instruction waits on, kept with the thread while it is saved (R159). -/
inductive Watch
  /-- An interlock: the instruction is tried again from the start. It is no waiting instruction. -/
  | again
  /-- A word in memory: the register for its value, its address, the name of its place at the last check, the condition and its operand, and
  the count of the line's stores at that check (R98, R202). -/
  | word (d : Nat) (va : Word) (key : Nat) (c : WCond) (y : Word) (ver : Nat)
  /-- Queued at a lock word, by its name; the result once the lock is handed over (R156). -/
  | lock (key : Nat) (got : Option Word)
  /-- A generation of a named barrier; for BAR.ARRWAIT the arrival stands pushed (R160). -/
  | bar (b : Nat)
  /-- The wait at LEND for a replay (R170). -/
  | replay
  /-- Wait entries armed by WAITI or WAITV for iterations of a ring channel (R163). -/
  | ring (chan : Nat) (n : Nat) (its : List Nat)
  /-- A free wait entry of the core (R163). -/
  | entry
  /-- Arrived at a collective VFENCE; whether its drain has performed (R111). -/
  | epoch (level : Nat) (done : Bool)
  /-- A fence, with the kinds engine and bank that it waits for (R108). -/
  | fence (eng : Bool) (bank : Bool)
  /-- A transfer ID of a channel (R126). -/
  | xfer (ch : Nat) (id : Word)
  /-- Bank commands up to a tag (R358). -/
  | banks (tag : Word)
  /-- The verdicts of the older TOKEN instructions (R189, R274). -/
  | tokens
  /-- Issued an UNBIND or REWIND of a gang stream, named by its descriptor address and mask (R292); whether the whole gang has. -/
  | gang (rewind : Bool) (desc : Word) (mask : BitVec 4) (done : Bool)
  /-- The PATTACH pushed has not yet written PGRANT (R320). -/
  | attach
  /-- The entry at the head of the queue waits for a lineage to settle (R74, R76). -/
  | lineage
  deriving DecidableEq, Repr

/-- Placement and identity (R27, R19): TID, the launch, and the thread's place in the work tree as its dispatcher knows it. -/
structure Ident where
  ctxid : Nat
  launch : Nat
  stage : Nat
  lthr : Nat
  place : Place
  lv : List (BitVec 32)
  deriving DecidableEq, Repr

/-- The system registers of R19 that a thread holds in one place; TID and CYCLE are computed. -/
structure Sys where
  vlg : BitVec 14
  nvreg : BitVec 7
  sewc : BitVec 2
  rmode : BitVec 2
  vstat : BitVec 8
  fstat : BitVec 16
  pts : Nat
  lease : BitVec 8
  vmpol : BitVec 3
  pgrant : BitVec 8
  pnan : BitVec 64
  nanz : Bool
  lnact : BitVec 16
  lstate : BitVec 4
  lwhy : BitVec 8
  lhand : BitVec 32
  xfd : Vector (BitVec 64) 8
  tknote : BitVec 64
  tkseqb : BitVec 64
  cause : BitVec 64
  epc : BitVec 64
  badva : BitVec 64
  stripc : BitVec 64
  bprio : BitVec 4
  eprio : BitVec 4
  drift : BitVec 16
  lv : Vector (BitVec 32) 8
  deriving DecidableEq, Repr

/-- The register directory entry of a vector register (R33, R72, R217, R219). `log` is the log entry that last wrote the
register plus 1, or 0 for a root of the lineage. -/
structure VReg where
  valid : Nat
  prog : Nat
  dirty : Bool
  tag : Nat
  log : Nat
  deriving DecidableEq, Repr

/-- Where the correction of a provisional element comes from: nowhere (settled), an element of delta-C of the published
accumulator, or an element that a log entry defines (R72, R73). -/
inductive DSrc
  | zero
  | root (idx : Nat)
  | entry (n : Nat) (elem : Nat)
  deriving DecidableEq, Repr

/-- The correction of an element as its log entry defines it (R73); settled operands stand as codes. -/
inductive DOp
  | copy (x : DSrc)
  /-- Bytes moved from the corrections of other elements, by elements narrower than 32 bits: from byte 0 up, an element and the byte of its
  correction. -/
  | pack (parts : List (DSrc × Nat))
  | neg (x : DSrc)
  | add (x : DSrc) (y : DSrc)
  | sub (x : DSrc) (y : DSrc)
  | mul (x : DSrc) (b : BitVec 32)
  | fma (neg : Bool) (x : DSrc) (b : BitVec 32) (y : DSrc)
  /-- The contraction of provisional A elements with elements of B, group by group, added to an earlier correction: whether block and band
  scales apply, the format code of B and whether B was loaded from memory, and for each product the element of A, and of B its code, block
  scale and band scale. -/
  | mma (x : DSrc) (scaled : Bool) (tb : Nat) (bMem : Bool) (groups : List (List (DSrc × BitVec 32 × BitVec 8 × BitVec 16)))
  deriving DecidableEq, Repr

/-- A log entry: the address and word of its instruction, its captured scalar operands, the elements it defines and the settled registers it
holds (R73, R74). -/
structure LogEntry where
  pc : Word
  word : BitVec 32
  xa : Word
  xb : Word
  defs : List (Nat × DOp)
  held : List Nat
  deriving DecidableEq, Repr

/-- A lineage of a core: its owner, the accumulator it was published from, its log, and delta-C once PFIN delivered it
(R16, R70, R75, R380). -/
structure Lineage where
  owner : Nat
  acc : Nat
  log : List LogEntry
  delta : Option (List (BitVec 32))
  deriving DecidableEq, Repr

/-- A bound stream (R287 to R292): its registers, descriptor, gang mask, the strips popped so far (0: the first strip is next),
the bytes of the strips read ahead, and a fault met in reading ahead. `stale` holds the lines of which the cluster L2 had a copy at the
binding or the latest rewind and that no strip has read since (R129). -/
structure Stream where
  reg : Nat
  nb : Nat
  desc : Word
  base : Word
  str : List (BitVec 64)
  cnt : List Nat
  slen : Nat
  w : Wid
  mask : BitVec 4
  popped : Nat
  ready : List (List Byte)
  err : Option (BitVec 8 × BitVec 8 × Word)
  stale : List Nat
  deriving DecidableEq, Repr

/-- The frame buffer: the FRAME's address and the next copy (R278). -/
structure FrameBuf where
  pc : Word
  r : Nat
  j : Nat
  deriving DecidableEq, Repr

/-- The vector state of a context. -/
structure Vec where
  vrf : Mem
  masks : Vector (BitVec 8192) 8
  regs : Tab VReg
  src : List (Nat × Nat × DSrc)
  queue : List QEntry
  streams : List Stream
  frame : Option FrameBuf
  deriving DecidableEq, Repr

/-- An operand element of the press: its code, block scale and band scale, and its correction where provisional (R317). -/
structure PElem where
  code : BitVec 32
  scale : BitVec 8
  band : BitVec 16
  src : DSrc
  deriving DecidableEq, Repr

/-- An accumulator: row-major values (absent ones are +0), its open flag, its lineage, the correction accumulator while open,
and the corrections it carries from PWRACC or PMMA (R317, R70, R73). -/
structure Acc where
  vals : List (BitVec 32)
  isOpen : Bool
  lin : Nat
  corr : List (BitVec 32)
  src : List (Nat × DSrc)
  deriving DecidableEq, Repr

/-- The press share of a context (R317). It stays with the press while the context is saved (R78). `aPart` holds the rows that a
load of A stopped midway has read (R323). -/
structure Share where
  rows : Nat
  ka : Nat
  ta : Nat
  aMem : Bool
  aBuf : List PElem
  aPart : List PElem
  aLin : Nat
  acc : Vector Acc 4
  deriving DecidableEq, Repr

/-- A traced instruction of a demonstrated iteration (R168): its word and scalar operands, the entry it pushed with the vector registers
that it names and those that it writes, the fields of a VSETL (destination, AVL, cap, width), and those of an induction step (register, and
the increment's register or value). -/
structure Traced where
  word : BitVec 32
  xa : Word
  xb : Word
  entry : Option QEntry
  regs : List Nat
  dsts : List Nat
  vset : Option (Nat × Nat × Nat × Wid)
  ind : Option (Nat × Option Nat × Word)
  deriving DecidableEq, Repr

/-- A marked loop instance (R166 to R176): the count register, the LMARK's address, D, N, the iteration under way, the trace of
iteration 0 and of this iteration, the base addresses of the vector memory instructions in iterations 0 and 1, and, from the
confirmation on, the next iteration, the lane grant, the replay timestamp, the flags raised by the replay, the collator's copies of
the registers as the committed iterations left them, and the outcome (LSTAT's STATE and WHY) that has yet to reach the thread. `slot` is the
collator (section and slice) that holds the loop. -/
structure Loop where
  reg : Nat
  pc : Word
  d : Nat
  n : Nat
  it : Nat
  first : List Traced
  trace : List Traced
  base0 : List Word
  base1 : List Word
  slot : Nat
  next : Nat
  lanes : Nat
  rts : Nat
  flags : BitVec 8
  g : Vector Word 32
  vec : Vec
  sys : Sys
  out : Option (BitVec 4 × BitVec 8)
  deriving DecidableEq, Repr

/-- What an invalidation needs to know of the translation that an access used: whether a 512 MiB page mapped it, and whether its entry has G set
(R193, R202). -/
structure PageTag where
  big : Bool
  glob : Bool
  deriving DecidableEq, Repr

/-- A buffered store of a DET thread (R110, R218), or a store of the iteration that a replay runs (R171): virtual address, physical or window
address, the page that translated it, whether it performs at the cluster L2 and under which vector cache policy (R22, R36), bytes. -/
structure DetStore where
  va : Word
  pa : Nat
  loc : Bool
  page : PageTag
  vec : Bool
  pol : BitVec 3
  data : List Byte
  deriving DecidableEq, Repr

/-- The token bookkeeping of a thread (R189, R190): the records of the latest TKEMIT by address, the records with an action applied and
the ones stopped since the last TKSYNC (a stopped one with its sequence number first), the lines of headers and input buffers that those
verdicts wrote, and their largest timestamp. -/
structure Token where
  last : List Word
  acted : List Word
  stopped : List (Nat × Word)
  lines : List Nat
  ts : Nat
  deriving DecidableEq, Repr

/-- An open strip (R226): whether a replay runs it, address of its VSETL, ordinal, granted length and the cycle of its opening. -/
structure Strip where
  rp : Bool
  va : Word
  ord : Word
  gl : Nat
  at_ : Nat
  deriving DecidableEq, Repr

/-- A thread's latest arrival at a named barrier: the instance's node, the generation it arrived in, and the firing timestamp once that
generation has completed (R160). -/
structure Arrival where
  node : Nat
  gen : BitVec 16
  fired : Option Nat
  deriving DecidableEq, Repr

/-- A thread, or a free hardware context. `pass` says that a stop has been taken at the present instruction and is not taken
again (R210, codes 0x06 with DETAIL 1 and 2); `stopDue` that a replay ran past the strip to stop at (R227); `snap` and `snapLoc` are the
memory and local store that a DET thread's loads see (R110). `ir` is the word that the thread executes, which a queue entry keeps (R217).
`turn` is the round of its rotation in which the thread has its next slice, or has it, and `turnAt` the cycle at which it came into that round (R153);
`sliceAt` is the cycle at which the slice of a resident thread began, and `sliceUsed` what a pre-empted one has had of it.
`raised` is the priority inherited from lock waiters since the thread's latest UNLOCK (R157). `path` holds the values of the path digest, and
`orig` those of the run that a reverse step replays (R229). `ptsSaved` is PTS as the save image has held it since the hardware last wrote it
(R19), and `ptsOwed` the offsets of presets that the image has still to take while it is paged out (R374). -/
structure Thread where
  id : Ident
  ir : BitVec 32
  raised : BitVec 4
  st : TState
  g : Vector Word 32
  pc : Word
  resume : Word
  sys : Sys
  vec : Vec
  share : Option Share
  nextId : Vector Nat 8
  nextTag : Nat
  wait : Option Watch
  stalled : Bool
  trap : Option Trap
  retired : Nat
  driftAt : Nat
  sliceAt : Nat
  sliceUsed : Nat
  turn : Nat
  turnAt : Nat
  saveRebases : Nat
  ptsSaved : Nat
  ptsOwed : Nat
  loop : Option Loop
  arrivals : Tab Arrival
  det : List DetStore
  snap : Mem
  snapLoc : Mem
  pass : Bool
  stopDue : Bool
  tok : Token
  strip : Option Strip
  path : List Word
  orig : Option (List Word)
  deriving DecidableEq, Repr

/-! ### The rest of the package -/

/-- A scaled line's metadata (R39, R61): its format, block scales and band scale. -/
structure Scales where
  fmt : BitVec 4
  scales : List (BitVec 8)
  band : BitVec 16
  deriving DecidableEq, Repr

/-- A line at its home slice or exclusive owner (R92): timestamps, the owning cluster L2, and how it stands between the caches
and DRAM. `under` is what DRAM holds where that differs from the coherent value (R134). `ver` counts its stores. -/
structure Line where
  wts : Nat
  rts : Nat
  owner : Option Nat
  cached : Bool
  dirty : Bool
  poison : Bool
  under : Option LineData
  scales : Option Scales
  ver : Nat
  deriving DecidableEq, Repr

/-- A private copy (R92, R95): in the scalar L1 of a core or in the L2 of a cluster, with the metadata of a scaled line that came with
it (R61). -/
structure Copy where
  l1 : Bool
  home : Nat
  line : Nat
  data : LineData
  wts : Nat
  rts : Nat
  scales : Option Scales
  deriving DecidableEq, Repr

/-- A gathered line (R105): the base, stride and element size of the strided load that made it, the bytes it holds, by physical address,
and its timestamps. -/
structure Gathered where
  cluster : Nat
  base : Word
  stride : Word
  size : Nat
  bytes : Mem
  wts : Nat
  rts : Nat
  deriving DecidableEq, Repr

/-- A cached table pointer of a section's walk cache (R201): the partition, ASID and level (0: the top-level entry, 1: the middle-level
entry), the index bits that lead to it, and the entry. -/
structure WalkPtr where
  sect : Nat
  part : Nat
  asid : Nat
  level : Nat
  index : Nat
  entry : Word
  deriving DecidableEq, Repr

/-- A TLB entry (R193, R201): in the L1 TLB of a core or in the L2 TLB of a cluster. -/
structure Tlb where
  cluster : Nat
  core : Option Nat
  part : Nat
  asid : Nat
  vpage : Nat
  big : Bool
  entry : Word
  deriving DecidableEq, Repr

/-- A core: the lanes, the contexts stalled for them, the contexts whose lanes are lent, first lent first (R155), the lane grant, the lineages and the
instruction cache lines. -/
structure Core where
  holder : Option Nat
  lenders : List Nat
  waiters : List Nat
  since : Nat
  grant : Nat
  lins : Tab Lineage
  icache : Tab LineData
  deriving DecidableEq, Repr

/-- A cluster: the press's B buffer (R317), the columns that a load of B stopped midway has read and the context that loads them
(R323, R325), and whether its L1s are fused (R40). -/
structure Cluster where
  kb : Nat
  tb : Nat
  bMem : Bool
  bBuf : List PElem
  bPart : List PElem
  loader : Option Nat
  fused : Bool
  deriving DecidableEq, Repr

/-- Level, stage, queue and barrier descriptors of a launch record (R141, R143, R144, R146). -/
structure Level where
  count : Nat
  fuse : Bool
  dom : Nat
  msc : Nat
  deriving DecidableEq, Repr

structure Stage where
  entry : Word
  topc : Nat
  maxctx : Nat
  minctx : Nat
  deriving DecidableEq, Repr

structure QDesc where
  base : Word
  cons : Nat
  prod : Nat
  isz : Nat
  capm1 : Nat
  deriving DecidableEq, Repr

structure BarEntry where
  stg : Nat
  lvl : Nat
  pcnt : Nat
  deriving DecidableEq, Repr

/-- A launch record as read (R140). -/
structure LaunchRec where
  prio : Nat
  ring : Bool
  det : Bool
  lsg : Nat
  argp : Word
  heapb : Word
  heapsz : Nat
  stkb : Word
  stksz : Nat
  donep : Word
  levels : List Level
  stages : List Stage
  queues : List QDesc
  bars : List BarEntry
  deriving DecidableEq, Repr

/-- A barrier instance (R160): arrivals of the current generation, the generation, and the firing timestamp of the latest
completed one. `maxPts` is the largest PTS among the arrivals so far. -/
structure BarInst where
  count : Nat
  gen : BitVec 16
  ts : Nat
  maxPts : Nat
  deriving DecidableEq, Repr

/-- A ring channel (R162). -/
structure Ring where
  frontier : Nat
  posted : List Nat
  ts : Nat
  deriving DecidableEq, Repr

/-- A live heap allocation (R369): first byte, granted bytes, requesting thread. -/
structure Alloc where
  addr : Nat
  size : Nat
  owner : Nat
  deriving DecidableEq, Repr

/-- A launch. `num` is its number among the launches of its partition in the pass of a profiling replay (R229). `made` and `ended` count
threads by stage; `stood` lists the clusters where a thread of it has stood, on which its local store is set aside (R148). Barrier instances are keyed by barrier and node, ring channels by section
and channel, local stores by cluster, collective fence arrivals by level and node; `dead` lists the threads killed, by stage and
LTHR; `snap` is the memory a DET launch started from; `left` keeps what ended threads of a DET launch still had buffered, by stage and LTHR;
`away` counts the threads of other modules that have arrived at a collective fence, by the fence's key (R111).
`locTs` holds the timestamps at which sync words in the local store published (R122), by cluster and 16-byte granule. -/
structure Launch where
  id : Nat
  host : Option Nat
  part : Nat
  asid : Nat
  lrec : LaunchRec
  ts : Nat
  order : Nat
  num : Nat
  stood : List Nat
  admitted : Bool
  killed : Bool
  finished : Bool
  made : List Nat
  ended : List Nat
  finalPts : Nat
  bars : Tab BarInst
  rings : Tab Ring
  allocs : List Alloc
  stores : Tab Mem
  locTs : Tab Nat
  arrived : Tab (List Nat)
  away : Tab Nat
  dead : List (Nat × Nat)
  snap : Mem
  left : Tab (List DetStore)
  deriving DecidableEq, Repr

/-- A line of a shadow copy (R115, R222): its bytes, its written bit, the command that last wrote it, and whether it holds bytes of a
poisoned line (R204). -/
structure ShLine where
  data : LineData
  written : Bool
  writer : Nat
  poison : Bool
  deriving DecidableEq, Repr

/-- A shadowed buffer (R113, R352). The pages are the physical pages behind the two backings at the declaration. -/
structure Shadow where
  handle : Nat
  part : Nat
  asid : Nat
  vbase : Nat
  sbase : Nat
  size : Nat
  sync : Word
  remote : Bool
  vpages : List Nat
  spages : List Nat
  lines : Tab ShLine
  deriving DecidableEq, Repr

/-- The copy functions (R344). -/
inductive EngFn | cpy | cpyf | cptile | cprem | coll
  deriving DecidableEq, Repr

/-- A copy descriptor as read (R345). -/
structure CopyDesc where
  src : Word
  dst : Word
  sync : Word
  crec : Word
  cnt0 : Nat
  cnt1 : Nat
  cnt2 : Nat
  conv : Nat
  rlay : Nat
  esz : Nat
  pubc : Bool
  rsv : Bool
  ss : List Word
  ds : List Word
  fa : List Word
  deriving DecidableEq, Repr

/-- An engine command (R125, R344): who issued it, its descriptor, the parts counted, its result once every contribution to a
collective is there, the destination bytes written (for a push to another module, handed to the link), the source lines read so far (R127), whether the bytes of the part under way are written
and only their count is left, the fault it pauses at, its status once decided, whether all but the completion record of its end is done
(R222), and whether it has ended. -/
structure Cmd where
  key : Nat
  owner : Nat
  launch : Nat
  cluster : Nat
  pc : Word
  ch : Nat
  id : Nat
  fn : EngFn
  desc : CopyDesc
  pts : Nat
  lease : Nat
  parts : Nat
  bytes : Nat
  read : Tab LineData
  wrote : Bool
  result : Option (List Byte)
  flags : BitVec 8
  paused : Option (BitVec 8 × BitVec 8 × Word)
  status : Nat
  settled : Bool
  dev : Nat
  acked : Bool
  ended : Bool
  pubTs : Nat
  deriving DecidableEq, Repr

/-- A bank descriptor as read (R356). -/
structure BankDesc where
  w : Word
  x : Word
  y : Word
  crec : Word
  rows : Nat
  k : Nat
  seg : Nat
  mode : Nat
  pitch : Nat
  scl : Word
  bnd : Word
  rstart : Nat
  rsv : Bool
  deriving DecidableEq, Repr

/-- A pinned page (R137, R203): the 64 KiB pieces of virtual and physical memory, and the page that maps them. -/
structure Pin where
  va : Nat
  pa : Nat
  page : PageTag
  deriving DecidableEq, Repr

/-- A bank command (R137, R138): the translations it pinned, its resume index, whether it is paused, and how it ended. -/
structure BankCmd where
  key : Nat
  owner : Nat
  launch : Nat
  part : Nat
  asid : Nat
  pc : Word
  tag : Nat
  desc : BankDesc
  pins : List Pin
  resume : Nat
  paused : Bool
  flags : BitVec 8
  status : Nat
  ended : Bool
  deriving DecidableEq, Repr

/-- What is sent to a catchword unit (R362, R364): an entry image with its selector, a disarm, a token or a confirmation. -/
inductive TwOp
  | arm (w : Nat) (img : List Byte)
  | disarm (w : Nat)
  | token (draft : Bool) (tok : BitVec 24)
  | conf (n : Nat)
  deriving DecidableEq, Repr

/-- A send, in the memory order of the sends (R381): the unit's section, the issuing context, whether that thread still lives (R191), and
its launch, its table base, the sequence, the physical address of the record, the page that translated it, the context's PTS, and what is sent. -/
structure TwSend where
  sect : Nat
  owner : Nat
  live : Bool
  launch : Nat
  base : Word
  seq : Nat
  pa : Nat
  page : PageTag
  pts : Nat
  op : TwOp
  deriving DecidableEq, Repr

/-- A held draft with its pending hits, as the draft area of a record holds it (R179, R187). -/
structure Draft where
  tok : BitVec 24
  pend : BitVec 16
  deriving DecidableEq, Repr

/-- An event record (R214). -/
structure EvRec where
  type : Nat
  ctxid : Nat
  cause : Word
  epc : Word
  badva : Word
  id : Nat
  ch : Nat
  cycle : Nat
  deriving DecidableEq, Repr

/-- An event of the host's ring (R387). -/
structure HostEv where
  type : Nat
  part : Nat
  status : Nat
  tag : Nat
  note : Word
  tbase : Word
  ctx : Nat
  deriving DecidableEq, Repr

/-- A loaded image (R388): identifier, partition, ASID, the address of its entry record, the physical pages it was loaded into, and the virtual
pages that the load mapped. -/
structure Image where
  id : Nat
  part : Nat
  asid : Nat
  entry : Word
  pages : List Nat
  vps : List Nat
  deriving DecidableEq, Repr

/-- The old contents of a line of a shadow copy, or none where the copy did not hold it: the partition, the handle and the line (R115, R228). -/
structure ShadowOld where
  part : Nat
  handle : Nat
  line : Nat
  old : Option ShLine
  deriving DecidableEq, Repr

/-- A checkpoint (R228): the thread and its unsettled lineages as its save image holds them, and the old contents of the lines stored since,
of memory, of the launch's local stores (by cluster and line) and of shadow copies. -/
structure Ckpt where
  thread : Thread
  lins : Tab Lineage
  lines : Tab LineData
  locs : Tab LineData
  shads : List ShadowOld
  deriving DecidableEq, Repr

/-- The registers of a partition in the package control space that the kernel programs, and in `kact` the command of KCMD that is in progress while
BUSY is 1 (its fields may be written meanwhile, R213). `ttSet` and `evqSet` say that TTBASE and EVQB have been written since reset (R389). -/
structure KRegs where
  tsdpre : BitVec 20
  asrt : Word
  tinva : Word
  tinvc : Word
  pintmo : BitVec 32
  ttbase : Word
  evqb : Word
  evqt : BitVec 32
  evqh : BitVec 32
  kcmd : Word
  kact : Word
  karg : Word
  ttSet : Bool
  evqSet : Bool
  deriving DecidableEq, Repr

/-- The debug registers of a partition (R230). `strips` counts strip records since DBCTL was last written; the checkpoints stand newest
first, and `full` says that the capture area has filled. `pass` and `passShads` hold what the lines of memory and of shadow copies held as the
present pass of a profiling replay began, of those that its launches have stored to (R229). `launched` counts the partition's launches in the present pass, and `paths` holds the
values that were recorded at EXIT, by the number of the launch, stage and LTHR (R229). -/
structure Debug where
  dbctl : Word
  dbstrb : Word
  dbstop : Word
  dbret : Word
  dbcki : BitVec 32
  dbcap : Word
  dbflag : Bool
  strips : Nat
  ckpts : List Ckpt
  full : Bool
  pass : Tab LineData
  passShads : List ShadowOld
  launched : Nat
  paths : List (Nat × Nat × Nat × List Word)
  deriving DecidableEq, Repr

/-- An invalidation in progress (R202): the cycle of GO, and TINVC and TINVA as they stood at it. -/
structure Inval where
  start : Nat
  ctl : Word
  page : Word
  deriving DecidableEq, Repr

/-- A partition (R197): its index in the configuration record, sections, second-tier range, debug bit, registers, event records
waiting to be written, the invalidation in progress, and rebases. `tsBase` is the wts and rts of every line of its memory that nothing
has touched: 0, moved by rebases and TSDPRE (R92, R99, R101). -/
structure Part where
  idx : Nat
  sects : BitVec 8
  tierLo : Nat
  tierHi : Nat
  debugOn : Bool
  rebases : BitVec 32
  tsBase : Nat
  k : KRegs
  db : Debug
  pending : List EvRec
  inval : Option Inval
  deriving DecidableEq, Repr

/-- The Colophon and what it has read from flash (R205 to R209). -/
structure Colophon where
  meas : Vector (BitVec 512) 8
  seq : BitVec 32
  parts : BitVec 64
  seed : Option (BitVec 256)
  mbbuf : Word
  mbstat : BitVec 2
  booted : Bool
  kernelUp : Bool
  deriving DecidableEq, Repr

/-- The contents of flash (R205, R206, R208): Colophon image and signature, owner certificate and its signature, configuration record,
kernel image, helper data, device certificate. -/
structure Flash where
  colophon : List Byte
  colophonSig : List Byte
  ownerCert : List Byte
  ownerSig : List Byte
  config : List Byte
  kernel : List Byte
  helper : List Byte
  devCert : List Byte
  deriving DecidableEq, Repr

/-- A format window (R59). -/
structure Window where
  pay : Word
  lim : Word
  scl : Word
  bnd : Word
  ctl : Word
  deriving DecidableEq, Repr

/-- The host interface (R384 to R388): BAR0 registers, the ring counters the kernel keeps in the window, events not yet written,
and MSI-X vector 0. -/
structure HostIf where
  ready : Bool
  hwin : Word
  hrqt : BitVec 32
  heqh : BitVec 32
  hltr : BitVec 32
  pstate : BitVec 3
  consumed : BitVec 32
  tail : BitVec 32
  waiting : List HostEv
  msi : Bool
  irq : Bool
  readback : List Byte
  images : List Image
  deriving DecidableEq, Repr

/-- A Crenor Link port (R223, R391): the next sequence number expected, the next one to send, the oldest one sent and not acknowledged, what
has been sent since as the last sequence number of each transfer, the key of its command and its bytes, what waits for room in the replay buffer
as key, flits and bytes, the consecutive replays of one flit, whether the other side is asked to replay, and whether the port is up. -/
structure Port where
  expect : BitVec 24
  next : BitVec 24
  unacked : BitVec 24
  sent : List (BitVec 24 × Nat × Nat)
  waiting : List (Nat × Nat × Nat)
  replays : Nat
  replay : Bool
  up : Bool
  deriving DecidableEq, Repr

/-- An entry of the link route table (R350): the route, its port, and the partition it designates. -/
structure Route where
  num : Nat
  port : Nat
  self : Bool
  part : Nat
  deriving DecidableEq, Repr

/-- A collective group (R351): number, this module's device index, for each member, in the order of the device indexes, the sections of
the partition that the group table names on it (R394), and the ports that lead to the other members, in the order of theirs. -/
structure Group where
  num : Nat
  dev : Nat
  sects : List Nat
  ports : List Nat
  deriving DecidableEq, Repr

/-- Crenor Link as a whole: ports, tables, messages accepted and not yet acted on (R223), parts received (R221), pushes of other modules
that have begun to arrive, those paused at a fault here (R222), those that failed here with their status, collective contributions received, whether the kernel has trained the ports and filled the tables (R389), and the cycle of the latest flit (R392). -/
structure Link where
  ports : List Port
  routes : List Route
  groups : List Group
  inbox : List LinkMsg
  seen : List (Nat × Nat × Nat × Nat)
  opened : List RemotePart
  held : List RemotePart
  dead : List (RemotePart × Nat)
  contribs : List CollPart
  trained : Bool
  filled : Bool
  lastFlit : Nat
  deriving DecidableEq, Repr

/-- The CXL ports of the second tier (R390): which of the eight have a device that answers training, which have trained, and the ranges that the
Colophon has programmed into the decoders. -/
structure Cxl where
  attached : List Bool
  trained : List Bool
  ranges : List (Nat × Nat)
  deriving DecidableEq, Repr

/-- What the environment of the programs chooses: which step comes next, which thread issues, how many cycles pass, which lines,
translations and instruction lines are brought in or dropped, stores and bring-up steps of the resident kernel, and reads of a host BAR. -/
inductive Stimulus
  | event (i : Instr)
  | issue (c : Nat)
  | elapse (n : Nat)
  | fillLine (line : Nat)
  | fillCopy (l1 : Bool) (home : Nat) (line : Nat)
  | dropCopy (l1 : Bool) (home : Nat) (line : Nat)
  | gather (c : Nat) (first : Nat) (n : Nat)
  | fillTlb (c : Nat) (va : Word)
  | dropTlb (t : Tlb)
  | fillWalk (c : Nat) (va : Word)
  | dropWalk (w : WalkPtr)
  | fillFetch (core : Nat) (line : Nat)
  | kernelStore (pa : Nat) (v : Word)
  | kernelResume (c : Nat) (pc : Word)
  | kernelRewind (c : Nat)
  | kernelPass (p : Nat)
  | kernelRoutes (r : List Route) (g : List Group)
  | kernelTrain (ups : List Bool) (ok : Bool)
  | kernelWindow (w : Word)
  | barRead (bar : Nat) (o : Nat)
  | scaleError (a : Nat)
  deriving DecidableEq, Repr

/-- The whole machine. `cur` is the context whose turn it is; `others` holds every other live thread. -/
structure State where
  cur : Thread
  others : List Thread
  cycle : Nat
  order : Nat
  mem : Mem
  lines : Tab Line
  copies : List Copy
  gathered : List Gathered
  tlb : List Tlb
  walks : List WalkPtr
  cores : Tab Core
  clusters : Tab Cluster
  slots : Tab Nat
  launches : List Launch
  shadows : List Shadow
  cmds : List Cmd
  banks : List BankCmd
  locks : Tab (List Nat)
  sends : List TwSend
  holders : Tab Nat
  parts : List Part
  windows : List Window
  colophon : Colophon
  flash : Flash
  host : HostIf
  link : Link
  cxl : Cxl
  hbm : List Nat
  agenda : List Stimulus
  nextLaunch : Nat
  nextImage : Nat
  badScales : List Nat
  deriving DecidableEq, Repr

/-- The free value: what stands wherever the spec leaves a value open (log entry 19). CYCLE is the counter that numbers it. -/
def State.free (s : State) : Word := Config.freeWord s.cycle

/-! ### Outcomes that are no next state -/

/-- Why the machine stops. -/
inductive Fault
  /-- A physical base that the resident kernel programmed lies outside memory, so that a thread table, save image, queue, ring or mailbox buffer
  has no place: raised by the steps that read or write those structures. Safe: the spec gives such a base no effect. -/
  | physicalHole (pa : Nat)
  deriving DecidableEq, Repr

/-- Why a step has no meaning. -/
inductive Refusal
  /-- An arm of exec that has no meaning yet. Safe: nothing is proved about such a step. -/
  | notModelled (mnemonic : String)
  /-- An agenda entry that names an instruction, which only a thread's own stream issues: raised by step. Safe: no step of
  the hardware corresponds to it. -/
  | notAnEvent
  deriving DecidableEq, Repr

/-! ### Reset -/

/-- The system registers at thread creation (R19). -/
def Sys.init : Sys :=
  { vlg := 0, nvreg := 32, sewc := 2, rmode := 1, vstat := 0, fstat := 0, pts := 0, lease := 10, vmpol := 0, pgrant := 0,
    pnan := 0, nanz := false, lnact := 0, lstate := 0, lwhy := 0, lhand := 0, xfd := Vector.replicate 8 0, tknote := 0,
    tkseqb := 0, cause := 0, epc := 0, badva := 0, stripc := 0, bprio := 0, eprio := 0, drift := 1024, lv := Vector.replicate 8 0 }

/-- The vector state at thread creation (R14, R15). -/
def Vec.init : Vec :=
  { vrf := [], masks := Vector.replicate 8 0, regs := [], src := [], queue := [], streams := [], frame := none }

/-- A context at the values of thread creation, before the launch gives it any (R13 to R19). -/
def Thread.init : Thread :=
  { id := { ctxid := 0, launch := 0, stage := 0, lthr := 0, place := ⟨0, 0, 0, 0⟩, lv := [] },
    ir := 0, raised := 0, st := .free, g := Vector.replicate 32 0, pc := 0, resume := 0, sys := .init, vec := .init, share := none,
    nextId := Vector.replicate 8 0, nextTag := 0, wait := none, stalled := false, trap := none, retired := 0,
    driftAt := 0, sliceAt := 0, sliceUsed := 0, turn := 0, turnAt := 0, saveRebases := 0, ptsSaved := 0, ptsOwed := 0, loop := none, arrivals := [], det := [], snap := [], snapLoc := [], pass := false, stopDue := false,
    tok := ⟨[], [], [], [], 0⟩, strip := none, path := [], orig := none }

/-- A window register set at reset (R59). -/
def Window.init : Window := ⟨0, 0, 0, 0, 0⟩

/-- A link port at reset, not yet trained (R389, R391); the first sequence numbers are a log entry. -/
def Port.init : Port := ⟨0, 0, 0, [], [], 0, false, false⟩

/-- The kernel's registers of a partition at reset (R101, R202, R213). -/
def KRegs.init : KRegs :=
  { tsdpre := 0, asrt := 0, tinva := 0, tinvc := 0, pintmo := 1000, ttbase := 0, evqb := 0, evqt := 0, evqh := 0,
    kcmd := 0, kact := 0, karg := 0, ttSet := false, evqSet := false }

/-- The debug registers at reset (R230). -/
def Debug.init : Debug :=
  { dbctl := 0, dbstrb := 0, dbstop := 0, dbret := 0, dbcki := 0, dbcap := 0, dbflag := false, strips := 0, ckpts := [],
    full := false, pass := [], passShads := [], launched := 0, paths := [] }

/-- The machine right after package reset: no partition until the Colophon has written the layout (R205), no thread, memory
with nothing listed. -/
def State.reset : State :=
  { cur := .init, others := [], cycle := 0, order := 0, mem := [], lines := [], copies := [], gathered := [], tlb := [], walks := [],
    cores := [], clusters := [], slots := [], launches := [], shadows := [], cmds := [], banks := [], locks := [],
    sends := [], holders := [], parts := [], windows := List.replicate 32 Window.init,
    colophon := ⟨Vector.replicate 8 0, 0, 0, none, 0, 1, false, false⟩,
    flash := ⟨[], [], [], [], [], [], [], []⟩,
    host := ⟨false, 0, 0, 0, 0, 0, 0, 0, [], false, false, [], []⟩,
    link := ⟨List.replicate 18 Port.init, [], [], [], [], [], [], [], [], false, false, 0⟩,
    cxl := ⟨List.replicate 8 true, List.replicate 8 false, []⟩,
    hbm := (List.range 16).map (fun n => n * Config.stackBytes),
    agenda := [], nextLaunch := 1, nextImage := 1, badScales := [] }

end Sys2Proof.Machine
end

