-- ==== Sys2Proof/Machine/Mem.lean ====
section
/-!
DEFINITION. Mem: the named operations over bytes of memory, over tables, over the partitions' ranges, and over the line records.
-/
namespace Sys2Proof.Machine

/-! ### Bytes and numbers (little-endian, R2) -/

/-- The number that bytes spell, lowest byte first. -/
def leNat : List Byte → Nat
  | [] => 0
  | b :: t => b.toNat + 256 * leNat t

/-- The n bytes of a number, lowest first. -/
def natBytes : Nat → Nat → List Byte
  | 0, _ => []
  | n + 1, v => BitVec.ofNat 8 v :: natBytes n (v / 256)

/-- A list cut into pieces of n, at most `fuel` of them. -/
def chunks {α : Type} (n : Nat) : Nat → List α → List (List α)
  | 0, _ => []
  | k + 1, l => l.take n :: chunks n k (l.drop n)

/-! ### Memory -/

/-- The byte at an address. -/
def Mem.read (m : Mem) (a : Nat) : Byte := ((m.find? fun c => c.1 == a).map fun c => c.2).getD unlistedByte

/-- The entries of a run of bytes from an address on. -/
def listed : Nat → List Byte → Mem
  | _, [] => []
  | a, b :: t => if b = unlistedByte then listed (a + 1) t else (a, b) :: listed (a + 1) t

/-- Memory with a run of bytes written from an address on. -/
def Mem.write (m : Mem) (a : Nat) (bs : List Byte) : Mem :=
  m.filter (fun c => decide (c.1 < a)) ++ (listed a bs ++ m.filter (fun c => decide (a + bs.length ≤ c.1)))

/-- n bytes from address a on, of a memory that lists nothing below a. -/
def takeRun : Mem → Nat → Nat → List Byte
  | _, _, 0 => []
  | [], a, n + 1 => unlistedByte :: takeRun [] a n
  | (k, b) :: t, a, n + 1 =>
    if k = a then b :: takeRun t (a + 1) n else unlistedByte :: takeRun ((k, b) :: t) (a + 1) n

/-- n bytes from an address on. -/
def Mem.run (m : Mem) (a n : Nat) : List Byte := takeRun (m.filter fun c => decide (a ≤ c.1)) a n

/-- The number that n bytes from an address on spell. -/
def Mem.nat (m : Mem) (a n : Nat) : Nat := leNat (m.run a n)

/-- The doubleword at an address. -/
def Mem.word (m : Mem) (a : Nat) : Word := BitVec.ofNat 64 (m.nat a 8)

/-- Memory with a doubleword written. -/
def Mem.setWord (m : Mem) (a : Nat) (v : Word) : Mem := m.write a (natBytes 8 v.toNat)

/-- The 128 bytes of a line. -/
def Mem.line (m : Mem) (l : Nat) : LineData := BitVec.ofNat 1024 (m.nat (128 * l) 128)

/-- Memory with the 128 bytes of a line written. -/
def Mem.setLine (m : Mem) (l : Nat) (d : LineData) : Mem := m.write (128 * l) (natBytes 128 d.toNat)

/-- n bytes of a line from offset o on. -/
def lineBytes (d : LineData) (o n : Nat) : List Byte := natBytes n (d.toNat / 2 ^ (8 * o))

/-- A line with bytes put at offset o. -/
def putBytes (d : LineData) (o : Nat) (bs : List Byte) : LineData :=
  let n := bs.length
  let lo := d.toNat % 2 ^ (8 * o)
  let hi := d.toNat / 2 ^ (8 * (o + n))
  BitVec.ofNat 1024 (lo + 2 ^ (8 * o) * (leNat bs + 2 ^ (8 * n) * hi))

/-! ### Tables -/

/-- The entry of a number. -/
def Tab.get {α : Type} (t : Tab α) (k : Nat) : Option α := (t.find? fun c => c.1 == k).map fun c => c.2

/-- A table with an entry put in. -/
def Tab.set {α : Type} (t : Tab α) (k : Nat) (v : α) : Tab α :=
  t.filter (fun c => decide (c.1 < k)) ++ (k, v) :: t.filter (fun c => decide (k < c.1))

/-- A table without an entry. -/
def Tab.del {α : Type} (t : Tab α) (k : Nat) : Tab α := t.filter fun c => decide (c.1 ≠ k)

/-! ### Partitions and their ranges (R9, R197) -/

/-- The partition of an index of the configuration record. -/
def State.part? (s : State) (p : Nat) : Option Part := s.parts.find? fun x => x.idx == p

/-- A change of one partition. -/
def State.modPart (s : State) (p : Nat) (f : Part → Part) : State :=
  { s with parts := s.parts.map (fun x => if x.idx = p then f x else x) }

/-- Whether a section belongs to a partition. -/
def Part.hasSect (p : Part) (n : Nat) : Bool := p.sects.getLsbD n

/-- The lowest section of a partition, by which its registers are numbered (R101, R202, R213). -/
def Part.lowest (p : Part) : Nat := ((List.range 8).find? fun n => p.hasSect n).getD 8

/-- The HBM stack that holds a physical address. -/
def State.stackOf (s : State) (pa : Nat) : Option Nat :=
  (List.range 16).find? fun k =>
    match s.hbm[k]? with
    | some b => decide (b ≤ pa ∧ pa < b + Config.stackBytes)
    | none => false

/-- Whether a physical address lies in a partition's second-tier range (R197). -/
def Part.inTier (p : Part) (pa : Nat) : Bool := decide (p.tierLo ≤ pa ∧ pa < p.tierHi)

/-- Whether a physical address lies in a partition's ranges (R197); stack k lies in section k / 2 (R9). -/
def State.owns (s : State) (p : Part) (pa : Nat) : Bool :=
  p.inTier pa || match s.stackOf pa with
    | some k => p.hasSect (k / 2)
    | none => false

/-- Whether a page of n bytes lies in a partition's ranges as a whole: first and last byte within one of them (R195, R197). -/
def State.ownsPage (s : State) (p : Part) (pa n : Nat) : Bool :=
  (p.inTier pa && p.inTier (pa + n - 1)) || match s.stackOf pa, s.stackOf (pa + n - 1) with
    | some j, some k => p.hasSect (j / 2) && decide (j = k)
    | _, _ => false

/-- The CXL port that serves a second-tier address: one that the decoders cover goes to a port by its 4 KiB granule, where that port has
trained (R390). -/
def State.cxlPort (s : State) (pa : Nat) : Option Nat :=
  let n := (pa - Config.tierBase) / 4096 % 8
  if (s.cxl.ranges.any fun r => decide (r.1 ≤ pa ∧ pa < r.2)) && (s.cxl.trained[n]?).getD false then some n else none

/-- Whether a physical address is memory of the module at all: a stack, or the second tier behind its CXL ports (R8, R390). -/
def State.isMemory (s : State) (pa : Nat) : Bool := (s.stackOf pa).isSome || (s.cxlPort pa).isSome

/-! ### Lines (R92, R134) -/

/-- A line that nothing has touched: the timestamps of such lines, DRAM equal to the coherent value, not cached. -/
def Line.init (ts : Nat) : Line := ⟨ts, ts, none, false, false, false, none, none, 0⟩

/-- The timestamps of the untouched lines of the partition that owns a line. -/
def State.baseTs (s : State) (l : Nat) : Nat := ((s.parts.find? fun p => s.owns p (128 * l)).map fun p => p.tsBase).getD 0

/-- The record of a line. -/
def State.line (s : State) (l : Nat) : Line :=
  match Tab.get s.lines l with
  | some r => r
  | none => Line.init (s.baseTs l)

/-- The state with a line's record replaced. -/
def State.setLine (s : State) (l : Nat) (r : Line) : State := { s with lines := Tab.set s.lines l r }

/-- What DRAM holds of a line: what stands beneath the caches where that differs, otherwise the coherent value (R134). -/
def State.dramLine (s : State) (l : Nat) : LineData := (s.line l).under.getD (s.mem.line l)

/-- n bytes of DRAM within one line. -/
def State.dramBytes (s : State) (pa n : Nat) : List Byte := lineBytes (s.dramLine (pa / 128)) (pa % 128) n

/-- Scale bytes that a write replaces read without error again (log entry 99). -/
def State.mendScales (s : State) (pa n : Nat) : State :=
  if s.badScales.isEmpty then s else { s with badScales := s.badScales.filter fun a => !decide (pa ≤ a ∧ a < pa + n) }

/-- A write to DRAM behind the caches (R134): the coherent value follows only where no cache holds the line. -/
def State.dramWrite (s : State) (pa : Nat) (bs : List Byte) : State :=
  let l := pa / 128
  let r := s.line l
  if r.cached then s.setLine l { r with under := some (putBytes (s.dramLine l) (pa % 128) bs) }
  else ({ s with mem := s.mem.write pa bs } : State).mendScales pa bs.length

/-- Write-back of a line: DRAM takes the coherent value if the line is dirty (R135). -/
def State.cleanLine (s : State) (l : Nat) : State :=
  let r := s.line l
  if r.dirty then s.setLine l { r with dirty := false, under := none } else s

/-- The lines of a range of bytes, rounded outward (R135). -/
def linesOf (pa n : Nat) : List Nat :=
  if n = 0 then [] else (List.range ((pa + n - 1) / 128 - pa / 128 + 1)).map fun i => pa / 128 + i

/-- Eviction of a line from the last-level cache and from a cluster L2 that owns it: written back whole if dirty, otherwise dropped, with
its metadata; private copies keep what they received (R62, R92, R134). -/
def State.evictLine (s : State) (l : Nat) : State :=
  let r := s.line l
  let s := if r.dirty then s else { s with mem := s.mem.setLine l (r.under.getD (s.mem.line l)) }
  { s.setLine l { r with cached := false, dirty := false, under := none, owner := none, scales := none } with
    copies := s.copies.filter fun c => !(decide (c.line = l) && !c.l1 && decide (r.owner = some c.home)) }

/-! ### Threads -/

/-- The thread of a CTXID. -/
def State.thread? (s : State) (c : Nat) : Option Thread :=
  if s.cur.id.ctxid = c then some s.cur else s.others.find? fun t => t.id.ctxid == c

/-- Every thread. -/
def State.threads (s : State) : List Thread := s.cur :: s.others

/-- The state with a thread's turn: it stands in `cur`, and the one that stood there takes its place. -/
def State.focus (s : State) (c : Nat) : Option State :=
  if s.cur.id.ctxid = c then some s
  else match s.others.find? fun t => t.id.ctxid == c with
    | none => none
    | some t =>
      some { s with cur := t, others := (s.others.map (fun u => if u.id.ctxid = c then s.cur else u)).filter (fun u => decide (u.st ≠ .free)) }

/-- An operation on `cur` applied to another thread. -/
def State.withThread (s : State) (c : Nat) (f : State → State) : State :=
  match s.focus c with
  | none => s
  | some s1 => ((f s1).focus s.cur.id.ctxid).getD (f s1)

/-- A change of one thread's record. -/
def State.modThread (s : State) (c : Nat) (f : Thread → Thread) : State :=
  if s.cur.id.ctxid = c then { s with cur := f s.cur }
  else { s with others := s.others.map (fun t => if t.id.ctxid = c then f t else t) }

/-- A change of every thread's record. -/
def State.modThreads (s : State) (f : Thread → Thread) : State := { s with cur := f s.cur, others := s.others.map f }

end Sys2Proof.Machine
end

