-- ==== Sys2Proof/Machine/Flags.lean ====
section
/-!
DEFINITION. Flags: the VSTAT flags, and the integer, saturating and fixed-point results with the flags they raise (R21, R41, R42,
R48 to R50).
-/
namespace Sys2Proof.Machine

/-- The flags at their VSTAT bit positions (R21). -/
def fSAT : BitVec 8 := 1
def fNV : BitVec 8 := 2
def fDZ : BitVec 8 := 4
def fOF : BitVec 8 := 8
def fUF : BitVec 8 := 16
def fNX : BitVec 8 := 32
def fPOISON : BitVec 8 := 64
def fORD : BitVec 8 := 128

/-- A flag where a condition holds. -/
def flagIf (c : Bool) (f : BitVec 8) : BitVec 8 := if c then f else 0

/-- A result code with the flags it raises. -/
structure FRes where
  code : Nat
  flags : BitVec 8
  deriving DecidableEq, Repr

/-- The signed value of the low w bits of a number (R41). -/
def sgn (w : Nat) (x : Nat) : Int :=
  let y := x % 2 ^ w
  if 2 * y < 2 ^ w then (y : Int) else (y : Int) - 2 ^ w

/-- The w-bit code of an integer (R41). -/
def wrap (w : Nat) (x : Int) : Nat := (x % (2 ^ w : Int)).toNat

/-- RoundFixed (R49): x divided by 2^s, rounded by RMODE. -/
def roundFixed (rmode : BitVec 2) (x : Int) (s : Nat) : Int :=
  if s = 0 then x
  else
    let q := x / (2 ^ s : Int)
    let rem := x % (2 ^ s : Int)
    let half : Int := 2 ^ (s - 1)
    match rmode.toNat with
    | 0 => if half ≤ rem then q + 1 else q
    | 1 => if half < rem ∨ (rem = half ∧ q % 2 = 1) then q + 1 else q
    | 2 => q
    | _ => if rem ≠ 0 ∧ q % 2 = 0 then q + 1 else q

/-- Saturate (R49): the code of q clamped to w bits, and SAT where it clamps. -/
def saturate (q : Int) (w : Nat) (signed : Bool) : FRes :=
  let lo : Int := if signed then -(2 ^ (w - 1)) else 0
  let hi : Int := if signed then 2 ^ (w - 1) - 1 else 2 ^ w - 1
  if q < lo then ⟨wrap w lo, fSAT⟩ else if hi < q then ⟨wrap w hi, fSAT⟩ else ⟨wrap w q, 0⟩

/-- The quotient of R42, on w-bit codes. -/
def divS (w a b : Nat) : Nat :=
  if b % 2 ^ w = 0 then 2 ^ w - 1 else wrap w (Int.tdiv (sgn w a) (sgn w b))

/-- The remainder of R42, on w-bit codes. -/
def remS (w a b : Nat) : Nat :=
  if b % 2 ^ w = 0 then a % 2 ^ w else wrap w (Int.tmod (sgn w a) (sgn w b))

/-- The unsigned quotient and remainder of R42. -/
def divU (w a b : Nat) : Nat := if b % 2 ^ w = 0 then 2 ^ w - 1 else (a % 2 ^ w) / (b % 2 ^ w)
def remU (w a b : Nat) : Nat := if b % 2 ^ w = 0 then a % 2 ^ w else (a % 2 ^ w) % (b % 2 ^ w)

/-- The Op column of R299 and R300: operands a, b and d of width w, RMODE as captured. -/
def intOp (f : VInt) (rmode : BitVec 2) (w a b d : Nat) : FRes :=
  let sa := sgn w a
  let sb := sgn w b
  let s := b % w
  match f with
  | .add => ⟨wrap w (a + b), 0⟩
  | .sub => ⟨wrap w ((a : Int) - b), 0⟩
  | .mul => ⟨(a * b) % 2 ^ w, 0⟩
  | .mulh => ⟨wrap w (sa * sb / 2 ^ w), 0⟩
  | .mulhu => ⟨(a * b / 2 ^ w) % 2 ^ w, 0⟩
  | .macc => ⟨(d + a * b) % 2 ^ w, 0⟩
  | .div => ⟨divS w a b, 0⟩
  | .rem => ⟨remS w a b, 0⟩
  | .min => ⟨if sa ≤ sb then a else b, 0⟩
  | .max => ⟨if sa ≤ sb then b else a, 0⟩
  | .minu => ⟨if a ≤ b then a else b, 0⟩
  | .maxu => ⟨if a ≤ b then b else a, 0⟩
  | .and => ⟨a &&& b, 0⟩
  | .or => ⟨a ||| b, 0⟩
  | .xor => ⟨a ^^^ b, 0⟩
  | .sll => ⟨(a * 2 ^ s) % 2 ^ w, 0⟩
  | .srl => ⟨a / 2 ^ s, 0⟩
  | .sra => ⟨wrap w (sa / 2 ^ s), 0⟩
  | .sadd => saturate (sa + sb) w true
  | .ssub => saturate (sa - sb) w true
  | .aadd => ⟨wrap w (roundFixed rmode (sa + sb) 1), 0⟩
  | .smul => saturate (roundFixed rmode (sa * sb) (w - 1)) w true

/-- The destination column of the widening majors (R301): sources of width w, destination of 2w bits. -/
def wideOp (f : VWide) (w a b d : Nat) : Nat :=
  match f with
  | .add => wrap (2 * w) (sgn w a + sgn w b)
  | .addu => a + b
  | .mul => wrap (2 * w) (sgn w a * sgn w b)
  | .mulu => a * b
  | .macc => wrap (2 * w) (d + sgn w a * sgn w b)
  | .maccu => (d + a * b) % 2 ^ (2 * w)

/-- VNCLIP and VNCLIPU (R50, R301): a of 2w bits, shift b modulo 2w. -/
def nclipOp (signed : Bool) (rmode : BitVec 2) (w a b : Nat) : FRes :=
  let x : Int := if signed then sgn (2 * w) a else a
  saturate (roundFixed rmode x (b % (2 * w))) w signed

/-- The integer compares of R303. -/
def intCmp (f : VCmp) (w a b : Nat) : Bool :=
  match f with
  | .eq => a == b
  | .ne => a != b
  | .lt => decide (sgn w a < sgn w b)
  | .ltu => decide (a < b)
  | .le => decide (sgn w a ≤ sgn w b)
  | .leu => decide (a ≤ b)
  | _ => false

/-- Flags accrue to VSTAT and stay set (R21). -/
def State.accrue (s : State) (f : BitVec 8) : State :=
  { s with cur := { s.cur with sys := { s.cur.sys with vstat := s.cur.sys.vstat ||| f } } }

end Sys2Proof.Machine
end

