-- ==== Sys2Proof/Machine/Float.lean ====
section
/-!
DEFINITION. Float: the floating-point formats, the one rounding, and every floating-point operation, conversion and scaled-block
function (R43 to R48, R51 to R56).
-/
namespace Sys2Proof.Machine

/-- The floating-point formats (R43). -/
inductive Fmt | sf | hf | bf | e4 | e5 | e2
  deriving DecidableEq, Repr

/-- Exponent width, fraction width and bias (R43). -/
def Fmt.ebits : Fmt → Nat
  | .sf => 8
  | .hf => 5
  | .bf => 8
  | .e4 => 4
  | .e5 => 5
  | .e2 => 2
def Fmt.fbits : Fmt → Nat
  | .sf => 23
  | .hf => 10
  | .bf => 7
  | .e4 => 3
  | .e5 => 2
  | .e2 => 1
def Fmt.bias : Fmt → Nat
  | .sf => 127
  | .hf => 15
  | .bf => 127
  | .e4 => 7
  | .e5 => 15
  | .e2 => 1

/-- Width of a code. -/
def Fmt.bits (f : Fmt) : Nat := 1 + f.ebits + f.fbits

/-- The overflow threshold (R43), an integer in every format. -/
def Fmt.threshold : Fmt → Nat
  | .sf => 2 ^ 128 - 2 ^ 103
  | .hf => 65520
  | .bf => 2 ^ 128 - 2 ^ 119
  | .e4 => 464
  | .e5 => 61440
  | .e2 => 7

/-- The canonical NaN code (R44). E2M1 has none; its conversions name a code of their own. -/
def Fmt.nan : Fmt → Nat
  | .sf => 0x7FC00000
  | .hf => 0x7E00
  | .bf => 0x7FC0
  | .e4 => 0x7F
  | .e5 => 0x7E
  | .e2 => 0

/-- The code of the largest finite value (R43). -/
def Fmt.maxCode : Fmt → Nat
  | .sf => 0x7F7FFFFF
  | .hf => 0x7BFF
  | .bf => 0x7F7F
  | .e4 => 0x7E
  | .e5 => 0x7B
  | .e2 => 0x7

/-- The code of +infinity where the format has one (R44). -/
def Fmt.inf : Fmt → Option Nat
  | .sf => some 0x7F800000
  | .hf => some 0x7C00
  | .bf => some 0x7F80
  | .e5 => some 0x7C
  | .e4 => none
  | .e2 => none

/-- The sign bit of a code. -/
def Fmt.signBit (f : Fmt) (neg : Bool) : Nat := if neg then 2 ^ (f.bits - 1) else 0

/-- A decoded value: a NaN (signalling or not), an infinity, or (-1)^neg times m times 2^e. -/
inductive Fv
  | nan (sig : Bool)
  | inf (neg : Bool)
  | fin (neg : Bool) (m : Nat) (e : Int)
  deriving DecidableEq, Repr

/-- The value of a code (R43, R44). -/
def Fmt.decode (f : Fmt) (c : Nat) : Fv :=
  let neg := decide (c / 2 ^ (f.bits - 1) % 2 = 1)
  let ex := c / 2 ^ f.fbits % 2 ^ f.ebits
  let fr := c % 2 ^ f.fbits
  let q : Int := 1 - (f.bias : Int) - f.fbits
  let top := decide (ex = 2 ^ f.ebits - 1)
  match f, top with
  | .e4, true => if fr = 7 then .nan false else .fin neg (8 + fr) 5
  | .e2, true => .fin neg (2 + fr) (q + ex - 1)
  | _, true => if fr = 0 then .inf neg else .nan (decide (fr < 2 ^ (f.fbits - 1)))
  | _, false => if ex = 0 then .fin neg fr q else .fin neg (2 ^ f.fbits + fr) (q + ex - 1)

/-- m divided by 2^n to nearest, ties to even. -/
def rne (m n : Nat) : Nat :=
  if n = 0 then m
  else
    let q := m / 2 ^ n
    let rem := m % 2 ^ n
    if 2 ^ (n - 1) < rem ∨ (rem = 2 ^ (n - 1) ∧ q % 2 = 1) then q + 1 else q

/-- m times 2^s to the nearest integer, ties to even, for an exponent of either sign. -/
def rneShift (m : Nat) (s : Int) : Nat := if 0 ≤ s then m * 2 ^ s.toNat else rne m (-s).toNat

/-- Whether m times 2^e is at or above an integer. -/
def geInt (m : Nat) (e : Int) (t : Nat) : Bool :=
  if 0 ≤ e then decide (t ≤ m * 2 ^ e.toNat) else decide (t * 2 ^ (-e).toNat ≤ m)

/-- What overflow delivers (R46): an infinity, or in the formats without one the canonical NaN (E4M3, plain) or the largest
finite value; the saturating forms deliver the largest finite value and set SAT (R51). -/
def Fmt.overflow (f : Fmt) (sat neg : Bool) : FRes :=
  let big := f.signBit neg + f.maxCode
  if sat then ⟨big, fSAT ||| fOF ||| fNX⟩
  else match f.inf with
    | some i => ⟨f.signBit neg + i, fOF ||| fNX⟩
    | none => if f = .e4 then ⟨f.nan, fOF ||| fNX⟩ else ⟨big, fOF ||| fNX⟩

/-- Rounding of (-1)^neg m 2^e to a format (R46, R48). -/
def Fmt.round (f : Fmt) (sat neg : Bool) (m : Nat) (e : Int) : FRes :=
  if m = 0 then ⟨f.signBit neg, 0⟩
  else if geInt m e f.threshold then f.overflow sat neg
  else
    let emin : Int := 1 - (f.bias : Int)
    let lead : Int := e + m.log2
    let qe : Int := max lead emin - f.fbits
    let q := rneShift m (e - qe)
    let exact := if 0 ≤ e - qe then true else decide (m % 2 ^ (qe - e).toNat = 0)
    let mag := min ((qe + f.fbits + f.bias).toNat * 2 ^ f.fbits + q - 2 ^ f.fbits) f.maxCode
    let unb := rneShift m (e - (lead - f.fbits))
    let tiny := decide (lead < emin) && !(decide (lead = emin - 1) && decide (unb = 2 ^ (f.fbits + 1)))
    let uf := if f = .e2 then decide (q = 0) else tiny && !exact
    ⟨f.signBit neg + mag, flagIf uf fUF ||| flagIf (!exact) fNX⟩

/-- A rounded plain result (R46). -/
def Fmt.rnd (f : Fmt) (neg : Bool) (m : Nat) (e : Int) : FRes := f.round false neg m e

/-- The sum of two finite values, exact, with its sign when it is zero (R47). -/
def addFin (n1 : Bool) (m1 : Nat) (e1 : Int) (n2 : Bool) (m2 : Nat) (e2 : Int) : Bool × Nat × Int :=
  let e := min e1 e2
  let i1 : Int := (m1 * 2 ^ (e1 - e).toNat : Nat)
  let i2 : Int := (m2 * 2 ^ (e2 - e).toNat : Nat)
  let i := (if n1 then -i1 else i1) + (if n2 then -i2 else i2)
  (if i = 0 then n1 && n2 else decide (i < 0), i.natAbs, e)

/-- The NV flag of a signalling operand (R48). -/
def sigNV : Fv → BitVec 8
  | .nan true => fNV
  | _ => 0

/-- An infinity in a format, or the canonical NaN with NV in a format without one. -/
def Fmt.infRes (f : Fmt) (neg : Bool) : FRes :=
  match f.inf with
  | some i => ⟨f.signBit neg + i, 0⟩
  | none => ⟨f.nan, fNV⟩

/-- x + y, rounded once (R46, R47). -/
def Fmt.addV (f : Fmt) (x y : Fv) : FRes :=
  match x, y with
  | .nan _, _ => ⟨f.nan, sigNV x ||| sigNV y⟩
  | _, .nan _ => ⟨f.nan, sigNV y⟩
  | .inf a, .inf b => if a = b then f.infRes a else ⟨f.nan, fNV⟩
  | .inf a, _ => f.infRes a
  | _, .inf b => f.infRes b
  | .fin n1 m1 g1, .fin n2 m2 g2 =>
    let (n, m, g) := addFin n1 m1 g1 n2 m2 g2
    f.rnd n m g

/-- The value with its sign flipped. -/
def Fv.neg : Fv → Fv
  | .nan q => .nan q
  | .inf n => .inf !n
  | .fin n m e => .fin (!n) m e

/-- The exact product, or none where it is invalid (0 times infinity, R47). -/
def mulV : Fv → Fv → Option Fv
  | .nan a, .nan b => some (.nan (a || b))
  | .nan a, _ => some (.nan a)
  | _, .nan b => some (.nan b)
  | .inf a, .inf b => some (.inf (a != b))
  | .inf a, .fin b m _ => if m = 0 then none else some (.inf (a != b))
  | .fin a m _, .inf b => if m = 0 then none else some (.inf (a != b))
  | .fin a m e, .fin b n g => some (.fin (a != b) (m * n) (e + g))

/-- An exact value rounded to a format. -/
def Fmt.ofV (f : Fmt) : Fv → FRes
  | .nan q => ⟨f.nan, sigNV (.nan q)⟩
  | .inf n => f.infRes n
  | .fin n m e => f.rnd n m e

/-- x times y plus d, rounded once; the flags of signalling operands included (R47). -/
def Fmt.fmaV (f : Fmt) (x y d : Fv) : FRes :=
  match mulV x y with
  | none => ⟨f.nan, fNV ||| sigNV d⟩
  | some p => f.addV p d

/-- x times y, rounded once. -/
def Fmt.mulF (f : Fmt) (x y : Fv) : FRes :=
  match mulV x y with
  | none => ⟨f.nan, fNV⟩
  | some p => f.ofV p

/-- x divided by y, rounded once: the quotient is taken to 64 bits more than the format needs, with a sticky last bit
(R46 to R48). -/
def Fmt.divV (f : Fmt) (x y : Fv) : FRes :=
  match x, y with
  | .nan _, _ => ⟨f.nan, sigNV x ||| sigNV y⟩
  | _, .nan _ => ⟨f.nan, sigNV y⟩
  | .inf _, .inf _ => ⟨f.nan, fNV⟩
  | .inf a, .fin b _ _ => f.infRes (a != b)
  | .fin a _ _, .inf b => ⟨f.signBit (a != b), 0⟩
  | .fin a m e, .fin b n g =>
    if n = 0 then
      if m = 0 then ⟨f.nan, fNV⟩
      else let r := f.infRes (a != b); ⟨r.code, r.flags ||| fDZ⟩
    else
      let k : Nat := 128
      let q := m * 2 ^ k / n
      let sticky := if m * 2 ^ k % n = 0 then 0 else 1
      f.rnd (a != b) (2 * q + sticky) (e - g - k - 1)

/-- The square root, rounded once (R47). -/
def Fmt.sqrtV (f : Fmt) (x : Fv) : FRes :=
  match x with
  | .nan q => ⟨f.nan, sigNV (.nan q)⟩
  | .inf true => ⟨f.nan, fNV⟩
  | .inf false => f.infRes false
  | .fin neg m e =>
    if m = 0 then ⟨f.signBit neg, 0⟩
    else if neg then ⟨f.nan, fNV⟩
    else
      let odd : Nat := (e % 2).toNat
      let mm := m * 2 ^ (odd + 128)
      let r := Nat.sqrt mm
      let sticky := if r * r = mm then 0 else 1
      f.rnd false (2 * r + sticky) ((e - odd - 128) / 2 - 1)

/-- Numeric order; false where either is a NaN. -/
def ltV : Fv → Fv → Bool
  | .nan _, _ => false
  | _, .nan _ => false
  | .inf a, .inf b => a && !b
  | .inf a, .fin _ _ _ => a
  | .fin _ _ _, .inf b => !b
  | .fin n1 m1 e1, .fin n2 m2 e2 =>
    let (n, m, _) := addFin n1 m1 e1 (!n2) m2 e2
    n && decide (m ≠ 0)

def Fv.isNaN : Fv → Bool
  | .nan _ => true
  | _ => false

def eqV (x y : Fv) : Bool := !x.isNaN && !y.isNaN && !ltV x y && !ltV y x

/-- The sign bit of a value that is no NaN. -/
def Fv.sign : Fv → Bool
  | .nan _ => false
  | .inf n => n
  | .fin n _ _ => n

/-- VFMIN and VFMAX on codes (R47): -0 below +0; one NaN gives the other operand. -/
def Fmt.minmax (f : Fmt) (isMax : Bool) (a b : Nat) : FRes :=
  let x := f.decode a
  let y := f.decode b
  let fl := sigNV x ||| sigNV y
  if x.isNaN && y.isNaN then ⟨f.nan, fl⟩
  else if x.isNaN then ⟨b, fl⟩
  else if y.isNaN then ⟨a, fl⟩
  else
    let less := ltV x y || (eqV x y && x.sign && !y.sign)
    if less != isMax then ⟨a, fl⟩ else ⟨b, fl⟩

/-- Sign bit of a code. -/
def Fmt.isNeg (f : Fmt) (c : Nat) : Bool := decide (c / 2 ^ (f.bits - 1) % 2 = 1)

/-- A code with its sign replaced; a NaN gives the canonical NaN, with NV where it is signalling (R47). -/
def Fmt.withSign (f : Fmt) (c : Nat) (neg : Bool) : FRes :=
  match f.decode c with
  | .nan q => ⟨f.nan, sigNV (.nan q)⟩
  | _ => ⟨f.signBit neg + c % 2 ^ (f.bits - 1), 0⟩

/-- The Op column of R302. -/
def fpOp (op : VFp) (f : Fmt) (a b d : Nat) : FRes :=
  let x := f.decode a
  let y := f.decode b
  match op with
  | .add => f.addV x y
  | .sub => f.addV x y.neg
  | .mul => f.mulF x y
  | .div => f.divV x y
  | .ma => f.fmaV x y (f.decode d)
  | .nma => f.fmaV x.neg y (f.decode d)
  | .min => f.minmax false a b
  | .max => f.minmax true a b
  | .sgnj => let r := f.withSign a (f.isNeg b); ⟨r.code, r.flags ||| sigNV y⟩
  | .sgnjn => let r := f.withSign a (!f.isNeg b); ⟨r.code, r.flags ||| sigNV y⟩

/-- The floating-point compares of R303, with the flags of R48. -/
def fpCmp (op : VCmp) (f : Fmt) (a b : Nat) : Bool × BitVec 8 :=
  let x := f.decode a
  let y := f.decode b
  let quiet := sigNV x ||| sigNV y
  let any := flagIf (x.isNaN || y.isNaN) fNV
  match op with
  | .feq => (eqV x y, quiet)
  | .flt => (ltV x y, any)
  | .fle => (ltV x y || eqV x y, any)
  | _ => (x.isNaN || y.isNaN, quiet)

/-- VFCLASS (R311). -/
def Fmt.classify (f : Fmt) (c : Nat) : Nat :=
  match f.decode c with
  | .nan true => 8
  | .nan false => 9
  | .inf true => 0
  | .inf false => 7
  | .fin neg m _ =>
    let sub := decide (c / 2 ^ f.fbits % 2 ^ f.ebits = 0)
    match neg, decide (m = 0), sub with
    | true, true, _ => 3
    | false, true, _ => 4
    | true, false, true => 2
    | false, false, true => 5
    | true, false, false => 1
    | false, false, false => 6

/-! ### Conversions (R51) -/

/-- A value converted to a format, plain or saturating (functions 34 to 40). -/
def Fmt.convert (f : Fmt) (sat : Bool) (x : Fv) : FRes :=
  match x with
  | .nan q => ⟨f.nan, sigNV (.nan q)⟩
  | .inf n =>
    if sat then ⟨f.signBit n + f.maxCode, fSAT⟩
    else match f.inf with
      | some i => ⟨f.signBit n + i, 0⟩
      | none => ⟨f.nan, fNV⟩
  | .fin n m e => f.round sat n m e

/-- An integer converted to a format (functions 34 and 45). -/
def Fmt.ofInt (f : Fmt) (i : Int) : FRes := f.rnd (decide (i < 0)) i.natAbs 0

/-- A value converted to INT32, to nearest-even or toward zero (functions 43 and 44). -/
def toInt32 (nearest : Bool) (x : Fv) : FRes :=
  match x with
  | .nan _ => ⟨0, fNV⟩
  | .inf n => ⟨wrap 32 (if n then -(2 ^ 31) else 2 ^ 31 - 1), fSAT ||| fNV⟩
  | .fin n m e =>
    let mag : Nat := if 0 ≤ e then m * 2 ^ e.toNat else if nearest then rne m (-e).toNat else m / 2 ^ (-e).toNat
    let exact := if 0 ≤ e then true else decide (m % 2 ^ (-e).toNat = 0)
    let i : Int := if n then -(mag : Int) else mag
    if i < -(2 ^ 31) then ⟨wrap 32 (-(2 ^ 31)), fSAT ||| fNV⟩
    else if 2 ^ 31 - 1 < i then ⟨wrap 32 (2 ^ 31 - 1), fSAT ||| fNV⟩
    else ⟨wrap 32 i, flagIf (!exact) fNX⟩

/-! ### Scaled blocks (R45, R52 to R55) -/

/-- The value of an E3M5 code as m times 2^-7; poison is the caller's (R45). -/
def e3m5 (c : Nat) : Nat :=
  let ex := c / 32
  let m := c % 32
  if ex = 0 then m else (32 + m) * 2 ^ (ex - 1)

/-- A block scale as a value: poison reads as a quiet NaN (R53). -/
def scaleV (c : Nat) : Fv := if c = 0xFF then .nan false else .fin false (e3m5 c) (-7)

/-- The smallest scale code in 0x01 to 0xFE whose value is at or above amax / 6, amax = m 2^e; 0xFE where none is (R54). -/
def scaleFor (m : Nat) (e : Int) : Nat :=
  let ok := fun c : Nat =>
    let s := e3m5 c * 6
    if 0 ≤ e + 7 then decide (m * 2 ^ (e + 7).toNat ≤ s) else decide (m ≤ s * 2 ^ (-(e + 7)).toNat)
  ((List.range 254).map (· + 1)).find? ok |>.getD 0xFE

/-- The larger magnitude of two: none stands for an infinity. -/
def maxMag (x y : Option (Nat × Int)) : Option (Nat × Int) :=
  match x, y with
  | some (m, e), some (n, g) => if ltV (.fin false m e) (.fin false n g) then some (n, g) else some (m, e)
  | _, _ => none

/-- The scale code of a block: its elements with their activity (R54). -/
def f4Scale (xs : List (Bool × Fv)) : Nat :=
  let amax := xs.foldl (fun acc p =>
    match p with
    | (true, .fin _ m e) => maxMag acc (some (m, e))
    | (true, .inf _) => none
    | _ => acc) (some (0, 0))
  match amax with
  | some (0, _) => 0
  | some (m, e) => scaleFor m e
  | none => 0xFE

/-- The E2M1 code of an element under a scale code, with its flags (R54). -/
def f4Elem (scode : Nat) (p : Bool × Fv) : FRes :=
  let s := e3m5 scode
  match p with
  | (false, _) => ⟨0, 0⟩
  | (true, .nan _) => ⟨0, fNV⟩
  | (true, .inf n) => ⟨Fmt.e2.signBit n + 7, fSAT ||| fOF ||| fNX⟩
  | (true, .fin n m e) =>
    if s = 0 then ⟨if n && decide (m = 0) then 8 else 0, 0⟩
    else
      let q := m * 2 ^ 64 / s
      let sticky := if m * 2 ^ 64 % s = 0 then 0 else 1
      Fmt.e2.round true n (2 * q + sticky) (e + 7 - 65)

/-! ### The exponential (R56) -/

/-- Bits of the largest n below 2^25 with n^256 at most t, from the top down. -/
def root256 (t : Nat) : Nat → Nat → Nat
  | 0, acc => acc
  | k + 1, acc => if (acc + 2 ^ k) ^ 256 ≤ t then root256 t k (acc + 2 ^ k) else root256 t k acc

/-- Table[k] of R56, RoundNE32(2^(k/256)), as an integer times 2^-23. -/
def expTable (k : Nat) : Nat := (root256 (2 ^ (24 * 256 + k)) 25 0 + 1) / 2

/-- VFEXP2 (R56). -/
def Fmt.exp2 (f : Fmt) (x : Fv) : FRes :=
  match x with
  | .nan q => ⟨f.nan, sigNV (.nan q)⟩
  | .inf false => f.infRes false
  | .inf true => ⟨0, 0⟩
  | .fin neg m e =>
    if !neg && geInt m e 128 then let r := f.infRes false; ⟨r.code, r.flags ||| fOF ||| fNX⟩
    else if ltV (.fin neg m e) (.fin true 150 0) then ⟨0, fUF ||| fNX⟩
    else
      let den : Nat := 2 ^ (-e).toNat
      let i : Int := (if neg then -1 else 1) * (m * 2 ^ e.toNat : Nat)
      let n := i / den
      let fnum := (i % den).toNat
      let k := fnum * 256 / den
      let rnum := fnum * 256 % den
      let re : Int := -((-e).toNat : Int) - 8
      let t1 := Fmt.sf.rnd false (0xB17218 * rnum) (re - 24)
      let t1v := Fmt.sf.decode t1.code
      let tab : Fv := .fin false (expTable k) (-23)
      let t2 := Fmt.sf.mulF tab t1v
      let mm := Fmt.sf.addV tab (Fmt.sf.decode t2.code)
      match Fmt.sf.decode mm.code with
      | .fin _ mv me =>
        let r := f.rnd false mv (me + n)
        ⟨r.code, r.flags ||| ((t1.flags ||| t2.flags ||| mm.flags) &&& fNX)⟩
      | _ => ⟨f.nan, 0⟩

end Sys2Proof.Machine

namespace Sys2Proof

/-- The format of a floating element type; an integer type has none (R234). -/
def ElTy.fmt : ElTy → Machine.Fmt
  | .e4 => .e4
  | .bf => .bf
  | .hf => .hf
  | _ => .sf

end Sys2Proof
end

