-- ==== Sys2Proof/Machine/Translate.lean ====
section
/-!
DEFINITION. Translate: partitions and their ranges, who a thread is, and the translation of an address (R37, R38, R120,
R193 to R199).
-/
namespace Sys2Proof

/-- The number of a cluster or base die within the package. -/
def Place.cluster (p : Place) : Nat := p.sect * 32 + p.unit

/-- The number of a core within the package. -/
def Place.coreKey (p : Place) : Nat := p.cluster * 8 + p.core

/-- Whether a placement is on a base core (R12, R27). -/
def Place.isBase (p : Place) : Bool := decide (24 ≤ p.unit)

/-- Bytes of an access width (R234). -/
def Wid.bytes : Wid → Nat
  | .b => 1
  | .h => 2
  | .w => 4
  | .d => 8

/-- The width code (R234), which is also the DETAIL of the misaligned-access trap (R210). -/
def Wid.num : Wid → Nat
  | .b => 0
  | .h => 1
  | .w => 2
  | .d => 3

end Sys2Proof

namespace Sys2Proof.Machine

/-! ### Partitions, cores and launches -/

/-- A launch that holds nothing: what a thread without a launch reads. -/
def LaunchRec.empty : LaunchRec :=
  { prio := 0, ring := false, det := false, lsg := 0, argp := 0, heapb := 0, heapsz := 0, stkb := 0, stksz := 0,
    donep := 0, levels := [], stages := [], queues := [], bars := [] }

def Launch.empty : Launch :=
  { id := 0, host := none, part := 0, asid := 0, lrec := .empty, ts := 0, order := 0, num := 0, stood := [], admitted := false, killed := false,
    finished := false, made := [], ended := [], finalPts := 0, bars := [], rings := [], allocs := [], stores := [], locTs := [],
    arrived := [], away := [], dead := [], snap := [], left := [] }

/-- The launch of an identifier. -/
def State.launchOf (s : State) (l : Nat) : Launch := (s.launches.find? fun x => x.id == l).getD .empty

/-- The launch of the current thread. -/
def State.launch (s : State) : Launch := s.launchOf s.cur.id.launch

/-- A change of one launch. -/
def State.modLaunch (s : State) (l : Nat) (f : Launch → Launch) : State :=
  { s with launches := s.launches.map (fun x => if x.id = l then f x else x) }

/-- The core record; a core that nothing has touched has its full lane grant (log entry 7). -/
def Core.init (base : Bool) : Core :=
  { holder := none, lenders := [], waiters := [], since := 0, grant := if base then 16 else 64, lins := [], icache := [] }

def State.core (s : State) (p : Place) : Core := (Tab.get s.cores p.coreKey).getD (Core.init p.isBase)

def State.setCore (s : State) (p : Place) (c : Core) : State := { s with cores := Tab.set s.cores p.coreKey c }

/-- The cluster record. -/
def Cluster.init : Cluster := ⟨0, 0, false, [], [], none, false⟩

def State.cluster (s : State) (k : Nat) : Cluster := (Tab.get s.clusters k).getD Cluster.init

def State.setCluster (s : State) (k : Nat) (c : Cluster) : State := { s with clusters := Tab.set s.clusters k c }

/-! ### Translation -/

/-- The rights of R196, with whether host pages serve the access (only engine transfers, R120) and whether it is an ordinary
access, which a shadowed buffer's second backing refuses (R352). -/
structure Need where
  rd : Bool
  wr : Bool
  x : Bool
  host : Bool
  ordinary : Bool
  deriving DecidableEq, Repr

def needRd : Need := ⟨true, false, false, false, true⟩
def needWr : Need := ⟨false, true, false, false, true⟩
def needRw : Need := ⟨true, true, false, false, true⟩
def needX : Need := ⟨false, false, true, false, false⟩
def engRd : Need := ⟨true, false, false, true, false⟩
def engWr : Need := ⟨false, true, false, true, false⟩
def sysRd : Need := ⟨true, false, false, false, false⟩
def sysWr : Need := ⟨false, true, false, false, false⟩
def sysRw : Need := ⟨true, true, false, false, false⟩

/-- Where an access goes: physical memory, the launch's local store, host memory, or a fault of R199 by code and DETAIL. -/
inductive Where
  | phys (pa : Nat)
  | loc (off : Nat)
  | host (a : Nat)
  | bad (code : BitVec 8) (detail : BitVec 8)
  deriving DecidableEq, Repr

/-- Who translates: partition, ASID, cluster, the core where it is a thread's own access, and the size of the launch's local store
(R37, R193, R201). -/
structure XCtx where
  part : Nat
  asid : Nat
  cluster : Nat
  core : Option Nat
  local_ : Nat
  deriving DecidableEq, Repr

/-- The translation context of a launch on a cluster. -/
def Launch.xctx (l : Launch) (cluster : Nat) : XCtx := ⟨l.part, l.asid, cluster, none, l.lrec.lsg * 65536⟩

/-- The translation context of the current thread. -/
def State.xctx (s : State) : XCtx := { s.launch.xctx s.cur.id.place.cluster with core := some s.cur.id.place.coreKey }

/-- Bits hi..lo of a doubleword as a number. -/
def bitsOf (w : Word) (lo n : Nat) : Nat := w.toNat / 2 ^ lo % 2 ^ n

/-- The physical page base an entry names. -/
def entryPA (e : Word) : Nat := bitsOf e 16 36 * 65536

/-- Whether an entry of the walk is malformed (R195). `level` is 0 top, 1 middle, 2 leaf. -/
def State.malformed (s : State) (p : Part) (level : Nat) (e : Word) : Bool :=
  let leaf := e.getLsbD 1
  let host := e.getLsbD 52
  let pa := entryPA e
  decide (bitsOf e 53 8 ≠ 0) || decide (bitsOf e 8 8 ≠ 0) || decide (bitsOf e 5 2 ≠ 0)
    || (leaf && decide (level = 0)) || (!leaf && decide (level = 2))
    || (leaf && decide (level = 1) && decide (pa % Config.bigPageBytes ≠ 0))
    || (e.getLsbD 3 && !e.getLsbD 2)
    || (leaf && !host && !s.ownsPage p pa (if level = 1 then Config.bigPageBytes else Config.pageBytes))
    || (host && !leaf)
    || (leaf && !host && p.inTier pa && !p.hasSect (bitsOf e 61 3))

/-- An entry as a walker reads it: a poisoned line of a table gives the contained-memory-error trap (R201, R204). -/
def State.tableWord (s : State) (pa : Nat) : Except (BitVec 8 × BitVec 8) Word :=
  if (s.line (pa / 128)).poison then .error (8, 0) else .ok (s.mem.word pa)

/-- A table pointer that a section's walk cache holds (R201); entries are tagged as those of the TLBs are. -/
def State.walkHit (s : State) (c : XCtx) (level index : Nat) : Option Word :=
  (s.walks.find? fun w => decide (w.sect = c.cluster / 32 ∧ w.part = c.part ∧ w.asid = c.asid ∧ w.level = level ∧ w.index = index)).map
    fun w => w.entry

/-- The top-level entry of an address, read from the tables (R194). -/
def State.topEntry (s : State) (p : Part) (asid va : Nat) : Except (BitVec 8 × BitVec 8) Word :=
  match s.tableWord (bitsOf p.k.asrt 16 36 * 65536 + 8 * asid) with
  | .error e => .error e
  | .ok root =>
    if !root.getLsbD 0 then .error (3, 4)
    else if bitsOf root 1 16 ≠ 0 ∨ bitsOf root 52 12 ≠ 0 then .error (3, 1)
    else match s.tableWord (bitsOf root 17 35 * 131072 + 8 * (va / 2 ^ 42 % 2 ^ 14)) with
      | .error e => .error e
      | .ok top =>
        if !top.getLsbD 0 then .error (3, 0)
        else if s.malformed p 0 top then .error (3, 1)
        else .ok top

/-- The middle-level entry of an address, through the walk cache's top-level pointer where it has one. -/
def State.midEntry (s : State) (p : Part) (c : XCtx) (va : Nat) : Except (BitVec 8 × BitVec 8) Word :=
  match (s.walkHit c 0 (va / 2 ^ 42)).elim (s.topEntry p c.asid va) Except.ok with
  | .error e => .error e
  | .ok top => match s.tableWord (entryPA top + 8 * (va / 2 ^ 29 % 2 ^ 13)) with
    | .error e => .error e
    | .ok mid =>
      if !mid.getLsbD 0 then .error (3, 0)
      else if s.malformed p 1 mid then .error (3, 1)
      else .ok mid

/-- The walk of R194: the page entry with whether it maps 512 MiB, or the trap's code and DETAIL. DESIGN CHOICE (log entry 125): an entry with V = 0
is not looked at for malformed bits, so that DETAIL is 0x00, or 0x04 at the root. -/
def State.walk (s : State) (p : Part) (c : XCtx) (va : Nat) : Except (BitVec 8 × BitVec 8) (Word × Bool) :=
  match (s.walkHit c 1 (va / 2 ^ 29)).elim (s.midEntry p c va) Except.ok with
  | .error e => .error e
  | .ok mid =>
    if mid.getLsbD 1 then .ok (mid, true)
    else match s.tableWord (entryPA mid + 8 * (va / 2 ^ 16 % 2 ^ 13)) with
      | .error e => .error e
      | .ok leaf =>
        if !leaf.getLsbD 0 then .error (3, 0)
        else if s.malformed p 2 leaf then .error (3, 1)
        else .ok (leaf, false)

/-- Whether a TLB entry translates an address for an access (R193): its own tags, or the partition alone where G is set. -/
def Tlb.serves (t : Tlb) (c : XCtx) (va : Nat) : Bool :=
  decide (t.cluster = c.cluster ∧ t.part = c.part ∧ (t.asid = c.asid ∨ t.entry.getLsbD 7 = true) ∧
    va / (if t.big then Config.bigPageBytes else Config.pageBytes) = t.vpage)

/-- The entry that the TLBs hold for an address: the core's L1 TLB, then the cluster's L2 TLB (R193, R201). -/
def State.tlbHit (s : State) (c : XCtx) (va : Nat) : Option (Word × Bool) :=
  ((s.tlb.find? fun t => decide (t.core.isSome ∧ t.core = c.core) && t.serves c va).orElse fun _ =>
    s.tlb.find? fun t => t.core.isNone && t.serves c va).map fun t => (t.entry, t.big)

/-- The page entry of an address with whether it maps 512 MiB, or the trap's code and DETAIL; with ASRT.EN clear every translated access
faults (R202). -/
def State.pageOf (s : State) (c : XCtx) (va : Nat) : Except (BitVec 8 × BitVec 8) (Word × Bool) :=
  match s.part? c.part with
  | none => .error (3, 4)
  | some p =>
    if !p.k.asrt.getLsbD 63 then .error (3, 4)
    else match s.tlbHit c va with
      | some r => .ok r
      | none => s.walk p c va

/-- The page that maps an address, as an invalidation is held against it (R202). -/
def State.pageTag (s : State) (c : XCtx) (va : Word) : PageTag :=
  match s.pageOf c va.toNat with
  | .ok r => ⟨r.2, r.1.getLsbD 7⟩
  | .error _ => ⟨false, false⟩

/-- Whether the page of an address is one of host memory (`host`) or of module memory, whatever its rights (R114, R120). -/
def State.pageIs (s : State) (c : XCtx) (host : Bool) (va : Word) : Bool :=
  decide (va.toNat < Config.windowBase) && match s.pageOf c va.toNat with
    | .ok r => r.1.getLsbD 52 == host
    | .error _ => false

/-- Whether an address lies in the second backing of a declared buffer (R352). -/
def State.inBacking (s : State) (c : XCtx) (va : Nat) : Bool :=
  s.shadows.any fun b => decide (b.part = c.part ∧ b.asid = c.asid ∧ b.sbase ≤ va ∧ va < b.sbase + b.size)

/-- The rights lacking, as DETAIL of the permission trap reports them (R199). -/
def lacking (n : Need) (e : Word) : BitVec 8 :=
  flagIf (n.rd && !e.getLsbD 2) 1 ||| flagIf (n.wr && !e.getLsbD 3) 2 ||| flagIf (n.x && !e.getLsbD 4) 4

/-- Translate (R37, R38, R194 to R199). -/
def State.xlate (s : State) (c : XCtx) (n : Need) (va : Word) : Where :=
  let v := va.toNat
  if Config.vaTop ≤ v then .bad 3 2
  else if Config.windowBase ≤ v then
    if c.local_ ≤ v - Config.windowBase then .bad 3 3
    else if n.x then .bad 4 4
    else .loc (v - Config.windowBase)
  else match s.pageOf c v with
    | .error e => .bad e.1 e.2
    | .ok (e, big) =>
      let pa := entryPA e + v % (if big then Config.bigPageBytes else Config.pageBytes)
      if e.getLsbD 52 && !n.host then .bad 3 5
      else if lacking n e ≠ 0 then .bad 4 (lacking n e)
      else if e.getLsbD 52 then .host pa
      else if n.ordinary && s.inBacking c v then .bad 4 (flagIf n.rd 1 ||| flagIf n.wr 2)
      else .phys pa

end Sys2Proof.Machine
end

