-- ==== Sys2Proof/Machine/Instances.lean ====
section
/-!
DEFINITION. Instances: the nodes of the work tree, the placement instances, and the rounds of a rotation (R141, R149, R153).
-/
namespace Sys2Proof.Machine

/-! ### Nodes of the work tree (R141) -/

/-- Nodes per parent at a level. -/
def LaunchRec.count (l : LaunchRec) (n : Nat) : Nat := ((l.levels[n]?).map fun x => x.count).getD 1

/-- The deepest level. -/
def LaunchRec.leaf (l : LaunchRec) : Nat := l.levels.length - 1

/-- Node count at level 0 for a stage (R143). -/
def LaunchRec.tops (l : LaunchRec) (stage : Nat) : Nat :=
  match l.stages[stage]? with
  | some g => if g.topc = 0 then l.count 0 else g.topc
  | none => l.count 0

/-- Threads below one node of a level. -/
def LaunchRec.below (l : LaunchRec) (n : Nat) : Nat :=
  ((List.range l.levels.length).filter fun k => decide (n < k)).foldl (fun p k => p * l.count k) 1

/-- Threads of a stage (R143). -/
def LaunchRec.threads (l : LaunchRec) (stage : Nat) : Nat := l.tops stage * l.below 0

/-- Coordinate of a thread at a level. -/
def Ident.coord (i : Ident) (n : Nat) : Nat := ((i.lv[n]?).map fun x => x.toNat).getD 0

/-- The number of a thread's node at a level: mixed radix of the coordinates down to it, level 0 most significant. -/
def Ident.node (i : Ident) (l : LaunchRec) (n : Nat) : Nat :=
  ((List.range (n + 1)).map fun k => k).foldl (fun a k => a * (if k = 0 then 1 else l.count k) + i.coord k) 0

/-- Sections of a partition. -/
def Part.sections (p : Part) : List Nat := (List.range 8).filter fun n => p.hasSect n

/-! ### Instances (R149) -/

/-- An instance of a placement domain: the partition, a section, a cluster, a stack or a core, by section, unit and core. -/
inductive Inst
  | all
  | sect (n : Nat)
  | cluster (n u : Nat)
  | stack (n u : Nat)
  | core (n u c : Nat)
  deriving DecidableEq, Repr

/-- The sections of an instance. -/
def Inst.sections (i : Inst) (sects : List Nat) : List Nat :=
  match i with
  | .all => sects
  | .sect n => [n]
  | .cluster n _ => [n]
  | .stack n _ => [n]
  | .core n _ _ => [n]

/-- The instances of a domain within an instance, in order. Cores outside a stack are vector cores (R12). -/
def Inst.subs (i : Inst) (sects : List Nat) (dom : Nat) : List Inst :=
  match dom, i with
  | 3, .all => sects.map fun n => .sect n
  | 4, .stack n u => [.stack n u]
  | 4, _ => (i.sections sects).flatMap fun n => [.stack n 24, .stack n 25]
  | 2, .cluster n u => [.cluster n u]
  | 2, _ => (i.sections sects).flatMap fun n => (List.range 24).map fun u => .cluster n u
  | 1, .stack n u => (List.range 8).map fun c => .core n u c
  | 1, .cluster n u => (List.range 4).map fun c => .core n u c
  | 1, .core n u c => [.core n u c]
  | 1, _ => (i.sections sects).flatMap fun n => (List.range 24).flatMap fun u => (List.range 4).map fun c => .core n u c
  | _, _ => [i]

/-- Whether a place lies in an instance. Base cores are reached through stacks alone (R12). -/
def Inst.has (i : Inst) (sects : List Nat) (p : Place) : Bool :=
  match i with
  | .all => sects.contains p.sect && !p.isBase
  | .sect n => decide (p.sect = n) && !p.isBase
  | .cluster n u => decide (p.sect = n ∧ p.unit = u)
  | .stack n u => decide (p.sect = n ∧ p.unit = u)
  | .core n u c => decide (p.sect = n ∧ p.unit = u ∧ p.core = c)

/-- Whether a place exists (R9, R12). -/
def Place.valid (p : Place) : Bool :=
  decide (p.sect < 8) && (if p.unit < 24 then decide (p.core < 4 ∧ p.ctx < 4) else decide (p.unit < 26 ∧ p.core < 8 ∧ p.ctx < 2))

/-- The contexts of an instance. -/
def Inst.places (i : Inst) (sects : List Nat) : List Place :=
  let vec : Nat → List Nat → List Place := fun n us =>
    us.flatMap fun u => (List.range 4).flatMap fun c => (List.range 4).map fun x => ⟨n, u, c, x⟩
  match i with
  | .all => sects.flatMap fun n => vec n (List.range 24)
  | .sect n => vec n (List.range 24)
  | .cluster n u => vec n [u]
  | .stack n u => (List.range 8).flatMap fun c => (List.range 2).map fun x => ⟨n, u, c, x⟩
  | .core n u c => (List.range (if 24 ≤ u then 2 else 4)).map fun x => ⟨n, u, c, x⟩

/-- The sections of each member's partition and this module's index, for a launch with a group level (R351); none without a group. -/
def State.membership (s : State) : Option (List Nat × Nat) := s.link.groups.head?.map fun g => (g.sects, g.dev)

/-- The instances of a domain in a partition of n sections. -/
def instancesIn (dom n : Nat) : Nat :=
  match dom with
  | 1 => 96 * n
  | 2 => 24 * n
  | 3 => n
  | 4 => 2 * n
  | _ => 1

/-- One level down the tree: the instance that a node goes to (R149), or none where it lies on another module. `pd` is the parent's
domain. DESIGN CHOICE (log entry 94): the instances within a group are counted member by member, in the order of the device indexes. -/
def descend (sects : List Nat) (grp : Option (List Nat × Nat)) (pd : Nat) (i : Inst) (dom c : Nat) : Option Inst :=
  if dom = pd ∨ dom = 0 then some i
  else
    let l := i.subs sects dom
    match decide (pd = 6), grp with
    | true, some g =>
      let counts := g.1.map fun n => instancesIn dom n
      let before := (counts.take g.2).foldl (· + ·) 0
      let k := c % max 1 (counts.foldl (· + ·) 0)
      if k < before then none else l[k - before]?
    | _, _ => l[c % max 1 l.length]?

/-- The instance of the narrowest domain on a path of the tree. -/
def treePath (sects : List Nat) (grp : Option (List Nat × Nat)) : Nat → Inst → List (Nat × Nat) → Option Inst
  | _, i, [] => some i
  | pd, i, (dom, c) :: t => (descend sects grp pd i dom c).bind fun j => treePath sects grp dom j t

/-- The domain that stands above level 0: the partition, or the group where level 0 is a group level. -/
def LaunchRec.rootDom (l : LaunchRec) : Nat := if (l.levels.head?.map fun x => x.dom) = some 6 then 6 else 5

/-- The instance that a thread runs in all its life (R149), or none where it belongs to another module. -/
def State.instOf (s : State) (l : Launch) (lv : List (BitVec 32)) : Option Inst :=
  match s.part? l.part with
  | none => none
  | some p => treePath p.sections s.membership l.lrec.rootDom .all ((l.lrec.levels.map fun x => x.dom).zip (lv.map fun c => c.toNat))

/-- Coordinates of a logical thread (R141). -/
def LaunchRec.coords (l : LaunchRec) (lthr : Nat) : List (BitVec 32) :=
  (List.range l.levels.length).map fun n => BitVec.ofNat 32 (if n = 0 then lthr / l.below 0 else lthr / l.below n % l.count n)

/-- Sections of a launch's partition. -/
def State.sectsOf (s : State) (l : Launch) : List Nat := ((s.part? l.part).map fun p => p.sections).getD []

/-! ### The rounds of a rotation (R153) -/

/-- Whether a watch belongs to a waiting instruction (R159, R339). -/
def Watch.isWaiting : Watch → Bool
  | .again => false
  | .gang _ _ _ _ => false
  | .attach => false
  | .lineage => false
  | _ => true

/-- Whether a thread stands in a waiting instruction. -/
def Thread.waiting (t : Thread) : Bool := match t.wait with
  | some w => w.isWaiting
  | none => false

/-- Physical base of the thread-table entry of a CTXID (R220). -/
def Part.tableEntry (p : Part) (c : Nat) : Nat := bitsOf p.k.ttbase 20 32 * 2 ^ 20 + 16 * c

/-- Whether both image pages of a thread are in memory (R220). -/
def State.imageIn (s : State) (t : Thread) : Bool :=
  match s.part? (s.launchOf t.id.launch).part with
  | some p => (s.mem.word (p.tableEntry t.id.ctxid)).getLsbD 63
  | none => false

/-- A runnable thread: saved, with its image in memory. -/
def State.isRunnable (s : State) (t : Thread) : Bool := decide (t.st = .saved) && s.imageIn t

/-- Whether the instances of two threads share contexts: they are nested or disjoint, so that one holds the other's place. -/
def State.sharesInstance (s : State) (t u : Thread) : Bool :=
  let has := fun (a b : Thread) => match s.instOf (s.launchOf a.id.launch) a.id.lv with
    | some i => i.has (s.sectsOf (s.launchOf a.id.launch)) b.id.place
    | none => false
  has t u || has u t

/-- Whether one thread takes turns with another: one of the same effective priority in its instance that runs or could run (R153). -/
def State.isPeer (s : State) (t u : Thread) : Bool :=
  decide (u.id.ctxid ≠ t.id.ctxid) && decide (u.sys.eprio = t.sys.eprio) && (s.isRunnable u || (decide (u.st = .running) && !u.waiting))
    && s.sharesInstance t u

/-- The round that the rotation of a thread's priority has come to in its instance: the least one in which one of the others has yet to have its
slice; without any, the thread's own. -/
def State.round (s : State) (t : Thread) : Nat := (((s.threads.filter fun u => s.isPeer t u).map fun u => u.turn).min?).getD t.turn

/-- A thread in a round, from a cycle on: it has had nothing of its slice there. -/
def Thread.toRound (t : Thread) (n cycle : Nat) : Thread := { t with turn := n, turnAt := cycle, sliceUsed := 0 }

/-- A thread that becomes runnable, or is made, takes its turn in the round under way (R153; log entry 64). -/
def State.joined (s : State) : State :=
  { s with cur := if s.cur.turn < s.round s.cur then s.cur.toRound (s.round s.cur) s.cycle else s.cur }

/-- The round in which a thread whose slice is over has its next one. -/
def State.nextTurn (s : State) : Nat := max (s.cur.turn + 1) (s.round s.cur)

end Sys2Proof.Machine
end

