-- ==== Sys2Proof/Machine/Lease.lean ====
section
/-!
DEFINITION. Lease: timestamps, private copies, and how a load or store of coherent memory performs (R91 to R99, R36, R61, R62, R105).
-/
namespace Sys2Proof.Machine

/-! ### Timestamp domains (R93, R99, R101) -/

/-- A line of which a gathered line holds bytes. -/
def Gathered.line (g : Gathered) : Nat := (g.bytes.head?.map fun b => b.1 / 128).getD 0

/-- The threads of a partition that are resident. -/
def State.resident (s : State) (p : Nat) (t : Thread) : Bool :=
  decide (t.st = .running) && decide ((s.launchOf t.id.launch).part = p)

/-- TSMAX: the largest PTS, wts and rts of a domain (R101). DESIGN CHOICE (log entry 100): the PTS of a saved context, which a restore has
still to rebase (R19), does not count. -/
def State.tsmax (s : State) (p : Part) : Nat :=
  let a := s.threads.foldl (fun m t => if s.resident p.idx t then max m t.sys.pts else m) 0
  s.lines.foldl (fun m l => if s.owns p (128 * l.1) then max m (max l.2.wts l.2.rts) else m) (max p.tsBase a)

/-- Every timestamp of a domain moved: t + up - down, never below 0; private copies whose rts would fall below 0 are dropped
(R99, R101, R374). Nothing of another domain moves (R93, R198). -/
def State.shiftTs (s : State) (p : Part) (up down : Nat) : State :=
  let f := fun t : Nat => t + up - down
  let inDom := fun l : Nat => s.owns p (128 * l)
  let th := fun t : Thread =>
    if (s.launchOf t.id.launch).part = p.idx then
      { t with
        sys := { t.sys with pts := if t.st = .running then f t.sys.pts else t.sys.pts + up }
        tok := { t.tok with ts := f t.tok.ts }
        arrivals := t.arrivals.map (fun a => (a.1, { a.2 with fired := a.2.fired.map f }))
        loop := t.loop.map fun l => { l with rts := f l.rts } }
    else t
  { s with
    cur := th s.cur
    others := s.others.map th
    lines := s.lines.map (fun l => if inDom l.1 then (l.1, { l.2 with wts := f l.2.wts, rts := f l.2.rts }) else l)
    copies := (s.copies.filter (fun c => !(inDom c.line) || decide (down ≤ c.rts + up))).map
      (fun c => if inDom c.line then { c with wts := f c.wts, rts := f c.rts } else c)
    gathered := (s.gathered.filter (fun g => !(inDom g.line) || decide (down ≤ g.rts + up))).map
      (fun g => if inDom g.line then { g with wts := f g.wts, rts := f g.rts } else g)
    parts := s.parts.map (fun q => if q.idx = p.idx then { q with
        tsBase := f q.tsBase
        db := { q.db with ckpts := q.db.ckpts.map (fun k => { k with thread := { k.thread with sys := { k.thread.sys with pts := k.thread.sys.pts + up } } }) } } else q)
    launches := s.launches.map (fun l => if l.part = p.idx then
        { l with ts := f l.ts, finalPts := f l.finalPts,
                 bars := l.bars.map (fun b => (b.1, { b.2 with ts := f b.2.ts, maxPts := f b.2.maxPts })),
                 rings := l.rings.map (fun r => (r.1, { r.2 with ts := f r.2.ts })), locTs := l.locTs.map (fun r => (r.1, f r.2)) } else l)
    cmds := s.cmds.map (fun c => if (s.launchOf c.launch).part = p.idx then
        { c with pts := f c.pts, pubTs := f c.pubTs } else c)
    sends := s.sends.map (fun x => if p.hasSect x.sect then { x with pts := f x.pts } else x) }

/-- A rebase of the domain (R99). -/
def State.rebase (s : State) (p : Nat) : State :=
  match s.part? p with
  | none => s
  | some q => (s.shiftTs q 0 Config.rebaseBy).modPart p fun x => { x with rebases := x.rebases + 1 }

/-- The rebase that comes before an access which would make the domain's largest timestamp 0xC0000 or more (R99). -/
def State.rebaseFor (s : State) (p ts : Nat) : State := if Config.rebaseAt ≤ ts then s.rebase p else s

/-! ### Fills (R61 to R63) -/

/-- The lowest enabled window whose payload range holds a line (R61). -/
def State.windowOf (s : State) (pa : Nat) : Option Window :=
  s.windows.find? fun w => w.ctl.getLsbD 63 && decide (w.pay.toNat ≤ pa ∧ pa < w.lim.toNat)

/-- A scale byte as the controller reads it: poison where the read meets an uncorrectable error (R63). -/
def State.scaleByte (s : State) (a : Nat) : BitVec 8 :=
  if s.badScales.contains a || (s.line (a / 128)).poison then 0xFF else s.mem.read a

/-- Whether n bytes of a scale or band region may serve a line: they belong to the line's partition (R198; log entry 81). -/
def State.sameOwner (s : State) (l a n : Nat) : Bool :=
  match s.parts.find? fun p => s.owns p (128 * l) with
  | none => true
  | some p => s.owns p a && s.owns p (a + n - 1)

/-- The metadata a line takes when it fills (R60, R61). -/
def State.scalesOf (s : State) (l : Nat) : Option Scales :=
  match s.windowOf (128 * l) with
  | none => none
  | some w =>
    let fmt := bitsOf w.ctl 0 4
    let lines := bitsOf w.ctl 20 16
    let o := 128 * l - w.pay.toNat
    let n := if fmt = 1 then 2 * o else o
    let row := n / (lines * (if fmt = 1 then 256 else 128))
    let cnt := if fmt = 1 then 32 else 4
    let a := w.scl.toNat + n / (if fmt = 1 then 8 else 32)
    let b := w.bnd.toNat + 2 * (row / 64)
    let bad := s.badScales.contains b || s.badScales.contains (b + 1) || (s.line (b / 128)).poison || !s.sameOwner l b 2 || !s.sameOwner l a cnt
    some { fmt := BitVec.ofNat 4 fmt
           scales := (List.range cnt).map (fun i => if bad then 0xFF else s.scaleByte (a + i))
           band := if s.sameOwner l b 2 then BitVec.ofNat 16 (s.mem.nat b 2) else 0 }

/-- The section that the translation entry of a second-tier page names as the home of its lines (R35). DESIGN CHOICE (log entry
117): where several entries map the page, with different sections, it is the one of the lowest ASID and page of the partition's tables. -/
def State.tierHome (s : State) (p : Part) (pa : Nat) : Option Nat :=
  (List.range 4096).findSome? fun asid => (List.range (2 ^ 40)).findSome? fun v =>
    match s.walk p ⟨p.idx, asid, 0, none, 0⟩ (Config.pageBytes * v) with
    | .ok (e, big) =>
      if !e.getLsbD 52 && decide (entryPA e ≤ pa ∧ pa < entryPA e + (if big then Config.bigPageBytes else Config.pageBytes)) then some (bitsOf e 61 3)
      else none
    | .error _ => none

/-- The home section of a line (R35): its stack's, or for a second-tier line the one that its page's entry names, and the partition's lowest
where no entry maps it (DESIGN CHOICE, log entry 117). -/
def State.homeSect (s : State) (l : Nat) : Nat :=
  match s.stackOf (128 * l) with
  | some k => k / 2
  | none => match s.parts.find? fun p => p.inTier (128 * l) with
    | some p => (s.tierHome p (128 * l)).getD p.lowest
    | none => 0

/-- The line that leaves the full last-level cache of a line's home section for it to come in: the lowest (R34, R35; log entry 82). -/
def State.llcVictim (s : State) (l : Nat) : Option Nat :=
  if s.lines.length < Config.llcLines then none
  else
    let n := s.homeSect l
    let held := s.lines.filter fun x => x.2.cached && decide (s.homeSect x.1 = n)
    if held.length < Config.llcLines then none else held.head?.map fun x => x.1

/-- A line brought into the last-level cache, if it is not there. -/
def State.fillLine (s : State) (l : Nat) : State :=
  if (s.line l).cached then s
  else
    let s := match s.llcVictim l with
      | some v => s.evictLine v
      | none => s
    s.setLine l { s.line l with cached := true, scales := s.scalesOf l }

/-- A write to the coherent value of bytes within one line, which fills and makes the line dirty in the caches: DRAM keeps what it held
(R134). A write of all 128 bytes clears the poison (R204). Timestamps are the caller's. -/
def State.cacheWrite (s : State) (pa : Nat) (bs : List Byte) : State :=
  let l := pa / 128
  let s := s.fillLine l
  let r := s.line l
  let was := some (r.under.getD (s.mem.line l))
  let s := s.setLine l { r with dirty := true, under := was, ver := r.ver + 1, poison := r.poison && bs.length != 128 }
  ({ s with mem := s.mem.write pa bs } : State).mendScales pa bs.length

/-! ### Private copies -/

/-- The scalar L1 of a core: in fused mode the cluster has one, numbered as its first core's (R40, R95). -/
def State.l1Home (s : State) (p : Place) : Nat := if (s.cluster p.cluster).fused then p.cluster * 8 else p.coreKey

/-- Whether a copy may serve a context: its scalar L1, for a scalar access, or its cluster L2 (R36, R95). -/
def State.serves (s : State) (vec : Bool) (p : Place) (c : Copy) : Bool :=
  if c.l1 then !vec && decide (c.home = s.l1Home p) else decide (c.home = p.cluster)

/-- The copy of a line that serves the current context at its PTS: the scalar L1's, then the cluster L2's (R36, R95). -/
def State.copyHit (s : State) (vec : Bool) (l : Nat) : Option Copy :=
  let hit := fun c : Copy => decide (c.line = l) && s.serves vec s.cur.id.place c && decide (s.cur.sys.pts ≤ c.rts)
  (s.copies.find? fun c => c.l1 && hit c).orElse fun _ => s.copies.find? fun c => !c.l1 && hit c

/-- The duplicate tags evict the scalar L1 copies of a line in a cluster (R36). -/
def State.evictL1 (s : State) (cl l : Nat) : State :=
  { s with copies := s.copies.filter (fun c => !(c.l1 && decide (c.line = l) && decide (c.home / 8 = cl))) }

/-- Lines that a private cache holds: a scalar L1, four of them fused, or a cluster L2 less the local store set aside from a launch's first
thread there until it ends (R34, R40, R148). -/
def State.cacheLines (s : State) (l1 : Bool) (home : Nat) : Nat :=
  if l1 then (if (s.cluster (home / 8)).fused then 4 * Config.l1Lines else Config.l1Lines)
  else
    let here := s.launches.filter fun x => !x.finished && x.stood.contains home
    Config.l2Lines - here.foldl (fun n x => n + x.lrec.lsg * 65536 / 128) 0

/-- The copies with those of one cache cut down to its first n: the ones that it has held longest, and those marked as next victims, stand
last (log entry 82). -/
def fitCache (l1 : Bool) (home : Nat) : List Copy → Nat → List Copy
  | [], _ => []
  | c :: t, n =>
    if (c.l1 == l1) && decide (c.home = home) then
      match n with
      | 0 => fitCache l1 home t 0
      | k + 1 => c :: fitCache l1 home t k
    else c :: fitCache l1 home t n

/-- How an access allocates in a cache (R22). -/
inductive CacheIn | normal | nextVictim | none_
  deriving DecidableEq, Repr

/-- A copy put in place of the one that its cache held of the line; where the cache held none, as the access allocates. -/
def State.putCopy (s : State) (al : CacheIn) (c : Copy) : State :=
  let same := fun x : Copy => decide (x.line = c.line) && (x.l1 == c.l1) && decide (x.home = c.home)
  let rest := s.copies.filter fun x => !same x
  let had := s.copies.any same
  let n := s.cacheLines c.l1 c.home
  match al with
  | .normal => { s with copies := fitCache c.l1 c.home (c :: rest) n }
  | .nextVictim => { s with copies := if had then fitCache c.l1 c.home (c :: rest) n else fitCache c.l1 c.home rest (n - 1) ++ [c] }
  | .none_ => if had then { s with copies := fitCache c.l1 c.home (c :: rest) n } else s

/-- The metadata with which a copy of a line arrives in a cluster L2: where the value is unchanged only the lease is renewed, so that the
copy keeps what it received (R61, R62, R95). DESIGN CHOICE (log entry 32): where a store has changed the value, the copy takes the metadata that
the line has at its home, also if the line was evicted there and has filled anew. -/
def State.copyScales (s : State) (cl l wts : Nat) : Option Scales :=
  match s.copies.find? fun c => decide (c.line = l) && !c.l1 && decide (c.home = cl) && decide (c.wts = wts) with
  | some c => c.scales
  | none => (s.line l).scales

/-- Install (R95): the copy in the cluster L2 and, for a scalar access, in the scalar L1. -/
def State.install (s : State) (vec : Bool) (al : CacheIn) (l wts rts : Nat) : State :=
  let p := s.cur.id.place
  let d := s.mem.line l
  let s := s.putCopy al ⟨false, p.cluster, l, d, wts, rts, s.copyScales p.cluster l wts⟩
  if vec then s else s.putCopy .normal ⟨true, s.l1Home p, l, d, wts, rts, none⟩

/-- The vector cache policy of the vector access under way: the one captured with the entry that performs (R20, R22), and for a stream's strip,
which no entry reads, the thread's own. -/
def State.policy (s : State) : BitVec 3 := (s.cur.vec.queue.head?.map fun q => q.vmpol).getD s.cur.sys.vmpol

/-- How a load allocates in the cluster L2 (R22). -/
def State.loadAlloc (s : State) (vec : Bool) : CacheIn :=
  if !vec then .normal
  else match s.policy.setWidth 2 with
    | 1 => .nextVictim
    | 2 => .none_
    | _ => .normal

/-- How a store allocates in the cluster L2 under a vector cache policy (R22). -/
def storeAlloc (vec : Bool) (pol : BitVec 3) : CacheIn := if vec && pol.getLsbD 2 then .none_ else .normal

/-- The metadata that a line delivers for a scaled read by the current context: what came with the copy in its cluster L2, else what the
line carries in the last-level cache; a line that no cache holds takes its metadata as it fills (R61, R62). -/
def State.lineScales (s : State) (l : Nat) : Option Scales :=
  match s.copies.find? fun c => decide (c.line = l) && !c.l1 && decide (c.home = s.cur.id.place.cluster) with
  | some c => c.scales
  | none => if (s.line l).cached then (s.line l).scales else s.scalesOf l

/-- The PTS of the current context. -/
def State.setPts (s : State) (t : Nat) : State :=
  { s with cur := { s.cur with sys := { s.cur.sys with pts := t } } }

def State.raisePts (s : State) (t : Nat) : State := s.setPts (max s.cur.sys.pts t)

/-- A line's lease extended for the current context, at the exclusive owner or the home. A line that another cluster owns is taken back, and
that cluster keeps a copy under the same lease (R95). -/
def State.extend (s : State) (l : Nat) : State :=
  let s := s.fillLine l
  let r := s.line l
  let rts := max r.rts (s.cur.sys.pts + s.cur.sys.lease.toNat)
  match r.owner with
  | some o =>
    if o = s.cur.id.place.cluster then s.setLine l { r with rts := rts }
    else (s.setLine l { r with rts := rts, owner := none }).putCopy .normal ⟨false, o, l, s.mem.line l, r.wts, rts, s.copyScales o l r.wts⟩
  | none => s.setLine l { r with rts := rts }

/-- The renewal branch of LeaseRead (R95). -/
def State.leaseRenew (s : State) (vec : Bool) (l : Nat) : State :=
  let s := s.rebaseFor s.launch.part (max (s.line l).rts (s.cur.sys.pts + s.cur.sys.lease.toNat))
  let s := s.extend l
  (s.install vec (s.loadAlloc vec) l (s.line l).wts (s.line l).rts).raisePts (s.line l).wts

/-! ### Gathered lines (R105) -/

/-- Base, stride and element size of the strided load that stands at the head of the queue: the tag of a gathered line. -/
def State.stridedTag (s : State) : Option (Word × Word × Nat) :=
  match s.cur.vec.queue with
  | [] => none
  | q :: _ => match q.op with
    | .mem .lds _ _ _ w => some (q.xa, q.xb, w.bytes)
    | _ => none

/-- The gathered line of the cluster with the tag of the strided load under way that holds every byte of an element. -/
def State.gatherHit (s : State) (pa n : Nat) : Option Gathered :=
  s.gathered.find? fun g => decide (g.cluster = s.cur.id.place.cluster) && decide (some (g.base, g.stride, g.size) = s.stridedTag) &&
    (List.range n).all fun i => (Tab.get g.bytes (pa + i)).isSome

/-- The lines that a gathered line draws from. -/
def Gathered.sources (g : Gathered) : List Nat := (g.bytes.map fun b => b.1 / 128).dedup

/-- A gathered line made or renewed: every source line is renewed, and the line takes their bytes, the largest wts and the smallest rts. -/
def State.regather (s : State) (g : Gathered) : Gathered × State :=
  let ls := g.sources
  let s := s.rebaseFor s.launch.part (ls.foldl (fun m l => max m (s.line l).rts) (s.cur.sys.pts + s.cur.sys.lease.toNat))
  let s := ls.foldl State.extend s
  let g := { g with
    bytes := g.bytes.map fun b => (b.1, s.mem.read b.1)
    wts := ls.foldl (fun m l => max m (s.line l).wts) 0
    rts := ((ls.map fun l => (s.line l).rts).min?).getD 0 }
  (g, { s with gathered := g :: s.gathered.filter fun x =>
    !(decide (x.cluster = g.cluster ∧ x.base = g.base ∧ x.stride = g.stride ∧ x.size = g.size) && x.bytes.map (·.1) == g.bytes.map (·.1)) })

/-- LeaseRead (R95) of n bytes within one line. `vec` says that the access performs at the cluster L2 (R36). -/
def State.leaseRead (s : State) (vec : Bool) (pa n : Nat) : List Byte × State :=
  let l := pa / 128
  let s := if vec then s.evictL1 s.cur.id.place.cluster l else s
  match s.copyHit vec l with
  | some c => (lineBytes c.data (pa % 128) n, s.raisePts c.wts)
  | none =>
    match if vec then s.gatherHit pa n else none with
    | some g =>
      let r := if s.cur.sys.pts ≤ g.rts then (g, s) else s.regather g
      ((List.range n).map (fun i => (Tab.get r.1.bytes (pa + i)).getD 0), r.2.raisePts r.1.wts)
    | none =>
      let s := s.leaseRenew vec l
      (s.mem.run pa n, s)

/-- The read of WAITW (R98): PTS passes the lease of the context's private copies of the line, so the check renews. -/
def State.waitRead (s : State) (pa n : Nat) : List Byte × State :=
  let l := pa / 128
  let m := s.copies.foldl (fun m c => if c.line = l && s.serves false s.cur.id.place c then max m (c.rts + 1) else m) 0
  let s := s.rebaseFor s.launch.part (max m s.cur.sys.pts)
  let m := s.copies.foldl (fun m c => if c.line = l && s.serves false s.cur.id.place c then max m (c.rts + 1) else m) 0
  (s.raisePts m).leaseRead false pa n

/-! ### The write set (R228, R229; log entry 60) -/

/-- The old contents of a line that a launch is about to write: of memory, of its local store on a cluster, or of a shadow copy. -/
inductive OldLine
  | mem (l : Nat) (d : LineData)
  | loc (key : Nat) (d : LineData)
  | shad (x : ShadowOld)

/-- The contents as the capture area takes them. -/
def OldLine.data : OldLine → LineData
  | .mem _ d => d
  | .loc _ d => d
  | .shad x => (x.old.map fun o => o.data).getD 0

/-- Whether old contents are of one line of a shadow copy. -/
def ShadowOld.same (x y : ShadowOld) : Bool := decide (x.part = y.part ∧ x.handle = y.handle ∧ x.line = y.line)

/-- A checkpoint with the old contents of one more line, or none where it holds them already. -/
def Ckpt.log (k : Ckpt) : OldLine → Option Ckpt
  | .mem l d => if (Tab.get k.lines l).isSome then none else some { k with lines := Tab.set k.lines l d }
  | .loc l d => if (Tab.get k.locs l).isSome then none else some { k with locs := Tab.set k.locs l d }
  | .shad x => if k.shads.any x.same then none else some { k with shads := k.shads ++ [x] }

/-- The same for the lines that a pass of a profiling replay has stored to; a local store does not outlive its launch. -/
def Debug.logPass (d : Debug) : OldLine → Option Debug
  | .mem l x => if (Tab.get d.pass l).isSome then none else some { d with pass := Tab.set d.pass l x }
  | .loc _ _ => none
  | .shad x => if d.passShads.any x.same then none else some { d with passShads := d.passShads ++ [x] }

/-- The same for the latest checkpoint of a launch. -/
def Debug.logCkpt (d : Debug) (launch : Nat) (o : OldLine) : Option Debug :=
  let newer := d.ckpts.takeWhile fun k => decide (k.thread.id.launch ≠ launch)
  match d.ckpts.drop newer.length with
  | [] => none
  | k :: ks => (k.log o).map fun k => { d with ckpts := newer ++ k :: ks }

/-- The records that a capture area holds. -/
def Debug.records (d : Debug) : Nat :=
  d.ckpts.foldl (fun n c => n + c.lines.length + c.locs.length + c.shads.length) (d.pass.length + d.passShads.length)

/-- One more record in a partition's capture area, where `f` has any. An area that is full stops the capture, and no checkpoint or pass so far
can be restored any more. -/
def State.record (s : State) (p : Nat) (o : OldLine) (f : Debug → Option Debug) : State :=
  match s.part? p with
  | none => s
  | some q =>
    match if q.db.dbctl.getLsbD 62 && !q.db.full then f q.db else none with
    | none => s
    | some d =>
      let n := q.db.records
      if bitsOf q.db.dbcap 0 16 * 512 ≤ n then
        s.modPart p fun x => { x with db := { x.db with full := true, ckpts := [], pass := [], passShads := [] } }
      else
        let a := bitsOf q.db.dbcap 16 36 * 65536 + 128 * n
        let s := s.modPart p fun x => { x with db := d }
        if s.isMemory a then s.cacheWrite a (natBytes 128 o.data.toNat) else s

/-- Capture of old contents that a thread or an engine of a launch is about to write: once per line for the pass, and once for the launch's latest
checkpoint. -/
def State.captureOld (s : State) (launch : Nat) (o : OldLine) : State :=
  match s.launches.find? fun x => x.id == launch with
  | none => s
  | some l => (s.record l.part o fun d => d.logPass o).record l.part o fun d => d.logCkpt launch o

/-- Capture of a line of memory. -/
def State.capture (s : State) (launch l : Nat) : State := s.captureOld launch (.mem l (s.mem.line l))

/-- One store at a given timestamp to bytes within a line, for a launch: the line's timestamps, its contents, and the gathered lines of
the cluster that it drops (R96, R105). -/
def State.storeAt (s : State) (launch cl pa : Nat) (bs : List Byte) (ts : Nat) : State :=
  let l := pa / 128
  let s := (s.capture launch l).cacheWrite pa bs
  let s := s.setLine l { s.line l with wts := ts, rts := ts }
  { s with gathered := s.gathered.filter (fun g => !(decide (g.cluster = cl) &&
      (List.range bs.length).any fun i => (Tab.get g.bytes (pa + i)).isSome)) }

/-- Whether the cluster L2 of the current context holds a copy of a line. -/
def State.inL2 (s : State) (l : Nat) : Bool :=
  s.copies.any fun c => decide (c.line = l) && !c.l1 && decide (c.home = s.cur.id.place.cluster)

/-- LeaseWrite (R96) of bytes within one line, under a vector cache policy. The storing cluster's L2 owns the line and holds its new value,
unless a vector store that misses writes through without allocating (R22). -/
def State.leaseWriteBy (s : State) (vec : Bool) (pol : BitVec 3) (pa : Nat) (bs : List Byte) : State :=
  let l := pa / 128
  let pl := s.cur.id.place
  let s := s.rebaseFor s.launch.part (max s.cur.sys.pts ((s.line l).rts + 1))
  let s := if vec then s.evictL1 pl.cluster l else s
  let ts := max s.cur.sys.pts ((s.line l).rts + 1)
  let through := decide (storeAlloc vec pol = .none_) && !s.inL2 l
  let s := s.storeAt s.cur.id.launch pl.cluster pa bs ts
  let s := s.setLine l { s.line l with owner := if through then none else some pl.cluster }
  (s.install vec (storeAlloc vec pol) l ts ts).setPts ts

/-- LeaseWrite of the access under way. -/
def State.leaseWrite (s : State) (vec : Bool) (pa : Nat) (bs : List Byte) : State := s.leaseWriteBy vec s.policy pa bs

/-- Whether a line that holds an address is poisoned (R204). -/
def State.poisoned (s : State) (pa : Nat) : Bool := (s.line (pa / 128)).poison

/-- Whether one of the lines of n bytes from an address on is poisoned (R204). -/
def State.poisonedRun (s : State) (pa n : Nat) : Bool :=
  s.lines.any fun l => l.2.poison && decide (n ≠ 0 ∧ pa < 128 * l.1 + 128 ∧ 128 * l.1 < pa + n)

end Sys2Proof.Machine
end

