-- ==== Sys2Proof/Machine/SysValues.lean ====
section
/-!
DEFINITION. SysValues: the values of the system registers as SRD reads them and as the save image holds them, and the fields that SWR
writes (R18 to R28, R272 to R274). The waits of R274 are with the instructions.
-/
namespace Sys2Proof.Machine

/-- TID (R27). -/
def Ident.tid (i : Ident) : Word :=
  BitVec.ofNat 64 (i.lthr % 2 ^ 32 * 2 ^ 32 + i.stage % 8 * 2 ^ 29 + i.ctxid % 2 ^ 16 * 2 ^ 13 + i.place.sect % 8 * 2 ^ 10
    + i.place.unit % 32 * 2 ^ 5 + i.place.core % 8 * 2 ^ 2 + i.place.ctx % 4)

/-- The numbers of the system registers in the order of R19's table, ranges one by one. -/
def sysNumbers : List Nat :=
  [0x001, 0x002, 0x003, 0x004, 0x005, 0x006, 0x007, 0x008, 0x009, 0x010, 0x011, 0x012, 0x013, 0x020, 0x021,
   0x028, 0x029, 0x02A, 0x02B, 0x02C, 0x02D, 0x02E, 0x02F, 0x030, 0x031, 0x040, 0x041, 0x042, 0x043,
   0x044, 0x045, 0x046, 0x047, 0x048, 0x049, 0x04A, 0x04B, 0x050, 0x051, 0x052, 0x060]

/-- The registers that read 0 and ignore writes on a base core (R274). -/
def zeroOnBase (n : Nat) : Bool := [0x010, 0x011, 0x012, 0x013, 0x030, 0x031].contains n

/-- The value of a system register of a thread at a cycle, or none for a number that R19 does not list (R18, R273). -/
def Thread.sysValue (t : Thread) (cycle n : Nat) : Option Word :=
  let y := t.sys
  match n with
  | 0x001 => some (y.vlg.setWidth 64)
  | 0x002 => some (y.nvreg.setWidth 64)
  | 0x003 => some (y.sewc.setWidth 64)
  | 0x004 => some (y.rmode.setWidth 64)
  | 0x005 => some (y.vstat.setWidth 64)
  | 0x006 => some (y.fstat.setWidth 64)
  | 0x007 => some (BitVec.ofNat 64 y.pts)
  | 0x008 => some (y.lease.setWidth 64)
  | 0x009 => some (y.vmpol.setWidth 64)
  | 0x010 => some (y.pgrant.setWidth 64)
  | 0x011 => some y.pnan
  | 0x012 => some (if y.nanz then 1 else 0)
  | 0x013 => some (y.lnact.setWidth 64)
  | 0x020 => some (y.lwhy.setWidth 64 <<< 8 ||| y.lstate.setWidth 64)
  | 0x021 => some (y.lhand.setWidth 64)
  | 0x030 => some y.tknote
  | 0x031 => some y.tkseqb
  | 0x040 => some y.cause
  | 0x041 => some y.epc
  | 0x042 => some y.badva
  | 0x043 => some t.id.tid
  | 0x050 => some y.stripc
  | 0x051 => some (BitVec.ofNat 64 cycle)
  | 0x052 => some (y.eprio.setWidth 64 <<< 4 ||| y.bprio.setWidth 64)
  | 0x060 => some (y.drift.setWidth 64)
  | k =>
    if h : 0x028 ≤ k ∧ k ≤ 0x02F then some (y.xfd[k - 0x028]'(by omega))
    else if h : 0x044 ≤ k ∧ k ≤ 0x04B then some ((y.lv[k - 0x044]'(by omega)).setWidth 64)
    else none

/-- What SRD reads (R18, R274). -/
def State.sysRead (s : State) (n : Nat) : Option Word :=
  (s.cur.sysValue s.cycle n).map fun v => if s.cur.id.place.isBase && zeroOnBase n then 0 else v

/-- What SWR writes, for a number that R19 lists: RW fields take the value's bits, W1C bits clear, all else is ignored (R273,
R274). A write of DRIFT begins its period anew (DESIGN CHOICE, log entry 103). -/
def Thread.sysWrite (t : Thread) (cycle n : Nat) (v : Word) : Thread :=
  let y := t.sys
  if t.id.place.isBase && zeroOnBase n then t
  else match n with
    | 0x004 => { t with sys := { y with rmode := v.setWidth 2 } }
    | 0x005 => { t with sys := { y with vstat := y.vstat &&& ~~~(v.setWidth 8) } }
    | 0x006 => { t with sys := { y with fstat := v.setWidth 16 } }
    | 0x008 => { t with sys := { y with lease := if v.setWidth 8 = (0 : BitVec 8) then 1 else v.setWidth 8 } }
    | 0x009 => { t with sys := { y with vmpol := v.setWidth 3 } }
    | 0x011 => { t with sys := { y with pnan := v } }
    | 0x012 => { t with sys := { y with nanz := v.getLsbD 0 } }
    | 0x030 => { t with sys := { y with tknote := if v.getLsbD 63 then y.tknote &&& 0x7FFFFFFFFFFFFFFF else y.tknote } }
    | 0x031 => { t with sys := { y with tkseqb := v &&& 0x00FFFFFFFFFF0000 } }
    | 0x060 =>
      { t with sys := { y with drift := if (v.setWidth 16 : BitVec 16).toNat < 64 then 64 else v.setWidth 16 }, driftAt := cycle }
    | _ => t

/-- A slot of the save image taken back at restore. The registers that R18 excepts keep their current values; the ones a replay or a verdict
may have written meanwhile are current in the image itself (R176, R191). PTS is the image's where the kernel has rewritten it (R212), with
the offsets that the image has still to take (R374); the restore then rebases it (R19). LVn of a level beyond the tree's depth goes on reading 0
(R19). DESIGN CHOICE (log entry 14): a rewritten TID is not taken; its CTXID names the thread-table entry that is restored. -/
def Thread.sysRestore (t : Thread) (n : Nat) (v : Word) : Thread :=
  let y := t.sys
  match n with
  | 0x001 => { t with sys := { y with vlg := v.setWidth 14 } }
  | 0x002 => { t with sys := { y with nvreg := v.setWidth 7 } }
  | 0x003 => { t with sys := { y with sewc := v.setWidth 2 } }
  | 0x004 => { t with sys := { y with rmode := v.setWidth 2 } }
  | 0x005 => { t with sys := { y with vstat := v.setWidth 8 } }
  | 0x006 => { t with sys := { y with fstat := v.setWidth 16 } }
  | 0x007 => if v = BitVec.ofNat 64 t.ptsSaved then t else { t with sys := { y with pts := bitsOf v 0 32 + t.ptsOwed } }
  | 0x008 => { t with sys := { y with lease := v.setWidth 8 } }
  | 0x009 => { t with sys := { y with vmpol := v.setWidth 3 } }
  | 0x010 => { t with sys := { y with pgrant := v.setWidth 8 } }
  | 0x011 => { t with sys := { y with pnan := v } }
  | 0x012 => { t with sys := { y with nanz := v.getLsbD 0 } }
  | 0x020 => { t with sys := { y with lstate := v.setWidth 4, lwhy := (v >>> 8).setWidth 8 } }
  | 0x021 => { t with sys := { y with lhand := v.setWidth 32 } }
  | 0x031 => { t with sys := { y with tkseqb := v &&& 0x00FFFFFFFFFF0000 } }
  | 0x040 => { t with sys := { y with cause := v &&& 0x800000000000FFFF } }
  | 0x041 => { t with sys := { y with epc := v &&& 0x00FFFFFFFFFFFFFF } }
  | 0x042 => { t with sys := { y with badva := v } }
  | 0x050 => { t with sys := { y with stripc := v } }
  | 0x052 => { t with sys := { y with bprio := v.setWidth 4 } }
  | 0x060 => { t with sys := { y with drift := v.setWidth 16 } }
  | k =>
    if 0x044 ≤ k ∧ k ≤ 0x04B ∧ k - 0x044 < t.id.lv.length then { t with sys := { y with lv := y.lv.setIfInBounds (k - 0x044) (v.setWidth 32) } }
    else t

end Sys2Proof.Machine
end

