-- ==== Sys2Proof/Machine/Ops.lean ====
section
/-!
DEFINITION. Ops: the answers of a meaning, the scalar registers, the program counter, saving a context, taking an exception and
returning from one (R13, R210 to R220).
-/
namespace Sys2Proof.Machine

/-! ### Answers -/

/-- What a part of a meaning answers: it goes on with a value, the instruction traps, it waits, or a kernel structure has no place
in memory. -/
inductive Res (α : Type)
  | ok (v : α) (s : State)
  | trap (t : Trap) (s : State)
  | wait (w : Watch) (s : State)
  | hole (pa : Nat)

/-- Go on with the value of a part. -/
def Res.andThen {α β : Type} (r : Res α) (f : α → State → Res β) : Res β :=
  match r with
  | .ok v s => f v s
  | .trap t s => .trap t s
  | .wait w s => .wait w s
  | .hole p => .hole p

/-- A meaning that is done. -/
def done (s : State) : Res Unit := .ok () s

/-- Go on with the state of a part. -/
def Res.seq {β : Type} (r : Res Unit) (f : State → Res β) : Res β := r.andThen fun _ s => f s

/-! ### Scalar registers and the program counter -/

/-- X[n] for a register number below 32: g0 reads 0 (R13). -/
def State.x (s : State) (n : Nat) : Word := if n = 0 then 0 else s.cur.g.getD n 0

/-- X[n] written: a write to g0 is discarded (R13). -/
def State.setX (s : State) (n : Nat) (v : Word) : State :=
  if n = 0 then s else { s with cur := { s.cur with g := s.cur.g.setIfInBounds n v } }

/-- The instruction is over: the program counter stands at an address, nothing waits, one more instruction has retired. -/
def State.goto (s : State) (a : Word) : State :=
  { s with cur := { s.cur with pc := a, wait := none, stalled := false, pass := false, retired := s.cur.retired + 1 } }

/-- The instruction is over and the next word follows. -/
def State.retire (s : State) : State := s.goto (s.cur.pc + 4)

/-- The current thread's vector instruction queue. -/
def State.queue (s : State) : List QEntry := s.cur.vec.queue

/-- Whether a queue entry writes a scalar register when it completes (R30). -/
def QEntry.scalarDest (q : QEntry) : Option Nat :=
  match q.op with
  | .mvxs _ => some q.d
  | .mpop _ => some q.d
  | .mfirst _ => some q.d
  | .tkarm => some q.d
  | _ => none

/-- Whether a scalar register waits for vector work (R30). -/
def State.notReady (s : State) (n : Nat) : Bool := decide (n ≠ 0) && s.queue.any fun q => q.scalarDest == some n

/-- A trap of the scalar stream: EPC is the instruction; `next` says that the thread resumes at the next instruction (R210). -/
def State.trapHere {α : Type} (s : State) (code detail : BitVec 8) (badva : Word) (next : Bool) : Res α :=
  .trap ⟨false, code, detail, s.cur.pc, badva, if next then s.cur.pc + 4 else s.cur.pc⟩ s

/-- The register-number-violation trap; the spec gives BADVA no value for it (log entry 19). -/
def State.regTrap {α : Type} (s : State) (detail : BitVec 8) : Res α := s.trapHere 0x0B detail s.free false

/-- The illegal-instruction trap (R235: BADVA holds 0). -/
def State.illegal {α : Type} (s : State) : Res α := s.trapHere 0x01 0 0 false

/-- The illegal-instruction trap of an encoding that is not reserved; the spec gives BADVA no value for it (log entry 19). -/
def State.illegalOp {α : Type} (s : State) : Res α := s.trapHere 0x01 0 s.free false

/-- A stall on an interlock, tried again once something has changed (R11). -/
def State.stall {α : Type} (s : State) : Res α := .wait .again s

/-- A source register's value: its number is checked (R236), and it waits for vector work that writes it (R30). -/
def readG {β : Type} (s : State) (n : BitVec 6) (detail : BitVec 8) (f : Word → Res β) : Res β :=
  if 32 ≤ n.toNat then s.regTrap detail
  else if s.notReady n.toNat then s.stall
  else f (s.x n.toNat)

/-- A destination register's number is checked (R236), and it waits for vector work that writes it. -/
def checkG {β : Type} (s : State) (n : BitVec 6) (detail : BitVec 8) (f : Res β) : Res β :=
  if 32 ≤ n.toNat then s.regTrap detail else if s.notReady n.toNat then s.stall else f

/-- The scalar registers of a form with a destination and two sources: checked, ready and read (R17, R30, R236, R259). -/
def regs3 (s : State) (d a b : BitVec 6) (f : Word → Word → Res Unit) : Res Unit :=
  checkG s d 1 (readG s a 2 fun x => readG s b 3 fun y => f x y)

/-- The scalar registers of a form with a destination and one source. -/
def regs2 (s : State) (d a : BitVec 6) (f : Word → Res Unit) : Res Unit := checkG s d 1 (readG s a 2 f)

/-- The result of a scalar instruction: X[D] written, and the next word follows. -/
def State.result (s : State) (d : BitVec 6) (v : Word) : Res Unit := done ((s.setX d.toNat v).retire)

/-- The module is in M0: a doorbell, a flit, a host access, a timer or an event has woken it (R392). -/
def State.wake (s : State) : State := { s with host := { s.host with pstate := 0 } }

/-- A message of another module acted on: the link must have accepted it, and forgets it then (R223). -/
def State.accepted (s : State) (m : LinkMsg) (f : State → Option (Res Unit)) : Option (Res Unit) :=
  if s.link.inbox.contains m then f { s with link := { s.link with inbox := s.link.inbox.erase m } } else none

/-! ### Writes that no thread makes (R212, R216, R220) -/

/-- Bytes cut at line boundaries. -/
def pieces : Nat → Nat → List Byte → List (Nat × List Byte)
  | 0, _, _ => []
  | _, _, [] => []
  | k + 1, pa, bs =>
    let n := 128 - pa % 128
    (pa, bs.take n) :: pieces k (pa + n) (bs.drop n)

/-- A write by the dispatcher or a section to a structure in memory: coherent, with no timestamp of its own (log entry 20). -/
def State.sysStore (s : State) (pa : Nat) (bs : List Byte) : State :=
  (pieces bs.length pa bs).foldl (fun s p => s.cacheWrite p.1 p.2) s

/-- The partition of the current thread's launch, or none. -/
def State.curPart (s : State) : Option Part := s.part? s.launch.part

/-- The code of STATE in the thread table (R220). -/
def TState.code : TState → Nat
  | .free => 0
  | .running => 1
  | .saved => 2
  | .savedWaiting => 3
  | .suspended => 4

/-- The doubleword with bits n from lo on replaced. -/
def setBits (w : Word) (lo n v : Nat) : Word :=
  BitVec.ofNat 64 (w.toNat % 2 ^ lo + 2 ^ lo * (v % 2 ^ n) + 2 ^ (lo + n) * (w.toNat / 2 ^ (lo + n)))

/-- The dispatcher writes STATE of a thread's table entry (R220). -/
def State.putTState (s : State) (p : Part) (c : Nat) (st : TState) : Res Unit :=
  let a := p.tableEntry c
  if s.isMemory a then done (s.sysStore a (natBytes 8 (setBits (s.mem.word a) 60 3 st.code).toNat))
  else .hole a

/-! ### Debug (R226 to R230) -/

/-- Whether a partition's debug selects a thread (R226, R230). -/
def Part.selects (p : Part) (c : Nat) : Bool :=
  p.debugOn && (p.db.dbctl.getLsbD 61 || decide (bitsOf p.db.dbctl 0 16 = c))

/-- A value of the path digest of a selected thread (R229). -/
def State.note (s : State) (v : Word) : State :=
  match s.curPart with
  | none => s
  | some p => if p.selects s.cur.id.ctxid then { s with cur := { s.cur with path := s.cur.path ++ [v] } } else s

/-! ### The save image (R216, R217, R219) -/

/-- Physical base of a thread's save image (R220). -/
def State.imageBase (s : State) (p : Part) (c : Nat) : Nat := bitsOf (s.mem.word (p.tableEntry c)) 16 36 * 65536

/-- Register size of a context, in bytes (R14, R296). -/
def Thread.regBytes (t : Thread) : Nat := (if t.id.place.isBase then 32768 else 65536) / t.sys.nvreg.toNat

/-- Doublewords as bytes. -/
def wordBytes (ws : List Nat) : List Byte := (ws.map fun w => natBytes 8 w).flatten

/-- A list of numbers brought to n entries. -/
def padTo (n : Nat) (ws : List Nat) : List Nat := (ws ++ List.replicate n 0).take n

/-- The watch of a waiting instruction as the image holds it: what is waited on, and its operands (log entry 14). -/
def Watch.words : Watch → List Nat
  | .again => [1]
  | .word d va key c y ver =>
    [2, d, va.toNat, key, (match c with | .eq => 0 | .ne => 1 | .lt => 2 | .ge => 3 | .ltu => 4 | .geu => 5 | .gen => 6), y.toNat, ver]
  | .lock key got => [3, key, (match got with | none => 0 | some w => w.toNat + 1)]
  | .bar b => [4, b]
  | .replay => [5]
  | .ring chan n its => [6, chan, n, its.length] ++ its
  | .entry => [7]
  | .epoch level done => [8, level, if done then 1 else 0]
  | .fence eng bank => [9, if eng then 1 else 0, if bank then 1 else 0]
  | .xfer ch id => [10, ch, id.toNat]
  | .banks tag => [11, tag.toNat]
  | .tokens => [12]
  | .gang rw desc mask done => [13, if rw then 1 else 0, desc.toNat, mask.toNat, if done then 1 else 0]
  | .attach => [14]
  | .lineage => [15]

/-- The watch that words of an image hold. -/
def Watch.ofWords : List Nat → Option Watch
  | 1 :: _ => some .again
  | 2 :: d :: va :: key :: c :: y :: ver :: _ =>
    some (.word d (BitVec.ofNat 64 va) key (match c with | 0 => .eq | 1 => .ne | 2 => .lt | 3 => .ge | 4 => .ltu | 5 => .geu | _ => .gen)
      (BitVec.ofNat 64 y) ver)
  | 3 :: key :: got :: _ => some (.lock key (match got with | 0 => none | n + 1 => some (BitVec.ofNat 64 n)))
  | 4 :: b :: _ => some (.bar b)
  | 5 :: _ => some .replay
  | 6 :: chan :: n :: k :: its => some (.ring chan n (its.take k))
  | 7 :: _ => some .entry
  | 8 :: level :: d :: _ => some (.epoch level (d == 1))
  | 9 :: e :: b :: _ => some (.fence (e == 1) (b == 1))
  | 10 :: ch :: id :: _ => some (.xfer ch (BitVec.ofNat 64 id))
  | 11 :: tag :: _ => some (.banks (BitVec.ofNat 64 tag))
  | 12 :: _ => some .tokens
  | 13 :: rw :: desc :: mask :: d :: _ => some (.gang (rw == 1) (BitVec.ofNat 64 desc) (BitVec.ofNat 4 mask) (d == 1))
  | 14 :: _ => some .attach
  | 15 :: _ => some .lineage
  | _ => none

/-- Whether two watches wait on one thing; the outcome that one may hold already does not count. -/
def Watch.same : Watch → Watch → Bool
  | .lock k _, .lock l _ => k == l
  | .epoch k _, .epoch l _ => k == l
  | .gang a b c _, .gang x y z _ => a == x && b == y && c == z
  | a, b => a == b

/-- A bound stream as the image holds it. -/
def Stream.words (x : Stream) : List Nat :=
  [x.reg + 256 * x.nb + 65536 * x.mask.toNat, x.desc.toNat, x.base.toNat] ++ padTo 3 (x.str.map fun a => a.toNat) ++ padTo 3 x.cnt
    ++ [x.slen, x.w.num, x.popped]

/-- A queue entry as the image holds it (R217): instruction word, captured scalars, captured modes, progress index, and the address of the
instruction. -/
def QEntry.words (q : QEntry) : List Nat :=
  padTo 8 [q.word.toNat, q.xa.toNat, q.xb.toNat, q.rmode.toNat + 256 * q.vmpol.toNat + 65536 * (if q.nanz then 1 else 0), q.prog, q.pc.toNat]

/-- A register directory entry as the image holds it (R217). -/
def VReg.words (r : VReg) : List Nat :=
  [r.valid % 65536 + 65536 * (r.prog % 65536) + 2 ^ 32 * (r.tag % 256) + 2 ^ 40 * (r.log % 256) + (if r.dirty then 2 ^ 48 else 0), 0]

/-- The position of a context among those that wait for the lanes of its core, from 1 on; 0 where it does not wait. -/
def Core.lanePosition (k : Core) (c : Nat) : Nat := if k.waiters.contains c then (k.waiters.takeWhile fun x => decide (x ≠ c)).length + 1 else 0

/-- The lines of the reserved area of an image that hold anything, as writes of zeros from the image's base (R217). -/
def reservedWrites (s : State) (base : Nat) : List (Nat × List Byte) :=
  ((List.range 135).map fun n => if n = 0 then (0x7CF0, 16) else (0x7C80 + 128 * n, 128)).filterMap fun x =>
    if (s.mem.run (base + x.1) x.2).all fun b => b == 0 then none else some (x.1, List.replicate x.2 0)

/-- The base of a thread's image. -/
def State.curImage (s : State) (t : Thread) : Nat :=
  ((s.part? (s.launchOf t.id.launch).part).map fun p => s.imageBase p t.id.ctxid).getD 0

/-- The save image of a thread (R217), as writes from the image's base: control, general and system registers, masks, queue entries and the
zero entry that ends them, register directory, wait state, the logs and headers of the lineages that the thread owns, the reserved area, and the valid lines of
the dirty vector registers (R219). The order of the fields within an area is log entry 14. -/
def Thread.image (t : Thread) (s : State) : List (Nat × List Byte) :=
  let rb := t.regBytes
  let core := s.core t.id.place
  let own := core.lins.filter fun l => decide (l.2.owner = t.id.ctxid)
  [(0x0, wordBytes (padTo 32 [1, t.id.ctxid, t.resume.toNat, t.sys.cause.toNat, t.sys.epc.toNat, t.sys.badva.toNat, t.retired,
      core.lanePosition t.id.ctxid])),
   (0x100, wordBytes ((List.range 32).map fun n => if n = 0 then 0 else (t.g.getD n 0).toNat)),
   (0x200, wordBytes (padTo 64 (sysNumbers.map fun n => ((t.sysValue s.cycle n).getD 0).toNat))),
   (0x400, ((List.range 7).map fun n => natBytes 1024 (t.vec.masks.getD (n + 1) 0).toNat).flatten),
   (0x2000, wordBytes (((t.vec.queue.map QEntry.words).flatten ++ if t.vec.queue.length < 64 then List.replicate 8 0 else []))),
   (0x3000, wordBytes ((List.range t.sys.nvreg.toNat).map fun r => ((Tab.get t.vec.regs r).getD ⟨0, 0, false, 0, 0⟩).words).flatten),
   (0x3400, wordBytes (padTo 40 ((t.wait.map Watch.words).getD [])
      ++ padTo 8 (match t.vec.frame with | none => [] | some f => [1, f.pc.toNat, f.r, f.j])
      ++ padTo 8 (match t.share with | none => [] | some h => [1, h.rows])
      ++ ((List.range 4).map fun n => padTo 16 ((t.vec.streams[n]?.map Stream.words).getD [])).flatten)),
   (0x7C00, ((List.range 15).map fun n => match Tab.get own (n + 1) with
      | none => natBytes 16 0
      | some l => natBytes 1 (if l.delta.isNone then 1 else 2) ++ natBytes 1 l.log.length ++ natBytes 6 0 ++
          natBytes 8 (l.log.foldl (fun m e => e.held.foldl (fun m r => m ||| 2 ^ r) m) 0)).flatten)]
  ++ reservedWrites s (s.curImage t)
  ++ (own.map fun l => (0x4000 + 1024 * (l.1 - 1), wordBytes ((l.2.log.map fun e => [e.word.toNat, e.pc.toNat, e.xa.toNat, e.xb.toNat]).flatten)))
  ++ (t.vec.regs.filter fun r => r.2.dirty && decide (r.2.valid ≠ 0)).map fun r =>
      (0x10000 + r.1 * (65536 / t.sys.nvreg.toNat), t.vec.vrf.run (r.1 * rb) (min rb (128 * r.2.valid)))

/-- The image of the current thread written to memory. -/
def State.writeImage (s : State) (p : Part) : Res Unit :=
  let b := s.imageBase p s.cur.id.ctxid
  if s.isMemory b then
    let t := (s.cur.image s).foldl (fun s w => s.sysStore (b + w.1) w.2) s
    done { t with cur := { t.cur with ptsSaved := s.cur.sys.pts, ptsOwed := 0 } }
  else .hole b

/-- Whether the image of a thread is in memory (RES, R220). -/
def State.imageThere (s : State) (p : Part) (c : Nat) : Bool := (s.mem.word (p.tableEntry c)).getLsbD 63

/-- The PTS slot of an image: what the kernel left there, with the offsets added since, which may take it past 20 bits (R374). -/
def ptsSlot (w : Word) : Nat := bitsOf w 0 32

/-- PTS of a saved thread, which the hardware has changed, written to its slot of the image, where the image is in memory. -/
def State.putPtsSlot (s : State) : State :=
  match decide (s.cur.st = .running ∨ s.cur.st = .free), s.curPart with
  | false, some p =>
    let a := s.imageBase p s.cur.id.ctxid + 0x230
    if s.imageThere p s.cur.id.ctxid && s.isMemory a then
      let t := s.sysStore a (natBytes 8 s.cur.sys.pts)
      { t with cur := { t.cur with ptsSaved := s.cur.sys.pts, ptsOwed := 0 } }
    else s
  | _, _ => s

/-- An offset, with those still owed, added to the PTS in the save image of a thread that is not resident; while the image is paged out the thread
owes it (R220, R374). -/
def State.addPtsSlot (s : State) (off : Nat) : State :=
  match decide (s.cur.st = .running ∨ s.cur.st = .free), s.curPart with
  | false, some p =>
    let a := s.imageBase p s.cur.id.ctxid + 0x230
    let n := s.cur.ptsOwed + off
    if n = 0 then s
    else if s.imageThere p s.cur.id.ctxid && s.isMemory a then
      let t := s.sysStore a (natBytes 8 (ptsSlot (s.mem.word a) + n))
      { t with cur := { t.cur with ptsSaved := s.cur.ptsSaved + n, ptsOwed := 0 } }
    else { s with cur := { s.cur with ptsOwed := n } }
  | _, _ => s

/-! ### The lanes of a core (R11, R154, R155) -/

/-- The effective priority of a thread. -/
def State.eprioOf (s : State) (c : Nat) : Nat := ((s.thread? c).map fun t => t.sys.eprio.toNat).getD 0

/-- The first context that lent the lanes of a core and has its replay's outcome: it waits for their return (R155). -/
def State.lenderBack (s : State) (k : Core) : Option Nat :=
  k.lenders.find? fun l => match s.thread? l with
    | some t => decide (t.sys.lstate ≠ 2)
    | none => false

/-- The context that receives a core's lanes next: the one that lent them, else the waiter of the highest effective priority, and among
equals the one that stalled first. -/
def State.nextForLanes (s : State) (k : Core) : Option Nat :=
  match s.lenderBack k with
  | some l => some l
  | none => k.waiters.foldl (fun (b : Option Nat) c => match b with
      | none => some c
      | some x => if s.eprioOf x < s.eprioOf c then some c else b) none

/-- A context holds the lanes of a core from now on. -/
def Core.give (k : Core) (c cycle : Nat) : Core :=
  { k with holder := some c, lenders := k.lenders.filter (fun x => decide (x ≠ c)), since := cycle, waiters := k.waiters.filter (fun x => decide (x ≠ c)) }

/-- The lanes of a core that no context holds go to the one that is to receive them. -/
def State.passLanes (s : State) (p : Place) : State :=
  let k := s.core p
  match k.holder, s.nextForLanes k with
  | none, some c => s.setCore p (k.give c s.cycle)
  | _, _ => s

/-- A thread no longer holds the lanes of its core, nor waits for them. -/
def Core.without (k : Core) (c : Nat) : Core :=
  { k with
    holder := if k.holder = some c then none else k.holder
    lenders := k.lenders.filter (fun x => decide (x ≠ c))
    waiters := k.waiters.filter (fun x => decide (x ≠ c)) }

/-- The current thread releases the lanes, and the next one receives them (R11, R154). -/
def State.releaseLanes (s : State) : State :=
  (s.setCore s.cur.id.place ((s.core s.cur.id.place).without s.cur.id.ctxid)).passLanes s.cur.id.place

/-- The collator slot of a loop is free again. -/
def State.freeSlot (s : State) (slot : Nat) : State := { s with slots := Tab.set s.slots slot ((Tab.get s.slots slot).getD 0 - 1) }

/-- A capture is abandoned with a reason: its slot is freed and the loop runs on (R168). -/
def State.abandon (s : State) (why : BitVec 8) : State :=
  match s.cur.loop with
  | none => s
  | some l =>
    if s.cur.sys.lstate = 1 then
      let s := s.freeSlot l.slot
      { s with cur := { s.cur with loop := none, sys := { s.cur.sys with lstate := 4, lwhy := why } } }
    else s

/-- A body instruction outside the subset that is over in a step of another kind than issue: the demonstration is abandoned, in iteration 0 as
outside the subset, later as another instruction than iteration 0 had there (R167, R168, R174; log entry 59). -/
def State.outside (s : State) : State := s.abandon (if (s.cur.loop.map fun l => l.it) = some 0 then 0x01 else 0x07)

/-- Whether the slice of the current thread is over as it is saved: unless it is a thread that could run and has had less than a whole slice,
which keeps its place in the rotation with the rest of that slice (R153; log entry 64). -/
def State.sliceOver (s : State) (st : TState) : Bool := decide (st ≠ .saved) || decide (Config.sliceCycles ≤ s.cycle - s.cur.sliceAt)

/-- The current thread leaves its hardware context: image, table entry, lanes; a demonstration is abandoned with 0x0A (R168, R216), also by BRK or
TRAP, which lie outside the subset (0x01) as well (DESIGN CHOICE, log entry 59). Strips read ahead are
discarded, but for those of a gang, whose members keep them; a strip whose read faulted is read again (R130, R290). -/
def State.saveCur (s : State) (st : TState) : Res Unit :=
  match s.curPart with
  | none => done { s with cur := { s.cur with st := st, resume := s.cur.pc } }
  | some p =>
    let s := s.abandon 0x0A
    (({ s with cur := { s.cur with resume := s.cur.pc } } : State).writeImage p).seq fun s =>
    (s.putTState p s.cur.id.ctxid st).seq fun s =>
    let s := s.releaseLanes
    done { s with cur := { s.cur with
      st := st, stalled := false, saveRebases := p.rebases.toNat
      turn := if s.sliceOver st then s.nextTurn else s.cur.turn, turnAt := if s.sliceOver st then s.cycle else s.cur.turnAt
      sliceUsed := if s.sliceOver st then 0 else s.cycle - s.cur.sliceAt
      vec := { s.cur.vec with
        regs := s.cur.vec.regs.map (fun r => (r.1, { r.2 with dirty := false }))
        streams := s.cur.vec.streams.map (fun x => { x with ready := if x.mask = 0 then [] else x.ready, err := none }) } } }

/-- An event record joins the ones that wait for room in the partition's queue (R212, R214). -/
def State.raiseEvent (s : State) (p : Nat) (e : EvRec) : State :=
  s.modPart p fun x => { x with pending := x.pending ++ [e] }

/-! ### Taking an exception (R31, R212) -/

/-- CAUSE as a trap writes it (R26). -/
def Trap.causeWord (t : Trap) : Word :=
  (if t.vs then 0x8000000000000000 else 0) ||| t.detail.setWidth 64 <<< 8 ||| t.code.setWidth 64

/-- A trap delivered: CAUSE, EPC and BADVA are written, the thread is saved and SUSPENDED, and a TRAP event is raised. The resume address
is the trap's (R210). -/
def State.deliver (s : State) (t : Trap) : Res Unit :=
  let s := { s with cur := { s.cur with
    sys := { s.cur.sys with cause := t.causeWord, epc := t.epc &&& 0x00FFFFFFFFFFFFFF, badva := t.badva },
    pc := t.resume, trap := none, wait := if t.vs then s.cur.wait else none, stalled := false, pass := decide (t.code = 6 ∧ t.detail ≠ 0) } }
  (s.saveCur .suspended).seq fun s =>
  done (s.raiseEvent s.launch.part
    { type := 1, ctxid := s.cur.id.ctxid, cause := t.causeWord, epc := t.epc, badva := t.badva, id := 0, ch := 0, cycle := s.cycle })

/-- A trap taken: a scalar trap waits until the queue has drained (R31), and nothing is delivered to a context that is not running. -/
def State.takeTrap (s : State) (t : Trap) : Res Unit :=
  if t.vs || s.queue.isEmpty then s.deliver t
  else done { s with cur := { s.cur with trap := some t, wait := none, stalled := true } }

/-- Return from an exception (R213): RESUME makes a SUSPENDED thread runnable; its restore takes the resume address and every register from
its image. -/
def State.resumeCur (s : State) : Res Unit :=
  match s.curPart with
  | none => done s
  | some p =>
    (s.putTState p s.cur.id.ctxid .saved).seq fun s =>
    done ({ s with cur := { s.cur with st := .saved } } : State).joined

/-- The outcome of an instruction's meaning: a trap is taken, a wait leaves the thread at its instruction. -/
def finish (r : Res Unit) : Host.Outcome State Fault Refusal :=
  match r with
  | .ok _ s => .next s
  | .hole p => .fault (.physicalHole p)
  | .wait w s => .next { s with cur := { s.cur with wait := some w, stalled := true } }
  | .trap t s =>
    match s.takeTrap t with
    | .ok _ s => .next s
    | .hole p => .fault (.physicalHole p)
    | .wait _ s => .next s
    | .trap _ s => .next s

/-- The outcome of another agent's step: where it is not enabled nothing changes. -/
def stepOr (s : State) (r : Option (Res Unit)) : Host.Outcome State Fault Refusal :=
  match r with
  | none => .next s
  | some r => finish r

end Sys2Proof.Machine
end

