-- ==== Sys2Proof/Machine/Access.lean ====
section
/-!
DEFINITION. Access: one aligned access of a thread, from its address to its value: the checks in the order of R211, coherent memory
and the local store (R37), poison (R204, R267), and the buffered stores of DET launches (R110, R218).
-/
namespace Sys2Proof.Machine

/-! ### Local store -/

/-- The bytes of a launch's local store on a cluster. -/
def Launch.store (l : Launch) (cl : Nat) : Mem := (Tab.get l.stores cl).getD []

/-- n bytes of the local store of the current thread's launch on its cluster. -/
def State.locRun (s : State) (off n : Nat) : List Byte := (s.launch.store s.cur.id.place.cluster).run off n

/-- The key of a line of a cluster's local store in a checkpoint. -/
def locKey (cl off : Nat) : Nat := cl * 2 ^ 32 + off / 128

/-- The old contents of the local store's lines that bytes are about to be written to, captured for a checkpoint (R228). -/
def State.captureLoc (s : State) (launch cl off n : Nat) : State :=
  (linesOf off n).foldl (fun s l => s.captureOld launch (.loc (locKey cl (128 * l)) (((s.launchOf launch).store cl).line l))) s

/-- Bytes written to a launch's local store on a cluster. -/
def State.locWriteAt (s : State) (launch cl off : Nat) (bs : List Byte) : State :=
  let s := s.captureLoc launch cl off bs.length
  s.modLaunch launch fun l => { l with stores := Tab.set l.stores cl ((l.store cl).write off bs) }

def State.locWrite (s : State) (off : Nat) (bs : List Byte) : State :=
  s.locWriteAt s.cur.id.launch s.cur.id.place.cluster off bs

/-- The key of a 16-byte granule of a cluster's local store. -/
def granule (cl off : Nat) : Nat := cl * 2 ^ 32 + off / 16

/-- The largest timestamp at which a sync word among n bytes of a cluster's local store published (R122). -/
def Launch.locStamp (l : Launch) (cl off n : Nat) : Nat :=
  l.locTs.foldl (fun m x => if granule cl off ≤ x.1 ∧ x.1 ≤ granule cl (off + n - 1) then max m x.2 else m) 0

/-- An access to the local store sees what a sync word there published: PTS rises to that timestamp (R122, R124). -/
def State.seeLoc (s : State) (off n : Nat) : State :=
  if s.launch.locTs.isEmpty then s else s.raisePts (s.launch.locStamp s.cur.id.place.cluster off n)

/-- A publication by a sync word in the local store of a launch on a cluster, at a timestamp. -/
def State.stampLoc (s : State) (launch cl off ts : Nat) : State :=
  s.modLaunch launch fun l => { l with locTs := Tab.set l.locTs (granule cl off) (max ts ((Tab.get l.locTs (granule cl off)).getD 0)) }

/-! ### Where an access goes -/

/-- The checks that come before an access performs (R199, R265): alignment and translation. `size` is a power of two. -/
def State.aim (s : State) (n : Need) (ea : Word) (size : Nat) (code : BitVec 8) : Where :=
  if ea.toNat % size ≠ 0 then .bad 2 code
  else match s.xlate s.xctx n ea with
    | .phys pa => .phys pa
    | .loc off => .loc off
    | .host _ => .bad 3 5
    | .bad c d => .bad c d

/-- The contained memory error of an access to a poisoned line (R204, R267). -/
def State.unpoisoned (s : State) (w : Where) : Where :=
  match w with
  | .phys pa => if s.poisoned pa then .bad 8 0 else .phys pa
  | w => w

/-- The checks of one access of `size` bytes: alignment, translation, poison. -/
def State.spot (s : State) (n : Need) (ea : Word) (size : Nat) (code : BitVec 8) : Where := s.unpoisoned (s.aim n ea size code)

/-! ### Buffered stores of a DET thread (R110, R218) -/

/-- Whether the current thread's launch is deterministic. -/
def State.isDet (s : State) : Bool := s.launch.lrec.det

/-- The physical address of a slot of the overflow area: 1,020 in the image, then 4,092 in each extension page of the chain. -/
def overflowSlot (m : Mem) (image : Nat) (k : Nat) : Option Nat :=
  if k < 1020 then some (image + 0xC000 + 64 + 16 * k)
  else chain (m.word (image + 0xC000 + 8)).toNat (k - 1020) k
where
  /-- A slot counted from an extension page; `fuel` bounds the pages. -/
  chain (page k : Nat) : Nat → Option Nat
    | 0 => if page = 0 then none else if k < 4092 then some (page + 16 * k) else none
    | fuel + 1 =>
      if page = 0 then none
      else if k < 4092 then some (page + 16 * k)
      else chain (m.word (page + 65472)).toNat (k - 4092) fuel

/-- Whether the directory of the current thread's overflow area or its slot k lies in a poisoned line (R204). -/
def State.slotPoisoned (s : State) (k : Nat) : Bool :=
  match s.curPart with
  | none => false
  | some p =>
    let b := s.imageBase p s.cur.id.ctxid
    s.poisoned (b + 0xC000) || match overflowSlot s.mem b k with
      | some a => s.poisoned a
      | none => false

/-- One store of the current thread buffered, or none where buffer and overflow area are full (R218), or the area is poisoned (R204). What exceeds
the write-combining buffer is also written to the overflow area. -/
def State.buffer (s : State) (x : DetStore) : Option State :=
  let k := s.cur.det.length
  let t := { s with cur := { s.cur with det := s.cur.det ++ [x] } }
  if k < Config.wcbEntries then some t
  else match s.curPart with
    | none => none
    | some p =>
      let b := s.imageBase p s.cur.id.ctxid
      match overflowSlot s.mem b (k - Config.wcbEntries) with
      | none => none
      | some a =>
        if s.isMemory b && s.isMemory a && !s.slotPoisoned (k - Config.wcbEntries) then
          let t := t.sysStore (b + 0xC000) (natBytes 8 (k - Config.wcbEntries + 1))
          let code := match x.data.length with
            | 1 => 0
            | 2 => 1
            | 4 => 2
            | _ => 3
          some (t.sysStore a (natBytes 8 (x.va.toNat + 2 ^ 56 * code) ++ natBytes 8 (leNat x.data)))
        else none

/-- The code of the trap of a store that finds no room in the buffer: a contained memory error comes before an overflow (R204, R211, R218). -/
def State.noRoom (s : State) : BitVec 8 := if s.slotPoisoned (s.cur.det.length - Config.wcbEntries) then 8 else 0x0D

/-- The address at which the buffered stores of the current thread meet a poisoned line as they are to perform: one of the lines they go to, or one of
its overflow area, for which no rule gives an address (R204; log entries 19, 129). -/
def State.detPoison (s : State) : Option Word :=
  if (List.range (s.cur.det.length - Config.wcbEntries)).any s.slotPoisoned then some s.free
  else (s.cur.det.find? fun d => !d.loc && s.poisoned d.pa).map fun d => d.va

/-- The byte that buffered stores give an address. -/
def ownByte (ds : List DetStore) (loc : Bool) (a : Nat) : Option Byte :=
  ds.foldl (fun r d => if d.loc = loc ∧ d.pa ≤ a ∧ a < d.pa + d.data.length then some (d.data.getD (a - d.pa) 0) else r) none

/-- Bytes from an address on as the current context sees them: its own buffered stores come first (R110, R171). -/
def State.own (s : State) (loc : Bool) (a : Nat) (bs : List Byte) : List Byte :=
  if s.cur.det.isEmpty then bs
  else (bs.zip (List.range bs.length)).map fun p => (ownByte s.cur.det loc (a + p.2)).getD p.1

/-- What a DET thread's load sees: its own buffered store, else memory as its node's last epoch left it (R110). -/
def State.detRun (s : State) (loc : Bool) (a n : Nat) : List Byte :=
  s.own loc a ((if loc then s.cur.snapLoc else s.cur.snap).run a n)

/-- Buffered stores performed in order, each where and under the policy that its instruction gave it (R22, R36). -/
def State.performStores (s : State) (ds : List DetStore) : State :=
  ds.foldl (fun s d => if d.loc then s.locWrite d.pa d.data else s.leaseWriteBy d.vec d.pol d.pa d.data) s

/-! ### Performing an access -/

/-- An ordinary load of n bytes at a checked place. `vec` says that it performs at the cluster L2 (R36). DESIGN CHOICE (log entry 86): a
load of a DET thread takes no lease and leaves PTS as it stands; a vector one still evicts the scalar L1 copies of its line. -/
def State.load (s : State) (vec : Bool) (w : Where) (n : Nat) : Nat × State :=
  match w with
  | .phys pa =>
    if s.isDet then (leNat (s.detRun false pa n), if vec then s.evictL1 s.cur.id.place.cluster (pa / 128) else s)
    else let r := s.leaseRead vec pa n; (leNat (s.own false pa r.1), r.2)
  | .loc off => if s.isDet then (leNat (s.detRun true off n), s) else (leNat (s.own true off (s.locRun off n)), s.seeLoc off n)
  | _ => (0, s)

/-- An ordinary store of n bytes at a checked place, or none where a DET thread has no room for it. -/
def State.store (s : State) (vec : Bool) (va : Word) (w : Where) (n v : Nat) : Option State :=
  let bs := natBytes n v
  match w with
  | .phys pa => if s.isDet then s.buffer ⟨va, pa, false, s.pageTag s.xctx va, vec, if vec then s.policy else 0, bs⟩ else some (s.leaseWrite vec pa bs)
  | .loc off => if s.isDet then s.buffer ⟨va, off, true, ⟨false, false⟩, vec, 0, bs⟩ else some (s.locWrite off bs)
  | _ => some s

/-- The read of a read-modify-write, at the timestamp its write takes (R96), of memory at once even in a DET launch (R110). -/
def State.rmwRead (s : State) (w : Where) (n : Nat) : Nat :=
  match w with
  | .phys pa => s.mem.nat pa n
  | .loc off => leNat (s.locRun off n)
  | _ => 0

/-- The write of a read-modify-write (R96, R110). -/
def State.rmwWrite (s : State) (vec : Bool) (w : Where) (n v : Nat) : State :=
  match w with
  | .phys pa => s.leaseWrite vec pa (natBytes n v)
  | .loc off => (s.seeLoc off n).locWrite off (natBytes n v)
  | _ => s

/-- A load that bypasses the buffer of a DET launch: a failing compare-and-swap, a check of WAITW or of a sync word. -/
def State.rmwLoad (s : State) (w : Where) (n : Nat) : Nat × State :=
  match w with
  | .phys pa =>
    let s := s.leaseRenew false (pa / 128)
    (s.mem.nat pa n, s)
  | .loc off => (leNat (s.locRun off n), s.seeLoc off n)
  | _ => (0, s)

/-! ### The queue and the scalar stream -/

def VMemOp.isStore : VMemOp → Bool
  | .st => true
  | .sts => true
  | .stx => true
  | .stseg => true
  | _ => false

/-- Whether a queue entry is a vector memory instruction, or a press load that performs as one (R104, R106). -/
def QOp.isMem : QOp → Bool
  | .mem _ _ _ _ _ => true
  | .amo _ _ _ => true
  | .pload _ reg _ _ => !reg
  | _ => false

/-- Whether it holds back later scalar accesses (R104). -/
def QOp.holdsScalar : QOp → Bool
  | .mem _ _ _ k _ => !k
  | .amo _ _ _ => true
  | .pload _ reg _ _ => !reg
  | _ => false

/-- Whether an older K = 0 vector memory instruction stands in the queue. -/
def State.memBusy (s : State) : Bool := s.queue.any fun q => q.op.holdsScalar

/-- Whether a queue entry is an ordinary vector store. -/
def QOp.isStore : QOp → Bool
  | .mem f _ _ _ _ => f.isStore
  | _ => false

/-- Whether a scalar store of a DET thread has to wait for its turn in the buffer: a vector store stands in the queue, K = 1 included, whose bytes
come before it in program order (R85, R110). -/
def State.storesQueued (s : State) : Bool := s.isDet && s.queue.any fun q => q.op.isStore

/-- The trap of an access that goes nowhere, with BADVA the address. -/
def State.badAccess {α : Type} (s : State) (w : Where) (ea : Word) : Option (Res α) :=
  match w with
  | .bad c d => some (s.trapHere c d ea false)
  | _ => none

end Sys2Proof.Machine
end

