-- ==== Sys2Proof/Machine/LoadStore.lean ====
section
/-!
DEFINITION. LoadStore: the scalar loads and stores (R264 to R267).
-/
namespace Sys2Proof.Machine

/-- One access of the scalar stream, checked by R211 and ordered by R104: what R265 does before its last step. The contained-memory
error is found only once the older vector memory instructions have performed. -/
def scalarAccess (s : State) (n : Need) (ea : Word) (w : Wid) (f : Where → Res Unit) : Res Unit :=
  match s.spot n ea w.bytes (BitVec.ofNat 8 w.num) with
  | .bad c d => if decide (c = 8) && s.memBusy then s.stall else s.trapHere c d ea false
  | p => if s.memBusy then s.stall else f p

/-- The address of a scalar load or store (R265). -/
def scalarEa (x : Word) (w : Wid) (o : BitVec 11) : Word := x + BitVec.ofInt 64 (o.toInt * w.bytes)

/-- LDS (R265): the value is sign-extended. -/
def execLds (d a : BitVec 6) (w : Wid) (o : BitVec 11) (s : State) : Host.Outcome State Fault Refusal :=
  finish (regs2 s d a fun x =>
    scalarAccess s needRd (scalarEa x w o) w fun p =>
      let r := s.load false p w.bytes
      r.2.result d (BitVec.ofInt 64 (sgn (8 * w.bytes) r.1)))

/-- LDZ (R265): the value is zero-extended. -/
def execLdz (d a : BitVec 6) (w : Wid) (o : BitVec 11) (s : State) : Host.Outcome State Fault Refusal :=
  finish (regs2 s d a fun x =>
    scalarAccess s needRd (scalarEa x w o) w fun p =>
      let r := s.load false p w.bytes
      r.2.result d (BitVec.ofNat 64 r.1))

/-- ST (R265): D names the register whose low bits are stored. In a DET launch it joins the buffer behind the older vector stores (R85, R110). -/
def execSt (d a : BitVec 6) (w : Wid) (o : BitVec 11) (s : State) : Host.Outcome State Fault Refusal :=
  finish (readG s d 1 fun v => readG s a 2 fun x =>
    let ea := scalarEa x w o
    scalarAccess s needWr ea w fun p =>
      if s.storesQueued then s.stall
      else match s.store false ea p w.bytes v.toNat with
      | some s => done s.retire
      | none => s.trapHere s.noRoom 0 ea false)

end Sys2Proof.Machine
end

