-- ==== Sys2Proof/Machine/Scalar.lean ====
section
/-!
DEFINITION. Scalar: register arithmetic, immediate arithmetic and long immediates (R259 to R263).
-/
namespace Sys2Proof.Machine

/-- The shift count of R261: the low six bits. -/
def shamt (b : Word) : Nat := b.toNat % 64

/-- Leading zero bits of a doubleword. -/
def clz64 (a : Word) : Nat := if a = 0 then 64 else 63 - Nat.log2 a.toNat

/-- One bits of a doubleword. -/
def popc64 (a : Word) : Nat := ((List.range 64).filter fun i => a.getLsbD i).length

/-- Bits of the width code of SEXT and ZEXT (R260). -/
def extBits (w : BitVec 6) : Nat := 8 * 2 ^ w.toNat

/-- The immediate of form I (R238). -/
def imm13 (i : BitVec 13) : Word := i.signExtend 64

/-! ### Results (R261, R262) -/

def opAdd (a b : Word) : Word := a + b
def opSub (a b : Word) : Word := a - b
def opAnd (a b : Word) : Word := a &&& b
def opOr (a b : Word) : Word := a ||| b
def opXor (a b : Word) : Word := a ^^^ b
def opAndn (a b : Word) : Word := a &&& ~~~b
def opSll (a b : Word) : Word := a <<< shamt b
def opSrl (a b : Word) : Word := a >>> shamt b
def opSra (a b : Word) : Word := a.sshiftRight (shamt b)
def opMul (a b : Word) : Word := a * b
def opMulh (a b : Word) : Word := BitVec.ofInt 64 (a.toInt * b.toInt / 2 ^ 64)
def opMulhu (a b : Word) : Word := BitVec.ofNat 64 (a.toNat * b.toNat / 2 ^ 64)
def opDiv (a b : Word) : Word := BitVec.ofNat 64 (divS 64 a.toNat b.toNat)
def opDivu (a b : Word) : Word := BitVec.ofNat 64 (divU 64 a.toNat b.toNat)
def opRem (a b : Word) : Word := BitVec.ofNat 64 (remS 64 a.toNat b.toNat)
def opRemu (a b : Word) : Word := BitVec.ofNat 64 (remU 64 a.toNat b.toNat)
def opMin (a b : Word) : Word := if a.toInt ≤ b.toInt then a else b
def opMax (a b : Word) : Word := if a.toInt ≤ b.toInt then b else a
def opMinu (a b : Word) : Word := if a.toNat ≤ b.toNat then a else b
def opMaxu (a b : Word) : Word := if a.toNat ≤ b.toNat then b else a
def opSlt (a b : Word) : Word := if a.toInt < b.toInt then 1 else 0
def opSltu (a b : Word) : Word := if a.toNat < b.toNat then 1 else 0

/-! ### The ALU family -/

/-- ADD (R261). -/
def execAdd (d a b : BitVec 6) (s : State) : Host.Outcome State Fault Refusal :=
  finish (regs3 s d a b fun x y => s.result d (opAdd x y))

/-- SUB (R261). -/
def execSub (d a b : BitVec 6) (s : State) : Host.Outcome State Fault Refusal :=
  finish (regs3 s d a b fun x y => s.result d (opSub x y))

/-- AND (R261). -/
def execAnd (d a b : BitVec 6) (s : State) : Host.Outcome State Fault Refusal :=
  finish (regs3 s d a b fun x y => s.result d (opAnd x y))

/-- OR (R261). -/
def execOr (d a b : BitVec 6) (s : State) : Host.Outcome State Fault Refusal :=
  finish (regs3 s d a b fun x y => s.result d (opOr x y))

/-- XOR (R261). -/
def execXor (d a b : BitVec 6) (s : State) : Host.Outcome State Fault Refusal :=
  finish (regs3 s d a b fun x y => s.result d (opXor x y))

/-- ANDN (R261). -/
def execAndn (d a b : BitVec 6) (s : State) : Host.Outcome State Fault Refusal :=
  finish (regs3 s d a b fun x y => s.result d (opAndn x y))

/-- SLL (R261). -/
def execSll (d a b : BitVec 6) (s : State) : Host.Outcome State Fault Refusal :=
  finish (regs3 s d a b fun x y => s.result d (opSll x y))

/-- SRL (R261). -/
def execSrl (d a b : BitVec 6) (s : State) : Host.Outcome State Fault Refusal :=
  finish (regs3 s d a b fun x y => s.result d (opSrl x y))

/-- SRA (R261). -/
def execSra (d a b : BitVec 6) (s : State) : Host.Outcome State Fault Refusal :=
  finish (regs3 s d a b fun x y => s.result d (opSra x y))

/-- MUL (R261). -/
def execMul (d a b : BitVec 6) (s : State) : Host.Outcome State Fault Refusal :=
  finish (regs3 s d a b fun x y => s.result d (opMul x y))

/-- MULH (R261). -/
def execMulh (d a b : BitVec 6) (s : State) : Host.Outcome State Fault Refusal :=
  finish (regs3 s d a b fun x y => s.result d (opMulh x y))

/-- MULHU (R261). -/
def execMulhu (d a b : BitVec 6) (s : State) : Host.Outcome State Fault Refusal :=
  finish (regs3 s d a b fun x y => s.result d (opMulhu x y))

/-- DIV (R261). -/
def execDiv (d a b : BitVec 6) (s : State) : Host.Outcome State Fault Refusal :=
  finish (regs3 s d a b fun x y => s.result d (opDiv x y))

/-- DIVU (R261). -/
def execDivu (d a b : BitVec 6) (s : State) : Host.Outcome State Fault Refusal :=
  finish (regs3 s d a b fun x y => s.result d (opDivu x y))

/-- REM (R261). -/
def execRem (d a b : BitVec 6) (s : State) : Host.Outcome State Fault Refusal :=
  finish (regs3 s d a b fun x y => s.result d (opRem x y))

/-- REMU (R261). -/
def execRemu (d a b : BitVec 6) (s : State) : Host.Outcome State Fault Refusal :=
  finish (regs3 s d a b fun x y => s.result d (opRemu x y))

/-- MIN (R261). -/
def execMin (d a b : BitVec 6) (s : State) : Host.Outcome State Fault Refusal :=
  finish (regs3 s d a b fun x y => s.result d (opMin x y))

/-- MAX (R261). -/
def execMax (d a b : BitVec 6) (s : State) : Host.Outcome State Fault Refusal :=
  finish (regs3 s d a b fun x y => s.result d (opMax x y))

/-- MINU (R261). -/
def execMinu (d a b : BitVec 6) (s : State) : Host.Outcome State Fault Refusal :=
  finish (regs3 s d a b fun x y => s.result d (opMinu x y))

/-- MAXU (R261). -/
def execMaxu (d a b : BitVec 6) (s : State) : Host.Outcome State Fault Refusal :=
  finish (regs3 s d a b fun x y => s.result d (opMaxu x y))

/-- SLT (R261). -/
def execSlt (d a b : BitVec 6) (s : State) : Host.Outcome State Fault Refusal :=
  finish (regs3 s d a b fun x y => s.result d (opSlt x y))

/-- SLTU (R261). -/
def execSltu (d a b : BitVec 6) (s : State) : Host.Outcome State Fault Refusal :=
  finish (regs3 s d a b fun x y => s.result d (opSltu x y))

/-- CLZ (R261). -/
def execClz (d a : BitVec 6) (s : State) : Host.Outcome State Fault Refusal :=
  finish (regs2 s d a fun x => s.result d (BitVec.ofNat 64 (clz64 x)))

/-- POPC (R261). -/
def execPopc (d a : BitVec 6) (s : State) : Host.Outcome State Fault Refusal :=
  finish (regs2 s d a fun x => s.result d (BitVec.ofNat 64 (popc64 x)))

/-- SEXT (R260, R261): a width code above 2 is reserved. -/
def execSext (d a w : BitVec 6) (s : State) : Host.Outcome State Fault Refusal :=
  finish (if 2 < w.toNat then s.illegal
    else regs2 s d a fun x => s.result d (BitVec.ofInt 64 (sgn (extBits w) x.toNat)))

/-- ZEXT (R260, R261). -/
def execZext (d a w : BitVec 6) (s : State) : Host.Outcome State Fault Refusal :=
  finish (if 2 < w.toNat then s.illegal
    else regs2 s d a fun x => s.result d (BitVec.ofNat 64 (x.toNat % 2 ^ extBits w)))

/-! ### Immediate arithmetic (R262) -/

/-- ADDI (R262). -/
def execAddi (d a : BitVec 6) (i : BitVec 13) (s : State) : Host.Outcome State Fault Refusal :=
  finish (regs2 s d a fun x => s.result d (opAdd x (imm13 i)))

/-- ANDI (R262). -/
def execAndi (d a : BitVec 6) (i : BitVec 13) (s : State) : Host.Outcome State Fault Refusal :=
  finish (regs2 s d a fun x => s.result d (opAnd x (imm13 i)))

/-- ORI (R262). -/
def execOri (d a : BitVec 6) (i : BitVec 13) (s : State) : Host.Outcome State Fault Refusal :=
  finish (regs2 s d a fun x => s.result d (opOr x (imm13 i)))

/-- XORI (R262). -/
def execXori (d a : BitVec 6) (i : BitVec 13) (s : State) : Host.Outcome State Fault Refusal :=
  finish (regs2 s d a fun x => s.result d (opXor x (imm13 i)))

/-- SLTI (R262). -/
def execSlti (d a : BitVec 6) (i : BitVec 13) (s : State) : Host.Outcome State Fault Refusal :=
  finish (regs2 s d a fun x => s.result d (opSlt x (imm13 i)))

/-- SLLI (R262). -/
def execSlli (d a i : BitVec 6) (s : State) : Host.Outcome State Fault Refusal :=
  finish (regs2 s d a fun x => s.result d (opSll x (i.setWidth 64)))

/-- SRLI (R262). -/
def execSrli (d a i : BitVec 6) (s : State) : Host.Outcome State Fault Refusal :=
  finish (regs2 s d a fun x => s.result d (opSrl x (i.setWidth 64)))

/-- SRAI (R262). -/
def execSrai (d a i : BitVec 6) (s : State) : Host.Outcome State Fault Refusal :=
  finish (regs2 s d a fun x => s.result d (opSra x (i.setWidth 64)))

/-! ### Long immediates (R263) -/

/-- The immediate of form L, scaled. -/
def imm19 (i : BitVec 19) : Word := i.signExtend 64 <<< 13

/-- LIH. -/
def execLih (d : BitVec 6) (i : BitVec 19) (s : State) : Host.Outcome State Fault Refusal :=
  finish (checkG s d 1 (s.result d (imm19 i)))

/-- ADDPC. -/
def execAddpc (d : BitVec 6) (i : BitVec 19) (s : State) : Host.Outcome State Fault Refusal :=
  finish (checkG s d 1 (s.result d (s.cur.pc + imm19 i)))

end Sys2Proof.Machine
end

