-- ==== Sys2Proof/Machine/Atomics.lean ====
section
/-!
DEFINITION. Atomics: AMO and CAS (R334 to R336), and the inheritance of priority among lock waiters (R156 to R158).
-/
namespace Sys2Proof.Machine

/-! ### AMO and CAS (R335, R336) -/

/-- One read-modify-write of the word that X[A] names, with X[B]; X[D] takes the old value. -/
def amo (s : State) (d a b : BitVec 6) (f : Word → Word → Word) : Res Unit :=
  regs3 s d a b fun x y =>
    scalarAccess s needRw x .d fun p =>
      let old := BitVec.ofNat 64 (s.rmwRead p 8)
      ((s.rmwWrite false p 8 (f old y).toNat).note old).result d old

/-- AMO.ADD. -/
def execAmoAdd (d a b : BitVec 6) (s : State) : Host.Outcome State Fault Refusal := finish (amo s d a b opAdd)

/-- AMO.AND. -/
def execAmoAnd (d a b : BitVec 6) (s : State) : Host.Outcome State Fault Refusal := finish (amo s d a b opAnd)

/-- AMO.OR. -/
def execAmoOr (d a b : BitVec 6) (s : State) : Host.Outcome State Fault Refusal := finish (amo s d a b opOr)

/-- AMO.XOR. -/
def execAmoXor (d a b : BitVec 6) (s : State) : Host.Outcome State Fault Refusal := finish (amo s d a b opXor)

/-- AMO.MIN. -/
def execAmoMin (d a b : BitVec 6) (s : State) : Host.Outcome State Fault Refusal := finish (amo s d a b opMin)

/-- AMO.MAX. -/
def execAmoMax (d a b : BitVec 6) (s : State) : Host.Outcome State Fault Refusal := finish (amo s d a b opMax)

/-- AMO.MINU. -/
def execAmoMinu (d a b : BitVec 6) (s : State) : Host.Outcome State Fault Refusal := finish (amo s d a b opMinu)

/-- AMO.MAXU. -/
def execAmoMaxu (d a b : BitVec 6) (s : State) : Host.Outcome State Fault Refusal := finish (amo s d a b opMaxu)

/-- AMO.SWAP. -/
def execAmoSwap (d a b : BitVec 6) (s : State) : Host.Outcome State Fault Refusal := finish (amo s d a b fun _ y => y)

/-- CAS: the word compared with the old X[D]; where it differs, a renewal that writes nothing. -/
def execCas (d a b : BitVec 6) (s : State) : Host.Outcome State Fault Refusal :=
  finish (readG s d 1 fun e => readG s a 2 fun x => readG s b 3 fun y =>
    scalarAccess s needRw x .d fun p =>
      let old := BitVec.ofNat 64 (s.rmwRead p 8)
      let s := if old = e then s.rmwWrite false p 8 y.toNat else (s.rmwLoad p 8).2
      (s.note old).result d old)

/-! ### Lock words (R156) -/

/-- The name of a lock word's queue: its physical address, or its place in a local store above every physical address. -/
def State.placeKey (s : State) (w : Where) : Nat :=
  match w with
  | .phys pa => pa
  | .loc off => 2 ^ 60 + ((s.cur.id.launch * 256 + s.cur.id.place.cluster) * 2 ^ 21 + off)
  | _ => 0

/-- The place that a lock word's name stands for, seen by a thread of its launch and cluster. -/
def keyPlace (k : Nat) : Where := if k < 2 ^ 60 then .phys k else .loc (k % 2 ^ 21)

/-- The launch and cluster of a lock word in a local store. -/
def keyStore (k : Nat) : Nat × Nat := ((k - 2 ^ 60) / 2 ^ 21 / 256, (k - 2 ^ 60) / 2 ^ 21 % 256)

/-- The lock word of a name. -/
def State.keyWord (s : State) (k : Nat) : Nat :=
  if k < 2 ^ 60 then s.mem.nat k 8
  else leNat (((s.launchOf (keyStore k).1).store (keyStore k).2).run (k % 2 ^ 21) 8)

/-- A write to the lock word of a name: an atomic of the current thread, wherever the word lies. -/
def State.keyWrite (s : State) (k v : Nat) : State :=
  if k < 2 ^ 60 then s.rmwWrite false (.phys k) 8 v
  else if keyStore k = (s.cur.id.launch, s.cur.id.place.cluster) then s.rmwWrite false (.loc (k % 2 ^ 21)) 8 v
  else s.locWriteAt (keyStore k).1 (keyStore k).2 (k % 2 ^ 21) (natBytes 8 v)

/-- HOLDER of a lock word. -/
def holderOf (w : Nat) : Nat := w % 65536

/-- A lock word with HOLDER and W replaced (bits 63:17 never change). -/
def lockWith (w holder : Nat) (waits : Bool) : Nat := w / 2 ^ 17 * 2 ^ 17 + (if waits then 65536 else 0) + holder

/-- Whether a CTXID belongs to a live thread. -/
def State.live (s : State) (c : Nat) : Bool := match s.thread? c with
  | some t => decide (t.st ≠ .free)
  | none => false

/-- The waiters of a lock word. -/
def State.lockQueue (s : State) (k : Nat) : List Nat := (Tab.get s.locks k).getD []

def State.setLockQueue (s : State) (k : Nat) (l : List Nat) : State :=
  { s with locks := if l.isEmpty then Tab.del s.locks k else Tab.set s.locks k l }

/-- The waiter that is served first: the highest effective priority, and among equals the first to arrive. -/
def State.firstWaiter (s : State) (l : List Nat) : Option Nat :=
  let pr : Nat → Nat := fun c => ((s.thread? c).map fun t => t.sys.eprio.toNat).getD 0
  l.foldl (fun b c => match b with
    | none => some c
    | some x => if pr x < pr c then some c else b) none

/-! ### Inheritance (R157) -/

/-- One round of inheritance: each thread's effective priority is raised to that of every waiter of a lock it holds. A thread that comes to another
priority takes its turn in the round that this one's rotation has come to (log entry 64). -/
def State.inheritOnce (s : State) : State :=
  let pr : Nat → Nat := fun c => ((s.thread? c).map fun t => t.sys.eprio.toNat).getD 0
  let held : List (Nat × Nat) := s.locks.map fun l => (holderOf (s.keyWord l.1), l.2.foldl (fun m c => max m (pr c)) 0)
  s.modThreads fun t =>
    let p := held.foldl (fun m h => if h.1 = t.id.ctxid then max m h.2 else m) t.raised.toNat
    let u := { t with raised := BitVec.ofNat 4 p, sys := { t.sys with eprio := BitVec.ofNat 4 (max t.sys.bprio.toNat p) } }
    if u.sys.eprio = t.sys.eprio then u else u.toRound (s.round u) s.cycle

/-- Waiters' effective priorities passed on to the holders, which keep them until an UNLOCK of their own; as many rounds as there are
threads reach every holder of a chain. -/
def State.inherit (s : State) : State := (List.range (s.others.length + 1)).foldl (fun s _ => s.inheritOnce) s

/-- The current thread's inherited priority computed anew, at its UNLOCK (R157). -/
def State.reinherit (s : State) : State := ({ s with cur := { s.cur with raised := 0 } } : State).inherit

/-- The lock handed to its first waiter, whose LOCK returns `code`, or freed (R156, R158). The write is the current thread's. -/
def State.handOver (s : State) (k : Nat) (code : Word) : State :=
  let w := s.keyWord k
  match s.firstWaiter (s.lockQueue k) with
  | none => s.keyWrite k (lockWith w 0 false)
  | some c =>
    let rest := (s.lockQueue k).filter fun x => decide (x ≠ c)
    let s := s.keyWrite k (lockWith w c (!rest.isEmpty))
    (s.setLockQueue k rest).modThread c fun t => { t with wait := some (.lock k (some code)), stalled := false }

/-- The locks of the current thread, at its end: each passes to its first waiter (R158). The thread itself waits for none. -/
def State.passLocks (s : State) : State :=
  let c := s.cur.id.ctxid
  let s : State := { s with locks := (s.locks.map fun l => (l.1, l.2.filter fun x => decide (x ≠ c))).filter (fun l => !l.2.isEmpty) }
  (s.locks.foldl (fun s l => if holderOf (s.keyWord l.1) = c then s.handOver l.1 2 else s) s).inherit

end Sys2Proof.Machine
end

