-- ==== Sys2Proof/WellFormed.lean ====
section
/-!
DEFINITION. WellFormed: which terms of Instr some word encodes. The conditions are the ones of R235 that a field's width
does not already give: the T and W values an entry accepts and the values its entry reserves.
-/
namespace Sys2Proof

/-- INT8 to INT64 (R299). -/
def ElTy.isInt : ElTy → Bool
  | .b | .h | .w | .d => true
  | _ => false

/-- INT8 to INT32, the source widths of the widening forms and the destination widths of the narrowing forms (R301). -/
def ElTy.isNarrowInt : ElTy → Bool
  | .b | .h | .w => true
  | _ => false

/-- FP8 E4M3, BF16, FP16 and FP32 (R302). -/
def ElTy.isFloat : ElTy → Bool
  | .e4 | .bf | .hf | .sf => true
  | _ => false

/-- BF16, FP16 and FP32 (R309, R315). -/
def ElTy.isWideFloat : ElTy → Bool
  | .bf | .hf | .sf => true
  | _ => false

/-- The sources of VTOSF (R315). -/
def ElTy.intoSf : ElTy → Bool
  | .sf => false
  | _ => true

/-- The sources of VTOBF (R315). -/
def ElTy.intoBf : ElTy → Bool
  | .b | .e4 | .hf | .sf => true
  | _ => false

/-- The sources of VTOHF (R315). -/
def ElTy.intoHf : ElTy → Bool
  | .b | .e4 | .bf | .sf => true
  | _ => false

/-- The conditions of R235 on the fields of an encoded instruction; the steps of other agents have no encoding to
reserve. -/
def Instr.wf : Instr → Bool
  | .vadd x => x.t.isInt
  | .vsub x => x.t.isInt
  | .vmul x => x.t.isInt
  | .vmulh x => x.t.isInt
  | .vmulhu x => x.t.isInt
  | .vmacc x => x.t.isInt
  | .vdiv x => x.t.isInt
  | .vrem x => x.t.isInt
  | .vmin x => x.t.isInt
  | .vmax x => x.t.isInt
  | .vminu x => x.t.isInt
  | .vmaxu x => x.t.isInt
  | .vand x => x.t.isInt
  | .vor x => x.t.isInt
  | .vxor x => x.t.isInt
  | .vsll x => x.t.isInt
  | .vsrl x => x.t.isInt
  | .vsra x => x.t.isInt
  | .vsadd x => x.t.isInt
  | .vssub x => x.t.isInt
  | .vaadd x => x.t.isInt
  | .vsmul x => x.t.isInt
  | .vwadd x => x.t.isNarrowInt
  | .vwaddu x => x.t.isNarrowInt
  | .vwmul x => x.t.isNarrowInt
  | .vwmulu x => x.t.isNarrowInt
  | .vwmacc x => x.t.isNarrowInt
  | .vwmaccu x => x.t.isNarrowInt
  | .vnclip x => x.t.isNarrowInt
  | .vnclipu x => x.t.isNarrowInt
  | .vfadd x => x.t.isFloat
  | .vfsub x => x.t.isFloat
  | .vfmul x => x.t.isFloat
  | .vfdiv x => x.t.isFloat
  | .vfma x => x.t.isFloat
  | .vfnma x => x.t.isFloat
  | .vfmin x => x.t.isFloat
  | .vfmax x => x.t.isFloat
  | .vfsgnj x => x.t.isFloat
  | .vfsgnjn x => x.t.isFloat
  | .vcmpeq x => x.t.isInt
  | .vcmpne x => x.t.isInt
  | .vcmplt x => x.t.isInt
  | .vcmpltu x => x.t.isInt
  | .vcmple x => x.t.isInt
  | .vcmpleu x => x.t.isInt
  | .vfcmpeq x => x.t.isFloat
  | .vfcmplt x => x.t.isFloat
  | .vfcmple x => x.t.isFloat
  | .vfcmpun x => x.t.isFloat
  | .vmrgk _ _ _ t => t.isInt
  | .vid _ _ t => t.isInt
  | .viota x => x.t.isInt
  | .vneg x => x.t.isInt
  | .vabs x => x.t.isInt
  | .vnot x => x.t.isInt
  | .vfneg x => x.t.isFloat
  | .vfabs x => x.t.isFloat
  | .vfsqrt x => x.t.isFloat
  | .vfrecip x => x.t.isFloat
  | .vfexp2 x => x.t.isWideFloat
  | .vfclass x => x.t.isFloat
  | .vredsum x => x.t.isInt
  | .vredmin x => x.t.isInt
  | .vredmax x => x.t.isInt
  | .vredminu x => x.t.isInt
  | .vredmaxu x => x.t.isInt
  | .vredand x => x.t.isInt
  | .vredor x => x.t.isInt
  | .vredxor x => x.t.isInt
  | .vfredsum x => x.t.isFloat
  | .vfredmin x => x.t.isFloat
  | .vfredmax x => x.t.isFloat
  | .vsortk x => x.t.isInt
  | .vtosf x => x.t.intoSf
  | .vtobf x => x.t.intoBf
  | .vtohf x => x.t.intoHf
  | .vtoe4 x => x.t.isWideFloat
  | .vtoe4s x => x.t.isWideFloat
  | .vtoe5 x => x.t.isWideFloat
  | .vtoe5s x => x.t.isWideFloat
  | .vtof4 x => x.t.isWideFloat
  | .vfromf4 x => x.t.isWideFloat
  | .vtoinr x => x.t.isFloat
  | .vtoinz x => x.t.isFloat
  | .vintof x => x.t.isWideFloat
  | .vwiden x => x.t.isNarrowInt
  | .vwidenu x => x.t.isNarrowInt
  | .sext _ _ w => decide (w.toNat ≤ 2)
  | .zext _ _ w => decide (w.toNat ≤ 2)
  | .frame _ n _ _ _ => decide (n.toNat ≤ 15)
  | .vldseg x => decide (1 ≤ x.b.toNat ∧ x.b.toNat ≤ 7)
  | .vstseg x => decide (1 ≤ x.b.toNat ∧ x.b.toNat ≤ 7)
  | .vamoFadd x => decide (x.w = .h ∨ x.w = .w)
  | .lmark a d => decide (a ≠ 0 ∧ 2 ≤ d.toNat)
  | .lend a d => decide (a ≠ 0 ∧ d.msb = true)
  | .pattach z => decide (1 ≤ z.toNat ∧ z.toNat ≤ 4)
  | .pldbReg f _ _ => decide (f ≠ 3)
  | .pmma _ a _ => decide (a.toNat ≤ 15)
  | .pmmas _ a _ => decide (a.toNat ≤ 15)
  | .shadow _ a => decide (a ≠ 0)
  | _ => true

end Sys2Proof
end

