-- ==== Sys2Proof/Decode.lean ====
section
/-!
DEFINITION. Decode: the decoder, total on words and on bytes, and after it the encoder, both written from the encoding
tables (R231, R234 to R242 and the instruction reference). Lean's compiler has no tag for constructors past the 245th that carry
fields, so what builds one is marked noncomputable; the kernel evaluates it as any other definition.
-/
namespace Sys2Proof

/-- The element type of a T field (R234). -/
def ElTy.ofCode (c : BitVec 3) : ElTy :=
  match c.toNat with
  | 0 => .b
  | 1 => .h
  | 2 => .w
  | 3 => .d
  | 4 => .e4
  | 5 => .bf
  | 6 => .hf
  | _ => .sf

/-- The T field of an element type (R234). -/
def ElTy.code : ElTy → BitVec 3
  | .b => 0
  | .h => 1
  | .w => 2
  | .d => 3
  | .e4 => 4
  | .bf => 5
  | .hf => 6
  | .sf => 7

/-- The access width of a W field (R234). -/
def Wid.ofCode (c : BitVec 2) : Wid :=
  match c.toNat with
  | 0 => .b
  | 1 => .h
  | 2 => .w
  | _ => .d

/-- The W field of an access width (R234). -/
def Wid.code : Wid → BitVec 2
  | .b => 0
  | .h => 1
  | .w => 2
  | .d => 3

/-- Bits lo + n - 1 down to lo of a word. -/
def fld (w : BitVec 32) (lo n : Nat) : BitVec n := w.extractLsb' lo n

/-- One bit of a word as a Bool. -/
def bit (w : BitVec 32) (i : Nat) : Bool := w.getLsbD i

/-- A row of the opcode map: the fields that must hold constants do, or the word is reserved (R4, R235). -/
def row (w mask pat : BitVec 32) (i : Instr) : Option Instr :=
  if w &&& mask = pat then some i else none

def vArgs (w : BitVec 32) : VArgs :=
  { d := fld w 19 6, a := fld w 13 6, b := fld w 7 6, m := fld w 4 3, s := bit w 3, t := .ofCode (fld w 0 3) }

def uArgs (w : BitVec 32) : UArgs :=
  { d := fld w 19 6, a := fld w 13 6, m := fld w 4 3, t := .ofCode (fld w 0 3) }

def mArgs (w : BitVec 32) : MArgs :=
  { d := fld w 19 6, a := fld w 13 6, b := fld w 7 6, m := fld w 4 3, o := bit w 3, k := bit w 2,
    w := .ofCode (fld w 0 2) }

def m0Args (w : BitVec 32) : M0Args :=
  { d := fld w 19 6, a := fld w 13 6, m := fld w 4 3, o := bit w 3, k := bit w 2, w := .ofCode (fld w 0 2) }

def aArgs (w : BitVec 32) : AArgs :=
  { d := fld w 19 6, a := fld w 13 6, b := fld w 7 6, m := fld w 4 3, w := .ofCode (fld w 0 2) }

/-- ALU family (R241). -/
def decodeAlu (w : BitVec 32) : Option Instr :=
  match (fld w 0 7).toNat with
  | 0 => row w 0xFE00007F 0x02000000 (.add (fld w 19 6) (fld w 13 6) (fld w 7 6))
  | 1 => row w 0xFE00007F 0x02000001 (.sub (fld w 19 6) (fld w 13 6) (fld w 7 6))
  | 2 => row w 0xFE00007F 0x02000002 (.and (fld w 19 6) (fld w 13 6) (fld w 7 6))
  | 3 => row w 0xFE00007F 0x02000003 (.or (fld w 19 6) (fld w 13 6) (fld w 7 6))
  | 4 => row w 0xFE00007F 0x02000004 (.xor (fld w 19 6) (fld w 13 6) (fld w 7 6))
  | 5 => row w 0xFE00007F 0x02000005 (.andn (fld w 19 6) (fld w 13 6) (fld w 7 6))
  | 6 => row w 0xFE00007F 0x02000006 (.sll (fld w 19 6) (fld w 13 6) (fld w 7 6))
  | 7 => row w 0xFE00007F 0x02000007 (.srl (fld w 19 6) (fld w 13 6) (fld w 7 6))
  | 8 => row w 0xFE00007F 0x02000008 (.sra (fld w 19 6) (fld w 13 6) (fld w 7 6))
  | 9 => row w 0xFE00007F 0x02000009 (.mul (fld w 19 6) (fld w 13 6) (fld w 7 6))
  | 10 => row w 0xFE00007F 0x0200000A (.mulh (fld w 19 6) (fld w 13 6) (fld w 7 6))
  | 11 => row w 0xFE00007F 0x0200000B (.mulhu (fld w 19 6) (fld w 13 6) (fld w 7 6))
  | 12 => row w 0xFE00007F 0x0200000C (.div (fld w 19 6) (fld w 13 6) (fld w 7 6))
  | 13 => row w 0xFE00007F 0x0200000D (.divu (fld w 19 6) (fld w 13 6) (fld w 7 6))
  | 14 => row w 0xFE00007F 0x0200000E (.rem (fld w 19 6) (fld w 13 6) (fld w 7 6))
  | 15 => row w 0xFE00007F 0x0200000F (.remu (fld w 19 6) (fld w 13 6) (fld w 7 6))
  | 16 => row w 0xFE00007F 0x02000010 (.min (fld w 19 6) (fld w 13 6) (fld w 7 6))
  | 17 => row w 0xFE00007F 0x02000011 (.max (fld w 19 6) (fld w 13 6) (fld w 7 6))
  | 18 => row w 0xFE00007F 0x02000012 (.minu (fld w 19 6) (fld w 13 6) (fld w 7 6))
  | 19 => row w 0xFE00007F 0x02000013 (.maxu (fld w 19 6) (fld w 13 6) (fld w 7 6))
  | 20 => row w 0xFE00007F 0x02000014 (.slt (fld w 19 6) (fld w 13 6) (fld w 7 6))
  | 21 => row w 0xFE00007F 0x02000015 (.sltu (fld w 19 6) (fld w 13 6) (fld w 7 6))
  | 22 => row w 0xFE001FFF 0x02000016 (.clz (fld w 19 6) (fld w 13 6))
  | 23 => row w 0xFE001FFF 0x02000017 (.popc (fld w 19 6) (fld w 13 6))
  | 24 => row w 0xFE00007F 0x02000018 (.sext (fld w 19 6) (fld w 13 6) (fld w 7 6))
  | 25 => row w 0xFE00007F 0x02000019 (.zext (fld w 19 6) (fld w 13 6) (fld w 7 6))
  | _ => none

/-- SYS family (R241). -/
def decodeSys (w : BitVec 32) : Option Instr :=
  match (fld w 0 7).toNat with
  | 0 => row w 0xFFFFFFFF 0x30000000 .nop
  | 1 => row w 0xFFFFFFFF 0x30000001 .yield
  | 2 => row w 0xFFFFFFFF 0x30000002 .exit
  | 3 => row w 0xFFFFFFFF 0x30000003 .brk
  | 4 => row w 0xFFF81FFF 0x30000004 (.trap (fld w 13 6))
  | 5 => row w 0xFE001FFF 0x30000005 (.alloc (fld w 19 6) (fld w 13 6))
  | 6 => row w 0xFE001FFF 0x30000006 (.free (fld w 19 6) (fld w 13 6))
  | 7 => row w 0xFE001FFF 0x30000007 (.launch (fld w 19 6) (fld w 13 6))
  | 8 => row w 0xFE00007F 0x30000008 (.deal (fld w 19 6) (fld w 13 6) (fld w 7 6))
  | 9 => row w 0xFFF81FFF 0x30000009 (.prio (fld w 13 6))
  | _ => none

/-- VSTREAM family (R241). -/
def decodeVstream (w : BitVec 32) : Option Instr :=
  match (fld w 0 7).toNat with
  | 0 => row w 0xFE00007F 0x54000000 (.vstreamBind (fld w 19 6) (fld w 13 6) (fld w 7 6))
  | 1 => row w 0xFE07FFFF 0x54000001 (.vstreamUnbind (fld w 19 6))
  | 2 => row w 0xFE07FFFF 0x54000002 (.vstreamRewind (fld w 19 6))
  | _ => none

/-- VAMO, by AOP (R234). -/
def decodeVamo (w : BitVec 32) : Option Instr :=
  match (fld w 2 2).toNat with
  | 0 => row w 0xFE00000C 0x56000000 (.vamoAdd (aArgs w))
  | 1 => row w 0xFE00000C 0x56000004 (.vamoMin (aArgs w))
  | 2 => row w 0xFE00000C 0x56000008 (.vamoMax (aArgs w))
  | 3 => row w 0xFE00000C 0x5600000C (.vamoFadd (aArgs w))
  | _ => none

/-- AMO family (R241). -/
def decodeAmo (w : BitVec 32) : Option Instr :=
  match (fld w 0 7).toNat with
  | 0 => row w 0xFE00007F 0x58000000 (.amoAdd (fld w 19 6) (fld w 13 6) (fld w 7 6))
  | 1 => row w 0xFE00007F 0x58000001 (.amoAnd (fld w 19 6) (fld w 13 6) (fld w 7 6))
  | 2 => row w 0xFE00007F 0x58000002 (.amoOr (fld w 19 6) (fld w 13 6) (fld w 7 6))
  | 3 => row w 0xFE00007F 0x58000003 (.amoXor (fld w 19 6) (fld w 13 6) (fld w 7 6))
  | 4 => row w 0xFE00007F 0x58000004 (.amoMin (fld w 19 6) (fld w 13 6) (fld w 7 6))
  | 5 => row w 0xFE00007F 0x58000005 (.amoMax (fld w 19 6) (fld w 13 6) (fld w 7 6))
  | 6 => row w 0xFE00007F 0x58000006 (.amoMinu (fld w 19 6) (fld w 13 6) (fld w 7 6))
  | 7 => row w 0xFE00007F 0x58000007 (.amoMaxu (fld w 19 6) (fld w 13 6) (fld w 7 6))
  | 8 => row w 0xFE00007F 0x58000008 (.amoSwap (fld w 19 6) (fld w 13 6) (fld w 7 6))
  | _ => none

/-- LOCK family (R241). -/
def decodeLock (w : BitVec 32) : Option Instr :=
  match (fld w 0 7).toNat with
  | 0 => row w 0xFE001FFF 0x5C000000 (.lock (fld w 19 6) (fld w 13 6))
  | 1 => row w 0xFE001FFF 0x5C000001 (.trylock (fld w 19 6) (fld w 13 6))
  | 2 => row w 0xFFF81FFF 0x5C000002 (.unlock (fld w 13 6))
  | _ => none

/-- WAITW family (R241). -/
def decodeWaitw (w : BitVec 32) : Option Instr :=
  match (fld w 0 7).toNat with
  | 0 => row w 0xFE00007F 0x5E000000 (.waitwEq (fld w 19 6) (fld w 13 6) (fld w 7 6))
  | 1 => row w 0xFE00007F 0x5E000001 (.waitwNe (fld w 19 6) (fld w 13 6) (fld w 7 6))
  | 2 => row w 0xFE00007F 0x5E000002 (.waitwLt (fld w 19 6) (fld w 13 6) (fld w 7 6))
  | 3 => row w 0xFE00007F 0x5E000003 (.waitwGe (fld w 19 6) (fld w 13 6) (fld w 7 6))
  | 4 => row w 0xFE00007F 0x5E000004 (.waitwLtu (fld w 19 6) (fld w 13 6) (fld w 7 6))
  | 5 => row w 0xFE00007F 0x5E000005 (.waitwGeu (fld w 19 6) (fld w 13 6) (fld w 7 6))
  | _ => none

/-- BAR, by kind (R238). -/
def decodeBar (w : BitVec 32) : Option Instr :=
  match (fld w 7 2).toNat with
  | 0 => row w 0xFFFFFF80 0x64000000 (.barArrive (fld w 0 7))
  | 1 => row w 0xFFFFFF80 0x64000080 (.barWait (fld w 0 7))
  | 2 => row w 0xFFFFFF80 0x64000100 (.barArrwait (fld w 0 7))
  | _ => none

/-- ENG family (R241); SHADOW and its release share FN 6 and are told apart by A (R344, log entry 13). -/
def decodeEng (w : BitVec 32) : Option Instr :=
  match (fld w 0 7).toNat with
  | 0 => row w 0xFE00007F 0x6C000000 (.cpy (fld w 19 6) (fld w 13 6) (fld w 7 6))
  | 1 => row w 0xFE00007F 0x6C000001 (.cpyf (fld w 19 6) (fld w 13 6) (fld w 7 6))
  | 2 => row w 0xFE00007F 0x6C000002 (.cptile (fld w 19 6) (fld w 13 6) (fld w 7 6))
  | 3 => row w 0xFE00007F 0x6C000003 (.cprem (fld w 19 6) (fld w 13 6) (fld w 7 6))
  | 4 => row w 0xFE00007F 0x6C000004 (.coll (fld w 19 6) (fld w 13 6) (fld w 7 6))
  | 5 => row w 0xFFF81FFF 0x6C000005 (.publish (fld w 13 6))
  | 6 => if fld w 13 6 = 0 then row w 0xFE07E07F 0x6C000006 (.shadowRelease (fld w 19 6) (fld w 7 6)) else row w 0xFE001FFF 0x6C000006 (.shadow (fld w 19 6) (fld w 13 6))
  | 7 => row w 0xFFF8007F 0x6C000007 (.syncw (fld w 13 6) (fld w 7 6))
  | 8 => row w 0xFFF8007F 0x6C000008 (.cleanr (fld w 13 6) (fld w 7 6))
  | 9 => row w 0xFFF8007F 0x6C000009 (.invalr (fld w 13 6) (fld w 7 6))
  | 10 => row w 0xFE001FFF 0x6C00000A (.bankcmd (fld w 19 6) (fld w 13 6))
  | _ => none

/-- EWAIT family (R241). -/
def decodeEwait (w : BitVec 32) : Option Instr :=
  match (fld w 0 7).toNat with
  | 0 => row w 0xFFF8007F 0x6E000000 (.xfwait (fld w 13 6) (fld w 7 6))
  | 1 => row w 0xFE00007F 0x6E000001 (.syncwait (fld w 19 6) (fld w 13 6) (fld w 7 6))
  | 2 => row w 0xFE001FFF 0x6E000002 (.bankwait (fld w 19 6) (fld w 13 6))
  | _ => none

/-- PRESS family (R241), operand loads by the SRC bit (R322). -/
def decodePress (w : BitVec 32) : Option Instr :=
  match (fld w 6 5).toNat with
  | 0 => row w 0xFFFFFFC0 0x70000000 (.pattach (fld w 0 6))
  | 1 => row w 0xFFFFFFFF 0x70000040 .pdetach
  | 2 => if bit w 5 = false then row w 0xFE0007F0 0x70000080 (.pldaMem (fld w 23 2) (fld w 17 6) (fld w 11 6) (fld w 0 4)) else row w 0xFE01FFF0 0x700000A0 (.pldaReg (fld w 23 2) (fld w 17 6) (fld w 0 4))
  | 3 => if bit w 5 = false then row w 0xFE0007F0 0x700000C0 (.pldbMem (fld w 23 2) (fld w 17 6) (fld w 11 6) (fld w 0 4)) else row w 0xFE01FFF0 0x700000E0 (.pldbReg (fld w 23 2) (fld w 17 6) (fld w 0 4))
  | 4 => row w 0xFE01FFF0 0x70000100 (.pmma (fld w 23 2) (fld w 17 6) (fld w 0 4))
  | 5 => row w 0xFE01FFF0 0x70000140 (.pmmas (fld w 23 2) (fld w 17 6) (fld w 0 4))
  | 6 => row w 0xFE7FFFFF 0x70000180 (.pzero (fld w 23 2))
  | 7 => row w 0xFE0007FF 0x700001C0 (.prdacc (fld w 23 2) (fld w 17 6) (fld w 11 6))
  | 8 => row w 0xFE0007FF 0x70000200 (.pwracc (fld w 23 2) (fld w 17 6) (fld w 11 6))
  | 9 => row w 0xFE01FFFF 0x70000240 (.ppub (fld w 23 2) (fld w 17 6))
  | 10 => row w 0xFE7FFFFF 0x70000280 (.pfin (fld w 23 2))
  | _ => none

/-- TOKEN family (R241); D holds the draft flag of TKEMIT (R361). -/
def decodeToken (w : BitVec 32) : Option Instr :=
  match (fld w 0 7).toNat with
  | 0 => row w 0xFE00007F 0x78000000 (.tkarm (fld w 19 6) (fld w 13 6) (fld w 7 6))
  | 1 => row w 0xFFFFE07F 0x78000001 (.tkdisarm (fld w 7 6))
  | 2 => if fld w 19 6 = 0 then row w 0xFFF8007F 0x78000002 (.tkemit (fld w 13 6) (fld w 7 6)) else row w 0xFFF8007F 0x78080002 (.tkemitDraft (fld w 13 6) (fld w 7 6))
  | 3 => row w 0xFE07FFFF 0x78000003 (.tksync (fld w 19 6))
  | 4 => row w 0xFFF8007F 0x78000004 (.tkconf (fld w 13 6) (fld w 7 6))
  | _ => none

/-- VUNARY family (R242). -/
noncomputable def decodeVunary (w : BitVec 32) : Option Instr :=
  match (fld w 7 6).toNat with
  | 0 => row w 0xFE001F88 0xF6000000 (.vmv (uArgs w))
  | 1 => row w 0xFE001F88 0xF6000080 (.vsplat (uArgs w))
  | 2 => row w 0xFE001F88 0xF6000100 (.vmvsx (uArgs w))
  | 3 => row w 0xFE001FF8 0xF6000180 (.vmvxs (fld w 19 6) (fld w 13 6) (.ofCode (fld w 0 3)))
  | 4 => row w 0xFE07FF88 0xF6000200 (.vid (fld w 19 6) (fld w 4 3) (.ofCode (fld w 0 3)))
  | 5 => row w 0xFE001F88 0xF6000280 (.viota (uArgs w))
  | 6 => row w 0xFE001F88 0xF6000300 (.vcompress (uArgs w))
  | 7 => row w 0xFE001F88 0xF6000380 (.vneg (uArgs w))
  | 8 => row w 0xFE001F88 0xF6000400 (.vabs (uArgs w))
  | 9 => row w 0xFE001F88 0xF6000480 (.vnot (uArgs w))
  | 10 => row w 0xFE001F88 0xF6000500 (.vfneg (uArgs w))
  | 11 => row w 0xFE001F88 0xF6000580 (.vfabs (uArgs w))
  | 12 => row w 0xFE001F88 0xF6000600 (.vfsqrt (uArgs w))
  | 13 => row w 0xFE001F88 0xF6000680 (.vfrecip (uArgs w))
  | 14 => row w 0xFE001F88 0xF6000700 (.vfexp2 (uArgs w))
  | 15 => row w 0xFE001F88 0xF6000780 (.vfclass (uArgs w))
  | 16 => row w 0xFE001F88 0xF6000800 (.vredsum (uArgs w))
  | 17 => row w 0xFE001F88 0xF6000880 (.vredmin (uArgs w))
  | 18 => row w 0xFE001F88 0xF6000900 (.vredmax (uArgs w))
  | 19 => row w 0xFE001F88 0xF6000980 (.vredminu (uArgs w))
  | 20 => row w 0xFE001F88 0xF6000A00 (.vredmaxu (uArgs w))
  | 21 => row w 0xFE001F88 0xF6000A80 (.vredand (uArgs w))
  | 22 => row w 0xFE001F88 0xF6000B00 (.vredor (uArgs w))
  | 23 => row w 0xFE001F88 0xF6000B80 (.vredxor (uArgs w))
  | 24 => row w 0xFE001F88 0xF6000C00 (.vfredsum (uArgs w))
  | 25 => row w 0xFE001F88 0xF6000C80 (.vfredmin (uArgs w))
  | 26 => row w 0xFE001F88 0xF6000D00 (.vfredmax (uArgs w))
  | 27 => row w 0xFE001F8F 0xF6000D80 (.vmpop (fld w 19 6) (fld w 13 6) (fld w 4 3))
  | 28 => row w 0xFE001F8F 0xF6000E00 (.vmfirst (fld w 19 6) (fld w 13 6) (fld w 4 3))
  | 29 => row w 0xFE001F8F 0xF6000E80 (.vmnot (fld w 19 6) (fld w 13 6) (fld w 4 3))
  | 30 => row w 0xFE001F8F 0xF6000F00 (.vmbefore (fld w 19 6) (fld w 13 6) (fld w 4 3))
  | 31 => row w 0xFE001F8F 0xF6000F80 (.vmincl (fld w 19 6) (fld w 13 6) (fld w 4 3))
  | 32 => row w 0xFE001F88 0xF6001000 (.vsortk (uArgs w))
  | 33 => row w 0xFE001F88 0xF6001080 (.vuniq (uArgs w))
  | 34 => row w 0xFE001F88 0xF6001100 (.vtosf (uArgs w))
  | 35 => row w 0xFE001F88 0xF6001180 (.vtobf (uArgs w))
  | 36 => row w 0xFE001F88 0xF6001200 (.vtohf (uArgs w))
  | 37 => row w 0xFE001F88 0xF6001280 (.vtoe4 (uArgs w))
  | 38 => row w 0xFE001F88 0xF6001300 (.vtoe4s (uArgs w))
  | 39 => row w 0xFE001F88 0xF6001380 (.vtoe5 (uArgs w))
  | 40 => row w 0xFE001F88 0xF6001400 (.vtoe5s (uArgs w))
  | 41 => row w 0xFE001F88 0xF6001480 (.vtof4 (uArgs w))
  | 42 => row w 0xFE001F88 0xF6001500 (.vfromf4 (uArgs w))
  | 43 => row w 0xFE001F88 0xF6001580 (.vtoinr (uArgs w))
  | 44 => row w 0xFE001F88 0xF6001600 (.vtoinz (uArgs w))
  | 45 => row w 0xFE001F88 0xF6001680 (.vintof (uArgs w))
  | 46 => row w 0xFE001F88 0xF6001700 (.vwiden (uArgs w))
  | 47 => row w 0xFE001F88 0xF6001780 (.vwidenu (uArgs w))
  | _ => none

/-- The opcode map (R239, R240): the constructor of a word before the conditions of Instr.wf. -/
noncomputable def decodeRaw (w : BitVec 32) : Option Instr :=
  match (fld w 25 7).toNat with
  | 0x01 => decodeAlu w
  | 0x02 => row w 0xFE000000 0x04000000 (.addi (fld w 19 6) (fld w 13 6) (fld w 0 13))
  | 0x03 => row w 0xFE000000 0x06000000 (.andi (fld w 19 6) (fld w 13 6) (fld w 0 13))
  | 0x04 => row w 0xFE000000 0x08000000 (.ori (fld w 19 6) (fld w 13 6) (fld w 0 13))
  | 0x05 => row w 0xFE000000 0x0A000000 (.xori (fld w 19 6) (fld w 13 6) (fld w 0 13))
  | 0x06 => row w 0xFE001FC0 0x0C000000 (.slli (fld w 19 6) (fld w 13 6) (fld w 0 6))
  | 0x07 => row w 0xFE001FC0 0x0E000000 (.srli (fld w 19 6) (fld w 13 6) (fld w 0 6))
  | 0x08 => row w 0xFE001FC0 0x10000000 (.srai (fld w 19 6) (fld w 13 6) (fld w 0 6))
  | 0x09 => row w 0xFE000000 0x12000000 (.slti (fld w 19 6) (fld w 13 6) (fld w 0 13))
  | 0x0A => row w 0xFE000000 0x14000000 (.lih (fld w 19 6) (fld w 0 19))
  | 0x0B => row w 0xFE000000 0x16000000 (.addpc (fld w 19 6) (fld w 0 19))
  | 0x0C => row w 0xFE000000 0x18000000 (.lds (fld w 19 6) (fld w 13 6) (.ofCode (fld w 11 2)) (fld w 0 11))
  | 0x0D => row w 0xFE000000 0x1A000000 (.ldz (fld w 19 6) (fld w 13 6) (.ofCode (fld w 11 2)) (fld w 0 11))
  | 0x0E => row w 0xFE000000 0x1C000000 (.st (fld w 19 6) (fld w 13 6) (.ofCode (fld w 11 2)) (fld w 0 11))
  | 0x0F => row w 0xFE000000 0x1E000000 (.jalr (fld w 19 6) (fld w 13 6) (fld w 0 13))
  | 0x10 => row w 0xFE000000 0x20000000 (.beq (fld w 19 6) (fld w 13 6) (fld w 0 13))
  | 0x11 => row w 0xFE000000 0x22000000 (.bne (fld w 19 6) (fld w 13 6) (fld w 0 13))
  | 0x12 => row w 0xFE000000 0x24000000 (.blt (fld w 19 6) (fld w 13 6) (fld w 0 13))
  | 0x13 => row w 0xFE000000 0x26000000 (.bge (fld w 19 6) (fld w 13 6) (fld w 0 13))
  | 0x14 => row w 0xFE000000 0x28000000 (.bltu (fld w 19 6) (fld w 13 6) (fld w 0 13))
  | 0x15 => row w 0xFE000000 0x2A000000 (.bgeu (fld w 19 6) (fld w 13 6) (fld w 0 13))
  | 0x16 => row w 0xFE000000 0x2C000000 (.j (fld w 0 25))
  | 0x17 => row w 0xFE000000 0x2E000000 (.jal (fld w 0 25))
  | 0x18 => decodeSys w
  | 0x19 => row w 0xFE07F000 0x32000000 (.srd (fld w 19 6) (fld w 0 12))
  | 0x1A => row w 0xFFF81000 0x34000000 (.swr (fld w 13 6) (fld w 0 12))
  | 0x1B => row w 0xFE000001 0x36000000 (.frame (fld w 19 6) (fld w 13 6) (fld w 9 4) (fld w 5 4) (fld w 1 4))
  | 0x1C => row w 0xFFFFFFFC 0x38000000 (.vconf (fld w 0 2))
  | 0x1D => row w 0xFE00007C 0x3A000000 (.vsetl (fld w 19 6) (fld w 13 6) (fld w 7 6) (.ofCode (fld w 0 2)))
  | 0x1E => row w 0xFFFFFFFF 0x3C000000 .vrel
  | 0x20 => row w 0xFE001F80 0x40000000 (.vld (m0Args w))
  | 0x21 => row w 0xFE000000 0x42000000 (.vlds (mArgs w))
  | 0x22 => row w 0xFE000000 0x44000000 (.vldx (mArgs w))
  | 0x23 => row w 0xFE000000 0x46000000 (.vldseg (mArgs w))
  | 0x24 => row w 0xFE001F80 0x48000000 (.vldff (m0Args w))
  | 0x25 => row w 0xFE001FFF 0x4A000000 (.vldsc (fld w 19 6) (fld w 13 6))
  | 0x26 => row w 0xFE001F80 0x4C000000 (.vst (m0Args w))
  | 0x27 => row w 0xFE000000 0x4E000000 (.vsts (mArgs w))
  | 0x28 => row w 0xFE000000 0x50000000 (.vstx (mArgs w))
  | 0x29 => row w 0xFE000000 0x52000000 (.vstseg (mArgs w))
  | 0x2A => decodeVstream w
  | 0x2B => decodeVamo w
  | 0x2C => decodeAmo w
  | 0x2D => row w 0xFE00007F 0x5A000000 (.cas (fld w 19 6) (fld w 13 6) (fld w 7 6))
  | 0x2E => decodeLock w
  | 0x2F => decodeWaitw w
  | 0x30 => row w 0xFFFFFF00 0x60000000 (.fence (bit w 7) (bit w 6) (bit w 5) (bit w 4) (bit w 3) (fld w 0 3))
  | 0x31 => row w 0xFFFFFFF8 0x62000000 (.vfence (fld w 0 3))
  | 0x32 => decodeBar w
  | 0x33 => row w 0xFE001FFF 0x66000000 (.post (fld w 19 6) (fld w 13 6))
  | 0x34 => row w 0xFE001FFF 0x68000000 (.waiti (fld w 19 6) (fld w 13 6))
  | 0x35 => row w 0xFE00007F 0x6A000000 (.waitv (fld w 19 6) (fld w 13 6) (fld w 7 6))
  | 0x36 => decodeEng w
  | 0x37 => decodeEwait w
  | 0x38 => decodePress w
  | 0x39 => row w 0xFFFF0001 0x72000000 (.settle (fld w 1 15))
  | 0x3A => row w 0xFFF81FF8 0x74000000 (.lmark (fld w 13 6) (fld w 0 3))
  | 0x3B => row w 0xFE07E000 0x76000000 (.lend (fld w 19 6) (fld w 0 13))
  | 0x3C => decodeToken w
  | 0x40 => row w 0xFE000000 0x80000000 (.vadd (vArgs w))
  | 0x41 => row w 0xFE000000 0x82000000 (.vsub (vArgs w))
  | 0x42 => row w 0xFE000000 0x84000000 (.vmul (vArgs w))
  | 0x43 => row w 0xFE000000 0x86000000 (.vmulh (vArgs w))
  | 0x44 => row w 0xFE000000 0x88000000 (.vmulhu (vArgs w))
  | 0x45 => row w 0xFE000000 0x8A000000 (.vmacc (vArgs w))
  | 0x46 => row w 0xFE000000 0x8C000000 (.vdiv (vArgs w))
  | 0x47 => row w 0xFE000000 0x8E000000 (.vrem (vArgs w))
  | 0x48 => row w 0xFE000000 0x90000000 (.vmin (vArgs w))
  | 0x49 => row w 0xFE000000 0x92000000 (.vmax (vArgs w))
  | 0x4A => row w 0xFE000000 0x94000000 (.vminu (vArgs w))
  | 0x4B => row w 0xFE000000 0x96000000 (.vmaxu (vArgs w))
  | 0x4C => row w 0xFE000000 0x98000000 (.vand (vArgs w))
  | 0x4D => row w 0xFE000000 0x9A000000 (.vor (vArgs w))
  | 0x4E => row w 0xFE000000 0x9C000000 (.vxor (vArgs w))
  | 0x4F => row w 0xFE000000 0x9E000000 (.vsll (vArgs w))
  | 0x50 => row w 0xFE000000 0xA0000000 (.vsrl (vArgs w))
  | 0x51 => row w 0xFE000000 0xA2000000 (.vsra (vArgs w))
  | 0x52 => row w 0xFE000000 0xA4000000 (.vsadd (vArgs w))
  | 0x53 => row w 0xFE000000 0xA6000000 (.vssub (vArgs w))
  | 0x54 => row w 0xFE000000 0xA8000000 (.vaadd (vArgs w))
  | 0x55 => row w 0xFE000000 0xAA000000 (.vsmul (vArgs w))
  | 0x56 => row w 0xFE000000 0xAC000000 (.vwadd (vArgs w))
  | 0x57 => row w 0xFE000000 0xAE000000 (.vwaddu (vArgs w))
  | 0x58 => row w 0xFE000000 0xB0000000 (.vwmul (vArgs w))
  | 0x59 => row w 0xFE000000 0xB2000000 (.vwmulu (vArgs w))
  | 0x5A => row w 0xFE000000 0xB4000000 (.vwmacc (vArgs w))
  | 0x5B => row w 0xFE000000 0xB6000000 (.vwmaccu (vArgs w))
  | 0x5C => row w 0xFE000000 0xB8000000 (.vnclip (vArgs w))
  | 0x5D => row w 0xFE000000 0xBA000000 (.vnclipu (vArgs w))
  | 0x5E => row w 0xFE000000 0xBC000000 (.vfadd (vArgs w))
  | 0x5F => row w 0xFE000000 0xBE000000 (.vfsub (vArgs w))
  | 0x60 => row w 0xFE000000 0xC0000000 (.vfmul (vArgs w))
  | 0x61 => row w 0xFE000000 0xC2000000 (.vfdiv (vArgs w))
  | 0x62 => row w 0xFE000000 0xC4000000 (.vfma (vArgs w))
  | 0x63 => row w 0xFE000000 0xC6000000 (.vfnma (vArgs w))
  | 0x64 => row w 0xFE000000 0xC8000000 (.vfmin (vArgs w))
  | 0x65 => row w 0xFE000000 0xCA000000 (.vfmax (vArgs w))
  | 0x66 => row w 0xFE000000 0xCC000000 (.vfsgnj (vArgs w))
  | 0x67 => row w 0xFE000000 0xCE000000 (.vfsgnjn (vArgs w))
  | 0x68 => row w 0xFE000000 0xD0000000 (.vcmpeq (vArgs w))
  | 0x69 => row w 0xFE000000 0xD2000000 (.vcmpne (vArgs w))
  | 0x6A => row w 0xFE000000 0xD4000000 (.vcmplt (vArgs w))
  | 0x6B => row w 0xFE000000 0xD6000000 (.vcmpltu (vArgs w))
  | 0x6C => row w 0xFE000000 0xD8000000 (.vcmple (vArgs w))
  | 0x6D => row w 0xFE000000 0xDA000000 (.vcmpleu (vArgs w))
  | 0x6E => row w 0xFE000000 0xDC000000 (.vfcmpeq (vArgs w))
  | 0x6F => row w 0xFE000000 0xDE000000 (.vfcmplt (vArgs w))
  | 0x70 => row w 0xFE000000 0xE0000000 (.vfcmple (vArgs w))
  | 0x71 => row w 0xFE000000 0xE2000000 (.vfcmpun (vArgs w))
  | 0x72 => row w 0xFE000000 0xE4000000 (.vsel (vArgs w))
  | 0x73 => row w 0xFE000008 0xE6000008 (.vslideup (fld w 19 6) (fld w 13 6) (fld w 7 6) (fld w 4 3) (.ofCode (fld w 0 3)))
  | 0x74 => row w 0xFE000008 0xE8000008 (.vslidedn (fld w 19 6) (fld w 13 6) (fld w 7 6) (fld w 4 3) (.ofCode (fld w 0 3)))
  | 0x75 => row w 0xFE000000 0xEA000000 (.vgatherr (vArgs w))
  | 0x76 => row w 0xFE000078 0xEC000000 (.vmrgk (fld w 19 6) (fld w 13 6) (fld w 7 6) (.ofCode (fld w 0 3)))
  | 0x77 => row w 0xFE00007F 0xEE000000 (.vmand (fld w 19 6) (fld w 13 6) (fld w 7 6))
  | 0x78 => row w 0xFE00007F 0xF0000000 (.vmor (fld w 19 6) (fld w 13 6) (fld w 7 6))
  | 0x79 => row w 0xFE00007F 0xF2000000 (.vmxor (fld w 19 6) (fld w 13 6) (fld w 7 6))
  | 0x7A => row w 0xFE00007F 0xF4000000 (.vmandn (fld w 19 6) (fld w 13 6) (fld w 7 6))
  | 0x7B => decodeVunary w
  | _ => none

/-- The instruction of a word, or none for a reserved encoding (R235, R239). -/
noncomputable def decode (w : BitVec 32) : Option Instr :=
  match decodeRaw w with
  | some i => if i.wf then some i else none
  | none => none

/-- The instruction whose word stands first in a list of bytes, little-endian (R231), with the bytes after it. -/
noncomputable def decodeBytes : List (BitVec 8) → Option (Instr × List (BitVec 8))
  | b0 :: b1 :: b2 :: b3 :: rest => (decode (b3 ++ b2 ++ b1 ++ b0)).map fun i => (i, rest)
  | _ => none

/-- The bytes of a word as memory holds them, lowest address first (R231). -/
def wordBytes (w : BitVec 32) : List (BitVec 8) :=
  [w.extractLsb' 0 8, w.extractLsb' 8 8, w.extractLsb' 16 8, w.extractLsb' 24 8]

/-- The instruction of a word numbered as the opcode table numbers it; a row that has no encoding gives no bits. -/
noncomputable def decodeTableWord (nbits w : Nat) : Option Instr :=
  if 32 < nbits then none
  else (decodeBytes (wordBytes (BitVec.ofNat 32 (w % 2 ^ nbits)))).map fun p => p.1

/-- The word of a constructor that has one (R234 to R242). -/
def encode : Instr → Option (BitVec 32)
  | .add d a b => some (1#7 ++ d ++ a ++ b ++ 0#7)
  | .sub d a b => some (1#7 ++ d ++ a ++ b ++ 1#7)
  | .and d a b => some (1#7 ++ d ++ a ++ b ++ 2#7)
  | .or d a b => some (1#7 ++ d ++ a ++ b ++ 3#7)
  | .xor d a b => some (1#7 ++ d ++ a ++ b ++ 4#7)
  | .andn d a b => some (1#7 ++ d ++ a ++ b ++ 5#7)
  | .sll d a b => some (1#7 ++ d ++ a ++ b ++ 6#7)
  | .srl d a b => some (1#7 ++ d ++ a ++ b ++ 7#7)
  | .sra d a b => some (1#7 ++ d ++ a ++ b ++ 8#7)
  | .mul d a b => some (1#7 ++ d ++ a ++ b ++ 9#7)
  | .mulh d a b => some (1#7 ++ d ++ a ++ b ++ 10#7)
  | .mulhu d a b => some (1#7 ++ d ++ a ++ b ++ 11#7)
  | .div d a b => some (1#7 ++ d ++ a ++ b ++ 12#7)
  | .divu d a b => some (1#7 ++ d ++ a ++ b ++ 13#7)
  | .rem d a b => some (1#7 ++ d ++ a ++ b ++ 14#7)
  | .remu d a b => some (1#7 ++ d ++ a ++ b ++ 15#7)
  | .min d a b => some (1#7 ++ d ++ a ++ b ++ 16#7)
  | .max d a b => some (1#7 ++ d ++ a ++ b ++ 17#7)
  | .minu d a b => some (1#7 ++ d ++ a ++ b ++ 18#7)
  | .maxu d a b => some (1#7 ++ d ++ a ++ b ++ 19#7)
  | .slt d a b => some (1#7 ++ d ++ a ++ b ++ 20#7)
  | .sltu d a b => some (1#7 ++ d ++ a ++ b ++ 21#7)
  | .clz d a => some (1#7 ++ d ++ a ++ 22#13)
  | .popc d a => some (1#7 ++ d ++ a ++ 23#13)
  | .sext d a w => some (1#7 ++ d ++ a ++ w ++ 24#7)
  | .zext d a w => some (1#7 ++ d ++ a ++ w ++ 25#7)
  | .addi d a i => some (2#7 ++ d ++ a ++ i)
  | .andi d a i => some (3#7 ++ d ++ a ++ i)
  | .ori d a i => some (4#7 ++ d ++ a ++ i)
  | .xori d a i => some (5#7 ++ d ++ a ++ i)
  | .slli d a s => some (6#7 ++ d ++ a ++ 0#7 ++ s)
  | .srli d a s => some (7#7 ++ d ++ a ++ 0#7 ++ s)
  | .srai d a s => some (8#7 ++ d ++ a ++ 0#7 ++ s)
  | .slti d a i => some (9#7 ++ d ++ a ++ i)
  | .lih d i => some (10#7 ++ d ++ i)
  | .addpc d i => some (11#7 ++ d ++ i)
  | .lds d a w o => some (12#7 ++ d ++ a ++ w.code ++ o)
  | .ldz d a w o => some (13#7 ++ d ++ a ++ w.code ++ o)
  | .st d a w o => some (14#7 ++ d ++ a ++ w.code ++ o)
  | .jalr d a i => some (15#7 ++ d ++ a ++ i)
  | .beq a b d => some (16#7 ++ a ++ b ++ d)
  | .bne a b d => some (17#7 ++ a ++ b ++ d)
  | .blt a b d => some (18#7 ++ a ++ b ++ d)
  | .bge a b d => some (19#7 ++ a ++ b ++ d)
  | .bltu a b d => some (20#7 ++ a ++ b ++ d)
  | .bgeu a b d => some (21#7 ++ a ++ b ++ d)
  | .j d => some (22#7 ++ d)
  | .jal d => some (23#7 ++ d)
  | .nop => some (805306368#32)
  | .yield => some (805306369#32)
  | .exit => some (805306370#32)
  | .brk => some (805306371#32)
  | .trap a => some (1536#13 ++ a ++ 4#13)
  | .alloc d a => some (24#7 ++ d ++ a ++ 5#13)
  | .free d a => some (24#7 ++ d ++ a ++ 6#13)
  | .launch d a => some (24#7 ++ d ++ a ++ 7#13)
  | .deal d a b => some (24#7 ++ d ++ a ++ b ++ 8#7)
  | .prio a => some (1536#13 ++ a ++ 9#13)
  | .srd d n => some (25#7 ++ d ++ 0#7 ++ n)
  | .swr a n => some (1664#13 ++ a ++ 0#1 ++ n)
  | .frame r n x y z => some (27#7 ++ r ++ n ++ x ++ y ++ z ++ 0#1)
  | .vconf n => some (234881024#30 ++ n)
  | .vsetl d a b w => some (29#7 ++ d ++ a ++ b ++ 0#5 ++ w.code)
  | .vrel => some (1006632960#32)
  | .vld x => some (32#7 ++ x.d ++ x.a ++ 0#6 ++ x.m ++ BitVec.ofBool x.o ++ BitVec.ofBool x.k ++ x.w.code)
  | .vlds x => some (33#7 ++ x.d ++ x.a ++ x.b ++ x.m ++ BitVec.ofBool x.o ++ BitVec.ofBool x.k ++ x.w.code)
  | .vldx x => some (34#7 ++ x.d ++ x.a ++ x.b ++ x.m ++ BitVec.ofBool x.o ++ BitVec.ofBool x.k ++ x.w.code)
  | .vldseg x => some (35#7 ++ x.d ++ x.a ++ x.b ++ x.m ++ BitVec.ofBool x.o ++ BitVec.ofBool x.k ++ x.w.code)
  | .vldff x => some (36#7 ++ x.d ++ x.a ++ 0#6 ++ x.m ++ BitVec.ofBool x.o ++ BitVec.ofBool x.k ++ x.w.code)
  | .vldsc d a => some (37#7 ++ d ++ a ++ 0#13)
  | .vst x => some (38#7 ++ x.d ++ x.a ++ 0#6 ++ x.m ++ BitVec.ofBool x.o ++ BitVec.ofBool x.k ++ x.w.code)
  | .vsts x => some (39#7 ++ x.d ++ x.a ++ x.b ++ x.m ++ BitVec.ofBool x.o ++ BitVec.ofBool x.k ++ x.w.code)
  | .vstx x => some (40#7 ++ x.d ++ x.a ++ x.b ++ x.m ++ BitVec.ofBool x.o ++ BitVec.ofBool x.k ++ x.w.code)
  | .vstseg x => some (41#7 ++ x.d ++ x.a ++ x.b ++ x.m ++ BitVec.ofBool x.o ++ BitVec.ofBool x.k ++ x.w.code)
  | .vstreamBind d a b => some (42#7 ++ d ++ a ++ b ++ 0#7)
  | .vstreamUnbind d => some (42#7 ++ d ++ 1#19)
  | .vstreamRewind d => some (42#7 ++ d ++ 2#19)
  | .vamoAdd x => some (43#7 ++ x.d ++ x.a ++ x.b ++ x.m ++ 0#2 ++ x.w.code)
  | .vamoMin x => some (43#7 ++ x.d ++ x.a ++ x.b ++ x.m ++ 1#2 ++ x.w.code)
  | .vamoMax x => some (43#7 ++ x.d ++ x.a ++ x.b ++ x.m ++ 2#2 ++ x.w.code)
  | .vamoFadd x => some (43#7 ++ x.d ++ x.a ++ x.b ++ x.m ++ 3#2 ++ x.w.code)
  | .amoAdd d a b => some (44#7 ++ d ++ a ++ b ++ 0#7)
  | .amoAnd d a b => some (44#7 ++ d ++ a ++ b ++ 1#7)
  | .amoOr d a b => some (44#7 ++ d ++ a ++ b ++ 2#7)
  | .amoXor d a b => some (44#7 ++ d ++ a ++ b ++ 3#7)
  | .amoMin d a b => some (44#7 ++ d ++ a ++ b ++ 4#7)
  | .amoMax d a b => some (44#7 ++ d ++ a ++ b ++ 5#7)
  | .amoMinu d a b => some (44#7 ++ d ++ a ++ b ++ 6#7)
  | .amoMaxu d a b => some (44#7 ++ d ++ a ++ b ++ 7#7)
  | .amoSwap d a b => some (44#7 ++ d ++ a ++ b ++ 8#7)
  | .cas d a b => some (45#7 ++ d ++ a ++ b ++ 0#7)
  | .lock d a => some (46#7 ++ d ++ a ++ 0#13)
  | .trylock d a => some (46#7 ++ d ++ a ++ 1#13)
  | .unlock a => some (2944#13 ++ a ++ 2#13)
  | .waitwEq d a b => some (47#7 ++ d ++ a ++ b ++ 0#7)
  | .waitwNe d a b => some (47#7 ++ d ++ a ++ b ++ 1#7)
  | .waitwLt d a b => some (47#7 ++ d ++ a ++ b ++ 2#7)
  | .waitwGe d a b => some (47#7 ++ d ++ a ++ b ++ 3#7)
  | .waitwLtu d a b => some (47#7 ++ d ++ a ++ b ++ 4#7)
  | .waitwGeu d a b => some (47#7 ++ d ++ a ++ b ++ 5#7)
  | .fence f p v k e l => some (6291456#24 ++ BitVec.ofBool f ++ BitVec.ofBool p ++ BitVec.ofBool v ++ BitVec.ofBool k ++ BitVec.ofBool e ++ l)
  | .vfence l => some (205520896#29 ++ l)
  | .barArrive n => some (13107200#25 ++ n)
  | .barWait n => some (13107201#25 ++ n)
  | .barArrwait n => some (13107202#25 ++ n)
  | .post k a => some (51#7 ++ k ++ a ++ 0#13)
  | .waiti k a => some (52#7 ++ k ++ a ++ 0#13)
  | .waitv d k b => some (53#7 ++ d ++ k ++ b ++ 0#7)
  | .cpy d a b => some (54#7 ++ d ++ a ++ b ++ 0#7)
  | .cpyf d a b => some (54#7 ++ d ++ a ++ b ++ 1#7)
  | .cptile d a b => some (54#7 ++ d ++ a ++ b ++ 2#7)
  | .cprem d a b => some (54#7 ++ d ++ a ++ b ++ 3#7)
  | .coll d a b => some (54#7 ++ d ++ a ++ b ++ 4#7)
  | .publish a => some (3456#13 ++ a ++ 5#13)
  | .shadow d a => some (54#7 ++ d ++ a ++ 6#13)
  | .shadowRelease d b => some (54#7 ++ d ++ 0#6 ++ b ++ 6#7)
  | .syncw a b => some (3456#13 ++ a ++ b ++ 7#7)
  | .cleanr a b => some (3456#13 ++ a ++ b ++ 8#7)
  | .invalr a b => some (3456#13 ++ a ++ b ++ 9#7)
  | .bankcmd d a => some (54#7 ++ d ++ a ++ 10#13)
  | .xfwait a b => some (3520#13 ++ a ++ b ++ 0#7)
  | .syncwait d a b => some (55#7 ++ d ++ a ++ b ++ 1#7)
  | .bankwait d a => some (55#7 ++ d ++ a ++ 2#13)
  | .pattach z => some (29360128#26 ++ z)
  | .pdetach => some (1879048256#32)
  | .pldaMem f a b k => some (56#7 ++ f ++ a ++ b ++ 8#7 ++ k)
  | .pldaReg f a k => some (56#7 ++ f ++ a ++ 10#13 ++ k)
  | .pldbMem f a b k => some (56#7 ++ f ++ a ++ b ++ 12#7 ++ k)
  | .pldbReg f a k => some (56#7 ++ f ++ a ++ 14#13 ++ k)
  | .pmma c a k => some (56#7 ++ c ++ a ++ 16#13 ++ k)
  | .pmmas c a k => some (56#7 ++ c ++ a ++ 20#13 ++ k)
  | .pzero c => some (56#7 ++ c ++ 384#23)
  | .prdacc c d b => some (56#7 ++ c ++ d ++ b ++ 448#11)
  | .pwracc c a b => some (56#7 ++ c ++ a ++ b ++ 512#11)
  | .ppub c l => some (56#7 ++ c ++ l ++ 576#17)
  | .pfin c => some (56#7 ++ c ++ 640#23)
  | .settle l => some (29184#16 ++ l ++ 0#1)
  | .lmark a d => some (3712#13 ++ a ++ 0#10 ++ d)
  | .lend c d => some (59#7 ++ c ++ 0#6 ++ d)
  | .tkarm d a b => some (60#7 ++ d ++ a ++ b ++ 0#7)
  | .tkdisarm b => some (245760#19 ++ b ++ 1#7)
  | .tkemit a b => some (3840#13 ++ a ++ b ++ 2#7)
  | .tkemitDraft a b => some (3841#13 ++ a ++ b ++ 2#7)
  | .tksync d => some (60#7 ++ d ++ 3#19)
  | .tkconf a b => some (3840#13 ++ a ++ b ++ 4#7)
  | .vadd x => some (64#7 ++ x.d ++ x.a ++ x.b ++ x.m ++ BitVec.ofBool x.s ++ x.t.code)
  | .vsub x => some (65#7 ++ x.d ++ x.a ++ x.b ++ x.m ++ BitVec.ofBool x.s ++ x.t.code)
  | .vmul x => some (66#7 ++ x.d ++ x.a ++ x.b ++ x.m ++ BitVec.ofBool x.s ++ x.t.code)
  | .vmulh x => some (67#7 ++ x.d ++ x.a ++ x.b ++ x.m ++ BitVec.ofBool x.s ++ x.t.code)
  | .vmulhu x => some (68#7 ++ x.d ++ x.a ++ x.b ++ x.m ++ BitVec.ofBool x.s ++ x.t.code)
  | .vmacc x => some (69#7 ++ x.d ++ x.a ++ x.b ++ x.m ++ BitVec.ofBool x.s ++ x.t.code)
  | .vdiv x => some (70#7 ++ x.d ++ x.a ++ x.b ++ x.m ++ BitVec.ofBool x.s ++ x.t.code)
  | .vrem x => some (71#7 ++ x.d ++ x.a ++ x.b ++ x.m ++ BitVec.ofBool x.s ++ x.t.code)
  | .vmin x => some (72#7 ++ x.d ++ x.a ++ x.b ++ x.m ++ BitVec.ofBool x.s ++ x.t.code)
  | .vmax x => some (73#7 ++ x.d ++ x.a ++ x.b ++ x.m ++ BitVec.ofBool x.s ++ x.t.code)
  | .vminu x => some (74#7 ++ x.d ++ x.a ++ x.b ++ x.m ++ BitVec.ofBool x.s ++ x.t.code)
  | .vmaxu x => some (75#7 ++ x.d ++ x.a ++ x.b ++ x.m ++ BitVec.ofBool x.s ++ x.t.code)
  | .vand x => some (76#7 ++ x.d ++ x.a ++ x.b ++ x.m ++ BitVec.ofBool x.s ++ x.t.code)
  | .vor x => some (77#7 ++ x.d ++ x.a ++ x.b ++ x.m ++ BitVec.ofBool x.s ++ x.t.code)
  | .vxor x => some (78#7 ++ x.d ++ x.a ++ x.b ++ x.m ++ BitVec.ofBool x.s ++ x.t.code)
  | .vsll x => some (79#7 ++ x.d ++ x.a ++ x.b ++ x.m ++ BitVec.ofBool x.s ++ x.t.code)
  | .vsrl x => some (80#7 ++ x.d ++ x.a ++ x.b ++ x.m ++ BitVec.ofBool x.s ++ x.t.code)
  | .vsra x => some (81#7 ++ x.d ++ x.a ++ x.b ++ x.m ++ BitVec.ofBool x.s ++ x.t.code)
  | .vsadd x => some (82#7 ++ x.d ++ x.a ++ x.b ++ x.m ++ BitVec.ofBool x.s ++ x.t.code)
  | .vssub x => some (83#7 ++ x.d ++ x.a ++ x.b ++ x.m ++ BitVec.ofBool x.s ++ x.t.code)
  | .vaadd x => some (84#7 ++ x.d ++ x.a ++ x.b ++ x.m ++ BitVec.ofBool x.s ++ x.t.code)
  | .vsmul x => some (85#7 ++ x.d ++ x.a ++ x.b ++ x.m ++ BitVec.ofBool x.s ++ x.t.code)
  | .vwadd x => some (86#7 ++ x.d ++ x.a ++ x.b ++ x.m ++ BitVec.ofBool x.s ++ x.t.code)
  | .vwaddu x => some (87#7 ++ x.d ++ x.a ++ x.b ++ x.m ++ BitVec.ofBool x.s ++ x.t.code)
  | .vwmul x => some (88#7 ++ x.d ++ x.a ++ x.b ++ x.m ++ BitVec.ofBool x.s ++ x.t.code)
  | .vwmulu x => some (89#7 ++ x.d ++ x.a ++ x.b ++ x.m ++ BitVec.ofBool x.s ++ x.t.code)
  | .vwmacc x => some (90#7 ++ x.d ++ x.a ++ x.b ++ x.m ++ BitVec.ofBool x.s ++ x.t.code)
  | .vwmaccu x => some (91#7 ++ x.d ++ x.a ++ x.b ++ x.m ++ BitVec.ofBool x.s ++ x.t.code)
  | .vnclip x => some (92#7 ++ x.d ++ x.a ++ x.b ++ x.m ++ BitVec.ofBool x.s ++ x.t.code)
  | .vnclipu x => some (93#7 ++ x.d ++ x.a ++ x.b ++ x.m ++ BitVec.ofBool x.s ++ x.t.code)
  | .vfadd x => some (94#7 ++ x.d ++ x.a ++ x.b ++ x.m ++ BitVec.ofBool x.s ++ x.t.code)
  | .vfsub x => some (95#7 ++ x.d ++ x.a ++ x.b ++ x.m ++ BitVec.ofBool x.s ++ x.t.code)
  | .vfmul x => some (96#7 ++ x.d ++ x.a ++ x.b ++ x.m ++ BitVec.ofBool x.s ++ x.t.code)
  | .vfdiv x => some (97#7 ++ x.d ++ x.a ++ x.b ++ x.m ++ BitVec.ofBool x.s ++ x.t.code)
  | .vfma x => some (98#7 ++ x.d ++ x.a ++ x.b ++ x.m ++ BitVec.ofBool x.s ++ x.t.code)
  | .vfnma x => some (99#7 ++ x.d ++ x.a ++ x.b ++ x.m ++ BitVec.ofBool x.s ++ x.t.code)
  | .vfmin x => some (100#7 ++ x.d ++ x.a ++ x.b ++ x.m ++ BitVec.ofBool x.s ++ x.t.code)
  | .vfmax x => some (101#7 ++ x.d ++ x.a ++ x.b ++ x.m ++ BitVec.ofBool x.s ++ x.t.code)
  | .vfsgnj x => some (102#7 ++ x.d ++ x.a ++ x.b ++ x.m ++ BitVec.ofBool x.s ++ x.t.code)
  | .vfsgnjn x => some (103#7 ++ x.d ++ x.a ++ x.b ++ x.m ++ BitVec.ofBool x.s ++ x.t.code)
  | .vcmpeq x => some (104#7 ++ x.d ++ x.a ++ x.b ++ x.m ++ BitVec.ofBool x.s ++ x.t.code)
  | .vcmpne x => some (105#7 ++ x.d ++ x.a ++ x.b ++ x.m ++ BitVec.ofBool x.s ++ x.t.code)
  | .vcmplt x => some (106#7 ++ x.d ++ x.a ++ x.b ++ x.m ++ BitVec.ofBool x.s ++ x.t.code)
  | .vcmpltu x => some (107#7 ++ x.d ++ x.a ++ x.b ++ x.m ++ BitVec.ofBool x.s ++ x.t.code)
  | .vcmple x => some (108#7 ++ x.d ++ x.a ++ x.b ++ x.m ++ BitVec.ofBool x.s ++ x.t.code)
  | .vcmpleu x => some (109#7 ++ x.d ++ x.a ++ x.b ++ x.m ++ BitVec.ofBool x.s ++ x.t.code)
  | .vfcmpeq x => some (110#7 ++ x.d ++ x.a ++ x.b ++ x.m ++ BitVec.ofBool x.s ++ x.t.code)
  | .vfcmplt x => some (111#7 ++ x.d ++ x.a ++ x.b ++ x.m ++ BitVec.ofBool x.s ++ x.t.code)
  | .vfcmple x => some (112#7 ++ x.d ++ x.a ++ x.b ++ x.m ++ BitVec.ofBool x.s ++ x.t.code)
  | .vfcmpun x => some (113#7 ++ x.d ++ x.a ++ x.b ++ x.m ++ BitVec.ofBool x.s ++ x.t.code)
  | .vsel x => some (114#7 ++ x.d ++ x.a ++ x.b ++ x.m ++ BitVec.ofBool x.s ++ x.t.code)
  | .vslideup d a b m t => some (115#7 ++ d ++ a ++ b ++ m ++ 1#1 ++ t.code)
  | .vslidedn d a b m t => some (116#7 ++ d ++ a ++ b ++ m ++ 1#1 ++ t.code)
  | .vgatherr x => some (117#7 ++ x.d ++ x.a ++ x.b ++ x.m ++ BitVec.ofBool x.s ++ x.t.code)
  | .vmrgk d a b t => some (118#7 ++ d ++ a ++ b ++ 0#4 ++ t.code)
  | .vmand d a b => some (119#7 ++ d ++ a ++ b ++ 0#7)
  | .vmor d a b => some (120#7 ++ d ++ a ++ b ++ 0#7)
  | .vmxor d a b => some (121#7 ++ d ++ a ++ b ++ 0#7)
  | .vmandn d a b => some (122#7 ++ d ++ a ++ b ++ 0#7)
  | .vmv x => some (123#7 ++ x.d ++ x.a ++ 0#6 ++ x.m ++ 0#1 ++ x.t.code)
  | .vsplat x => some (123#7 ++ x.d ++ x.a ++ 1#6 ++ x.m ++ 0#1 ++ x.t.code)
  | .vmvsx x => some (123#7 ++ x.d ++ x.a ++ 2#6 ++ x.m ++ 0#1 ++ x.t.code)
  | .vmvxs d a t => some (123#7 ++ d ++ a ++ 48#10 ++ t.code)
  | .vid d m t => some (123#7 ++ d ++ 4#12 ++ m ++ 0#1 ++ t.code)
  | .viota x => some (123#7 ++ x.d ++ x.a ++ 5#6 ++ x.m ++ 0#1 ++ x.t.code)
  | .vcompress x => some (123#7 ++ x.d ++ x.a ++ 6#6 ++ x.m ++ 0#1 ++ x.t.code)
  | .vneg x => some (123#7 ++ x.d ++ x.a ++ 7#6 ++ x.m ++ 0#1 ++ x.t.code)
  | .vabs x => some (123#7 ++ x.d ++ x.a ++ 8#6 ++ x.m ++ 0#1 ++ x.t.code)
  | .vnot x => some (123#7 ++ x.d ++ x.a ++ 9#6 ++ x.m ++ 0#1 ++ x.t.code)
  | .vfneg x => some (123#7 ++ x.d ++ x.a ++ 10#6 ++ x.m ++ 0#1 ++ x.t.code)
  | .vfabs x => some (123#7 ++ x.d ++ x.a ++ 11#6 ++ x.m ++ 0#1 ++ x.t.code)
  | .vfsqrt x => some (123#7 ++ x.d ++ x.a ++ 12#6 ++ x.m ++ 0#1 ++ x.t.code)
  | .vfrecip x => some (123#7 ++ x.d ++ x.a ++ 13#6 ++ x.m ++ 0#1 ++ x.t.code)
  | .vfexp2 x => some (123#7 ++ x.d ++ x.a ++ 14#6 ++ x.m ++ 0#1 ++ x.t.code)
  | .vfclass x => some (123#7 ++ x.d ++ x.a ++ 15#6 ++ x.m ++ 0#1 ++ x.t.code)
  | .vredsum x => some (123#7 ++ x.d ++ x.a ++ 16#6 ++ x.m ++ 0#1 ++ x.t.code)
  | .vredmin x => some (123#7 ++ x.d ++ x.a ++ 17#6 ++ x.m ++ 0#1 ++ x.t.code)
  | .vredmax x => some (123#7 ++ x.d ++ x.a ++ 18#6 ++ x.m ++ 0#1 ++ x.t.code)
  | .vredminu x => some (123#7 ++ x.d ++ x.a ++ 19#6 ++ x.m ++ 0#1 ++ x.t.code)
  | .vredmaxu x => some (123#7 ++ x.d ++ x.a ++ 20#6 ++ x.m ++ 0#1 ++ x.t.code)
  | .vredand x => some (123#7 ++ x.d ++ x.a ++ 21#6 ++ x.m ++ 0#1 ++ x.t.code)
  | .vredor x => some (123#7 ++ x.d ++ x.a ++ 22#6 ++ x.m ++ 0#1 ++ x.t.code)
  | .vredxor x => some (123#7 ++ x.d ++ x.a ++ 23#6 ++ x.m ++ 0#1 ++ x.t.code)
  | .vfredsum x => some (123#7 ++ x.d ++ x.a ++ 24#6 ++ x.m ++ 0#1 ++ x.t.code)
  | .vfredmin x => some (123#7 ++ x.d ++ x.a ++ 25#6 ++ x.m ++ 0#1 ++ x.t.code)
  | .vfredmax x => some (123#7 ++ x.d ++ x.a ++ 26#6 ++ x.m ++ 0#1 ++ x.t.code)
  | .vmpop d a m => some (123#7 ++ d ++ a ++ 27#6 ++ m ++ 0#4)
  | .vmfirst d a m => some (123#7 ++ d ++ a ++ 28#6 ++ m ++ 0#4)
  | .vmnot d a m => some (123#7 ++ d ++ a ++ 29#6 ++ m ++ 0#4)
  | .vmbefore d a m => some (123#7 ++ d ++ a ++ 30#6 ++ m ++ 0#4)
  | .vmincl d a m => some (123#7 ++ d ++ a ++ 31#6 ++ m ++ 0#4)
  | .vsortk x => some (123#7 ++ x.d ++ x.a ++ 32#6 ++ x.m ++ 0#1 ++ x.t.code)
  | .vuniq x => some (123#7 ++ x.d ++ x.a ++ 33#6 ++ x.m ++ 0#1 ++ x.t.code)
  | .vtosf x => some (123#7 ++ x.d ++ x.a ++ 34#6 ++ x.m ++ 0#1 ++ x.t.code)
  | .vtobf x => some (123#7 ++ x.d ++ x.a ++ 35#6 ++ x.m ++ 0#1 ++ x.t.code)
  | .vtohf x => some (123#7 ++ x.d ++ x.a ++ 36#6 ++ x.m ++ 0#1 ++ x.t.code)
  | .vtoe4 x => some (123#7 ++ x.d ++ x.a ++ 37#6 ++ x.m ++ 0#1 ++ x.t.code)
  | .vtoe4s x => some (123#7 ++ x.d ++ x.a ++ 38#6 ++ x.m ++ 0#1 ++ x.t.code)
  | .vtoe5 x => some (123#7 ++ x.d ++ x.a ++ 39#6 ++ x.m ++ 0#1 ++ x.t.code)
  | .vtoe5s x => some (123#7 ++ x.d ++ x.a ++ 40#6 ++ x.m ++ 0#1 ++ x.t.code)
  | .vtof4 x => some (123#7 ++ x.d ++ x.a ++ 41#6 ++ x.m ++ 0#1 ++ x.t.code)
  | .vfromf4 x => some (123#7 ++ x.d ++ x.a ++ 42#6 ++ x.m ++ 0#1 ++ x.t.code)
  | .vtoinr x => some (123#7 ++ x.d ++ x.a ++ 43#6 ++ x.m ++ 0#1 ++ x.t.code)
  | .vtoinz x => some (123#7 ++ x.d ++ x.a ++ 44#6 ++ x.m ++ 0#1 ++ x.t.code)
  | .vintof x => some (123#7 ++ x.d ++ x.a ++ 45#6 ++ x.m ++ 0#1 ++ x.t.code)
  | .vwiden x => some (123#7 ++ x.d ++ x.a ++ 46#6 ++ x.m ++ 0#1 ++ x.t.code)
  | .vwidenu x => some (123#7 ++ x.d ++ x.a ++ 47#6 ++ x.m ++ 0#1 ++ x.t.code)
  | _ => none

end Sys2Proof
end

