-- ==== Sys2Proof/Machine/Fetch.lean ====
section
/-!
DEFINITION. Fetch: the word at the program counter (R231, R233, R268).
-/
namespace Sys2Proof.Machine

/-- What a fetch gives. -/
inductive Fetched
  | word (w : BitVec 32)
  | trap (t : Trap)
  deriving DecidableEq, Repr

/-- The word at an address: the core's instruction cache serves it where it holds the line (R233). A fetch trap is exact at the
instruction that would have been fetched; the thread resumes at its program counter. A program counter that the kernel set to no
multiple of 4 traps as a misaligned word access (log entry 22). -/
def State.fetchAt (s : State) (a : Word) : Fetched :=
  let bad : BitVec 8 → BitVec 8 → Fetched := fun c d => .trap ⟨false, c, d, a, a, s.cur.pc⟩
  match s.spot needX a 4 2 with
  | .phys pa =>
    match Tab.get (s.core s.cur.id.place).icache (pa / 128) with
    | some d => .word (BitVec.ofNat 32 (leNat (lineBytes d (pa % 128) 4)))
    | none => .word (BitVec.ofNat 32 (s.mem.nat pa 4))
  | .bad c d => bad c (if c = 8 then 1 else d)
  | _ => bad 3 5

/-- The word at the program counter. -/
def State.fetch (s : State) : Fetched := s.fetchAt s.cur.pc

/-- The word that the current thread executes. -/
def State.setIr (s : State) (w : BitVec 32) : State := { s with cur := { s.cur with ir := w } }

/-! ### Placing a word for the next fetch (log entry 5) -/

/-- A partition as boot and the resident kernel would leave it: section 0, translation on, a thread table. -/
def Part.placed : Part :=
  { idx := 0, sects := 1, tierLo := 0, tierHi := 0, debugOn := false, rebases := 0, tsBase := 0
    k := { KRegs.init with asrt := 0x8000000000010000, ttbase := 0x100000, evqb := 0x400000 }
    db := Debug.init, pending := [], inval := none }

/-- A launch of one thread in ASID 1 of that partition. -/
def Launch.placed : Launch :=
  { Launch.empty with
    id := 1, asid := 1, admitted := true, made := [1]
    lrec := { LaunchRec.empty with levels := [⟨1, false, 0, 0⟩], stages := [⟨0, 0, 0, 0⟩] } }

/-- The pages behind virtual page 0: root, top, middle and leaf entries, the thread-table entry of CTXID 1. -/
def placedTables : List (Nat × Nat) :=
  [(0x10008, 0x20001), (0x20000, 0x40001), (0x40000, 0x50001), (0x50000, 0x6001F), (0x100010, 0x9000000000200000)]

/-- The machine with one thread about to fetch virtual address 0, which physical 0x60000 backs. -/
def State.placed (s : State) : State :=
  { s with
    cur := { s.cur with id := { s.cur.id with ctxid := 1, launch := 1, lv := [0] }, st := .running, pc := 0, wait := none,
                        stalled := false, trap := none, pass := false,
                        driftAt := s.cycle }
    others := [], parts := [.placed], launches := [.placed], tlb := [], walks := [], cores := [], hbm := [0]
    lines := [], mem := placedTables.foldl (fun m e => m.write e.1 (natBytes 8 e.2)) s.mem }

/-- The bytes of an instruction written where the next fetch reads them, and no stale instruction-cache line. -/
def State.putCode (s : State) (pa : Nat) (bs : List Byte) : State :=
  { s with
    mem := s.mem.write pa bs
    cores := s.cores.map (fun c => (c.1, { c.2 with icache := Tab.del c.2.icache (pa / 128) })) }

/-- Where the next fetch reads: the page behind the program counter where the current thread can fetch from memory with no debug that could
stop it, else the placed page. -/
def State.codeAt (s : State) : State × Nat :=
  match decide (s.cur.st = .running) && s.cur.trap.isNone && !s.cur.stalled && (s.parts.all fun p => !p.debugOn) && s.cores.isEmpty, s.spot needX s.cur.pc 4 2 with
  | true, .phys pa => (s, pa)
  | _, _ => (s.placed, 0x60000)

end Sys2Proof.Machine
end

