-- ==== Sys2Proof/Machine/Operands.lean ====
section
/-!
DEFINITION. Operands: vector registers, masks and register groups, the checks of R281 and R297, bound streams as operands
(R289 to R293), and provisional operands (R72 to R76, R316).
-/
namespace Sys2Proof

/-- Bytes of an element type (R234). -/
def ElTy.bytes : ElTy → Nat
  | .b => 1
  | .h => 2
  | .w => 4
  | .d => 8
  | .e4 => 1
  | .bf => 2
  | .hf => 2
  | .sf => 4

end Sys2Proof

namespace Sys2Proof.Machine

/-! ### Sizes (R14, R276, R296) -/

/-- Bytes of a context's vector register partition (R12, R14). -/
def Thread.partBytes (t : Thread) : Nat := if t.id.place.isBase then 32768 else 65536

def State.nv (s : State) : Nat := s.cur.sys.nvreg.toNat

/-- The granted length in force. -/
def State.vl (s : State) : Nat := s.cur.sys.vlg.toNat

/-- Bytes of one vector register. -/
def State.rb (s : State) : Nat := s.cur.partBytes / s.nv

/-- VLMAX of an element size (R14). -/
def State.vlmax (s : State) (e : Nat) : Nat := s.cur.partBytes / (s.nv * e)

/-- The registers of the group of k elements of e bytes that begins at register n (R296). -/
def State.group (s : State) (n e k : Nat) : List Nat :=
  (List.range (max 1 ((k * e + s.rb - 1) / s.rb))).map fun j => n + j

/-! ### Elements -/

/-- k codes of e bytes from an address on. -/
def Mem.elems (m : Mem) (a e k : Nat) : List Nat := (chunks e k (m.run a (k * e))).map leNat

/-- The first k elements of the group that begins at register n. -/
def State.elems (s : State) (n e k : Nat) : List Nat := s.cur.vec.vrf.elems (n * s.rb) e k

/-- The register directory entry of a register. -/
def Vec.reg (v : Vec) (n : Nat) : VReg := (Tab.get v.regs n).getD ⟨0, 0, false, 0, 0⟩

/-- The lineage that a register carries; 0 when it is settled (R72). -/
def State.tag (s : State) (n : Nat) : Nat := (s.cur.vec.reg n).tag

/-- The directory entry of a register after elements up to byte `top` of it were written by an instruction that leaves `prog`
elements written; it is settled (R33, R74, R219). -/
def VReg.written (r : VReg) (top prog : Nat) : VReg := ⟨max r.valid ((top + 127) / 128), prog, true, 0, 0⟩

/-- Elements written to the group that begins at register n: none leaves an element as it was. A register with an element
written loses its lineage tag (R74). -/
def State.putV (s : State) (n e : Nat) (vals : List (Option Nat)) : State :=
  let rb := s.rb
  let c := rb / e
  let old := s.elems n e vals.length
  let bytes := ((old.zip vals).map fun p => natBytes e (p.2.getD p.1)).flatten
  let ws := (List.range vals.length).filter fun i => (vals.getD i none).isSome
  let hit := ((s.group n e vals.length).map fun r =>
    (r, (ws.filter fun i => decide (i / c = r - n)).foldl (fun m i => max m (e * (i % c + 1))) 0)).filter
      fun p => decide (p.2 ≠ 0)
  let v := s.cur.vec
  { s with cur := { s.cur with vec := { v with
      vrf := v.vrf.write (n * rb) bytes
      regs := hit.foldl (fun t p => Tab.set t p.1 ((v.reg p.1).written p.2 (min vals.length s.vl))) v.regs
      src := v.src.filter (fun x => !(hit.any fun p => p.1 == x.1)) } } }

/-! ### Masks (R15) -/

/-- Active(i): bit i of the mask that the M field names; 0 means unmasked. -/
def State.active (s : State) (m : BitVec 3) (i : Nat) : Bool :=
  decide (m = 0) || (s.cur.vec.masks.getD m.toNat 0).getLsbD i

/-- Bit i of a mask register: m0 reads as all ones. -/
def State.maskBit (s : State) (n i : Nat) : Bool := decide (n = 0) || (s.cur.vec.masks.getD n 0).getLsbD i

/-- Bits of a mask replaced by those of a list, where it gives one. -/
def putBits (m : BitVec 8192) (bs : List (Option Bool)) : BitVec 8192 :=
  let keep := (bs.map fun b => if b.isNone then 1 else 0)
  let setb := (bs.map fun b => if b = some true then 1 else 0)
  let num := fun l : List Nat => l.foldr (fun b n => b + 2 * n) 0
  let hi := m.toNat / 2 ^ bs.length * 2 ^ bs.length
  BitVec.ofNat 8192 (hi + ((m.toNat &&& num keep) ||| num setb))

/-- A mask register written bit by bit: none keeps a bit; a write to m0 is discarded. -/
def State.putMask (s : State) (n : Nat) (bs : List (Option Bool)) : State :=
  if n = 0 then s
  else { s with cur := { s.cur with vec := { s.cur.vec with
      masks := s.cur.vec.masks.setIfInBounds n (putBits (s.cur.vec.masks.getD n 0) bs) } } }

/-! ### The head of the queue -/

/-- Whether an entry works on an element: it is active, not done before, and within what an entry ahead of its turn may do (R33). -/
def State.acts (s : State) (q : QEntry) (m : BitVec 3) (i : Nat) : Bool :=
  s.active m i && decide (q.prog ≤ i) && (match q.upto with | none => true | some n => decide (i < n))

/-- The oldest entry is done and leaves the queue. -/
def State.popQueue (s : State) : State :=
  { s with cur := { s.cur with stalled := false, vec := { s.cur.vec with queue := s.cur.vec.queue.drop 1 } } }

/-- The progress index of the oldest entry. -/
def State.setProg (s : State) (k : Nat) : State :=
  { s with cur := { s.cur with vec := { s.cur.vec with
      queue := match s.cur.vec.queue with
        | [] => []
        | q :: t => { q with prog := k } :: t } } }

/-- The progress index of a list of registers in the register directory. -/
def State.setRegProg (s : State) (regs : List Nat) (k : Nat) : State :=
  { s with cur := { s.cur with vec := { s.cur.vec with
      regs := regs.foldl (fun t r => Tab.set t r { s.cur.vec.reg r with prog := k }) s.cur.vec.regs } } }

/-- An element-wise entry is done, or has done what an entry ahead of its turn may do (R33). -/
def State.endEntry (s : State) (q : QEntry) (dsts : List Nat) : State :=
  match q.upto with
  | none => s.popQueue
  | some n => (s.setProg n).setRegProg dsts n

/-- A trap of the vector stream at the commit pointer (R31); the scalar stream stands at its own next instruction. -/
def vtrap {α : Type} (s : State) (q : QEntry) (code detail : BitVec 8) (badva : Word) : Res α :=
  .trap ⟨true, code, detail, q.pc, badva, s.cur.pc⟩ s

/-! ### Register checks (R281, R297) -/

/-- How an instruction uses a register: a vector group of k elements of e bytes, as destination or source, the second
register of a pair, a mask, or a scalar register; `f` is the DETAIL of its field. -/
inductive RegUse
  | dst (n e k : Nat) (f : BitVec 8)
  | src (n e k : Nat) (f : BitVec 8)
  | pairDst (n : Nat)
  | pairSrc (n : Nat)
  | mask (n : Nat) (f : BitVec 8)
  | scalar (n : Nat) (f : BitVec 8)

/-- The vector registers that a use names as destination. -/
def RegUse.dsts (s : State) : RegUse → List Nat
  | .dst n e k _ => s.group n e k
  | .pairDst n => [n]
  | _ => []

/-- The vector registers that a use reads. -/
def RegUse.srcs (s : State) : RegUse → List Nat
  | .src n e k _ => s.group n e k
  | .pairSrc n => [n]
  | _ => []

/-- The DETAIL of a register-number violation of one use. -/
def RegUse.bad (s : State) : RegUse → Option (BitVec 8)
  | .dst n e k f => if (s.group n e k).all fun r => decide (r < s.nv) then none else some f
  | .src n e k f => if (s.group n e k).all fun r => decide (r < s.nv) then none else some f
  | .pairDst n => if n < s.nv then none else some 5
  | .pairSrc n => if n < s.nv then none else some 5
  | .mask n f => if n < 8 then none else some f
  | .scalar n f => if n < 32 then none else some f

/-- Whether two uses overlap as R297 forbids: a destination and a source of another element size, a pair counting as one. -/
def RegUse.clash (s : State) (d a : RegUse) : Bool :=
  let differ := match d, a with
    | .dst _ e _ _, .src _ g _ _ => decide (e ≠ g)
    | .pairDst _, .src _ _ _ _ => true
    | .dst _ _ _ _, .pairSrc _ => true
    | _, _ => false
  differ && (d.dsts s).any fun r => (a.srcs s).contains r

/-- The registers of a stream's buffers (R289). -/
def Stream.regs (x : Stream) : List Nat := (List.range x.nb).map fun j => x.reg + j

/-- Whether a register is a buffer register of a bound stream. -/
def State.isBuffer (s : State) (r : Nat) : Bool := s.cur.vec.streams.any fun x => x.regs.contains r

/-- Whether a register is the visible name of a bound stream. -/
def State.isStream (s : State) (r : Nat) : Bool := s.cur.vec.streams.any fun x => x.reg == r

/-- A stream-binding violation of one use: it writes a buffer register, or names one besides the visible name (R289). -/
def RegUse.streamBad (s : State) (u : RegUse) : Bool :=
  ((u.dsts s).any fun r => s.isBuffer r) || ((u.srcs s).any fun r => s.isBuffer r && !s.isStream r)

/-- The checks of R297 after the encoding but for the streams, in its order: VL against `lim` elements, register numbers, overlap. The
answer is the trap's code and DETAIL. `strict` asks for the overlap check. -/
def State.checkNums (s : State) (lim : Nat) (uses : List RegUse) (strict : Bool) : Option (BitVec 8 × BitVec 8) :=
  if lim < s.vl then some (1, 0)
  else match uses.findSome? fun u => u.bad s with
    | some f => some (0x0B, f)
    | none =>
      if strict && uses.any fun d => uses.any fun a => d.clash s a then some (0x0B, 1) else none

/-- The checks of R297 after the encoding, streams last. -/
def State.checkRegs (s : State) (lim : Nat) (uses : List RegUse) (strict : Bool) : Option (BitVec 8 × BitVec 8) :=
  match s.checkNums lim uses strict with
  | some c => some c
  | none => if uses.any fun u => u.streamBad s then some (0x0C, 1) else none

/-! ### Streams as operands (R289, R290) -/

/-- Strips of a stream (R288). -/
def Stream.strips (x : Stream) : Nat := (x.cnt.foldl (· * ·) 1 + x.slen - 1) / x.slen

/-- Why a pop cannot happen yet, or what it gives. -/
inductive Popped
  | ok (bytes : List Byte)
  | none_
  | trap (code detail : BitVec 8) (badva : Word)

def Stream.next (x : Stream) : Popped :=
  if x.strips ≤ x.popped then .trap 0x0C 3 0
  else match x.ready, x.err with
    | b :: _, _ => .ok b
    | [], some e => .trap e.1 e.2.1 e.2.2
    | [], none => .none_

/-- The strip popped into the register that names the stream; higher elements read as zero (R289). -/
def State.popStream (s : State) (x : Stream) (bytes : List Byte) : State :=
  let v := s.cur.vec
  let rb := s.rb
  { s with cur := { s.cur with vec := { v with
      vrf := v.vrf.write (x.reg * rb) ((bytes ++ List.replicate rb 0).take rb)
      regs := Tab.set v.regs x.reg ⟨(bytes.length + 127) / 128, bytes.length / x.w.bytes, true, 0, 0⟩
      src := v.src.filter (fun y => decide (y.1 ≠ x.reg))
      streams := v.streams.map (fun y => if y.reg = x.reg then { y with popped := y.popped + 1, ready := y.ready.drop 1 } else y) } } }

/-! ### Provisional operands (R72 to R76) -/

/-- The FP32 lanes of a group of k elements of e bytes: the number of a lane is its byte offset in the partition over 4. -/
def laneOf (rb n e i : Nat) : Nat := (n * rb + i * e) / 4

/-- The correction of a lane as the register directory knows it (R72). -/
def State.srcOf (s : State) (lane : Nat) : DSrc :=
  match s.cur.vec.src.find? fun x => x.2.1 == lane with
  | some x => x.2.2
  | none => .zero

/-- The lineages that the current context owns on its core, unsettled. -/
def State.ownLins (s : State) : Tab Lineage :=
  (s.core s.cur.id.place).lins.filter fun l => decide (l.2.owner = s.cur.id.ctxid)

/-- Whether an unsettled lineage of the context holds a register (R74). -/
def State.isHeld (s : State) (r : Nat) : Bool := s.ownLins.any fun l => l.2.log.any fun e => e.held.contains r

/-- Every stream that a list of source registers names pops one strip, in queue order (R289, R290). Where one of them cannot, none has: the
instruction has no effect, and waits or traps (R293). A buffer register that a log entry holds is not overwritten (R74). -/
def popAll (s : State) (q : QEntry) (regs : List Nat) (f : State → Res Unit) : Res Unit :=
  go (s.cur.vec.streams.filter fun x => regs.contains x.reg) s
where
  go : List Stream → State → Res Unit
    | [], p => f p
    | x :: t, p =>
      match x.next with
      | .ok b => if s.isHeld x.reg then .wait .lineage s else go t (p.popStream x b)
      | .none_ => .wait .again s
      | .trap c d v => vtrap s q c d (if c = 0x0C then s.free else v)

/-- Whether an instruction runs as it is, runs as one of the linear class, or waits (R76, R316). -/
inductive Judged
  | plain
  | linear (ln : Nat)
  | wait
  deriving DecidableEq, Repr

/-- Whether an instruction of a lineage leaves elements of a destination register that carries another lineage (R73): the lanes of the whole
register, the ones beyond VL included. -/
def State.mixes (s : State) (t : Nat) (dsts : List Nat) (wrote : Nat → Bool) : Bool :=
  dsts.any fun r => decide (s.tag r ≠ 0) && decide (s.tag r ≠ t) &&
    (List.range (s.rb / 4)).any fun i => !wrote (r * s.rb / 4 + i)

/-- R76, R380: `lin` says that the instruction is of the linear class for these operands; `wrote` says which lanes it writes whole. -/
def State.judge (s : State) (srcs dsts : List Nat) (lin : Bool) (wrote : Nat → Bool) : Judged :=
  if dsts.any fun r => s.isHeld r then .wait
  else match ((srcs.map fun r => s.tag r).filter fun t => decide (t ≠ 0)).dedup with
    | [] => .plain
    | [t] =>
      if !lin then .wait
      else if (match Tab.get (s.core s.cur.id.place).lins t with
          | some l => decide (32 ≤ l.log.length) || l.delta.isSome
          | none => false) then .wait
      else if s.mixes t dsts wrote then .wait
      else .linear t
    | _ => .wait

/-- The log entry of a linear instruction (R73, R74): `defs` gives the provisional lanes it wrote; the lanes of the same
lineage that its destination keeps are carried forward. `s0` is the state before the write, `s` after it. -/
def State.logLinear (s : State) (s0 : State) (ln : Nat) (q : QEntry) (dsts srcs : List Nat)
    (defs : List (Nat × DOp)) (wrote : Nat → Bool) : State :=
  match Tab.get (s.core s.cur.id.place).lins ln with
  | none => s
  | some l =>
    let n := l.log.length
    let kept := s0.cur.vec.src.filter fun x => dsts.contains x.1 && !wrote x.2.1 && !(defs.any fun d => d.1 == x.2.1)
    let all := defs ++ kept.map fun x => (x.2.1, DOp.copy x.2.2)
    let held := srcs.filter fun r => decide (s0.tag r = 0)
    let k := s.core s.cur.id.place
    let s := s.setCore s.cur.id.place { k with lins := Tab.set k.lins ln { l with log := l.log ++ [⟨q.pc, q.word, q.xa, q.xb, all, held⟩] } }
    let rb := s.rb
    let v := s.cur.vec
    let has := fun r => all.any fun d => decide (4 * d.1 / rb = r)
    { s with cur := { s.cur with vec := { v with
        regs := dsts.foldl (fun t r => if has r then Tab.set t r { v.reg r with tag := ln, log := n + 1 } else t) v.regs
        src := v.src.filter (fun x => !dsts.contains x.1) ++
          (all.filter fun d => dsts.contains (4 * d.1 / rb)).map fun d => (4 * d.1 / rb, d.1, .entry n d.1) } } }

end Sys2Proof.Machine
end

