-- ==== Sys2Proof/Machine/SysRegs.lean ====
section
/-!
DEFINITION. SysRegs: SRD and SWR with the waits of R274 (R18, R20, R272 to R274).
-/
namespace Sys2Proof.Machine

/-- A BAR or POST marker (R29). -/
def QOp.isMarker : QOp → Bool
  | .bar _ => true
  | .post _ _ => true
  | _ => false

def QOp.isSetvl : QOp → Bool
  | .setvl _ _ => true
  | _ => false

/-- A press instruction. -/
def QOp.isPress : QOp → Bool
  | .attach _ => true
  | .detach => true
  | .pload _ _ _ _ => true
  | .pmma _ _ _ _ => true
  | .pzero _ => true
  | .prdacc _ => true
  | .pwracc _ => true
  | .ppub _ _ => true
  | .pfin _ => true
  | _ => false

/-- A TOKEN instruction in the queue. -/
def QOp.isToken : QOp → Bool
  | .tkarm => true
  | .tkdisarm => true
  | .tkemit _ => true
  | .tkconf => true
  | _ => false

/-- A send whose verdict is still to be written (R189, R395). -/
def TwOp.isVerdict : TwOp → Bool
  | .token d _ => !d
  | .conf _ => true
  | _ => false

/-- Every older vector instruction of the context has completed: only markers may stand in the queue (R20, R109). -/
def State.vecQuiet (s : State) : Bool := s.queue.all fun q => q.op.isMarker

/-- Every older vector memory instruction has performed, K = 1 included (R108). -/
def State.memQuiet (s : State) : Bool := s.queue.all fun q => !q.op.isMem

/-- Every older press instruction has completed. -/
def State.pressQuiet (s : State) : Bool := s.queue.all fun q => !q.op.isPress

/-- Every older VSETL has completed. -/
def State.setvlQuiet (s : State) : Bool := s.queue.all fun q => !q.op.isSetvl

/-- Every verdict of the context's older TOKEN instructions is written (R189). -/
def State.tokenQuiet (s : State) : Bool :=
  (s.queue.all fun q => !q.op.isToken) &&
    s.sends.all fun x => !(x.live && decide (x.owner = s.cur.id.ctxid) && x.op.isVerdict)

/-- Whether every strip has been read that the queue may still pop of a stream; those reads are placed before the pops (R129). A strip whose read
met a fault is read only once the pop has trapped and the context resumes (R290). -/
def State.stripsRead (s : State) (x : Stream) : Bool :=
  decide (x.strips ≤ x.popped + x.ready.length) ||
    decide ((s.queue.filter fun q => !q.op.isMarker).length ≤ x.ready.length)

/-- The wait of SRD (R274). DESIGN CHOICE (log entry 107): SRD PTS of a DET thread does not wait for its buffered stores, which raise no PTS
before the collective fence (R110). -/
def State.srdReady (s : State) (n : Nat) : Bool :=
  match n with
  | 0x001 => s.setvlQuiet
  | 0x003 => s.setvlQuiet
  | 0x005 => s.vecQuiet
  | 0x006 => s.vecQuiet
  | 0x007 => s.memQuiet && (s.queue.all fun q => q.op != .tkarm) && s.cur.vec.streams.all s.stripsRead
  | 0x011 => s.pressQuiet
  | _ => true

/-- The wait of SWR (R274); on a base core the token and press registers ignore writes. -/
def State.swrReady (s : State) (n : Nat) : Bool :=
  match n with
  | 0x005 => s.vecQuiet
  | 0x006 => s.vecQuiet
  | 0x011 => s.pressQuiet
  | 0x031 => s.cur.id.place.isBase || s.tokenQuiet
  | _ => true

/-- SRD. -/
def execSrd (d : BitVec 6) (n : BitVec 12) (s : State) : Host.Outcome State Fault Refusal :=
  finish (match s.sysRead n.toNat with
    | none => s.illegalOp
    | some v => checkG s d 1 (if s.srdReady n.toNat then s.result d v else s.stall))

/-- SWR. DESIGN CHOICE (log entry 107): the wait of SWR TKSEQB leaves PTS as it stands; R274 names of TKSYNC the wait alone, and the next TKSYNC
raises PTS to the verdicts' timestamps. -/
def execSwr (a : BitVec 6) (n : BitVec 12) (s : State) : Host.Outcome State Fault Refusal :=
  finish (match s.sysRead n.toNat with
    | none => s.illegalOp
    | some _ => readG s a 2 fun v =>
      if s.swrReady n.toNat then
        done ({ s with cur := s.cur.sysWrite s.cycle n.toNat v } : State).retire
      else if n.toNat = 0x031 then .wait .tokens s else s.stall)

end Sys2Proof.Machine
end

