-- ==== Sys2Proof/Machine/Issue.lean ====
section
/-!
DEFINITION. Issue: the vector lanes as a context acquires them, the push into the vector instruction queue with its captured
operands (R11, R20, R29, R30, R154), and the strip records (R226).
-/
namespace Sys2Proof.Machine

/-! ### Lanes (R11, R154, R155) -/

/-- The current context holds the lanes of its core from now on. -/
def State.takeLanes (s : State) : State :=
  s.setCore s.cur.id.place ((s.core s.cur.id.place).give s.cur.id.ctxid s.cycle)

/-- The current context waits for the lanes. -/
def State.queueForLanes (s : State) : State :=
  let k := s.core s.cur.id.place
  let c := s.cur.id.ctxid
  if k.waiters.contains c then s else s.setCore s.cur.id.place { k with waiters := k.waiters ++ [c] }

/-- The current context with the lanes, or none where it has to wait for them. -/
def State.lanes (s : State) : Option State :=
  let k := s.core s.cur.id.place
  let c := s.cur.id.ctxid
  if k.holder = some c then some s
  else if k.holder.isSome then none
  else match s.nextForLanes { k with waiters := if k.waiters.contains c then k.waiters else k.waiters ++ [c] } with
    | some x => if x = c then some s.takeLanes else none
    | none => some s.takeLanes

/-- Go on with the lanes, or stall for them. -/
def needLanes (s : State) (f : State → Res Unit) : Res Unit :=
  match s.lanes with
  | some s => f s
  | none => s.queueForLanes.stall

/-! ### The push (R20, R29) -/

/-- Entries of a queue (R29). -/
def queueSize : Nat := 64

/-- What an instruction pushes: operation, register numbers, and which of A and B name scalar registers to capture. -/
structure Push where
  op : QOp
  d : Nat
  a : Nat
  b : Nat
  ca : Bool
  cb : Bool
  deriving DecidableEq, Repr

/-- A scalar operand captured: it waits for vector work that writes it; a number above 31 captures nothing and is a violation at the
commit pointer (R29, R30, R297). -/
def capture {β : Type} (s : State) (want : Bool) (n : Nat) (f : Word → Res β) : Res β :=
  if !want || decide (32 ≤ n) then f 0 else if s.notReady n then s.stall else f (s.x n)

/-- The queue entry of a push: the address and word of its instruction, and the captured operands. -/
def State.entry (s : State) (pc : Word) (word : BitVec 32) (p : Push) (xa xb : Word) : QEntry :=
  { pc := pc, word := word, op := p.op, d := p.d, a := p.a, b := p.b, xa := xa, xb := xb, rmode := s.cur.sys.rmode, vmpol := s.cur.sys.vmpol,
    nanz := s.cur.sys.nanz, prog := 0, upto := none, hold := [] }

/-- An entry put at the end of the queue. -/
def State.enqueue (s : State) (q : QEntry) : State :=
  { s with cur := { s.cur with vec := { s.cur.vec with queue := s.cur.vec.queue ++ [q] } } }

/-- An instruction pushed: operands captured, the lanes acquired, and an entry free. -/
def pushAt (s : State) (pc : Word) (word : BitVec 32) (p : Push) (f : State → Res Unit) : Res Unit :=
  capture s p.ca p.a fun xa => capture s p.cb p.b fun xb =>
    needLanes s fun s =>
      if queueSize ≤ s.queue.length then s.stall else f (s.enqueue (s.entry pc word p xa xb))

/-- An instruction that is over once it is pushed. -/
def pushed (s : State) (p : Push) : Res Unit := pushAt s s.cur.pc s.cur.ir p fun s => done s.retire

/-- Whether a reserved word belongs to a family whose instructions stand in the queue: vector memory, press, token or vector arithmetic
(R239). -/
def queuedFamily (w : BitVec 32) : Bool :=
  let op := (w.extractLsb' 25 7).toNat
  decide (0x20 ≤ op ∧ op ≤ 0x29) || decide (op = 0x2B) || decide (op = 0x38) || (decide (op = 0x3C) && decide (w.setWidth 7 ≠ (3 : BitVec 7)))
    || decide (0x40 ≤ op ∧ op ≤ 0x7B)

/-- A reserved word executes: the illegal-instruction trap, at the instruction or, in a family that the queue takes, at the commit pointer
(R235, R297, R319, R362; log entry 83). -/
def reservedWord (w : BitVec 32) (s : State) : Host.Outcome State Fault Refusal :=
  finish (if queuedFamily w then pushed s ⟨.reserved, 0, 0, 0, false, false⟩ else s.illegal)

/-! ### Strip records (R226) -/

/-- The base of a partition's strip ring. -/
def Debug.stripBase (d : Debug) : Nat := bitsOf d.dbstrb 17 35 * 131072

/-- The record of the open strip written to the strip ring, where the partition's debug asks for it. -/
def State.closeStrip (s : State) : Res Unit :=
  match s.curPart, s.cur.strip with
  | some p, some t =>
    if p.selects s.cur.id.ctxid && p.db.dbctl.getLsbD 63 then
      let a := p.db.stripBase + 32 * (p.db.strips % 4096)
      let ord := t.ord.toNat
      if !s.isMemory a then .hole a
      else
        let s := s.sysStore a (natBytes 8 (t.va.toNat % 2 ^ 56 + (if t.rp then 2 ^ 63 else 0)) ++ natBytes 8 ord ++ natBytes 4 t.gl
          ++ natBytes 4 (min (s.cycle - t.at_) 0xFFFFFFFF) ++ natBytes 4 (Config.memBusy ord).toNat ++ natBytes 4 (Config.arithBusy ord).toNat)
        done (s.modPart p.idx fun x => { x with db := { x.db with strips := x.db.strips + 1 } })
    else done s
  | _, _ => done s

/-- The record of the next strip opened at an address with its granted length; STRIPC advances. `rp` says that a replay runs it. -/
def State.openStrip (s : State) (rp : Bool) (va : Word) (gl : Nat) : State :=
  { s with cur := { s.cur with
      strip := some ⟨rp, va, s.cur.sys.stripc, gl, s.cycle⟩
      sys := { s.cur.sys with stripc := s.cur.sys.stripc + 1 } } }

end Sys2Proof.Machine
end

