-- ==== Sys2Proof/Machine/Ports.lean ====
section
/-!
DEFINITION. Ports: what goes out on Crenor Link, and what of it is not acknowledged (R223, R391).
-/
namespace Sys2Proof.Machine

/-- A change of one port. -/
def State.modPort (s : State) (n : Nat) (f : Port → Port) : State :=
  { s with link := { s.link with ports := (s.link.ports.zip (List.range s.link.ports.length)).map fun p => if p.2 = n then f p.1 else p.1 } }

/-- Flits that a port has sent and that the other side has not acknowledged. -/
def Port.out (p : Port) : Nat := (p.next - p.unacked).toNat

/-- Flits of the transfers that wait sent in order, as many as the replay buffer of 1,024 has room for (R391). -/
def Port.pump (p : Port) : List (Nat × Nat × Nat) → Port
  | [] => { p with waiting := [] }
  | x :: t =>
    let room := 1024 - p.out
    if x.2.1 ≤ room then
      let last := p.next + BitVec.ofNat 24 (x.2.1 - 1)
      ({ p with next := last + 1, sent := p.sent ++ [(last, x.1, x.2.2)] } : Port).pump t
    else if room = 0 then { p with waiting := x :: t }
    else
      let last := p.next + BitVec.ofNat 24 (room - 1)
      { p with next := last + 1, sent := p.sent ++ [(last, x.1, 0)], waiting := (x.1, x.2.1 - room, x.2.2) :: t }

/-- What waits on a port sent as far as it can be; sending is link traffic (R392). -/
def State.pumpPort (s : State) (n : Nat) : State :=
  match s.link.ports[n]? with
  | none => s
  | some p =>
    let q := p.pump p.waiting
    let t := s.modPort n fun _ => q
    if q.next = p.next then t else { t with link := { t.link with lastFlit := s.cycle } }

/-- n bytes of a command sent on a port, in as many flits as they take: at least one (log entry 98). -/
def State.sendFlits (s : State) (port key n : Nat) : State :=
  (s.modPort port fun p => if p.up then { p with waiting := p.waiting ++ [(key, (Config.flitsOf n).toNat + 1, n)] } else p).pumpPort port

/-- The transfers of a port that are not acknowledged whole, with the command's key and their bytes. -/
def Port.unsent (p : Port) : List (Nat × Nat) := (p.sent.map fun x => x.2) ++ p.waiting.map fun x => (x.1, x.2.2)

/-- The bytes of a command among transfers. -/
def bytesOf (l : List (Nat × Nat)) (key : Nat) : Nat := ((l.filter fun x => x.1 == key).map fun x => x.2).sum

/-- The key of what goes out for no engine command. -/
def noCmd : Nat := 2 ^ 64

/-- A message of the dispatcher sent on some ports: of no bytes of a command (log entry 98). -/
def State.sendNotice (s : State) (ports : List Nat) : State := ports.foldl (fun s p => s.sendFlits p noCmd 0) s

end Sys2Proof.Machine
end

