-- ==== Sys2Proof/Machine/Barrier.lean ====
section
/-!
DEFINITION. Barrier: named barriers and the iteration ring (R160 to R163, R341 to R343).
-/
namespace Sys2Proof.Machine

/-! ### Barrier instances (R160, R161) -/

/-- The key of an instance: barrier number and node. -/
def barKey (b node : Nat) : Nat := b * 2 ^ 64 + node

/-- The key of a thread's latest arrival at a barrier. -/
def Thread.arrival (t : Thread) (b : Nat) : Option Arrival := Tab.get t.arrivals b

/-- Whether a level is a group level. -/
def LaunchRec.isGroup (l : LaunchRec) (lvl : Nat) : Bool := decide (((l.levels[lvl]?).map fun x => x.dom) = some 6)

/-- Whether a level's instances are held on another module: a group level on a module of device index above 0 (R161). -/
def State.heldElsewhere (s : State) (l : LaunchRec) (lvl : Nat) : Bool :=
  l.isGroup lvl && match s.link.groups with
    | g :: _ => decide (g.dev ≠ 0)
    | [] => false

/-- The ports on which the holder of an instance of a level tells the other modules of a completed generation: those of the group, at its device
0 (R161). -/
def State.barPorts (s : State) (l : LaunchRec) (lvl : Nat) : List Nat :=
  match l.isGroup lvl, s.link.groups with
  | true, g :: _ => if g.dev = 0 then g.ports else []
  | _, _ => []

/-- A generation complete: every thread whose arrival waits for it takes its firing timestamp, and its waits are tried again. -/
def State.releaseBar (s : State) (launch b node ts : Nat) : State :=
  s.modThreads fun t =>
    if t.id.launch = launch then
      match t.arrival b with
      | some a => if a.node = node ∧ a.fired = none then
          { t with arrivals := Tab.set t.arrivals b { a with fired := some ts }, stalled := false } else t
      | none => t
    else t

/-- One arrival counted at an instance; a completed generation is made known to the other modules of a group level (R160, R161). -/
def State.countArrival (s : State) (launch b lvl pcnt node pts : Nat) : State :=
  let l := s.launchOf launch
  let i := (Tab.get l.bars (barKey b node)).getD ⟨0, 0, 0, 0⟩
  let need := if pcnt = 0 then l.lrec.below lvl else pcnt
  let top := max i.maxPts pts
  let full := decide (need ≤ i.count + 1)
  let j : BarInst := if full then ⟨0, i.gen + 1, top, 0⟩ else ⟨i.count + 1, i.gen, i.ts, top⟩
  let s := s.modLaunch launch fun l => { l with bars := Tab.set l.bars (barKey b node) j }
  if full then (s.releaseBar launch b node top).sendNotice (s.barPorts l.lrec lvl) else s

/-- Whether the current thread may arrive at a barrier: its previous arrival has completed its generation. -/
def State.mayArrive (s : State) (b : Nat) : Bool :=
  match s.cur.arrival b with
  | some a => a.fired.isSome
  | none => true

/-- A barrier marker fires (R160). Where another module holds the instance, the arrival goes out on the port that leads to it (R161). -/
def State.fireBar (s : State) (b : Nat) : State :=
  let l := s.launch
  match l.lrec.bars[b]? with
  | none => s
  | some e =>
    let node := s.cur.id.node l.lrec e.lvl
    let gen := ((Tab.get l.bars (barKey b node)).map fun i => i.gen).getD 0
    let s : State := { s with cur := { s.cur with arrivals := Tab.set s.cur.arrivals b ⟨node, gen, none⟩ } }
    if s.heldElsewhere l.lrec e.lvl then s.sendNotice (((s.link.groups.head?).bind fun g => g.ports.head?).toList)
    else s.countArrival s.cur.id.launch b e.lvl e.pcnt node s.cur.sys.pts

/-- A barrier number is checked (R146, R341). -/
def checkBar (s : State) (n : BitVec 7) (f : Res Unit) : Res Unit :=
  match s.launch.lrec.bars[n.toNat]? with
  | some e => if e.stg = s.cur.id.stage then f else s.regTrap 6
  | none => s.regTrap 6

/-- A marker: it fires at issue for a context without lanes or queued work where it can, else it is pushed (R29, R341). -/
def putMarker (s : State) (op : QOp) (can : Bool) (fire : State → State) (f : State → Res Unit) : Res Unit :=
  let own := decide ((s.core s.cur.id.place).holder = some s.cur.id.ctxid)
  if !own && s.queue.isEmpty && can then f (fire s)
  else if queueSize ≤ s.queue.length then s.stall
  else f (s.enqueue (s.entry s.cur.pc s.cur.ir ⟨op, 0, 0, 0, false, false⟩ 0 0))

/-- Whether an arrival at a barrier stands in the queue. -/
def State.barQueued (s : State) (b : Nat) : Bool := s.queue.any fun q => q.op == .bar b

/-- The wait for the generation of the latest arrival. -/
def waitBar (s : State) (b : Nat) : Res Unit :=
  if s.barQueued b then .wait (.bar b) s
  else match s.cur.arrival b with
    | none => done s.retire
    | some a => match a.fired with
      | some ts => done (s.raisePts ts).retire
      | none => .wait (.bar b) s

/-- BAR.ARRIVE. -/
def execBarArrive (n : BitVec 7) (s : State) : Host.Outcome State Fault Refusal :=
  finish (checkBar s n (putMarker s (.bar n.toNat) (s.mayArrive n.toNat) (fun s => s.fireBar n.toNat) fun s => done s.retire))

/-- BAR.WAIT. -/
def execBarWait (n : BitVec 7) (s : State) : Host.Outcome State Fault Refusal :=
  finish (checkBar s n (waitBar s n.toNat))

/-- BAR.ARRWAIT. -/
def execBarArrwait (n : BitVec 7) (s : State) : Host.Outcome State Fault Refusal :=
  finish (checkBar s n (if s.cur.wait = some (.bar n.toNat) then waitBar s n.toNat
    else putMarker s (.bar n.toNat) (s.mayArrive n.toNat) (fun s => s.fireBar n.toNat) fun s => waitBar s n.toNat))

/-! ### The iteration ring (R162, R163) -/

/-- The key of a channel of a section's ring. -/
def ringKey (sect k : Nat) : Nat := 16 * sect + k

/-- A channel of the current section's ring. -/
def State.ring (s : State) (k : Nat) : Ring := (Tab.get s.launch.rings (ringKey s.cur.id.place.sect k)).getD ⟨0, [], 0⟩

/-- The frontier past every consecutive posted iteration; `fuel` bounds the steps. -/
def advance : Nat → Nat → List Nat → Nat × List Nat
  | 0, f, ps => (f, ps)
  | n + 1, f, ps => if ps.contains f then advance n (f + 1) (ps.filter fun p => decide (p ≠ f)) else (f, ps)

/-- A channel after a post at a PTS. -/
def Ring.post (r : Ring) (i pts : Nat) : Ring :=
  if i < r.frontier then r
  else
    let a := advance (r.posted.length + 1) r.frontier (if r.posted.contains i then r.posted else r.posted ++ [i])
    ⟨a.1, a.2, max r.ts pts⟩

/-- Whether a post of an iteration lies within the window. -/
def State.mayPost (s : State) (k i : Nat) : Bool := decide (i < (s.ring k).frontier + 1024)

/-- A POST marker fires (R162); waits on the channel are tried again. -/
def State.firePost (s : State) (k i : Nat) : State :=
  let r := (s.ring k).post i s.cur.sys.pts
  let sect := s.cur.id.place.sect
  let s := s.modLaunch s.cur.id.launch fun l => { l with rings := Tab.set l.rings (ringKey sect k) r }
  let launch := s.cur.id.launch
  s.modThreads fun t => if t.id.launch = launch ∧ t.id.place.sect = sect then
      match t.wait with
      | some (.ring _ _ _) => { t with stalled := false }
      | _ => t
    else t

/-- A channel number and the RING flag are checked (R17, R342). -/
def checkRing (s : State) (k : BitVec 6) (f : Res Unit) : Res Unit :=
  if 16 ≤ k.toNat || !s.launch.lrec.ring then s.regTrap 7 else f

/-- POST. -/
def execPost (k a : BitVec 6) (s : State) : Host.Outcome State Fault Refusal :=
  finish (checkRing s k (readG s a 2 fun x =>
    putMarker s (.post k.toNat x.toNat) (s.mayPost k.toNat x.toNat) (fun s => s.firePost k.toNat x.toNat) fun s => done s.retire))

/-- Wait entries of a core's ring share that are taken (R16). -/
def State.ringUsed (s : State) : Nat :=
  s.threads.foldl (fun n t => if t.st = .running ∧ t.id.place.coreKey = s.cur.id.place.coreKey ∧ t.id.ctxid ≠ s.cur.id.ctxid then
      match t.wait with
      | some (.ring _ m _) => n + m
      | _ => n
    else n) 0

/-- Armed entries waited for; `f` ends the instruction with their number. -/
def waitRing (s : State) (k n : Nat) (its : List Nat) (f : State → Res Unit) : Res Unit :=
  let r := s.ring k
  if its.all fun i => decide (i < r.frontier) then f (s.raisePts r.ts) else .wait (.ring k n its) s

/-- WAITI. -/
def execWaiti (k a : BitVec 6) (s : State) : Host.Outcome State Fault Refusal :=
  finish (checkRing s k (readG s a 2 fun x =>
    match s.cur.wait with
    | some (.ring _ n its) => waitRing s k.toNat n its fun s => done s.retire
    | _ =>
      if x.toNat < (s.ring k.toNat).frontier then done (s.raisePts (s.ring k.toNat).ts).retire
      else if 32 ≤ s.ringUsed then .wait .entry s
      else .wait (.ring k.toNat 1 [x.toNat]) s))

/-- The strip of a bound stream popped for an instruction of the scalar stream, which waits while a log entry holds the register (R74). -/
def popScalar (s : State) (r : Nat) (f : State → Res Unit) : Res Unit :=
  match s.cur.vec.streams.find? fun x => x.reg == r with
  | none => if s.isBuffer r then s.trapHere 0x0C 1 s.free false else f s
  | some x => match x.next with
    | .ok b => if s.isHeld r then s.stall else f (s.popStream x b)
    | .none_ => s.stall
    | .trap c d v => s.trapHere c d (if c = 0x0C then s.free else v) false

/-- WAITV: the number of armed entries stands in X[D] from the arming on, also while the thread waits for them. -/
def execWaitv (d k b : BitVec 6) (s : State) : Host.Outcome State Fault Refusal :=
  finish (checkG s d 1 (checkRing s k (
    if s.nv ≤ b.toNat then s.regTrap 3
    else match s.cur.wait with
      | some (.ring _ n its) => waitRing s k.toNat n its fun s => done s.retire
      | _ =>
        if !s.vecQuiet then s.stall
        else if s.vl = 0 then (s.raisePts (s.ring k.toNat).ts).result d 0
        else if s.tag b.toNat ≠ 0 then s.stall
        else if 32 ≤ s.ringUsed then .wait .entry s
        else popScalar s b.toNat fun s =>
          let n := min s.vl (32 - s.ringUsed)
          waitRing (s.setX d.toNat (BitVec.ofNat 64 n)) k.toNat n (s.elems b.toNat (2 ^ s.cur.sys.sewc.toNat) n) fun s => done s.retire)))

/-! ### The markers as steps of their own -/

/-- The markers at the head of a queue: a part of completing the oldest entry. -/
def doBar (s : State) (b : Nat) : Res Unit :=
  if s.mayArrive b then done (s.fireBar b).popQueue else .wait (.again) s

def doPost (s : State) (k i : Nat) : Res Unit :=
  if s.mayPost k i then done (s.firePost k i).popQueue else .wait (.again) s

/-- BAR_MARKER_FIRE (R160). -/
def execBarMarkerFire (c : Nat) (s : State) : Host.Outcome State Fault Refusal :=
  stepOr s ((s.focus c).bind fun s =>
    match decide (s.cur.st = .running), s.queue with
    | true, q :: _ => match q.op with
      | .bar b => if s.mayArrive b then some (done (s.fireBar b).popQueue) else none
      | _ => none
    | _, _ => none)

/-- POST_MARKER_FIRE (R162). -/
def execPostMarkerFire (c : Nat) (s : State) : Host.Outcome State Fault Refusal :=
  stepOr s ((s.focus c).bind fun s =>
    match decide (s.cur.st = .running), s.queue with
    | true, q :: _ => match q.op with
      | .post k i => if s.mayPost k i then some (done (s.firePost k i).popQueue) else none
      | _ => none
    | _, _ => none)

/-- BARRIER_ARRIVAL_DELIVERY: a message of another module (R161), which may be of a collective VFENCE (R111; DEDUCED, log entry 130). -/
def execBarrierArrivalDelivery (x : BarMsg) (s : State) : Host.Outcome State Fault Refusal :=
  stepOr s (s.accepted (.barrier x) fun s => match x with
    | .arrival l b node pts =>
      ((s.launchOf l).lrec.bars[b]?).bind fun e => some (done (s.countArrival l b e.lvl e.pcnt node pts))
    | .complete l b node gen ts =>
      some (done ((s.modLaunch l fun y => { y with bars := Tab.set y.bars (barKey b node) ⟨0, gen, ts, 0⟩ }).releaseBar l b node ts))
    | .epoch l key n => some (done (s.modLaunch l fun y => { y with away := Tab.set y.away key ((Tab.get y.away key).getD 0 + n) })))

end Sys2Proof.Machine
end

