-- ==== Sys2Proof/Machine/Sync.lean ====
section
/-!
DEFINITION. Sync: WAITW, FENCE, VFENCE and the epochs of DET launches (R97, R98, R107 to R111, R338 to R340), the drift of PTS, and the
wake of saved waiters (R159, R220).
-/
namespace Sys2Proof.Machine

/-! ### WAITW (R338, R98) -/

/-- Whether a condition holds of a value and its operand. -/
def WCond.holds (c : WCond) (v y : Word) : Bool :=
  match c with
  | .eq => decide (v = y)
  | .ne => decide (v ≠ y)
  | .lt => decide (v.toInt < y.toInt)
  | .ge => decide (y.toInt ≤ v.toInt)
  | .ltu => decide (v.toNat < y.toNat)
  | .geu => decide (y.toNat ≤ v.toNat)
  | .gen => v.getLsbD 32 || decide ((v - y).toNat % 2 ^ 32 < 2 ^ 31)

/-- The count of the stores to the line of a watched place; a place in a local store has none, and every check reads it anew. -/
def State.keyVer (s : State) (k : Nat) : Nat := if k < 2 ^ 60 then (s.line (k / 128)).ver else 0

/-- Whether a store may have changed a watched place since the last check. -/
def State.keyMoved (s : State) (k ver : Nat) : Bool := decide (2 ^ 60 ≤ k) || decide (s.keyVer k ≠ ver)

/-- The value that a check reads: the word (R98), or ERR and GEN of a sync word, read at its home (R124, R358). -/
def readWatched (s : State) (c : WCond) (p : Where) : Word × State :=
  match c with
  | .gen =>
    let r := s.rmwLoad p 16
    (BitVec.ofNat 64 (r.1 / 2 ^ 64 % 2 ^ 32 + 2 ^ 32 * (r.1 / 2 ^ 97 % 2)), r.2)
  | _ => match p with
    | .phys pa => let r := s.waitRead pa 8; (BitVec.ofNat 64 (leNat r.1), r.2)
    | .loc off => (BitVec.ofNat 64 (leNat (s.locRun off 8)), s.seeLoc off 8)
    | _ => (0, s)

/-- One check of a watched place: the instruction is over with the value that satisfied it, or it watches the place. -/
def checkWatched (s : State) (d : Nat) (va : Word) (c : WCond) (p : Where) (y : Word) : Res Unit :=
  let r := readWatched s c p
  if c.holds r.1 y then done (((r.2.note r.1).setX d r.1).retire)
  else .wait (.word d va (s.placeKey p) c y (r.2.keyVer (s.placeKey p))) r.2

/-- The place of a watched address as it translates now (R202), or the fault that a check meets there. -/
def State.rewatch (s : State) (va : Word) : Where := s.spot needRd va 8 3

/-- What becomes of a watch: a fault has the instruction tried from the start, where it traps; a check reads only once a store has performed to
the line, or once the address has come to lie elsewhere; else the watch stands. -/
inductive Recheck | again | check (p : Where) | stands

def State.recheck (s : State) (va : Word) (k ver : Nat) : Recheck :=
  match s.rewatch va with
  | .bad _ _ => .again
  | p => if decide (s.placeKey p ≠ k) || s.keyMoved k ver then .check p else .stands

/-- The watch that an instruction left, tried again. -/
def waitWatched (s : State) (f : Res Unit) : Res Unit :=
  match s.cur.wait with
  | some (.word d va k c y ver) => match s.recheck va k ver with
    | .again => f
    | .check p => checkWatched s d va c p y
    | .stands => .wait (.word d va k c y ver) s
  | _ => f

/-- WAITW with a condition. -/
def waitw (s : State) (d a b : BitVec 6) (c : WCond) : Res Unit :=
  regs3 s d a b fun x y =>
    waitWatched s (scalarAccess s needRd x .d fun p => checkWatched s d.toNat x c p y)

/-- WAITW.EQ. -/
def execWaitwEq (d a b : BitVec 6) (s : State) : Host.Outcome State Fault Refusal := finish (waitw s d a b .eq)

/-- WAITW.NE. -/
def execWaitwNe (d a b : BitVec 6) (s : State) : Host.Outcome State Fault Refusal := finish (waitw s d a b .ne)

/-- WAITW.LT. -/
def execWaitwLt (d a b : BitVec 6) (s : State) : Host.Outcome State Fault Refusal := finish (waitw s d a b .lt)

/-- WAITW.GE. -/
def execWaitwGe (d a b : BitVec 6) (s : State) : Host.Outcome State Fault Refusal := finish (waitw s d a b .ge)

/-- WAITW.LTU. -/
def execWaitwLtu (d a b : BitVec 6) (s : State) : Host.Outcome State Fault Refusal := finish (waitw s d a b .ltu)

/-- WAITW.GEU. -/
def execWaitwGeu (d a b : BitVec 6) (s : State) : Host.Outcome State Fault Refusal := finish (waitw s d a b .geu)

/-- WAITW_RECHECK: a store woke the waiting context, and it checks again (R98); where the instruction is then over, it was one outside the subset of a
marked loop's body (R168). -/
def execWaitwRecheck (c : Nat) (s : State) : Host.Outcome State Fault Refusal :=
  stepOr s ((s.focus c).bind fun s =>
    match decide (s.cur.st = .running), s.cur.wait with
    | true, some (.word d va k w y ver) => match s.recheck va k ver with
      | .again => some (done { s with cur := { s.cur with wait := none, stalled := false } })
      | .check p => some ((checkWatched s d va w p y).seq fun t => done t.outside)
      | .stands => none
    | _, _ => none)

/-! ### FENCE (R107, R108, R339) -/

/-- Whether every engine command of a thread has ended. -/
def State.cmdsEnded (s : State) (c : Nat) : Bool := s.cmds.all fun x => decide (x.owner ≠ c) || x.ended

/-- Whether every bank command of a thread has ended. -/
def State.banksEnded (s : State) (c : Nat) : Bool := s.banks.all fun x => decide (x.owner ≠ c) || x.ended

/-- A level, or the deepest one where it lies beyond the tree. -/
def LaunchRec.clampLevel (l : LaunchRec) (n : Nat) : Nat := min n l.leaf

/-- Whether a thread belongs to the current thread's node at a level. -/
def State.sameNode (s : State) (n : Nat) (t : Thread) : Bool :=
  decide (t.id.launch = s.cur.id.launch ∧ t.id.stage = s.cur.id.stage ∧ t.id.node s.launch.lrec n = s.cur.id.node s.launch.lrec n)

/-- Whether a core lies in the memory scope of a level (R141), or runs a thread of the node. -/
def State.inScope (s : State) (n : Nat) (coreKey : Nat) : Bool :=
  let cl := coreKey / 8
  let p := s.cur.id.place
  (match ((s.launch.lrec.levels[n]?).map fun x => x.msc).getD 0 with
    | 0 => decide (cl = p.cluster)
    | 1 => decide (cl / 32 = p.sect)
    | _ => match s.curPart with
      | some q => q.hasSect (cl / 32)
      | none => false)
  || s.threads.any fun t => s.sameNode n t && decide (t.id.place.coreKey = coreKey)

/-- The instruction caches in the scope of a level drop their lines. -/
def State.dropFetch (s : State) (n : Nat) : State :=
  { s with cores := s.cores.map (fun k => if s.inScope n k.1 then (k.1, { k.2 with icache := [] }) else k) }

/-- FENCE. With no kinds named it waits for every older ordinary access, the elements of K = 1 instructions included (R89, R107). A
publication takes effect in one step (R116), so the publish kind has nothing to wait for. DESIGN CHOICE (log entry 101): with the fetch kind in
a DET launch it does not wait for the stores that stand buffered. -/
def execFence (f p v k e : Bool) (l : BitVec 3) (s : State) : Host.Outcome State Fault Refusal :=
  finish (
    let c := s.cur.id.ctxid
    let all := v || f || !(p || k || e)
    let quiet := !s.memBusy && (!all || s.memQuiet) && (!e || s.cmdsEnded c) && (!k || s.banksEnded c)
    if !quiet then .wait (.fence e k) s
    else done (if f then s.dropFetch (s.launch.lrec.clampLevel l.toNat) else s).retire)

/-! ### VFENCE and epochs (R109 to R111, R85) -/

/-- The key of a node's collective fence: stage, level and node. -/
def epochKey (stage level node : Nat) : Nat := (stage * 8 + level) * 2 ^ 64 + node

/-- The key of the current thread's node at a level. -/
def State.epochKeyOf (s : State) (n : Nat) : Nat := epochKey s.cur.id.stage n (s.cur.id.node s.launch.lrec n)

/-- The node at a level that an LTHR belongs to. -/
def LaunchRec.nodeOf (l : LaunchRec) (n lthr : Nat) : Nat := lthr / l.below n

/-- The threads of a collective fence's node that belong to other modules (R149). -/
def State.elsewhere (s : State) (l : Launch) (key : Nat) : Nat :=
  let level := key / 2 ^ 64 % 8
  let n := l.lrec.below level
  if l.lrec.isGroup level then ((List.range n).filter fun k => (s.instOf l (l.lrec.coords (key % 2 ^ 64 * n + k))).isNone).length else 0

/-- Whether every live thread of a collective fence's node has arrived (R111), those of other modules as their modules tell (DEDUCED, log entry 130).
Killed threads are not waited for (R112). -/
def State.allArrived (s : State) (l : Launch) (key : Nat) : Bool :=
  let stage := key / 2 ^ 64 / 8
  let level := key / 2 ^ 64 % 8
  let got := ((Tab.get l.arrived key).getD []).length
  let dead := (l.dead.filter fun x => decide (x.1 = stage ∧ l.lrec.nodeOf level x.2 = key % 2 ^ 64)).length
  let far := s.elsewhere l key
  decide (0 < got) && decide (l.lrec.below level ≤ got + dead + far) && decide (far ≤ (Tab.get l.away key).getD 0)

/-- Whether the current thread has arrived at the collective fence of its node at a level. -/
def State.arrivedAt (s : State) (n : Nat) : Bool := ((Tab.get s.launch.arrived (s.epochKeyOf n)).getD []).contains s.cur.id.ctxid

/-- The current thread's buffered stores perform, in program order; the overflow area of its image then holds none (R85, R218). -/
def State.drainDet (s : State) : State :=
  let t := s.performStores s.cur.det
  let t : State := { t with cur := { t.cur with det := [] } }
  match s.curPart with
  | some p =>
    let b := t.imageBase p s.cur.id.ctxid
    if Config.wcbEntries < s.cur.det.length ∧ t.isMemory b = true then t.sysStore (b + 0xC000) (natBytes 8 0) else t
  | none => t

/-- PTS of the current thread as it stands now: that of a saved one is lowered by the rebases since it was saved (R19). -/
def State.ptsNow (s : State) : Nat :=
  match decide (s.cur.st = .running), s.curPart with
  | false, some p => s.cur.sys.pts - Config.rebaseBy * ((p.rebases.toNat + 2 ^ 32 - s.cur.saveRebases) % 2 ^ 32)
  | _, _ => s.cur.sys.pts

/-- PTS of the current thread, saved or not, brought up to the present rebase count. -/
def State.settlePts (s : State) : State :=
  { s with cur := { s.cur with
    sys := { s.cur.sys with pts := s.ptsNow }, saveRebases := (s.curPart.map fun p => p.rebases.toNat).getD s.cur.saveRebases } }

/-- A member of a node drains, a saved one with its PTS rebased (R19, R111). -/
def State.drainMember (s : State) : State :=
  let st := s.cur.st
  let s := s.settlePts
  let s := ({ s with cur := { s.cur with st := .running } } : State).drainDet
  { s with cur := { s.cur with st := st, saveRebases := (s.curPart.map fun p => p.rebases.toNat).getD s.cur.saveRebases } }

/-- Threads in ascending LTHR. -/
def byLthr (l : List Thread) : List Thread := l.mergeSort fun a b => decide (a.id.lthr ≤ b.id.lthr)

/-- Members of a node sent back before their collective fence, where a line that their buffered stores meet has become poisoned since they arrived:
they execute the VFENCE again, and trap there (R204; log entry 129). -/
def State.sendBack (s : State) (l key : Nat) (cs : List Nat) : State :=
  (cs.foldl (fun (s : State) c => s.modThread c fun t => { t with stalled := false }) s).modLaunch l fun x =>
    { x with arrived := Tab.set x.arrived key (((Tab.get x.arrived key).getD []).filter fun c => !cs.contains c) }

/-- DET_EPOCH_DRAIN: once all have arrived, the node's buffers drain thread by thread in ascending LTHR, and its threads go on: an epoch
is over. DESIGN CHOICE (log entry 49): PTS of every member rises to the largest of the node. -/
def execDetEpochDrain (l key : Nat) (s : State) : Host.Outcome State Fault Refusal :=
  stepOr s (
    let a := s.launchOf l
    let ids := (Tab.get a.arrived key).getD []
    let back := ids.filter fun c => ((s.focus c).bind fun u => u.detPoison).isSome
    if !s.allArrived a key then none
    else if !back.isEmpty then some (done (s.sendBack l key back))
    else
      let ts := (byLthr (s.threads.filter fun t => decide (t.id.launch = l) && ids.contains t.id.ctxid)).map fun t => t.id.ctxid
      let u := ts.foldl (fun s c => s.withThread c State.drainMember) s
      let u := ts.foldl (fun s c => s.withThread c State.settlePts) u
      let top := u.threads.foldl (fun m t => if ts.contains t.id.ctxid then max m t.sys.pts else m) 0
      let level := key / 2 ^ 64 % 8
      let m := u.mem
      let u := ts.foldl (fun u c => (u.modThread c fun t =>
        { t with snap := m, snapLoc := (u.launchOf l).store t.id.place.cluster, wait := some (.epoch level true), stalled := false
                 sys := { t.sys with pts := top } }).withThread c State.putPtsSlot) u
      let far := s.elsewhere a key
      some (done (u.modLaunch l fun x => { x with
        arrived := Tab.del x.arrived key
        away := if far = 0 then x.away else Tab.set x.away key ((Tab.get x.away key).getD 0 - far) })))

/-- VFENCE. In a DET launch a thread arrives once its older vector instructions are over, and the other modules of a node that spans them learn of it;
one whose buffered stores meet a poisoned line traps instead (R111, R204). -/
def execVfence (l : BitVec 3) (s : State) : Host.Outcome State Fault Refusal :=
  finish (
    if !s.isDet then if s.vecQuiet && s.memQuiet then done s.retire else s.stall
    else
      let n := s.launch.lrec.clampLevel l.toNat
      match s.cur.wait with
      | some (.epoch _ true) => done s.retire
      | _ =>
        if s.arrivedAt n then .wait (.epoch n false) s
        else if !s.vecQuiet then s.stall
        else match s.detPoison with
        | some va => s.trapHere 8 0 va false
        | none =>
          let key := s.epochKeyOf n
          let c := s.cur.id.ctxid
          .wait (.epoch n false) ((s.modLaunch s.cur.id.launch fun x =>
            { x with arrived := Tab.set x.arrived key ((Tab.get x.arrived key).getD [] ++ [c]) }).sendNotice
              (if s.launch.lrec.isGroup n then (s.link.groups.head?.map fun g => g.ports).getD [] else [])))

/-! ### Drift (R97) -/

/-- PTS of the current context rises by 1, and the next rise is due DRIFT cycles after this one. -/
def State.driftCur (s : State) : State :=
  let s := s.rebaseFor s.launch.part (s.cur.sys.pts + 1)
  let s := s.setPts (s.cur.sys.pts + 1)
  { s with cur := { s.cur with driftAt := s.cur.driftAt + s.cur.sys.drift.toNat } }

/-- PTS_DRIFT: PTS of a resident context rises by 1 every DRIFT cycles. -/
def execPtsDrift (c : Nat) (s : State) : Host.Outcome State Fault Refusal :=
  stepOr s ((s.focus c).bind fun s =>
    if s.cur.st = .running ∧ s.cur.driftAt + s.cur.sys.drift.toNat ≤ s.cycle then
      some (done s.driftCur)
    else none)

/-! ### Saved waiters (R159, R220) -/

/-- Whether what a thread waits on may have been satisfied. -/
def State.wakes (s : State) : Bool :=
  let c := s.cur.id.ctxid
  match s.cur.wait with
  | none => true
  | some .again => true
  | some (.word _ va k w y ver) => match s.recheck va k ver with
    | .again => true
    | .check p => w.holds (readWatched s w p).1 y
    | .stands => false
  | some (.lock _ got) => got.isSome
  | some (.bar b) => match s.cur.arrival b with
    | none => !s.barQueued b
    | some a => !s.barQueued b && a.fired.isSome
  | some .replay => decide (s.cur.sys.lstate ≠ 2) || (s.cur.loop.any fun l => l.out.isSome)
  | some (.ring k _ its) => its.all fun i => decide (i < (s.ring k).frontier)
  | some .entry => decide (s.ringUsed < 32)
  | some (.epoch n d) => d || !s.arrivedAt n
  | some (.fence e k) => (!e || s.cmdsEnded c) && (!k || s.banksEnded c)
  | some (.xfer ch id) => decide (id.toNat < (s.cur.sys.xfd.toList.getD ch 0).toNat)
  | some (.banks tag) => s.banks.all fun x => decide (x.owner ≠ c) || decide (tag.toNat < x.tag) || x.ended
  | some .tokens => s.tokenQuiet
  | some (.gang _ _ _ d) => d
  | some .attach => true
  | some .lineage => true

/-- The queue of a saved context still holds entries: it needs a hardware context to go on. -/
def State.queueWaits (s : State) : Bool := !s.queue.isEmpty

/-- Bit positions of a thread-table entry (R220). -/
def tableBit (w : Word) (n : Nat) : Bool := w.getLsbD n

/-- SAVED_WAITER_WAKE: the watch of a saved waiter is satisfied. The dispatcher makes it runnable where RES allows a restore, as it does one
whose queue still holds entries; else it sets WAKE and writes an event record. -/
def execSavedWaiterWake (c : Nat) (s : State) : Host.Outcome State Fault Refusal :=
  stepOr s ((s.focus c).bind fun s =>
    if s.cur.st = .savedWaiting ∧ (s.wakes ∨ s.queueWaits) then
      s.curPart.map fun p =>
        let a := p.tableEntry c
        if !s.isMemory a then .hole a
        else
          let e := s.mem.word a
          if tableBit e 63 then
            (s.putTState p c .saved).seq fun s => done ({ s with cur := { s.cur with st := .saved, stalled := false } } : State).joined
          else if !s.wakes || tableBit (s.mem.word (a + 8)) 63 then done s
          else
            let s := s.sysStore (a + 8) (natBytes 8 (setBits (s.mem.word (a + 8)) 63 1 1).toNat)
            done (s.raiseEvent p.idx { type := 2, ctxid := c, cause := 0, epc := 0, badva := 0, id := 0, ch := 0, cycle := s.cycle })
    else none)

end Sys2Proof.Machine
end

