-- ==== Sys2Proof/Machine/Token.lean ====
section
/-!
DEFINITION. Token: what the token instructions send, what the catchword units do with it, and TKSYNC (R179 to R192, R361 to R365, R381,
R382, R395).
-/
namespace Sys2Proof.Machine

/-! ### Sending (R362 to R364, R381) -/

/-- TKSEQB.BASE of the current context (R25). -/
def State.seqBase (s : State) : Word := s.cur.sys.tkseqb &&& 0x00FFFFFFFFFF0000

/-- The address of a sequence record (R179). -/
def recordVa (base : Word) (q : Nat) : Word := base + BitVec.ofNat 64 (2048 * q)

/-- The lines of a record that a send has the unit read: header and drafts, and of the entries the one armed, or all of them for a verdict. -/
def TwOp.lines (op : TwOp) (pa : Nat) : List Nat :=
  [pa / 128, pa / 128 + 1] ++ match op with
    | .arm w _ => [(pa + 0x400 + 64 * w) / 128]
    | .disarm _ => []
    | _ => (List.range 8).map fun k => pa / 128 + 8 + k

/-- Whether a line of a record that a send has the unit read is poisoned (R204). -/
def State.recordPoison (s : State) (pa : Nat) (op : TwOp) : Bool := (op.lines pa).any fun l => (s.line l).poison

/-- The physical place of a sequence record, or the trap its translation gives. A record in the local store window is out of a
catchword unit's reach. A record that is poisoned when an instruction would send to it gives the contained memory error (R204; DEDUCED, log
entry 106). -/
def State.recordAt (s : State) (q : Nat) (op : TwOp) : Except (BitVec 8 × BitVec 8) Nat :=
  match s.xlate s.xctx needRw (recordVa s.seqBase q) with
  | .phys pa => if s.recordPoison pa op then .error (8, 0) else .ok pa
  | .loc _ => .error (3, 3)
  | .host _ => .error (3, 5)
  | .bad c d => .error (c, d)

/-- A send of the current context to its section's unit. -/
def State.send (s : State) (q pa : Nat) (op : TwOp) : State :=
  { s with sends := s.sends ++ [⟨s.cur.id.place.sect, s.cur.id.ctxid, true, s.cur.id.launch, s.seqBase, q, pa, s.pageTag s.xctx (recordVa s.seqBase q), s.cur.sys.pts, op⟩] }

/-- The first checks of R362, in its order; the stream bindings rank after an illegal instruction (R211). `lim` bounds VL. DESIGN CHOICE (log
entry 107): a DET thread's buffered stores count as performed for the wait of R381, as they do for that of R104. -/
def tokenFrame (s : State) (q : QEntry) (uses : List RegUse) (lim : Nat) (f : Unit → Res Unit) : Res Unit :=
  if s.cur.id.place.isBase || decide (s.seqBase = 0) then vtrap s q 1 0 s.free
  else match s.checkNums s.vl uses false with
    | some c => vtrap s q c.1 c.2 s.free
    | none =>
      if lim < s.vl then vtrap s q 1 0 s.free
      else if uses.any fun u => u.streamBad s then vtrap s q 0x0C 1 s.free
      else f ()

/-- Sequence and entry of a selector (R361). -/
def selSeq (x : Word) : Nat := x.toNat % 65536
def selEnt (x : Word) : Nat := x.toNat / 65536 % 16

/-- Whether an entry image is refused (R363). -/
def imageRefused (img : List Byte) : Bool :=
  let w0 := leNat (img.take 8)
  decide (8 < w0 / 2 ^ 4 % 16) || (decide (w0 % 4 = 2) && decide (8 < w0 / 2 ^ 8 % 16)) || decide (w0 / 2 ^ 12 % 2 ^ 36 ≠ 0)

/-- TKARM (R363): sent, it stays at the head of the queue until the unit has armed the entry. Of the faults of the record and of the image the
one that ranks first by R211 is raised; the ranks of the codes that arise here are their numbers. -/
def doTkarm (s : State) (q : QEntry) : Res Unit :=
  if q.prog = 0 then
    tokenFrame s q [.scalar q.d 1, .scalar q.a 2, .scalar q.b 3] s.vl fun _ =>
      if q.xa.toNat % 64 ≠ 0 then vtrap s q 2 3 q.xa
      else match s.recordAt (selSeq q.xb) (.arm (selEnt q.xb) []), s.spot needRd q.xa 64 3 with
        | .error e, .bad c d => if c.toNat < e.1.toNat then vtrap s q c d q.xa else vtrap s q e.1 e.2 (recordVa s.seqBase (selSeq q.xb))
        | .error e, _ => vtrap s q e.1 e.2 (recordVa s.seqBase (selSeq q.xb))
        | .ok _, .bad c d => vtrap s q c d q.xa
        | .ok pa, p =>
            let r := s.load true p 64
            let img := natBytes 64 r.1
            if imageRefused img then done ((r.2.setX q.d 1).popQueue)
            else .wait (.again) ((r.2.send (selSeq q.xb) pa (.arm (selEnt q.xb) img)).setProg 1)
  else if s.sends.any fun x => x.live && decide (x.owner = s.cur.id.ctxid) && (match x.op with
      | .arm _ _ => true
      | _ => false) then .wait (.again) s
  else done ((s.setX q.d 0).popQueue)

/-- TKDISARM (R363). -/
def doTkdisarm (s : State) (q : QEntry) : Res Unit :=
  tokenFrame s q [.scalar q.b 3] s.vl fun _ =>
    match s.recordAt (selSeq q.xb) (.disarm (selEnt q.xb)) with
    | .error e => vtrap s q e.1 e.2 (recordVa s.seqBase (selSeq q.xb))
    | .ok pa => done ((s.send (selSeq q.xb) pa (.disarm (selEnt q.xb))).popQueue)

/-- Elements sent in ascending order from the progress index on; the first whose record faults stops them. -/
def sendElems (s : State) (op : Nat → TwOp) : List (Nat × Nat × Nat) → State × Option (Nat × BitVec 8 × BitVec 8 × Word)
  | [] => (s, none)
  | (i, q, x) :: t =>
    match s.recordAt q (op x) with
    | .error e => (s, some (i, e.1, e.2, recordVa s.seqBase q))
    | .ok pa => sendElems (s.send q pa (op x)) op t

/-- TKEMIT and TKCONF (R364). -/
def doSends (s : State) (q : QEntry) (emit : Bool) (op : Nat → TwOp) : Res Unit :=
  let k := min s.vl (s.vlmax 4)
  let uses := [RegUse.src q.a 4 k 2, RegUse.src q.b 4 k 3]
  tokenFrame s q uses (s.vlmax 4) fun _ =>
    let srcs := (uses.map fun u => u.srcs s).flatten
    match s.judge srcs [] false fun _ => false with
    | .plain => popAll s q srcs fun t =>
        let seqs := (t.elems q.a 4 t.vl).map fun x => x % 65536
        let els := ((List.range t.vl).zip (seqs.zip (t.elems q.b 4 t.vl))).drop q.prog
        let r := sendElems t op els
        match r.2 with
        | some (i, c, d, ea) => vtrap (({ s with sends := r.1.sends } : State).setProg i) q c d ea
        | none =>
          let z := r.1
          let z : State := if emit then { z with cur := { z.cur with tok := { z.cur.tok with last := seqs.map (recordVa s.seqBase) } } } else z
          done z.popQueue
    | _ => .wait .lineage s

/-- TKEMIT. -/
def doTkemit (s : State) (q : QEntry) (draft : Bool) : Res Unit :=
  doSends s q true fun x => .token draft (BitVec.ofNat 24 x)

/-- TKCONF. -/
def doTkconf (s : State) (q : QEntry) : Res Unit := doSends s q false fun x => .conf x

/-! ### Sequence records (R179, R180) -/

/-- An entry of a record. -/
structure Entry where
  fseq : Nat
  ninj : Nat
  plen : Nat
  tmen : Bool
  tben : Bool
  act : Nat
  tdl : Nat
  tbud : Nat
  pat : List Nat
  inj : List Nat
  deriving DecidableEq, Repr

/-- A record: header, input buffer and entries. `rest` and `input` are the bytes of header and buffer as read. -/
structure Seq where
  arm : Nat
  hits : Nat
  ffail : Bool
  dovf : Bool
  state : Nat
  pos : Nat
  stop : Nat
  ent : Nat
  hist : List Nat
  inTok : Option (List Nat)
  line : List Byte
  entries : List Entry
  deriving DecidableEq, Repr

/-- Tokens of three bytes (R179). -/
def tokensOf (bs : List Byte) : List Nat := (chunks 3 (bs.length / 3) bs).map leNat

/-- The bytes of a list of tokens. -/
def tokenBytes (ts : List Nat) : List Byte := (ts.map fun t => natBytes 3 t).flatten

/-- An entry from its 64 bytes. -/
def entryOf (bs : List Byte) : Entry :=
  let w0 := leNat (bs.take 8)
  let w1 := leNat ((bs.drop 8).take 8)
  { fseq := w0 / 2 ^ 48, ninj := w0 / 2 ^ 8 % 16, plen := w0 / 2 ^ 4 % 16, tmen := w0.testBit 3, tben := w0.testBit 2, act := w0 % 4
    tdl := w1 / 2 ^ 32, tbud := w1 % 2 ^ 32, pat := tokensOf ((bs.drop 0x10).take 24), inj := tokensOf ((bs.drop 0x28).take 24) }

/-- The record at a physical address. -/
def State.seqAt (s : State) (pa : Nat) : Seq :=
  let line := s.mem.run pa 128
  let w0 := leNat (line.take 8)
  let w2 := leNat ((line.drop 16).take 8)
  { arm := w0 / 2 ^ 48, hits := w0 / 2 ^ 32 % 65536, ffail := w0.testBit 5, dovf := w0.testBit 4, state := w0 % 16
    pos := leNat ((line.drop 8).take 4), stop := w2 / 2 ^ 32, ent := w2 / 2 ^ 16 % 16, hist := tokensOf ((line.drop 0x18).take 24)
    inTok := none, line := line, entries := (List.range 16).map fun w => entryOf (s.mem.run (pa + 0x400 + 64 * w) 64) }

/-- The 128 bytes of header and input buffer. Fields that no rule has the unit write keep what was read. -/
def Seq.bytes (r : Seq) : List Byte :=
  let w2 := leNat ((r.line.drop 16).take 8)
  let w2 := w2 % 2 ^ 16 + 2 ^ 16 * (r.ent + 16 * (w2 / 2 ^ 20 % 2 ^ 12) + 2 ^ 16 * r.stop)
  natBytes 8 (r.state + (if r.dovf then 16 else 0) + (if r.ffail then 32 else 0) + 2 ^ 32 * (r.hits + 65536 * r.arm))
    ++ natBytes 4 r.pos ++ (r.line.drop 12).take 4 ++ natBytes 8 w2 ++ tokenBytes r.hist ++ (r.line.drop 0x30).take 16
    ++ (match r.inTok with
      | none => r.line.drop 0x40
      | some ts =>
        natBytes 1 (((r.line.getD 0x40 0).toNat / 16) * 16 + ts.length) ++ (r.line.drop 0x41).take 7 ++ tokenBytes ts
          ++ (r.line.drop (0x48 + 3 * ts.length)))

/-- Whether an entry is armed. -/
def Seq.armed (r : Seq) (w : Nat) : Bool := r.arm.testBit w

/-- An entry disarmed. -/
def Seq.disarm (r : Seq) (w : Nat) : Seq := if r.armed w then { r with arm := r.arm - 2 ^ w } else r

/-! ### Hits (R181, R182) -/

/-- Whether a pattern matches, with `toks` the tokens before, newest first, the new token among them, at position p. -/
def Entry.matchPat (e : Entry) (toks : List Nat) (p : Nat) : Bool :=
  decide (1 ≤ e.plen) && decide (e.plen ≤ 8) && decide (e.plen ≤ p + 1) &&
    (List.range e.plen).all fun j => decide (e.pat.getD j 0 = 0xFFFFFF) || decide (e.pat.getD j 0 = toks.getD (e.plen - 1 - j) 0)

/-- The package microsecond (R180). -/
def microsecond (cycle : Nat) : Nat := cycle / 800 % 2 ^ 32

/-- Whether an entry makes a budget hit after a token. -/
def Entry.budget (e : Entry) (now : Nat) : Bool :=
  (e.tben && decide (e.tbud = 0)) || (e.tmen && decide ((now + 2 ^ 32 - e.tdl) % 2 ^ 32 < 2 ^ 31))

/-- A token appended: position, history and the budgets of armed entries advance (R181, R185). DESIGN CHOICE (log entry 44): a token confirmed
at the last position, 2^32 - 1, leaves POS at 0; no rule says what follows it. -/
def Seq.append (r : Seq) (tok : Nat) : Seq :=
  { r with
    pos := (r.pos + 1) % 2 ^ 32
    hist := (tok :: r.hist).take 8
    entries := (r.entries.zip (List.range 16)).map (fun e => if r.armed e.2 && e.1.tben then { e.1 with tbud := e.1.tbud - 1 } else e.1) }

/-- The pattern hits and the budget hits of the token just appended at position p. `pend` are the hits of a draft that stand instead of
matching; `round` says that the token was injected, so that no INJECT entry counts (R184). -/
def Seq.hitsAt (r : Seq) (p now : Nat) (pend : Option (BitVec 16)) (round : Bool) : List Nat × List Nat :=
  let ok := fun (e : Entry × Nat) => r.armed e.2 && !(round && decide (e.1.act = 2))
  let es := (r.entries.zip (List.range 16)).filter ok
  let pats := es.filter fun e => match pend with
    | some m => m.getLsbD e.2
    | none => e.1.matchPat r.hist p
  let buds := es.filter fun e => !(pats.any fun x => x.2 == e.2) && e.1.budget now
  (pats.map fun e => e.2, buds.map fun e => e.2)

/-- What an entry's action is: an INJECT without a proper count acts as NOTIFY (R180). -/
inductive Act | stop | fork | inject | notify
  deriving DecidableEq, Repr

def Entry.action (e : Entry) : Act :=
  match e.act with
  | 0 => .stop
  | 1 => .fork
  | 2 => if 1 ≤ e.ninj ∧ e.ninj ≤ 8 then .inject else .notify
  | _ => .notify

/-- A verdict under way: the record, the hits so far, the target to copy to, the NOTIFY to write, whether an action applied, whether a
STOP did, and whether one may still apply. -/
structure Verdict where
  seq : Seq
  hits : Nat
  forkTo : Option Nat
  note : Option (Nat × Nat)
  acted : Bool
  stopped : Bool
  may : Bool
  deriving DecidableEq, Repr

/-- Bits set in a mask. -/
def maskOf (l : List Nat) : Nat := l.dedup.foldl (fun m w => m ||| 2 ^ w) 0

/-- The hits of the token just appended, and the winner's action where one may apply (R182, R183). The answer says which entry applied
and its action. `reserve` gives the physical address of a fork target in RESERVE. DESIGN CHOICE (log entry 84): a FORK whose target is not
in RESERVE is still the action that applied: its entry is disarmed (R182), the mask bit is set, and drafts that follow are discarded. DESIGN CHOICE (log entry
122): where a plain store has rewritten the entry of a pending hit, its action is the one that it holds at the confirmation. The
entry of an INJECT stays armed here: its injected tokens belong to the action, and it is disarmed after them (R182, R183). -/
def Verdict.judge (v : Verdict) (p now : Nat) (pend : Option (BitVec 16)) (round : Bool) (reserve : Nat → Option Nat) :
    Verdict × Option (Nat × Entry × Act) :=
  let h := v.seq.hitsAt p now pend round
  let v := { v with hits := v.hits ||| maskOf (h.1 ++ h.2) }
  match h.1 ++ h.2 with
  | [] => (v, none)
  | w :: _ =>
    if !v.may then (v, none)
    else
      let e := v.seq.entries.getD w ⟨0, 0, 0, false, false, 3, 0, 0, [], []⟩
      let r := v.seq.disarm w
      let v := { v with acted := true }
      match e.action with
      | .stop => ({ v with seq := { r with state := 2, stop := p, ent := w }, stopped := true, may := false }, some (w, e, .stop))
      | .fork => match reserve e.fseq with
        | some pa => ({ v with seq := r, forkTo := some pa, may := false }, some (w, e, .fork))
        | none => ({ v with seq := { r with ffail := true }, may := false }, some (w, e, .fork))
      | .inject => ({ v with seq := { v.seq with inTok := some (e.inj.take e.ninj) } }, some (w, e, .inject))
      | .notify => ({ v with seq := r, note := some (w, p), may := false }, some (w, e, .notify))

/-- The injected tokens, appended and matched in order (R183, R184). The INJECT entry, still armed, advances its own token budget with them, and
its ACT keeps it out of their hits. -/
def Verdict.inject (v : Verdict) (now : Nat) (reserve : Nat → Option Nat) : List Nat → Verdict
  | [] => { v with may := false }
  | t :: ts =>
    let p := v.seq.pos
    let v := { v with seq := v.seq.append t }
    ((v.judge p now none true reserve).1).inject now reserve ts

/-- One confirmed token (R185, R188); the answer says whether the drafts that follow are discarded. -/
def Verdict.token (v : Verdict) (now tok : Nat) (pend : Option (BitVec 16)) (reserve : Nat → Option Nat) : Verdict × Bool :=
  let p := v.seq.pos
  let v := { v with seq := v.seq.append tok }
  let r := v.judge p now pend false reserve
  match r.2 with
  | none => (r.1, false)
  | some (w, e, .inject) =>
    let z := r.1.inject now reserve (e.inj.take e.ninj)
    ({ z with seq := z.seq.disarm w }, true)
  | some (_, _, .notify) => (r.1, false)
  | some _ => (r.1, true)

/-- The drafts that a TKCONF confirms, in order (R188). -/
def Verdict.drafts (v : Verdict) (now : Nat) (reserve : Nat → Option Nat) : List Draft → Verdict
  | [] => v
  | d :: t =>
    let r := v.token now d.tok.toNat (some d.pend) reserve
    if r.2 then r.1 else r.1.drafts now reserve t

/-! ### The units (R185, R186) -/

/-- A read-modify-write by a unit of a section, for a launch, at a timestamp no lower than `pts`: every piece at one timestamp, which is
also answered (R96, R189). -/
def State.unitWrite (s : State) (p launch pts : Nat) (ws : List (Nat × List Byte)) : Nat × State :=
  let ps := (ws.map fun w => pieces w.2.length w.1 w.2).flatten
  let top : State → Nat → Nat := fun s t => ps.foldl (fun m w => max m ((s.line (w.1 / 128)).rts + 1)) t
  let high := top s pts
  let s := s.rebaseFor p high
  let ts := top s (if Config.rebaseAt ≤ high then pts - Config.rebaseBy else pts)
  (ts, ps.foldl (fun s w =>
    let s := s.storeAt launch 0xFFFFFFFF w.1 w.2 ts
    s.setLine (w.1 / 128) { s.line (w.1 / 128) with owner := none }) s)

/-- The oldest send of a unit, where no older send of another unit names its record and the record is this unit's to use. -/
def State.unitHead (s : State) (u : Nat) : Option TwSend :=
  (s.sends.find? fun x => x.sect == u).bind fun x =>
    let first := (s.sends.find? fun y => y.pa == x.pa).map fun y => y.sect
    let free_ := match Tab.get s.holders x.pa with
      | some h => decide (h = u)
      | none => true
    if first = some u && free_ then some x else none

/-- A send processed: it leaves the list, and the unit holds the record while a send it has accepted names it. -/
def State.sent (s : State) (u : Nat) (x : TwSend) : State :=
  let l := s.sends.eraseP fun y => y.sect == u
  { s with
    sends := l
    holders := if l.any fun y => decide (y.sect = u) && decide (y.pa = x.pa) then Tab.set s.holders x.pa u else Tab.del s.holders x.pa }

/-- The drafts that the draft area of a record holds (R179; its layout is log entry 15): their number in the first byte, then one
doubleword each, with the token in its low 24 bits and the pending hits from bit 32 on. -/
def State.heldDrafts (s : State) (pa : Nat) : List Draft :=
  (List.range (min 8 (s.mem.nat (pa + 0x80) 1))).map fun j =>
    let w := s.mem.nat (pa + 0x88 + 8 * j) 8
    ⟨BitVec.ofNat 24 w, BitVec.ofNat 16 (w / 2 ^ 32)⟩

/-- The write that leaves a list of drafts in the draft area of a record. -/
def draftWrite (pa : Nat) (l : List Draft) : Nat × List Byte :=
  (pa + 0x80, natBytes 8 l.length ++ (l.map fun d => natBytes 8 (d.tok.toNat + 2 ^ 32 * d.pend.toNat)).flatten)

/-- The record of a FORK target, where it can be reached and is in RESERVE (R183). -/
def State.reserveAt (s : State) (x : TwSend) (f : Nat) : Option Nat :=
  match s.xlate ((s.launchOf x.launch).xctx 0xFFFFFFFF) needRw (recordVa x.base f) with
  | .phys pa => if s.poisoned pa then none else if (s.seqAt pa).state = 3 then some pa else none
  | _ => none

/-- The writes of a verdict: header and input buffer, the budgets of the entries, and the copy that a FORK made. DESIGN CHOICE (log entry 44):
the copy is of header and input buffer as the whole verdict leaves them, also where the FORK applied in the round of injected tokens. -/
def Verdict.writes (v : Verdict) (old : Seq) (pa : Nat) : List (Nat × List Byte) :=
  let r := { v.seq with hits := v.hits }
  let tb : Seq → Nat → Nat := fun x w => ((x.entries[w]?).map fun e => e.tbud).getD 0
  let bud := ((List.range 16).filter fun w => decide (tb r w ≠ tb old w)).map fun w => (pa + 0x400 + 64 * w + 8, natBytes 4 (tb r w))
  [(pa, r.bytes)] ++ bud ++ (match v.forkTo with
    | some f => [(f, { r with arm := 0, state := 1 }.bytes)]
    | none => [])

/-- What a verdict leaves with the emitting context: the record where an action applied, the stop, the lines that it wrote, and the largest
timestamp (R189). -/
def Token.after (t : Token) (x : TwSend) (ts : Nat) (v : Verdict) : Token :=
  let va := recordVa x.base x.seq
  { acted := if v.acted then t.acted ++ [va] else t.acted
    stopped := if v.stopped then t.stopped ++ [(x.seq, va)] else t.stopped
    lines := t.lines ++ (x.pa / 128 :: v.forkTo.toList.map fun f => f / 128)
    last := t.last
    ts := max t.ts ts }

/-- TKNOTE as a NOTIFY writes it (R25). -/
def noteWord (w q p : Nat) : Word := BitVec.ofNat 64 (2 ^ 63 + w % 16 * 2 ^ 48 + q % 65536 * 2 ^ 32 + p % 2 ^ 32)

/-- A verdict written: memory in one read-modify-write, the emitting context while it lives (R191), and the host event of a NOTIFY (R183,
R395). DESIGN CHOICE (log entry 44): the emitting context is the one that sent `x`, so that where a TKCONF confirms a draft that another context
emitted, TKNOTE and the event name the context of the TKCONF. `drafts` is what it writes to the draft area. -/
def State.verdict (s : State) (x : TwSend) (old : Seq) (v : Verdict) (drafts : List (Nat × List Byte)) : State :=
  let r := s.unitWrite (s.launchOf x.launch).part x.launch x.pts (v.writes old x.pa ++ drafts)
  let s := if x.live then r.2.modThread x.owner fun t => { t with
      tok := t.tok.after x r.1 v
      sys := match v.note with
        | some n => { t.sys with tknote := noteWord n.1 x.seq n.2 }
        | none => t.sys }
    else r.2
  match v.note with
  | none => s
  | some n =>
    let e : HostEv := ⟨2, (s.launchOf x.launch).part, 0, 0, noteWord n.1 x.seq n.2, x.base, x.owner⟩
    { s with host := { s.host with waiting := s.host.waiting ++ [e] } }

/-- A verdict that nothing has happened in yet. -/
def Verdict.init (r : Seq) : Verdict := ⟨r, 0, none, none, false, false, true⟩

/-- A write of a unit for a send, at a timestamp no lower than its sender's PTS. -/
def State.serveWrite (s : State) (x : TwSend) (ws : List (Nat × List Byte)) : State :=
  (s.unitWrite (s.launchOf x.launch).part x.launch x.pts ws).2

/-- A confirmed token, a confirmation of held drafts, and a draft at a unit (R185, R187, R188). A sequence that is not ACTIVE ignores them; a draft
beyond the eighth is discarded. -/
def State.serveToken (s : State) (x : TwSend) (t : BitVec 24) : State :=
  let r := s.seqAt x.pa
  if r.state ≠ 1 then s else s.verdict x r ((Verdict.init r).token (microsecond s.cycle) t.toNat none (s.reserveAt x)).1 []

def State.serveConf (s : State) (x : TwSend) (n : Nat) : State :=
  let r := s.seqAt x.pa
  let ds := s.heldDrafts x.pa
  if r.state ≠ 1 ∨ ds.isEmpty then s
  else if n = 0 then s.serveWrite x [draftWrite x.pa []]
  else s.verdict x r ((Verdict.init r).drafts (microsecond s.cycle) (s.reserveAt x) (ds.take n)) [draftWrite x.pa []]

def State.serveDraft (s : State) (x : TwSend) (t : BitVec 24) : State :=
  let r := s.seqAt x.pa
  let ds := s.heldDrafts x.pa
  if r.state ≠ 1 then s
  else if 8 ≤ ds.length then s.serveWrite x [(x.pa, { r with dovf := true }.bytes)]
  else
    let toks := t.toNat :: ((ds.reverse.map fun d => d.tok.toNat) ++ r.hist)
    let es := (r.entries.zip (List.range 16)).filter fun e => r.armed e.2 && e.1.matchPat toks (r.pos + ds.length)
    s.serveWrite x [draftWrite x.pa (ds ++ [⟨t, BitVec.ofNat 16 (maskOf (es.map fun e => e.2))⟩])]

/-- The pending hits of an entry discarded (R187). -/
def dropPending (w : Nat) (ds : List Draft) : List Draft := ds.map fun d => { d with pend := d.pend &&& ~~~((1 : BitVec 16) <<< w) }

/-- ARM written, with the entry where one is armed; the entry's pending hits are discarded. -/
def State.serveArm (s : State) (x : TwSend) (w arm : Nat) (ws : List (Nat × List Byte)) : State :=
  let ds := s.heldDrafts x.pa
  let ws := if ds.isEmpty then ws else draftWrite x.pa (dropPending w ds) :: ws
  s.serveWrite x ((x.pa, { s.seqAt x.pa with arm := arm }.bytes) :: ws)

/-- What a unit does with a send (R180, R185 to R188, R363). DESIGN CHOICE (log entry 106): where a line of the record has been poisoned since the
sending, the send is dropped and the record stays as it is, poison included (R204). -/
def State.serve (s : State) (x : TwSend) : State :=
  if s.recordPoison x.pa x.op then s
  else match x.op with
    | .token false t => s.serveToken x t
    | .token true t => s.serveDraft x t
    | .conf n => s.serveConf x n
    | .arm w img =>
      let tdl := (microsecond s.cycle + leNat ((img.drop 12).take 4)) % 2 ^ 32
      s.serveArm x w ((s.seqAt x.pa).arm ||| 2 ^ w) [(x.pa + 0x400 + 64 * w, img.take 12 ++ natBytes 4 tdl ++ img.drop 16)]
    | .disarm w => s.serveArm x w ((s.seqAt x.pa).disarm w).arm []

/-- A unit's oldest send served, where it is of a kind. -/
def State.unitStep (s : State) (u : Nat) (kind : TwOp → Bool) : Host.Outcome State Fault Refusal :=
  stepOr s ((s.unitHead u).bind fun x => if kind x.op then some (done ((s.serve x).sent u x)) else none)

/-- A draft, and an arming or disarming. -/
def TwOp.isDraft : TwOp → Bool
  | .token d _ => d
  | _ => false

def TwOp.isArming : TwOp → Bool
  | .arm _ _ => true
  | .disarm _ => true
  | _ => false

/-- CATCHWORD_VERDICT: the unit's oldest send is a confirmed token or a confirmation (R185, R188, R192, R395). -/
def execCatchwordVerdict (u : Nat) (s : State) : Host.Outcome State Fault Refusal := s.unitStep u TwOp.isVerdict

/-- CATCHWORD_DRAFT: the unit's oldest send is a draft, held in the record's draft area with its pending hits (R187). -/
def execCatchwordDraft (u : Nat) (s : State) : Host.Outcome State Fault Refusal := s.unitStep u TwOp.isDraft

/-- CATCHWORD_ARM_WRITE: an entry armed with its deadline converted, or disarmed (R180, R363). -/
def execCatchwordArmWrite (u : Nat) (s : State) : Host.Outcome State Fault Refusal := s.unitStep u TwOp.isArming

/-- CATCHWORD_RECORD_TRANSFER: the unit that holds a record has written every verdict that precedes the requesting unit's send, and
releases the record in one read-modify-write (R186). A poisoned record passes as it is (R204). -/
def execCatchwordRecordTransfer (r u : Nat) (s : State) : Host.Outcome State Fault Refusal :=
  stepOr s (match Tab.get s.holders r, s.sends.find? fun y => y.pa == r with
    | some h, some x =>
      if h ≠ u ∧ x.sect = u then
        let t := if s.poisoned r then s else (s.unitWrite (s.launchOf x.launch).part x.launch x.pts [(r, s.mem.run r 128)]).2
        some (done { t with holders := Tab.set t.holders r u })
      else none
    | _, _ => none)

/-! ### TKSYNC (R189, R190, R365) -/

/-- The lines that verdicts wrote, as memory holds them, in what a DET thread's loads see (R110, R189). -/
def State.seeLines (s : State) (ls : List Nat) : State :=
  if s.isDet then { s with cur := { s.cur with snap := ls.foldl (fun m l => m.setLine l (s.mem.line l)) s.cur.snap } } else s

/-- The lowest-numbered stopped sequence; of two tables' sequences of one number, the record at the lower address. -/
def lowestStop : Nat × Word → List (Nat × Word) → Nat × Word
  | m, [] => m
  | m, x :: t => lowestStop (if x.1 < m.1 ∨ (x.1 = m.1 ∧ x.2.toNat < m.2.toNat) then x else m) t

/-- TKSYNC. DESIGN CHOICE (log entry 85): the bit of an element that was ignored because its sequence had stopped in one of the verdicts
waited for is set, as R189 and R365 say, where R185 and R192 say that an ignored element leaves it clear. -/
def execTksync (d : BitVec 6) (s : State) : Host.Outcome State Fault Refusal :=
  finish (if s.cur.id.place.isBase || decide (s.seqBase = 0) then s.illegalOp
    else if 8 ≤ d.toNat then s.regTrap 1
    else if !s.vecQuiet || !s.tokenQuiet then .wait .tokens s
    else
      let k := s.cur.tok
      let s := s.putMask d.toNat (k.last.map fun q => some (k.acted.contains q))
      let s := (s.raisePts k.ts).seeLines k.lines
      let s : State := { s with cur := { s.cur with tok := { k with acted := [], stopped := [], lines := [], ts := 0 } } }
      match k.stopped.dedup with
      | [] => done s.retire
      | q :: t => s.trapHere 7 (BitVec.ofNat 8 (min 255 (t.length + 1))) (lowestStop q t).2 true)

end Sys2Proof.Machine
end

