-- ==== Sys2Proof/Machine/VArith.lean ====
section
/-!
DEFINITION. VArith: what the vector arithmetic instructions do when they complete (R295 to R316). A meaning of the same name at
issue only pushes the instruction.
-/
namespace Sys2Proof.Machine

/-! ### The common frame (R297, R316) -/

/-- Source and destination element sizes of an element-wise conversion. -/
def VCvt.sizes (f : VCvt) (t : ElTy) : Nat × Nat :=
  match f with
  | .sf => (t.bytes, 4)
  | .bf => (t.bytes, 2)
  | .hf => (t.bytes, 2)
  | .e4 => (t.bytes, 1)
  | .e4s => (t.bytes, 1)
  | .e5 => (t.bytes, 1)
  | .e5s => (t.bytes, 1)
  | .inr => (t.bytes, 4)
  | .inz => (t.bytes, 4)
  | .intof => (4, t.bytes)
  | .widen => (t.bytes, 2 * t.bytes)
  | .widenu => (t.bytes, 2 * t.bytes)
  | .f4 => (t.bytes, 1)
  | .fromf4 => (1, t.bytes)

/-- The second operand of an element-wise form: a register, or with S = 1 a scalar of the element's width (R298). -/
def State.operandB (s : State) (q : QEntry) (sc : Bool) (e k : Nat) : List Nat :=
  if sc then List.replicate k (q.xb.toNat % 2 ^ (8 * e)) else s.elems q.b e k

/-- The use of the B field. -/
def useB (q : QEntry) (sc : Bool) (e k : Nat) : RegUse := if sc then .scalar q.b 3 else .src q.b e k 3

/-- What the checks of R297 ask of an entry: the VL that its smallest element size allows, the uses of its register fields, and whether a
destination may not overlap a source of another size. -/
structure VFrame where
  lim : Nat
  uses : List RegUse
  strict : Bool

/-- The frame of a vector arithmetic entry. The VL limit does not apply to an instruction on masks alone, since no vector operand is named
(log entry 24). -/
def vframe (s : State) (q : QEntry) : VFrame :=
  let k := s.vl
  match q.op with
  | .int f _ sc t =>
    let e := t.bytes
    ⟨s.vlmax e, [.dst q.d e k 1, .src q.a e k 2, useB q sc e k] ++ (if f = .macc then [.src q.d e k 1] else []), true⟩
  | .wide f _ sc t =>
    let e := t.bytes
    ⟨s.vlmax e, [.dst q.d (2 * e) k 1, .src q.a e k 2, useB q sc e k] ++
      (if f = .macc || f = .maccu then [.src q.d (2 * e) k 1] else []), true⟩
  | .nclip _ _ sc t => ⟨s.vlmax t.bytes, [.dst q.d t.bytes k 1, .src q.a (2 * t.bytes) k 2, useB q sc t.bytes k], true⟩
  | .fp f _ sc t =>
    let e := t.bytes
    ⟨s.vlmax e, [.dst q.d e k 1, .src q.a e k 2, useB q sc e k] ++ (if f = .ma || f = .nma then [.src q.d e k 1] else []), true⟩
  | .cmp _ _ sc t => ⟨s.vlmax t.bytes, [.mask q.d 1, .src q.a t.bytes k 2, useB q sc t.bytes k], true⟩
  | .sel _ sc t => ⟨s.vlmax t.bytes, [.dst q.d t.bytes k 1, .src q.a t.bytes k 2, useB q sc t.bytes k], true⟩
  | .slide _ _ t => ⟨s.vlmax t.bytes, [.dst q.d t.bytes k 1, .src q.a t.bytes k 2, .scalar q.b 3], true⟩
  | .gather _ sc t => ⟨s.vlmax t.bytes, [.dst q.d t.bytes k 1, .src q.a t.bytes k 2, useB q sc t.bytes k], true⟩
  | .merge t => ⟨s.vlmax t.bytes, [.dst q.d t.bytes k 1, .src q.a t.bytes k 2, .src q.b t.bytes k 3, .pairDst (q.d + 1)], false⟩
  | .mlog _ => ⟨k, [.mask q.d 1, .mask q.a 2, .mask q.b 3], true⟩
  | .one _ _ t => ⟨s.vlmax t.bytes, [.dst q.d t.bytes k 1, .src q.a t.bytes k 2], true⟩
  | .splat _ t => ⟨s.vlmax t.bytes, [.dst q.d t.bytes k 1, .scalar q.a 2], true⟩
  | .mvsx _ t => ⟨s.vlmax t.bytes, [.dst q.d t.bytes k 1, .scalar q.a 2], true⟩
  | .mvxs t => ⟨s.vlmax t.bytes, [.scalar q.d 1, .src q.a t.bytes k 2], true⟩
  | .vid _ t => ⟨s.vlmax t.bytes, [.dst q.d t.bytes k 1], true⟩
  | .iota _ t => ⟨s.vlmax t.bytes, [.dst q.d t.bytes k 1, .mask q.a 2], true⟩
  | .compress _ t => ⟨s.vlmax t.bytes, [.dst q.d t.bytes k 1, .src q.a t.bytes k 2], true⟩
  | .red _ _ t => ⟨s.vlmax t.bytes, [.dst q.d t.bytes k 1, .src q.a t.bytes k 2, .src q.d t.bytes 1 1], true⟩
  | .mpop _ => ⟨k, [.scalar q.d 1, .mask q.a 2], true⟩
  | .mfirst _ => ⟨k, [.scalar q.d 1, .mask q.a 2], true⟩
  | .mnot _ => ⟨k, [.mask q.d 1, .mask q.a 2], true⟩
  | .mpart _ _ => ⟨k, [.mask q.d 1, .mask q.a 2], true⟩
  | .sortk _ t => ⟨s.vlmax t.bytes, [.dst q.d t.bytes k 1, .src q.a t.bytes k 2], true⟩
  | .uniq _ t => ⟨s.vlmax t.bytes, [.mask q.d 1, .src q.a t.bytes k 2], true⟩
  | .cvt .f4 _ t => ⟨s.vlmax t.bytes, [.dst q.d 1 1 1, .src q.a t.bytes k 2, .pairDst (q.d + 1)], true⟩
  | .cvt .fromf4 _ t => ⟨s.vlmax t.bytes, [.dst q.d t.bytes k 1, .src q.a 1 1 2, .pairSrc (q.a + 1)], true⟩
  | .cvt f _ t => ⟨s.vlmax (min (f.sizes t).1 (f.sizes t).2), [.dst q.d (f.sizes t).2 k 1, .src q.a (f.sizes t).1 k 2], true⟩
  | _ => ⟨k, [], true⟩

/-- The first failing check of R297 after the encoding, by code and DETAIL. -/
def State.checkFrame (s : State) (q : QEntry) : Option (BitVec 8 × BitVec 8) :=
  let u := vframe s q
  s.checkRegs u.lim u.uses u.strict

/-- The vector registers that an arithmetic entry reads, and those that it writes. -/
def State.entrySrcs (s : State) (q : QEntry) : List Nat := ((vframe s q).uses.map fun u => u.srcs s).flatten
def State.entryDsts (s : State) (q : QEntry) : List Nat := ((vframe s q).uses.map fun u => u.dsts s).flatten

/-- The checks, the pops, the lineage judgement, then `f` writes the results. `linear` says that the instruction is of the linear class for
its operands; `defs` gives its corrections then and `wrote` the lanes that it writes whole, with the operands as they are once bound
streams have popped. -/
def vexec (s : State) (q : QEntry) (linear : Bool) (defs : State → List (Nat × DOp)) (wrote : State → List Nat) (f : State → State) :
    Res Unit :=
  match s.checkFrame q with
  | some c => vtrap s q c.1 c.2 s.free
  | none =>
    let srcs := s.entrySrcs q
    let dsts := s.entryDsts q
    popAll s q srcs fun p =>
      match p.judge srcs dsts linear (wrote p).contains with
      | .wait => .wait .lineage s
      | .plain => done ((f p).endEntry q dsts)
      | .linear t => done (((f p).logLinear p t q dsts srcs (defs p) (wrote p).contains).endEntry q dsts)

/-- An entry that is of no linear class. -/
def vplain (s : State) (q : QEntry) (f : State → State) : Res Unit := vexec s q false (fun _ => []) (fun _ => []) f

/-- The results of an element-wise instruction, element by element from `i` on; none for an inactive element. -/
def walk (act : Nat → Bool) (f : Nat → Nat → Nat → FRes) : Nat → List Nat → List Nat → List Nat → List (Option FRes)
  | i, a :: as, b :: bs, d :: ds => (if act i then some (f a b d) else none) :: walk act f (i + 1) as bs ds
  | _, _, _, _ => []

/-- The flags of a list of results. -/
def flagsOf (rs : List (Option FRes)) : BitVec 8 := rs.foldl (fun g r => match r with | some x => g ||| x.flags | none => g) 0

/-- Results written to the group that begins at register n, with their flags (R298). -/
def State.putRes (s : State) (n e : Nat) (rs : List (Option FRes)) : State :=
  (s.putV n e (rs.map fun r => r.map fun x => x.code)).accrue (flagsOf rs)

/-! ### Corrections (R73) -/

/-- An element-wise correction of FP32 elements: `f` gives it from the corrections of A, B and D at each active element. -/
def elemDefs (s : State) (q : QEntry) (sc : Bool) (m : BitVec 3) (f : Nat → DSrc → DSrc → DSrc → Option DOp) : List (Nat × DOp) :=
  ((List.range s.vl).filter (s.acts q m)).filterMap fun i =>
    (f i (s.srcOf (laneOf s.rb q.a 4 i)) (if sc then .zero else s.srcOf (laneOf s.rb q.b 4 i)) (s.srcOf (laneOf s.rb q.d 4 i))).map
      fun o => (laneOf s.rb q.d 4 i, o)

/-- The lanes of the elements of D that an entry works on. -/
def elemLanes (s : State) (q : QEntry) (e : Nat) (m : BitVec 3) : List Nat :=
  (((List.range s.vl).filter (s.acts q m)).map fun i => laneOf s.rb q.d e i).dedup

/-- Whether any register of a group carries a lineage. -/
def State.tagged (s : State) (n e k : Nat) : Bool := (s.group n e k).any fun r => decide (s.tag r ≠ 0)

/-- The corrections that a move of elements of e bytes makes (R73), as pairs of byte offsets in the partition: destination, and source or a
constant. The same move is applied to the corrections: a lane takes each byte of its correction from where the byte of its value came
from, and keeps it where the move does not write (log entry 23). -/
def moveDefs (s : State) (e : Nat) (ms : List (Nat × Option Nat)) : List (Nat × DOp) :=
  let lanes := ((ms.map fun p => (List.range ((e + 3) / 4)).map fun j => p.1 / 4 + j).flatten).dedup
  lanes.filterMap fun lane =>
    let near := ms.filter fun p => decide (p.1 < 4 * lane + 4 ∧ 4 * lane < p.1 + e)
    let parts : List (DSrc × Nat) := (List.range 4).map fun k =>
      let at_ := 4 * lane + k
      match near.find? fun p => decide (p.1 ≤ at_ ∧ at_ < p.1 + e) with
      | none => (s.srcOf lane, k)
      | some (_, none) => (.zero, 0)
      | some (d, some a) => (s.srcOf ((a + at_ - d) / 4), (a + at_ - d) % 4)
    if parts.all fun p => p.1 = .zero then none
    else
      let x := (parts.head?.map fun p => p.1).getD .zero
      some (lane, if parts = [(x, 0), (x, 1), (x, 2), (x, 3)] then .copy x else .pack parts)

/-- The byte offset of element i of register n. -/
def byteOf (s : State) (n e i : Nat) : Nat := n * s.rb + i * e

/-- The lanes that a move writes whole. -/
def moveLanes (ms : List (Nat × Option Nat)) (e : Nat) : List Nat :=
  if 4 ≤ e then (ms.map fun p => (List.range (e / 4)).map fun j => p.1 / 4 + j).flatten
  else ((ms.map fun p => p.1 / 4).dedup).filter fun lane => decide ((ms.filter fun p => decide (p.1 / 4 = lane)).length * e = 4)

/-- A move instruction: its pairs of element numbers, destination and source or zero; `settled` says that its index operand and mask are
settled. -/
def vmove (s : State) (q : QEntry) (t : ElTy) (settled : Bool) (f : State → List (Nat × Option (Nat × Nat))) : Res Unit :=
  let e := t.bytes
  let ms := fun s : State => (f s).map fun p => (byteOf s q.d e p.1, p.2.map fun a => byteOf s a.1 e a.2)
  vexec s q settled (fun s => moveDefs s e (ms s)) (fun s => moveLanes (ms s) e) fun s =>
    let vals := (f s).map fun p => (p.1, match p.2 with
      | none => 0
      | some a => leNat (s.cur.vec.vrf.run (byteOf s a.1 e a.2) e))
    s.putV q.d e ((List.range s.vl).map fun i => (vals.find? fun v => v.1 == i).map fun v => v.2)

/-- The active elements below VL. -/
def State.actives (s : State) (m : BitVec 3) : List Nat := (List.range s.vl).filter fun i => s.active m i

/-! ### Integer, widening, narrowing and floating-point majors (R299 to R302) -/

/-- R299, R300. -/
def doInt (s : State) (q : QEntry) (f : VInt) (m : BitVec 3) (sc : Bool) (t : ElTy) : Res Unit :=
  let e := t.bytes
  let k := s.vl
  vplain s q fun s =>
    s.putRes q.d e (walk (s.acts q m) (fun a b d => intOp f q.rmode (8 * e) a b d) 0
      (s.elems q.a e k) (s.operandB q sc e k) (s.elems q.d e k))

/-- The widening majors (R301). -/
def doWide (s : State) (q : QEntry) (f : VWide) (m : BitVec 3) (sc : Bool) (t : ElTy) : Res Unit :=
  let e := t.bytes
  let k := s.vl
  vplain s q fun s =>
    s.putRes q.d (2 * e) (walk (s.acts q m) (fun a b d => ⟨wideOp f (8 * e) a b d, 0⟩) 0
      (s.elems q.a e k) (s.operandB q sc e k) (s.elems q.d (2 * e) k))

/-- VNCLIP and VNCLIPU (R301). -/
def doNclip (s : State) (q : QEntry) (signed : Bool) (m : BitVec 3) (sc : Bool) (t : ElTy) : Res Unit :=
  let e := t.bytes
  let k := s.vl
  vplain s q fun s =>
    s.putRes q.d e (walk (s.acts q m) (fun a b _ => nclipOp signed q.rmode (8 * e) a b) 0
      (s.elems q.a (2 * e) k) (s.operandB q sc e k) (s.elems q.d e k))

/-- A correction that is settled throughout is none. -/
def unlessZero (xs : List DSrc) (o : DOp) : Option DOp := if xs.all fun x => x = .zero then none else some o

/-- Whether a floating-point major is of the linear class (R73). -/
def fpLinear (s : State) (q : QEntry) (f : VFp) (sc : Bool) : Bool :=
  let both := s.tagged q.a 4 s.vl && !sc && s.tagged q.b 4 s.vl
  match f with
  | .add => true
  | .sub => true
  | .mul => !both
  | .ma => !both
  | .nma => !both
  | _ => false

/-- The corrections of a floating-point major of the linear class (R73), from its operands as they stand. -/
def fpDefs (s : State) (q : QEntry) (f : VFp) (m : BitVec 3) (sc : Bool) : List (Nat × DOp) :=
  let pa := s.tagged q.a 4 s.vl
  let as := s.elems q.a 4 s.vl
  let bs := s.operandB q sc 4 s.vl
  let other := fun i : Nat => BitVec.ofNat 32 ((if pa then bs else as).getD i 0)
  let prod := fun neg : Bool => elemDefs s q sc m fun i x y d =>
    let z := if pa then x else y
    unlessZero [z, d] (if z = .zero then .add .zero d else .fma neg z (other i) d)
  match f with
  | .add => elemDefs s q sc m fun _ x y _ => unlessZero [x, y] (.add x y)
  | .sub => elemDefs s q sc m fun _ x y _ => unlessZero [x, y] (.sub x y)
  | .mul => elemDefs s q sc m fun i x y _ => unlessZero [if pa then x else y] (.mul (if pa then x else y) (other i))
  | .ma => prod false
  | .nma => prod true
  | _ => []

/-- R302. -/
def doFp (s : State) (q : QEntry) (f : VFp) (m : BitVec 3) (sc : Bool) (t : ElTy) : Res Unit :=
  let e := t.bytes
  let k := s.vl
  vexec s q (decide (t = .sf) && fpLinear s q f sc) (fun s => fpDefs s q f m sc) (fun s => elemLanes s q e m) fun s =>
    s.putRes q.d e (walk (s.acts q m) (fun a b d => fpOp f t.fmt a b d) 0
      (s.elems q.a e k) (s.operandB q sc e k) (s.elems q.d e k))

/-! ### Compares and select (R303, R304) -/

/-- The bit and flags of one compare. -/
def cmpOp (f : VCmp) (t : ElTy) (a b : Nat) : Bool × BitVec 8 :=
  match f with
  | .feq => fpCmp f t.fmt a b
  | .flt => fpCmp f t.fmt a b
  | .fle => fpCmp f t.fmt a b
  | .fun_ => fpCmp f t.fmt a b
  | _ => (intCmp f (8 * t.bytes) a b, 0)

/-- R303. -/
def doCmp (s : State) (q : QEntry) (f : VCmp) (m : BitVec 3) (sc : Bool) (t : ElTy) : Res Unit :=
  let e := t.bytes
  let k := s.vl
  vplain s q fun s =>
    let rs := walk (s.acts q m) (fun a b _ => let r := cmpOp f t a b; ⟨if r.1 then 1 else 0, r.2⟩) 0
      (s.elems q.a e k) (s.operandB q sc e k) (List.replicate k 0)
    (s.putMask q.d (rs.map fun r => r.map fun x => decide (x.code = 1))).accrue (flagsOf rs)

/-- VSEL (R304): the M field names the selecting mask. -/
def doSel (s : State) (q : QEntry) (m : BitVec 3) (sc : Bool) (t : ElTy) : Res Unit :=
  let e := t.bytes
  let ms := fun s : State => ((List.range s.vl).filter (s.acts q 0)).map fun i =>
    (byteOf s q.d e i, if s.active m i then some (byteOf s q.a e i) else if sc then none else some (byteOf s q.b e i))
  vexec s q true (fun s => moveDefs s e (ms s)) (fun s => moveLanes (ms s) e) fun s =>
    let as := s.elems q.a e s.vl
    let bs := s.operandB q sc e s.vl
    s.putV q.d e ((List.range s.vl).map fun i =>
      if s.acts q 0 i then some (if s.active m i then as.getD i 0 else bs.getD i 0) else none)

/-! ### Slides, gather, compress, moves (R305, R306, R309, R310) -/

/-- R305. -/
def doSlide (s : State) (q : QEntry) (up : Bool) (m : BitVec 3) (t : ElTy) : Res Unit :=
  let off := q.xb.toNat
  vmove s q t true fun s =>
    if up then ((s.actives m).filter fun i => decide (off ≤ i)).map fun i => (i, some (q.a, i - off))
    else (s.actives m).map fun i => (i, if i + off < s.vl then some (q.a, i + off) else none)

/-- VGATHERR (R306). -/
def doGather (s : State) (q : QEntry) (m : BitVec 3) (sc : Bool) (t : ElTy) : Res Unit :=
  let e := t.bytes
  vmove s q t (sc || !s.tagged q.b e s.vl) fun s =>
    let idx := if sc then List.replicate s.vl q.xb.toNat else s.elems q.b e s.vl
    (s.actives m).map fun i => (i, if idx.getD i 0 < s.vl then some (q.a, idx.getD i 0) else none)

/-- VCOMPRESS (R310). -/
def doCompress (s : State) (q : QEntry) (m : BitVec 3) (t : ElTy) : Res Unit :=
  vmove s q t true fun s =>
    ((List.range s.vl).zip (s.actives m)).map fun p => (p.1, some (q.a, p.2))

/-! ### Key merge (R307) -/

/-- The merge steps: `fuel` keys are still to be written. -/
def mergeKeys : Nat → List Nat → List Nat → List Nat
  | 0, _, _ => []
  | _ + 1, [], [] => []
  | n + 1, a :: as, [] => a :: mergeKeys n as []
  | n + 1, [], b :: bs => b :: mergeKeys n [] bs
  | n + 1, a :: as, b :: bs => if a ≤ b then a :: mergeKeys n as (b :: bs) else b :: mergeKeys n (a :: as) bs

/-- Whether a key stands below its predecessor. -/
def outOfOrder : List Nat → Bool
  | a :: b :: t => decide (b < a) || outOfOrder (b :: t)
  | _ => false

/-- VMRGK. -/
def doMerge (s : State) (q : QEntry) (t : ElTy) : Res Unit :=
  let e := t.bytes
  let k := s.vl
  vplain s q fun s =>
    let as := s.elems q.a e k
    let bs := s.elems q.b e k
    let out := mergeKeys (2 * k) as bs
    ((s.putV q.d e ((out.take k).map some)).putV (q.d + 1) e ((out.drop k).map some)).accrue
      (flagIf (outOfOrder as || outOfOrder bs) fORD)

/-! ### Masks (R308, R313) -/

/-- The bit of a mask-logic instruction. -/
def MLog.bit (f : MLog) (a b : Bool) : Bool :=
  match f with
  | .and => a && b
  | .or => a || b
  | .xor => a != b
  | .andn => a && !b

/-- R308; the VL limit of R297 does not apply, since no vector operand is named (log entry 24). -/
def doMlog (s : State) (q : QEntry) (f : MLog) : Res Unit :=
  vplain s q fun s =>
    s.putMask q.d ((List.range s.vl).map fun i => some (f.bit (s.maskBit q.a i) (s.maskBit q.b i)))

/-- VMNOT. -/
def doMnot (s : State) (q : QEntry) (m : BitVec 3) : Res Unit :=
  vplain s q fun s =>
    s.putMask q.d ((List.range s.vl).map fun i => if s.active m i then some (!s.maskBit q.a i) else none)

/-- The lowest active element whose mask bit is set. -/
def State.firstSet (s : State) (m : BitVec 3) (a : Nat) : Option Nat := (s.actives m).find? fun i => s.maskBit a i

/-- VMBEFORE and VMINCL (R313). -/
def doMpart (s : State) (q : QEntry) (f : MPart) (m : BitVec 3) : Res Unit :=
  vplain s q fun s =>
    let p := (s.firstSet m q.a).getD s.vl
    s.putMask q.d ((List.range s.vl).map fun i =>
      if s.active m i then some (match f with | .before => decide (i < p) | .incl => decide (i ≤ p)) else none)

/-- VMPOP. -/
def doMpop (s : State) (q : QEntry) (m : BitVec 3) : Res Unit :=
  vplain s q fun s =>
    s.setX q.d (BitVec.ofNat 64 ((s.actives m).filter fun i => s.maskBit q.a i).length)

/-- VMFIRST. -/
def doMfirst (s : State) (q : QEntry) (m : BitVec 3) : Res Unit :=
  vplain s q fun s =>
    s.setX q.d (match s.firstSet m q.a with | some i => BitVec.ofNat 64 i | none => BitVec.allOnes 64)

/-! ### VUNARY functions 0 to 15 (R309) -/

/-- The value of an element-wise function of one source. -/
def oneOp (f : VOne) (t : ElTy) (a : Nat) : FRes :=
  let w := 8 * t.bytes
  match f with
  | .mv => ⟨a, 0⟩
  | .neg => ⟨wrap w (-(a : Int)), 0⟩
  | .abs => ⟨wrap w (sgn w a).natAbs, 0⟩
  | .not => ⟨2 ^ w - 1 - a, 0⟩
  | .fneg => t.fmt.withSign a (!t.fmt.isNeg a)
  | .fabs => t.fmt.withSign a false
  | .fsqrt => t.fmt.sqrtV (t.fmt.decode a)
  | .frecip => t.fmt.divV (.fin false 1 0) (t.fmt.decode a)
  | .fexp2 => t.fmt.exp2 (t.fmt.decode a)
  | .fclass => ⟨t.fmt.classify a, 0⟩

/-- VMV, VNEG to VFCLASS. -/
def doOne (s : State) (q : QEntry) (f : VOne) (m : BitVec 3) (t : ElTy) : Res Unit :=
  let e := t.bytes
  let k := s.vl
  match f with
  | .mv => vmove s q t true fun s => ((List.range s.vl).filter (s.acts q m)).map fun i => (i, some (q.a, i))
  | _ =>
    vexec s q (decide (f = .fneg) && decide (t = .sf))
        (fun s => elemDefs s { q with b := q.a } true m fun _ x _ _ => unlessZero [x] (.neg x)) (fun s => elemLanes s q e m) fun s =>
      s.putRes q.d e (walk (s.acts q m) (fun a _ _ => oneOp f t a) 0
        (s.elems q.a e k) (List.replicate k 0) (List.replicate k 0))

/-- Scalar(x, T) (R298). -/
def scalarElem (x : Word) (t : ElTy) : Nat := x.toNat % 2 ^ (8 * t.bytes)

/-- VSPLAT. -/
def doSplat (s : State) (q : QEntry) (m : BitVec 3) (t : ElTy) : Res Unit :=
  vplain s q fun s =>
    s.putV q.d t.bytes ((List.range s.vl).map fun i => if s.acts q m i then some (scalarElem q.xa t) else none)

/-- VMVSX: element 0 only. -/
def doMvsx (s : State) (q : QEntry) (m : BitVec 3) (t : ElTy) : Res Unit :=
  vplain s q fun s =>
    if s.acts q m 0 && decide (1 ≤ s.vl) then s.putV q.d t.bytes [some (scalarElem q.xa t)] else s

/-- VMVXS: element 0 whatever VL. -/
def doMvxs (s : State) (q : QEntry) (t : ElTy) : Res Unit :=
  let e := t.bytes
  vplain s q fun s =>
    let v := (s.elems q.a e 1).getD 0 0
    s.setX q.d (if t = .b ∨ t = .h ∨ t = .w ∨ t = .d then BitVec.ofInt 64 (sgn (8 * e) v) else BitVec.ofNat 64 v)

/-- VID. -/
def doVid (s : State) (q : QEntry) (m : BitVec 3) (t : ElTy) : Res Unit :=
  let e := t.bytes
  vplain s q fun s =>
    s.putV q.d e ((List.range s.vl).map fun i => if s.acts q m i then some (i % 2 ^ (8 * e)) else none)

/-- VIOTA. -/
def doIota (s : State) (q : QEntry) (m : BitVec 3) (t : ElTy) : Res Unit :=
  let e := t.bytes
  vplain s q fun s =>
    let set := (s.actives m).filter fun i => s.maskBit q.a i
    s.putV q.d e ((List.range s.vl).map fun i =>
      if s.acts q m i then some ((set.filter fun j => decide (j < i)).length % 2 ^ (8 * e)) else none)

/-! ### Reductions (R57, R58, R312) -/

/-- One level of the tree of R57: neighbours combined, an empty child passing the other through. -/
def treeLevel (f : Nat → Nat → FRes) : List (Option Nat) → List (Option Nat) × BitVec 8
  | a :: b :: t =>
    let r := treeLevel f t
    match a, b with
    | some x, some y => let z := f x y; (some z.code :: r.1, z.flags ||| r.2)
    | some x, none => (some x :: r.1, r.2)
    | none, y => (y :: r.1, r.2)
  | l => (l, 0)

/-- The tree of R57 over its leaves; `fuel` bounds the levels. -/
def tree (f : Nat → Nat → FRes) : Nat → List (Option Nat) → Option Nat × BitVec 8
  | 0, l => (l.head?.getD none, 0)
  | n + 1, l =>
    if l.length ≤ 1 then (l.head?.getD none, 0)
    else
      let r := treeLevel f l
      let t := tree f n r.1
      (t.1, r.2 ||| t.2)

/-- The operation of an integer reduction on w-bit codes. -/
def redInt (f : VRed) (w a b : Nat) : Nat :=
  match f with
  | .sum => (a + b) % 2 ^ w
  | .min => if sgn w a ≤ sgn w b then a else b
  | .max => if sgn w a ≤ sgn w b then b else a
  | .minu => min a b
  | .maxu => max a b
  | .and => a &&& b
  | .or => a ||| b
  | .xor => a ^^^ b
  | _ => a

/-- The node of a reduction tree; an integer fold has the same result in any order (R58). -/
def redOp (f : VRed) (t : ElTy) (a b : Nat) : FRes :=
  match f with
  | .fsum => t.fmt.addV (t.fmt.decode a) (t.fmt.decode b)
  | .fmin => t.fmt.minmax false a b
  | .fmax => t.fmt.minmax true a b
  | _ => ⟨redInt f (8 * t.bytes) a b, 0⟩

/-- R312: the initial value is element 0 of D, which the result replaces. -/
def doRed (s : State) (q : QEntry) (f : VRed) (m : BitVec 3) (t : ElTy) : Res Unit :=
  let e := t.bytes
  vplain s q fun s =>
    let leaves := ((s.elems q.a e s.vl).zip (List.range s.vl)).map fun p => if s.active m p.2 then some p.1 else none
    match tree (redOp f t) 16 leaves with
    | (none, _) => s
    | (some r, fl) =>
      let z := redOp f t r ((s.elems q.d e 1).getD 0 0)
      (s.putV q.d e [some z.code]).accrue (fl ||| z.flags)

/-! ### Sorting (R314) -/

/-- A key put into an ascending list after its equals. -/
def insertKey (x : Nat) : List Nat → List Nat
  | [] => [x]
  | y :: t => if x < y then x :: y :: t else y :: insertKey x t

/-- VSORTK. -/
def doSortk (s : State) (q : QEntry) (m : BitVec 3) (t : ElTy) : Res Unit :=
  let e := t.bytes
  vplain s q fun s =>
    let keys := (((s.elems q.a e s.vl).zip (List.range s.vl)).filter fun p => s.active m p.2).map fun p => p.1
    s.putV q.d e ((keys.foldl (fun l x => insertKey x l) []).map some)

/-- The bits of VUNIQ, from element i on, with the nearest lower active element. -/
def uniqBits (act : Nat → Bool) : Nat → Option Nat → List Nat → List (Option Bool)
  | _, _, [] => []
  | i, p, x :: t => if act i then some (decide (p ≠ some x)) :: uniqBits act (i + 1) (some x) t else none :: uniqBits act (i + 1) p t

/-- VUNIQ. -/
def doUniq (s : State) (q : QEntry) (m : BitVec 3) (t : ElTy) : Res Unit :=
  let e := t.bytes
  vplain s q fun s =>
    s.putMask q.d (uniqBits (fun i => s.active m i) 0 none (s.elems q.a e s.vl))

/-! ### Conversions (R51, R315) -/

/-- The format that a conversion reads T as: .b is E5M2. -/
def cvtSrc (t : ElTy) : Fmt := if t = .b then .e5 else t.fmt

/-- The value of an element-wise conversion. -/
def cvtOp (f : VCvt) (t : ElTy) (a : Nat) : FRes :=
  let v := (cvtSrc t).decode a
  match f with
  | .sf => if t = .h ∨ t = .w ∨ t = .d then Fmt.sf.ofInt (sgn (8 * t.bytes) a) else Fmt.sf.convert false v
  | .bf => Fmt.bf.convert false v
  | .hf => Fmt.hf.convert false v
  | .e4 => Fmt.e4.convert false v
  | .e4s => Fmt.e4.convert true v
  | .e5 => Fmt.e5.convert false v
  | .e5s => Fmt.e5.convert true v
  | .inr => toInt32 true v
  | .inz => toInt32 false v
  | .intof => t.fmt.ofInt (sgn 32 a)
  | .widen => ⟨wrap (16 * t.bytes) (sgn (8 * t.bytes) a), 0⟩
  | .widenu => ⟨a, 0⟩
  | .f4 => ⟨0, 0⟩
  | .fromf4 => ⟨0, 0⟩

/-- Nibbles packed two to a byte, the even element low (R52). -/
def packNibbles : List Nat → List Nat
  | [] => []
  | [a] => [a]
  | a :: b :: t => (a + 16 * b) :: packNibbles t

/-- VTOF4 (R54, R55): payload to D, scales to D + 1. Nibbles below the progress index stay as they are, and so do the scales of blocks that lie below
it whole. -/
def doToF4 (s : State) (q : QEntry) (m : BitVec 3) (t : ElTy) : Res Unit :=
  let e := t.bytes
  let k := s.vl
  vplain s q fun s =>
    let xs := ((s.elems q.a e k).zip (List.range k)).map fun p => (s.active m p.2, t.fmt.decode p.1)
    let blocks := chunks 8 ((k + 7) / 8) xs
    let rs := ((blocks.map fun b => b.map (f4Elem (f4Scale b))).flatten).zip (List.range k)
    let old := s.elems q.d 1 ((k + 1) / 2)
    let codes := rs.map fun r => if q.prog ≤ r.2 then r.1.code else old.getD (r.2 / 2) 0 / (if r.2 % 2 = 0 then 1 else 16) % 16
    let scales := (blocks.zip (List.range blocks.length)).map fun b => if q.prog < min k (8 * b.2 + 8) then some (f4Scale b.1) else none
    ((s.putV q.d 1 ((packNibbles codes).map some)).putV (q.d + 1) 1 scales).accrue
      (rs.foldl (fun g r => if q.prog ≤ r.2 then g ||| r.1.flags else g) 0)

/-- VFROMF4 (R53, R55): code value times block scale, rounded once. -/
def doFromF4 (s : State) (q : QEntry) (m : BitVec 3) (t : ElTy) : Res Unit :=
  let e := t.bytes
  let k := s.vl
  vplain s q fun s =>
    let pay := s.elems q.a 1 ((k + 1) / 2)
    let scl := s.elems (q.a + 1) 1 ((k + 7) / 8)
    s.putRes q.d e ((List.range k).map fun i =>
      if s.acts q m i then
        let c := pay.getD (i / 2) 0 / (if i % 2 = 0 then 1 else 16) % 16
        let sc := scl.getD (i / 8) 0
        some (if sc = 0xFF then ⟨t.fmt.nan, fPOISON⟩ else t.fmt.mulF (Fmt.e2.decode c) (scaleV sc))
      else none)

/-- R315. -/
def doCvt (s : State) (q : QEntry) (f : VCvt) (m : BitVec 3) (t : ElTy) : Res Unit :=
  match f with
  | .f4 => doToF4 s q m t
  | .fromf4 => doFromF4 s q m t
  | _ =>
    let z := f.sizes t
    let k := s.vl
    vplain s q fun s =>
      s.putRes q.d z.2 (walk (s.acts q m) (fun a _ _ => cvtOp f t a) 0
        (s.elems q.a z.1 k) (List.replicate k 0) (List.replicate k 0))

end Sys2Proof.Machine
end

