-- ==== Sys2Proof/Machine/VIssue.lean ====
section
/-!
DEFINITION. VIssue: the form-V and form-VF instructions at issue (R29, R234, R295): each is pushed with its captured operands; what
it does when it completes is in VArith. The table `vWord` gives the same entries for the words that follow a FRAME (R278).
-/
namespace Sys2Proof.Machine

/-- A form-V instruction: B is a vector register, or with S = 1 a scalar captured at issue (R298). -/
def issueV (s : State) (op : QOp) (x : VArgs) : Res Unit :=
  pushed s ⟨op, x.d.toNat, x.a.toNat, x.b.toNat, false, x.s⟩

/-- A form-VF instruction. `ca` says that A names a scalar register. -/
def issueU (s : State) (op : QOp) (x : UArgs) (ca : Bool) : Res Unit :=
  pushed s ⟨op, x.d.toNat, x.a.toNat, 0, ca, false⟩

/-- VADD (R299, R300). -/
def execVadd (x : VArgs) (s : State) : Host.Outcome State Fault Refusal :=
  finish (issueV s (.int .add x.m x.s x.t) x)

/-- VSUB (R299, R300). -/
def execVsub (x : VArgs) (s : State) : Host.Outcome State Fault Refusal :=
  finish (issueV s (.int .sub x.m x.s x.t) x)

/-- VMUL (R299, R300). -/
def execVmul (x : VArgs) (s : State) : Host.Outcome State Fault Refusal :=
  finish (issueV s (.int .mul x.m x.s x.t) x)

/-- VMULH (R299, R300). -/
def execVmulh (x : VArgs) (s : State) : Host.Outcome State Fault Refusal :=
  finish (issueV s (.int .mulh x.m x.s x.t) x)

/-- VMULHU (R299, R300). -/
def execVmulhu (x : VArgs) (s : State) : Host.Outcome State Fault Refusal :=
  finish (issueV s (.int .mulhu x.m x.s x.t) x)

/-- VMACC (R299, R300). -/
def execVmacc (x : VArgs) (s : State) : Host.Outcome State Fault Refusal :=
  finish (issueV s (.int .macc x.m x.s x.t) x)

/-- VDIV (R299, R300). -/
def execVdiv (x : VArgs) (s : State) : Host.Outcome State Fault Refusal :=
  finish (issueV s (.int .div x.m x.s x.t) x)

/-- VREM (R299, R300). -/
def execVrem (x : VArgs) (s : State) : Host.Outcome State Fault Refusal :=
  finish (issueV s (.int .rem x.m x.s x.t) x)

/-- VMIN (R299, R300). -/
def execVmin (x : VArgs) (s : State) : Host.Outcome State Fault Refusal :=
  finish (issueV s (.int .min x.m x.s x.t) x)

/-- VMAX (R299, R300). -/
def execVmax (x : VArgs) (s : State) : Host.Outcome State Fault Refusal :=
  finish (issueV s (.int .max x.m x.s x.t) x)

/-- VMINU (R299, R300). -/
def execVminu (x : VArgs) (s : State) : Host.Outcome State Fault Refusal :=
  finish (issueV s (.int .minu x.m x.s x.t) x)

/-- VMAXU (R299, R300). -/
def execVmaxu (x : VArgs) (s : State) : Host.Outcome State Fault Refusal :=
  finish (issueV s (.int .maxu x.m x.s x.t) x)

/-- VAND (R299, R300). -/
def execVand (x : VArgs) (s : State) : Host.Outcome State Fault Refusal :=
  finish (issueV s (.int .and x.m x.s x.t) x)

/-- VOR (R299, R300). -/
def execVor (x : VArgs) (s : State) : Host.Outcome State Fault Refusal :=
  finish (issueV s (.int .or x.m x.s x.t) x)

/-- VXOR (R299, R300). -/
def execVxor (x : VArgs) (s : State) : Host.Outcome State Fault Refusal :=
  finish (issueV s (.int .xor x.m x.s x.t) x)

/-- VSLL (R299, R300). -/
def execVsll (x : VArgs) (s : State) : Host.Outcome State Fault Refusal :=
  finish (issueV s (.int .sll x.m x.s x.t) x)

/-- VSRL (R299, R300). -/
def execVsrl (x : VArgs) (s : State) : Host.Outcome State Fault Refusal :=
  finish (issueV s (.int .srl x.m x.s x.t) x)

/-- VSRA (R299, R300). -/
def execVsra (x : VArgs) (s : State) : Host.Outcome State Fault Refusal :=
  finish (issueV s (.int .sra x.m x.s x.t) x)

/-- VSADD (R299, R300). -/
def execVsadd (x : VArgs) (s : State) : Host.Outcome State Fault Refusal :=
  finish (issueV s (.int .sadd x.m x.s x.t) x)

/-- VSSUB (R299, R300). -/
def execVssub (x : VArgs) (s : State) : Host.Outcome State Fault Refusal :=
  finish (issueV s (.int .ssub x.m x.s x.t) x)

/-- VAADD (R299, R300). -/
def execVaadd (x : VArgs) (s : State) : Host.Outcome State Fault Refusal :=
  finish (issueV s (.int .aadd x.m x.s x.t) x)

/-- VSMUL (R299, R300). -/
def execVsmul (x : VArgs) (s : State) : Host.Outcome State Fault Refusal :=
  finish (issueV s (.int .smul x.m x.s x.t) x)

/-- VWADD (R301). -/
def execVwadd (x : VArgs) (s : State) : Host.Outcome State Fault Refusal :=
  finish (issueV s (.wide .add x.m x.s x.t) x)

/-- VWADDU (R301). -/
def execVwaddu (x : VArgs) (s : State) : Host.Outcome State Fault Refusal :=
  finish (issueV s (.wide .addu x.m x.s x.t) x)

/-- VWMUL (R301). -/
def execVwmul (x : VArgs) (s : State) : Host.Outcome State Fault Refusal :=
  finish (issueV s (.wide .mul x.m x.s x.t) x)

/-- VWMULU (R301). -/
def execVwmulu (x : VArgs) (s : State) : Host.Outcome State Fault Refusal :=
  finish (issueV s (.wide .mulu x.m x.s x.t) x)

/-- VWMACC (R301). -/
def execVwmacc (x : VArgs) (s : State) : Host.Outcome State Fault Refusal :=
  finish (issueV s (.wide .macc x.m x.s x.t) x)

/-- VWMACCU (R301). -/
def execVwmaccu (x : VArgs) (s : State) : Host.Outcome State Fault Refusal :=
  finish (issueV s (.wide .maccu x.m x.s x.t) x)

/-- VNCLIP (R301). -/
def execVnclip (x : VArgs) (s : State) : Host.Outcome State Fault Refusal :=
  finish (issueV s (.nclip true x.m x.s x.t) x)

/-- VNCLIPU (R301). -/
def execVnclipu (x : VArgs) (s : State) : Host.Outcome State Fault Refusal :=
  finish (issueV s (.nclip false x.m x.s x.t) x)

/-- VFADD (R302). -/
def execVfadd (x : VArgs) (s : State) : Host.Outcome State Fault Refusal :=
  finish (issueV s (.fp .add x.m x.s x.t) x)

/-- VFSUB (R302). -/
def execVfsub (x : VArgs) (s : State) : Host.Outcome State Fault Refusal :=
  finish (issueV s (.fp .sub x.m x.s x.t) x)

/-- VFMUL (R302). -/
def execVfmul (x : VArgs) (s : State) : Host.Outcome State Fault Refusal :=
  finish (issueV s (.fp .mul x.m x.s x.t) x)

/-- VFDIV (R302). -/
def execVfdiv (x : VArgs) (s : State) : Host.Outcome State Fault Refusal :=
  finish (issueV s (.fp .div x.m x.s x.t) x)

/-- VFMA (R302). -/
def execVfma (x : VArgs) (s : State) : Host.Outcome State Fault Refusal :=
  finish (issueV s (.fp .ma x.m x.s x.t) x)

/-- VFNMA (R302). -/
def execVfnma (x : VArgs) (s : State) : Host.Outcome State Fault Refusal :=
  finish (issueV s (.fp .nma x.m x.s x.t) x)

/-- VFMIN (R302). -/
def execVfmin (x : VArgs) (s : State) : Host.Outcome State Fault Refusal :=
  finish (issueV s (.fp .min x.m x.s x.t) x)

/-- VFMAX (R302). -/
def execVfmax (x : VArgs) (s : State) : Host.Outcome State Fault Refusal :=
  finish (issueV s (.fp .max x.m x.s x.t) x)

/-- VFSGNJ (R302). -/
def execVfsgnj (x : VArgs) (s : State) : Host.Outcome State Fault Refusal :=
  finish (issueV s (.fp .sgnj x.m x.s x.t) x)

/-- VFSGNJN (R302). -/
def execVfsgnjn (x : VArgs) (s : State) : Host.Outcome State Fault Refusal :=
  finish (issueV s (.fp .sgnjn x.m x.s x.t) x)

/-- VCMPEQ (R303). -/
def execVcmpeq (x : VArgs) (s : State) : Host.Outcome State Fault Refusal :=
  finish (issueV s (.cmp .eq x.m x.s x.t) x)

/-- VCMPNE (R303). -/
def execVcmpne (x : VArgs) (s : State) : Host.Outcome State Fault Refusal :=
  finish (issueV s (.cmp .ne x.m x.s x.t) x)

/-- VCMPLT (R303). -/
def execVcmplt (x : VArgs) (s : State) : Host.Outcome State Fault Refusal :=
  finish (issueV s (.cmp .lt x.m x.s x.t) x)

/-- VCMPLTU (R303). -/
def execVcmpltu (x : VArgs) (s : State) : Host.Outcome State Fault Refusal :=
  finish (issueV s (.cmp .ltu x.m x.s x.t) x)

/-- VCMPLE (R303). -/
def execVcmple (x : VArgs) (s : State) : Host.Outcome State Fault Refusal :=
  finish (issueV s (.cmp .le x.m x.s x.t) x)

/-- VCMPLEU (R303). -/
def execVcmpleu (x : VArgs) (s : State) : Host.Outcome State Fault Refusal :=
  finish (issueV s (.cmp .leu x.m x.s x.t) x)

/-- VFCMPEQ (R303). -/
def execVfcmpeq (x : VArgs) (s : State) : Host.Outcome State Fault Refusal :=
  finish (issueV s (.cmp .feq x.m x.s x.t) x)

/-- VFCMPLT (R303). -/
def execVfcmplt (x : VArgs) (s : State) : Host.Outcome State Fault Refusal :=
  finish (issueV s (.cmp .flt x.m x.s x.t) x)

/-- VFCMPLE (R303). -/
def execVfcmple (x : VArgs) (s : State) : Host.Outcome State Fault Refusal :=
  finish (issueV s (.cmp .fle x.m x.s x.t) x)

/-- VFCMPUN (R303). -/
def execVfcmpun (x : VArgs) (s : State) : Host.Outcome State Fault Refusal :=
  finish (issueV s (.cmp .fun_ x.m x.s x.t) x)

/-- VSEL (R304). -/
def execVsel (x : VArgs) (s : State) : Host.Outcome State Fault Refusal :=
  finish (issueV s (.sel x.m x.s x.t) x)

/-- VSLIDEUP (R305). -/
def execVslideup (d : BitVec 6) (a : BitVec 6) (b : BitVec 6) (m : BitVec 3) (t : ElTy) (s : State) : Host.Outcome State Fault Refusal :=
  finish (pushed s ⟨.slide true m t, d.toNat, a.toNat, b.toNat, false, true⟩)

/-- VSLIDEDN (R305). -/
def execVslidedn (d : BitVec 6) (a : BitVec 6) (b : BitVec 6) (m : BitVec 3) (t : ElTy) (s : State) : Host.Outcome State Fault Refusal :=
  finish (pushed s ⟨.slide false m t, d.toNat, a.toNat, b.toNat, false, true⟩)

/-- VGATHERR (R306). -/
def execVgatherr (x : VArgs) (s : State) : Host.Outcome State Fault Refusal :=
  finish (issueV s (.gather x.m x.s x.t) x)

/-- VMRGK (R307). -/
def execVmrgk (d : BitVec 6) (a : BitVec 6) (b : BitVec 6) (t : ElTy) (s : State) : Host.Outcome State Fault Refusal :=
  finish (pushed s ⟨.merge t, d.toNat, a.toNat, b.toNat, false, false⟩)

/-- VMAND (R308). -/
def execVmand (d : BitVec 6) (a : BitVec 6) (b : BitVec 6) (s : State) : Host.Outcome State Fault Refusal :=
  finish (pushed s ⟨.mlog .and, d.toNat, a.toNat, b.toNat, false, false⟩)

/-- VMOR (R308). -/
def execVmor (d : BitVec 6) (a : BitVec 6) (b : BitVec 6) (s : State) : Host.Outcome State Fault Refusal :=
  finish (pushed s ⟨.mlog .or, d.toNat, a.toNat, b.toNat, false, false⟩)

/-- VMXOR (R308). -/
def execVmxor (d : BitVec 6) (a : BitVec 6) (b : BitVec 6) (s : State) : Host.Outcome State Fault Refusal :=
  finish (pushed s ⟨.mlog .xor, d.toNat, a.toNat, b.toNat, false, false⟩)

/-- VMANDN (R308). -/
def execVmandn (d : BitVec 6) (a : BitVec 6) (b : BitVec 6) (s : State) : Host.Outcome State Fault Refusal :=
  finish (pushed s ⟨.mlog .andn, d.toNat, a.toNat, b.toNat, false, false⟩)

/-- VMV (R309). -/
def execVmv (x : UArgs) (s : State) : Host.Outcome State Fault Refusal :=
  finish (issueU s (.one .mv x.m x.t) x false)

/-- VSPLAT (R309). -/
def execVsplat (x : UArgs) (s : State) : Host.Outcome State Fault Refusal :=
  finish (issueU s (.splat x.m x.t) x true)

/-- VMVSX (R309). -/
def execVmvsx (x : UArgs) (s : State) : Host.Outcome State Fault Refusal :=
  finish (issueU s (.mvsx x.m x.t) x true)

/-- VMVXS (R309). -/
def execVmvxs (d : BitVec 6) (a : BitVec 6) (t : ElTy) (s : State) : Host.Outcome State Fault Refusal :=
  finish (pushed s ⟨.mvxs t, d.toNat, a.toNat, 0, false, false⟩)

/-- VID (R309). -/
def execVid (d : BitVec 6) (m : BitVec 3) (t : ElTy) (s : State) : Host.Outcome State Fault Refusal :=
  finish (pushed s ⟨.vid m t, d.toNat, 0, 0, false, false⟩)

/-- VIOTA (R309). -/
def execViota (x : UArgs) (s : State) : Host.Outcome State Fault Refusal :=
  finish (issueU s (.iota x.m x.t) x false)

/-- VCOMPRESS (R309, R310). -/
def execVcompress (x : UArgs) (s : State) : Host.Outcome State Fault Refusal :=
  finish (issueU s (.compress x.m x.t) x false)

/-- VNEG (R309). -/
def execVneg (x : UArgs) (s : State) : Host.Outcome State Fault Refusal :=
  finish (issueU s (.one .neg x.m x.t) x false)

/-- VABS (R309). -/
def execVabs (x : UArgs) (s : State) : Host.Outcome State Fault Refusal :=
  finish (issueU s (.one .abs x.m x.t) x false)

/-- VNOT (R309). -/
def execVnot (x : UArgs) (s : State) : Host.Outcome State Fault Refusal :=
  finish (issueU s (.one .not x.m x.t) x false)

/-- VFNEG (R309). -/
def execVfneg (x : UArgs) (s : State) : Host.Outcome State Fault Refusal :=
  finish (issueU s (.one .fneg x.m x.t) x false)

/-- VFABS (R309). -/
def execVfabs (x : UArgs) (s : State) : Host.Outcome State Fault Refusal :=
  finish (issueU s (.one .fabs x.m x.t) x false)

/-- VFSQRT (R309). -/
def execVfsqrt (x : UArgs) (s : State) : Host.Outcome State Fault Refusal :=
  finish (issueU s (.one .fsqrt x.m x.t) x false)

/-- VFRECIP (R309). -/
def execVfrecip (x : UArgs) (s : State) : Host.Outcome State Fault Refusal :=
  finish (issueU s (.one .frecip x.m x.t) x false)

/-- VFEXP2 (R309). -/
def execVfexp2 (x : UArgs) (s : State) : Host.Outcome State Fault Refusal :=
  finish (issueU s (.one .fexp2 x.m x.t) x false)

/-- VFCLASS (R311). -/
def execVfclass (x : UArgs) (s : State) : Host.Outcome State Fault Refusal :=
  finish (issueU s (.one .fclass x.m x.t) x false)

/-- VREDSUM (R312). -/
def execVredsum (x : UArgs) (s : State) : Host.Outcome State Fault Refusal :=
  finish (issueU s (.red .sum x.m x.t) x false)

/-- VREDMIN (R312). -/
def execVredmin (x : UArgs) (s : State) : Host.Outcome State Fault Refusal :=
  finish (issueU s (.red .min x.m x.t) x false)

/-- VREDMAX (R312). -/
def execVredmax (x : UArgs) (s : State) : Host.Outcome State Fault Refusal :=
  finish (issueU s (.red .max x.m x.t) x false)

/-- VREDMINU (R312). -/
def execVredminu (x : UArgs) (s : State) : Host.Outcome State Fault Refusal :=
  finish (issueU s (.red .minu x.m x.t) x false)

/-- VREDMAXU (R312). -/
def execVredmaxu (x : UArgs) (s : State) : Host.Outcome State Fault Refusal :=
  finish (issueU s (.red .maxu x.m x.t) x false)

/-- VREDAND (R312). -/
def execVredand (x : UArgs) (s : State) : Host.Outcome State Fault Refusal :=
  finish (issueU s (.red .and x.m x.t) x false)

/-- VREDOR (R312). -/
def execVredor (x : UArgs) (s : State) : Host.Outcome State Fault Refusal :=
  finish (issueU s (.red .or x.m x.t) x false)

/-- VREDXOR (R312). -/
def execVredxor (x : UArgs) (s : State) : Host.Outcome State Fault Refusal :=
  finish (issueU s (.red .xor x.m x.t) x false)

/-- VFREDSUM (R312). -/
def execVfredsum (x : UArgs) (s : State) : Host.Outcome State Fault Refusal :=
  finish (issueU s (.red .fsum x.m x.t) x false)

/-- VFREDMIN (R312). -/
def execVfredmin (x : UArgs) (s : State) : Host.Outcome State Fault Refusal :=
  finish (issueU s (.red .fmin x.m x.t) x false)

/-- VFREDMAX (R312). -/
def execVfredmax (x : UArgs) (s : State) : Host.Outcome State Fault Refusal :=
  finish (issueU s (.red .fmax x.m x.t) x false)

/-- VMPOP (R309). -/
def execVmpop (d : BitVec 6) (a : BitVec 6) (m : BitVec 3) (s : State) : Host.Outcome State Fault Refusal :=
  finish (pushed s ⟨.mpop m, d.toNat, a.toNat, 0, false, false⟩)

/-- VMFIRST (R309). -/
def execVmfirst (d : BitVec 6) (a : BitVec 6) (m : BitVec 3) (s : State) : Host.Outcome State Fault Refusal :=
  finish (pushed s ⟨.mfirst m, d.toNat, a.toNat, 0, false, false⟩)

/-- VMNOT (R309). -/
def execVmnot (d : BitVec 6) (a : BitVec 6) (m : BitVec 3) (s : State) : Host.Outcome State Fault Refusal :=
  finish (pushed s ⟨.mnot m, d.toNat, a.toNat, 0, false, false⟩)

/-- VMBEFORE (R313). -/
def execVmbefore (d : BitVec 6) (a : BitVec 6) (m : BitVec 3) (s : State) : Host.Outcome State Fault Refusal :=
  finish (pushed s ⟨.mpart .before m, d.toNat, a.toNat, 0, false, false⟩)

/-- VMINCL (R313). -/
def execVmincl (d : BitVec 6) (a : BitVec 6) (m : BitVec 3) (s : State) : Host.Outcome State Fault Refusal :=
  finish (pushed s ⟨.mpart .incl m, d.toNat, a.toNat, 0, false, false⟩)

/-- VSORTK (R314). -/
def execVsortk (x : UArgs) (s : State) : Host.Outcome State Fault Refusal :=
  finish (issueU s (.sortk x.m x.t) x false)

/-- VUNIQ (R314). -/
def execVuniq (x : UArgs) (s : State) : Host.Outcome State Fault Refusal :=
  finish (issueU s (.uniq x.m x.t) x false)

/-- VTOSF (R315). -/
def execVtosf (x : UArgs) (s : State) : Host.Outcome State Fault Refusal :=
  finish (issueU s (.cvt .sf x.m x.t) x false)

/-- VTOBF (R315). -/
def execVtobf (x : UArgs) (s : State) : Host.Outcome State Fault Refusal :=
  finish (issueU s (.cvt .bf x.m x.t) x false)

/-- VTOHF (R315). -/
def execVtohf (x : UArgs) (s : State) : Host.Outcome State Fault Refusal :=
  finish (issueU s (.cvt .hf x.m x.t) x false)

/-- VTOE4 (R315). -/
def execVtoe4 (x : UArgs) (s : State) : Host.Outcome State Fault Refusal :=
  finish (issueU s (.cvt .e4 x.m x.t) x false)

/-- VTOE4S (R315). -/
def execVtoe4s (x : UArgs) (s : State) : Host.Outcome State Fault Refusal :=
  finish (issueU s (.cvt .e4s x.m x.t) x false)

/-- VTOE5 (R315). -/
def execVtoe5 (x : UArgs) (s : State) : Host.Outcome State Fault Refusal :=
  finish (issueU s (.cvt .e5 x.m x.t) x false)

/-- VTOE5S (R315). -/
def execVtoe5s (x : UArgs) (s : State) : Host.Outcome State Fault Refusal :=
  finish (issueU s (.cvt .e5s x.m x.t) x false)

/-- VTOF4 (R315). -/
def execVtof4 (x : UArgs) (s : State) : Host.Outcome State Fault Refusal :=
  finish (issueU s (.cvt .f4 x.m x.t) x false)

/-- VFROMF4 (R315). -/
def execVfromf4 (x : UArgs) (s : State) : Host.Outcome State Fault Refusal :=
  finish (issueU s (.cvt .fromf4 x.m x.t) x false)

/-- VTOINR (R315). -/
def execVtoinr (x : UArgs) (s : State) : Host.Outcome State Fault Refusal :=
  finish (issueU s (.cvt .inr x.m x.t) x false)

/-- VTOINZ (R315). -/
def execVtoinz (x : UArgs) (s : State) : Host.Outcome State Fault Refusal :=
  finish (issueU s (.cvt .inz x.m x.t) x false)

/-- VINTOF (R315). -/
def execVintof (x : UArgs) (s : State) : Host.Outcome State Fault Refusal :=
  finish (issueU s (.cvt .intof x.m x.t) x false)

/-- VWIDEN (R315). -/
def execVwiden (x : UArgs) (s : State) : Host.Outcome State Fault Refusal :=
  finish (issueU s (.cvt .widen x.m x.t) x false)

/-- VWIDENU (R315). -/
def execVwidenu (x : UArgs) (s : State) : Host.Outcome State Fault Refusal :=
  finish (issueU s (.cvt .widenu x.m x.t) x false)

/-! ### The words of a FRAME (R278) -/

/-- A row of the table: the fields that must hold constants do, the element type is one the entry accepts, or the word is reserved. -/
def vRow (w mask pat : BitVec 32) (ok : Bool) (x : Push) : Option Push := if w &&& mask = pat ∧ ok = true then some x else none

/-- The entry of a form-V word, by OP. -/
def vMajor (w : BitVec 32) : Option Push :=
  let d := (fld w 19 6).toNat
  let a := (fld w 13 6).toNat
  let b := (fld w 7 6).toNat
  let m := fld w 4 3
  let c := bit w 3
  let t := ElTy.ofCode (fld w 0 3)
  match (fld w 25 7).toNat with
  | 0x40 => vRow w 0xFE000000 0x80000000 t.isInt ⟨.int .add m c t, d, a, b, false, c⟩
  | 0x41 => vRow w 0xFE000000 0x82000000 t.isInt ⟨.int .sub m c t, d, a, b, false, c⟩
  | 0x42 => vRow w 0xFE000000 0x84000000 t.isInt ⟨.int .mul m c t, d, a, b, false, c⟩
  | 0x43 => vRow w 0xFE000000 0x86000000 t.isInt ⟨.int .mulh m c t, d, a, b, false, c⟩
  | 0x44 => vRow w 0xFE000000 0x88000000 t.isInt ⟨.int .mulhu m c t, d, a, b, false, c⟩
  | 0x45 => vRow w 0xFE000000 0x8A000000 t.isInt ⟨.int .macc m c t, d, a, b, false, c⟩
  | 0x46 => vRow w 0xFE000000 0x8C000000 t.isInt ⟨.int .div m c t, d, a, b, false, c⟩
  | 0x47 => vRow w 0xFE000000 0x8E000000 t.isInt ⟨.int .rem m c t, d, a, b, false, c⟩
  | 0x48 => vRow w 0xFE000000 0x90000000 t.isInt ⟨.int .min m c t, d, a, b, false, c⟩
  | 0x49 => vRow w 0xFE000000 0x92000000 t.isInt ⟨.int .max m c t, d, a, b, false, c⟩
  | 0x4A => vRow w 0xFE000000 0x94000000 t.isInt ⟨.int .minu m c t, d, a, b, false, c⟩
  | 0x4B => vRow w 0xFE000000 0x96000000 t.isInt ⟨.int .maxu m c t, d, a, b, false, c⟩
  | 0x4C => vRow w 0xFE000000 0x98000000 t.isInt ⟨.int .and m c t, d, a, b, false, c⟩
  | 0x4D => vRow w 0xFE000000 0x9A000000 t.isInt ⟨.int .or m c t, d, a, b, false, c⟩
  | 0x4E => vRow w 0xFE000000 0x9C000000 t.isInt ⟨.int .xor m c t, d, a, b, false, c⟩
  | 0x4F => vRow w 0xFE000000 0x9E000000 t.isInt ⟨.int .sll m c t, d, a, b, false, c⟩
  | 0x50 => vRow w 0xFE000000 0xA0000000 t.isInt ⟨.int .srl m c t, d, a, b, false, c⟩
  | 0x51 => vRow w 0xFE000000 0xA2000000 t.isInt ⟨.int .sra m c t, d, a, b, false, c⟩
  | 0x52 => vRow w 0xFE000000 0xA4000000 t.isInt ⟨.int .sadd m c t, d, a, b, false, c⟩
  | 0x53 => vRow w 0xFE000000 0xA6000000 t.isInt ⟨.int .ssub m c t, d, a, b, false, c⟩
  | 0x54 => vRow w 0xFE000000 0xA8000000 t.isInt ⟨.int .aadd m c t, d, a, b, false, c⟩
  | 0x55 => vRow w 0xFE000000 0xAA000000 t.isInt ⟨.int .smul m c t, d, a, b, false, c⟩
  | 0x56 => vRow w 0xFE000000 0xAC000000 t.isNarrowInt ⟨.wide .add m c t, d, a, b, false, c⟩
  | 0x57 => vRow w 0xFE000000 0xAE000000 t.isNarrowInt ⟨.wide .addu m c t, d, a, b, false, c⟩
  | 0x58 => vRow w 0xFE000000 0xB0000000 t.isNarrowInt ⟨.wide .mul m c t, d, a, b, false, c⟩
  | 0x59 => vRow w 0xFE000000 0xB2000000 t.isNarrowInt ⟨.wide .mulu m c t, d, a, b, false, c⟩
  | 0x5A => vRow w 0xFE000000 0xB4000000 t.isNarrowInt ⟨.wide .macc m c t, d, a, b, false, c⟩
  | 0x5B => vRow w 0xFE000000 0xB6000000 t.isNarrowInt ⟨.wide .maccu m c t, d, a, b, false, c⟩
  | 0x5C => vRow w 0xFE000000 0xB8000000 t.isNarrowInt ⟨.nclip true m c t, d, a, b, false, c⟩
  | 0x5D => vRow w 0xFE000000 0xBA000000 t.isNarrowInt ⟨.nclip false m c t, d, a, b, false, c⟩
  | 0x5E => vRow w 0xFE000000 0xBC000000 t.isFloat ⟨.fp .add m c t, d, a, b, false, c⟩
  | 0x5F => vRow w 0xFE000000 0xBE000000 t.isFloat ⟨.fp .sub m c t, d, a, b, false, c⟩
  | 0x60 => vRow w 0xFE000000 0xC0000000 t.isFloat ⟨.fp .mul m c t, d, a, b, false, c⟩
  | 0x61 => vRow w 0xFE000000 0xC2000000 t.isFloat ⟨.fp .div m c t, d, a, b, false, c⟩
  | 0x62 => vRow w 0xFE000000 0xC4000000 t.isFloat ⟨.fp .ma m c t, d, a, b, false, c⟩
  | 0x63 => vRow w 0xFE000000 0xC6000000 t.isFloat ⟨.fp .nma m c t, d, a, b, false, c⟩
  | 0x64 => vRow w 0xFE000000 0xC8000000 t.isFloat ⟨.fp .min m c t, d, a, b, false, c⟩
  | 0x65 => vRow w 0xFE000000 0xCA000000 t.isFloat ⟨.fp .max m c t, d, a, b, false, c⟩
  | 0x66 => vRow w 0xFE000000 0xCC000000 t.isFloat ⟨.fp .sgnj m c t, d, a, b, false, c⟩
  | 0x67 => vRow w 0xFE000000 0xCE000000 t.isFloat ⟨.fp .sgnjn m c t, d, a, b, false, c⟩
  | 0x68 => vRow w 0xFE000000 0xD0000000 t.isInt ⟨.cmp .eq m c t, d, a, b, false, c⟩
  | 0x69 => vRow w 0xFE000000 0xD2000000 t.isInt ⟨.cmp .ne m c t, d, a, b, false, c⟩
  | 0x6A => vRow w 0xFE000000 0xD4000000 t.isInt ⟨.cmp .lt m c t, d, a, b, false, c⟩
  | 0x6B => vRow w 0xFE000000 0xD6000000 t.isInt ⟨.cmp .ltu m c t, d, a, b, false, c⟩
  | 0x6C => vRow w 0xFE000000 0xD8000000 t.isInt ⟨.cmp .le m c t, d, a, b, false, c⟩
  | 0x6D => vRow w 0xFE000000 0xDA000000 t.isInt ⟨.cmp .leu m c t, d, a, b, false, c⟩
  | 0x6E => vRow w 0xFE000000 0xDC000000 t.isFloat ⟨.cmp .feq m c t, d, a, b, false, c⟩
  | 0x6F => vRow w 0xFE000000 0xDE000000 t.isFloat ⟨.cmp .flt m c t, d, a, b, false, c⟩
  | 0x70 => vRow w 0xFE000000 0xE0000000 t.isFloat ⟨.cmp .fle m c t, d, a, b, false, c⟩
  | 0x71 => vRow w 0xFE000000 0xE2000000 t.isFloat ⟨.cmp .fun_ m c t, d, a, b, false, c⟩
  | 0x72 => vRow w 0xFE000000 0xE4000000 true ⟨.sel m c t, d, a, b, false, c⟩
  | 0x73 => vRow w 0xFE000008 0xE6000008 true ⟨.slide true m t, d, a, b, false, true⟩
  | 0x74 => vRow w 0xFE000008 0xE8000008 true ⟨.slide false m t, d, a, b, false, true⟩
  | 0x75 => vRow w 0xFE000000 0xEA000000 true ⟨.gather m c t, d, a, b, false, c⟩
  | 0x76 => vRow w 0xFE000078 0xEC000000 t.isInt ⟨.merge t, d, a, b, false, false⟩
  | 0x77 => vRow w 0xFE00007F 0xEE000000 true ⟨.mlog .and, d, a, b, false, false⟩
  | 0x78 => vRow w 0xFE00007F 0xF0000000 true ⟨.mlog .or, d, a, b, false, false⟩
  | 0x79 => vRow w 0xFE00007F 0xF2000000 true ⟨.mlog .xor, d, a, b, false, false⟩
  | 0x7A => vRow w 0xFE00007F 0xF4000000 true ⟨.mlog .andn, d, a, b, false, false⟩
  | _ => none

/-- The entry of a form-VF word, by function. -/
def vUnary (w : BitVec 32) : Option Push :=
  let d := (fld w 19 6).toNat
  let a := (fld w 13 6).toNat
  let m := fld w 4 3
  let t := ElTy.ofCode (fld w 0 3)
  match (fld w 7 6).toNat with
  | 0 => vRow w 0xFE001F88 0xF6000000 true ⟨.one .mv m t, d, a, 0, false, false⟩
  | 1 => vRow w 0xFE001F88 0xF6000080 true ⟨.splat m t, d, a, 0, true, false⟩
  | 2 => vRow w 0xFE001F88 0xF6000100 true ⟨.mvsx m t, d, a, 0, true, false⟩
  | 3 => vRow w 0xFE001FF8 0xF6000180 true ⟨.mvxs t, d, a, 0, false, false⟩
  | 4 => vRow w 0xFE07FF88 0xF6000200 t.isInt ⟨.vid m t, d, 0, 0, false, false⟩
  | 5 => vRow w 0xFE001F88 0xF6000280 t.isInt ⟨.iota m t, d, a, 0, false, false⟩
  | 6 => vRow w 0xFE001F88 0xF6000300 true ⟨.compress m t, d, a, 0, false, false⟩
  | 7 => vRow w 0xFE001F88 0xF6000380 t.isInt ⟨.one .neg m t, d, a, 0, false, false⟩
  | 8 => vRow w 0xFE001F88 0xF6000400 t.isInt ⟨.one .abs m t, d, a, 0, false, false⟩
  | 9 => vRow w 0xFE001F88 0xF6000480 t.isInt ⟨.one .not m t, d, a, 0, false, false⟩
  | 10 => vRow w 0xFE001F88 0xF6000500 t.isFloat ⟨.one .fneg m t, d, a, 0, false, false⟩
  | 11 => vRow w 0xFE001F88 0xF6000580 t.isFloat ⟨.one .fabs m t, d, a, 0, false, false⟩
  | 12 => vRow w 0xFE001F88 0xF6000600 t.isFloat ⟨.one .fsqrt m t, d, a, 0, false, false⟩
  | 13 => vRow w 0xFE001F88 0xF6000680 t.isFloat ⟨.one .frecip m t, d, a, 0, false, false⟩
  | 14 => vRow w 0xFE001F88 0xF6000700 t.isWideFloat ⟨.one .fexp2 m t, d, a, 0, false, false⟩
  | 15 => vRow w 0xFE001F88 0xF6000780 t.isFloat ⟨.one .fclass m t, d, a, 0, false, false⟩
  | 16 => vRow w 0xFE001F88 0xF6000800 t.isInt ⟨.red .sum m t, d, a, 0, false, false⟩
  | 17 => vRow w 0xFE001F88 0xF6000880 t.isInt ⟨.red .min m t, d, a, 0, false, false⟩
  | 18 => vRow w 0xFE001F88 0xF6000900 t.isInt ⟨.red .max m t, d, a, 0, false, false⟩
  | 19 => vRow w 0xFE001F88 0xF6000980 t.isInt ⟨.red .minu m t, d, a, 0, false, false⟩
  | 20 => vRow w 0xFE001F88 0xF6000A00 t.isInt ⟨.red .maxu m t, d, a, 0, false, false⟩
  | 21 => vRow w 0xFE001F88 0xF6000A80 t.isInt ⟨.red .and m t, d, a, 0, false, false⟩
  | 22 => vRow w 0xFE001F88 0xF6000B00 t.isInt ⟨.red .or m t, d, a, 0, false, false⟩
  | 23 => vRow w 0xFE001F88 0xF6000B80 t.isInt ⟨.red .xor m t, d, a, 0, false, false⟩
  | 24 => vRow w 0xFE001F88 0xF6000C00 t.isFloat ⟨.red .fsum m t, d, a, 0, false, false⟩
  | 25 => vRow w 0xFE001F88 0xF6000C80 t.isFloat ⟨.red .fmin m t, d, a, 0, false, false⟩
  | 26 => vRow w 0xFE001F88 0xF6000D00 t.isFloat ⟨.red .fmax m t, d, a, 0, false, false⟩
  | 27 => vRow w 0xFE001F8F 0xF6000D80 true ⟨.mpop m, d, a, 0, false, false⟩
  | 28 => vRow w 0xFE001F8F 0xF6000E00 true ⟨.mfirst m, d, a, 0, false, false⟩
  | 29 => vRow w 0xFE001F8F 0xF6000E80 true ⟨.mnot m, d, a, 0, false, false⟩
  | 30 => vRow w 0xFE001F8F 0xF6000F00 true ⟨.mpart .before m, d, a, 0, false, false⟩
  | 31 => vRow w 0xFE001F8F 0xF6000F80 true ⟨.mpart .incl m, d, a, 0, false, false⟩
  | 32 => vRow w 0xFE001F88 0xF6001000 t.isInt ⟨.sortk m t, d, a, 0, false, false⟩
  | 33 => vRow w 0xFE001F88 0xF6001080 true ⟨.uniq m t, d, a, 0, false, false⟩
  | 34 => vRow w 0xFE001F88 0xF6001100 t.intoSf ⟨.cvt .sf m t, d, a, 0, false, false⟩
  | 35 => vRow w 0xFE001F88 0xF6001180 t.intoBf ⟨.cvt .bf m t, d, a, 0, false, false⟩
  | 36 => vRow w 0xFE001F88 0xF6001200 t.intoHf ⟨.cvt .hf m t, d, a, 0, false, false⟩
  | 37 => vRow w 0xFE001F88 0xF6001280 t.isWideFloat ⟨.cvt .e4 m t, d, a, 0, false, false⟩
  | 38 => vRow w 0xFE001F88 0xF6001300 t.isWideFloat ⟨.cvt .e4s m t, d, a, 0, false, false⟩
  | 39 => vRow w 0xFE001F88 0xF6001380 t.isWideFloat ⟨.cvt .e5 m t, d, a, 0, false, false⟩
  | 40 => vRow w 0xFE001F88 0xF6001400 t.isWideFloat ⟨.cvt .e5s m t, d, a, 0, false, false⟩
  | 41 => vRow w 0xFE001F88 0xF6001480 t.isWideFloat ⟨.cvt .f4 m t, d, a, 0, false, false⟩
  | 42 => vRow w 0xFE001F88 0xF6001500 t.isWideFloat ⟨.cvt .fromf4 m t, d, a, 0, false, false⟩
  | 43 => vRow w 0xFE001F88 0xF6001580 t.isFloat ⟨.cvt .inr m t, d, a, 0, false, false⟩
  | 44 => vRow w 0xFE001F88 0xF6001600 t.isFloat ⟨.cvt .inz m t, d, a, 0, false, false⟩
  | 45 => vRow w 0xFE001F88 0xF6001680 t.isWideFloat ⟨.cvt .intof m t, d, a, 0, false, false⟩
  | 46 => vRow w 0xFE001F88 0xF6001700 t.isNarrowInt ⟨.cvt .widen m t, d, a, 0, false, false⟩
  | 47 => vRow w 0xFE001F88 0xF6001780 t.isNarrowInt ⟨.cvt .widenu m t, d, a, 0, false, false⟩
  | _ => none

/-- Whether a word is of form V or VF, by its opcode (R240, R242). -/
def isFormV (w : BitVec 32) : Bool := decide (0x40 ≤ (fld w 25 7).toNat) && decide ((fld w 25 7).toNat ≤ 0x7B)

/-- The entry that a form-V or form-VF word pushes, or none for a reserved one. -/
def vWord (w : BitVec 32) : Option Push := if (fld w 25 7).toNat = 0x7B then vUnary w else vMajor w

end Sys2Proof.Machine
end

