-- ==== Sys2Proof/Machine/VConfig.lean ====
section
/-!
DEFINITION. VConfig: VCONF, VSETL, VREL, FRAME and the stream bindings (R275 to R278, R287 to R293).
-/
namespace Sys2Proof.Machine

/-! ### VCONF, VSETL, VREL -/

/-- Every vector register at zero, with valid length, progress and tag at zero (R14, R275, R277). -/
def Vec.clear (v : Vec) : Vec := { v with vrf := [], regs := [], src := [] }

/-- NV of a code (R275). -/
def nvOf (n : BitVec 2) : BitVec 7 := BitVec.ofNat 7 (8 * 2 ^ n.toNat)

/-- Whether the context's vector work and lineages are over (R275, R277). -/
def State.vecDone (s : State) : Bool := s.vecQuiet && s.ownLins.isEmpty

/-- VCONF. -/
def execVconf (n : BitVec 2) (s : State) : Host.Outcome State Fault Refusal :=
  finish (needLanes s fun s =>
    if !s.vecDone then s.stall
    else if !s.cur.vec.streams.isEmpty then s.trapHere 0x0C 6 s.free false
    else if nvOf n = s.cur.sys.nvreg then done s.retire
    else
      let c : Thread := { s.cur with vec := s.cur.vec.clear, sys := { s.cur.sys with nvreg := nvOf n, vlg := 0 } }
      done ({ s with cur := c } : State).retire)

/-- Whether a strip stop holds before the next VSETL (R227). -/
def State.stripStop (s : State) : Bool :=
  match s.curPart with
  | none => false
  | some p =>
    p.selects s.cur.id.ctxid && p.db.dbstop.getLsbD 63 && !s.cur.pass &&
      (s.cur.stopDue || decide (bitsOf p.db.dbstop 0 63 = s.cur.sys.stripc.toNat))

/-- Lanes of a full grant (R164, R276). -/
def Thread.lanesMax (t : Thread) : Nat := if t.id.place.isBase then 16 else 64

/-- The granted length (R86, R164, R276). -/
def State.granted (s : State) (w : Wid) (avl cap grant : Nat) : Nat :=
  let m := s.vlmax w.bytes
  min avl (min cap (if s.isDet then m else m * grant / s.cur.lanesMax))

/-- VSETL. -/
def execVsetl (d a b : BitVec 6) (w : Wid) (s : State) : Host.Outcome State Fault Refusal :=
  finish (regs3 s d a b fun x y =>
    if s.stripStop then
      if s.vecQuiet then s.trapHere 6 1 s.free false else s.stall
    else
      needLanes s fun s =>
        if queueSize ≤ s.queue.length then s.stall
        else
          let g := s.granted w x.toNat (if b = 0 then 2 ^ 64 - 1 else y.toNat) (s.core s.cur.id.place).grant
          let q := s.entry s.cur.pc s.cur.ir ⟨.setvl g (BitVec.ofNat 2 w.num), 0, 0, 0, false, false⟩ 0 0
          s.closeStrip.seq fun s =>
            let s := ((s.openStrip false s.cur.pc g).enqueue q).note (BitVec.ofNat 64 g)
            ({ s with cur := { s.cur with stopDue := false } } : State).result d (BitVec.ofNat 64 g))

/-- VREL. -/
def execVrel (s : State) : Host.Outcome State Fault Refusal :=
  finish (if !s.vecDone then s.stall
    else done ({ s with cur := { s.cur with vec := { s.cur.vec.clear with streams := [] } } } : State).releaseLanes.retire)

/-! ### FRAME (R278) -/

/-- The words that follow a FRAME with what they push, or the trap of the first that cannot be fetched or is of no form V or VF: the
thread resumes at the FRAME, which traps again. A reserved word of form V or VF issues, and traps at the commit pointer (R297). -/
def frameWords (s : State) : List Nat → Except Trap (List (BitVec 32 × Push))
  | [] => .ok []
  | j :: t =>
    let a := s.cur.pc + BitVec.ofNat 64 (4 + 4 * j)
    match s.fetchAt a with
    | .trap x => .error x
    | .word w =>
      if !isFormV w then .error ⟨false, 1, 0, a, s.free, s.cur.pc⟩
      else match frameWords s t with
        | .ok ps => .ok ((w, (vWord w).getD ⟨.reserved, 0, 0, 0, false, false⟩) :: ps)
        | .error x => .error x

/-- A word's copy r: its register fields stepped, but for a scalar B. -/
def Push.step (p : Push) (r sd sa sb : Nat) : Push :=
  { p with d := p.d + r * sd, a := p.a + r * sa, b := if p.cb then p.b else p.b + r * sb }

/-- The step that a word's B field takes: none where B is scalar, and none in form VF, whose bits 12:7 are the function code (R278). -/
def stepB (w : BitVec 32) (p : Push) (sb : Nat) : Nat := if p.cb || decide ((fld w 25 7).toNat = 0x7B) then 0 else sb

/-- The word of copy r: its register fields stepped, as far as the fields reach (R217, R278). -/
def stepWord (w : BitVec 32) (p : Push) (r sd sa sb : Nat) : BitVec 32 :=
  let f : Nat → Nat → Nat := fun lo st => min 63 ((fld w lo 6).toNat + r * st) * 2 ^ lo
  BitVec.ofNat 32 (w.toNat / 2 ^ 25 * 2 ^ 25 + f 19 sd + f 13 sa + f 7 (stepB w p sb) + w.toNat % 2 ^ 7)

/-- Copy r of a word with its own word. A copy is checked as written: one whose stepped fields make a reserved word (VID with a nonzero A)
pushes that. -/
def frameCopy (x : BitVec 32 × Push) (r sd sa sb : Nat) : BitVec 32 × Push :=
  let w := stepWord x.1 x.2 r sd sa sb
  (w, if (vWord w).isSome then x.2.step r sd sa (stepB x.1 x.2 sb) else ⟨.reserved, 0, 0, 0, false, false⟩)

/-- The granted length that an instruction pushed now will find: that of the youngest VSETL in the queue (R276). -/
def State.pendingVl (s : State) : BitVec 14 :=
  ((s.queue.reverse.findSome? fun q => match q.op with
    | .setvl v _ => some (BitVec.ofNat 14 v)
    | _ => none)).getD s.cur.sys.vlg

/-- The DETAIL of the register-number violation that a copy of a FRAME would meet at the commit pointer. -/
def State.frameBad (s : State) (q : QEntry) : Option (BitVec 8) :=
  match ({ s with cur := { s.cur with sys := { s.cur.sys with vlg := s.pendingVl } } } : State).checkFrame q with
  | some (0x0B, f) => some f
  | _ => none

/-- The frame buffer set. -/
def State.setFrame (s : State) (f : Option FrameBuf) : State :=
  { s with cur := { s.cur with vec := { s.cur.vec with frame := f } } }

/-- The copies from a place in the frame on, each pushed in its turn; the frame buffer holds the copy that is next. A copy with a register
number out of range waits until it would stand at the commit pointer, and traps there with the frame buffer at it (R278, R297). -/
def frameCopies (ps : List (BitVec 32 × Push)) (sd sa sb : Nat) (last : Word) : List (Nat × Nat) → State → Res Unit
  | [], s => done ((s.setFrame none).goto last)
  | (r, j) :: t, s =>
    let s := s.setFrame (some ⟨s.cur.pc, r, j⟩)
    match ps[j]? with
    | none => done s
    | some x =>
      let pc := s.cur.pc + BitVec.ofNat 64 (4 + 4 * j)
      let p := frameCopy x r sd sa sb
      match s.frameBad (s.entry pc 0 p.2 0 0) with
      | some f => if s.queue.isEmpty then .trap ⟨true, 0x0B, f, pc, s.free, s.cur.pc⟩ s else s.stall
      | none => pushAt s pc p.1 p.2 (frameCopies ps sd sa sb last t)

/-- FRAME: the fields hold R - 1 and n - 1. -/
def execFrame (r n : BitVec 6) (x y z : BitVec 4) (s : State) : Host.Outcome State Fault Refusal :=
  finish (match frameWords s (List.range (n.toNat + 1)) with
    | .error t => .trap t s
    | .ok ps =>
      let all := ((List.range (r.toNat + 1)).map (fun i => (List.range (n.toNat + 1)).map fun j => (i, j))).flatten
      let from_ := match s.cur.vec.frame with
        | some f => if f.pc = s.cur.pc then f.r * (n.toNat + 1) + f.j else 0
        | none => 0
      frameCopies ps x.toNat y.toNat z.toNat (s.cur.pc + BitVec.ofNat 64 (8 + 4 * n.toNat)) (all.drop from_) s)

/-! ### Streams (R287 to R293) -/

/-- The bound streams replaced. -/
def State.setStreams (s : State) (l : List Stream) : State :=
  { s with cur := { s.cur with vec := { s.cur.vec with streams := l } } }

/-- Doubleword n of a list of bytes. -/
def wordAt (bs : List Byte) (n : Nat) : Word := BitVec.ofNat 64 (leNat ((bs.drop (8 * n)).take 8))

/-- A stream descriptor as it stands in memory (R288). -/
def streamOf (d : Nat) (desc : Word) (mask : BitVec 4) (bs : List Byte) : Stream :=
  let w5 := wordAt bs 5
  { reg := d, nb := bitsOf w5 4 4, desc := desc, base := wordAt bs 0, str := [wordAt bs 1, wordAt bs 2, wordAt bs 3]
    cnt := [bitsOf (wordAt bs 4) 0 32, bitsOf (wordAt bs 4) 32 32, bitsOf w5 32 32], slen := bitsOf w5 16 16
    w := Wid.ofCode (BitVec.ofNat 2 (bitsOf w5 0 2)), mask := mask, popped := 0, ready := [], err := none, stale := [] }

/-- Whether a descriptor is well formed (R288; R293, DETAIL 5). -/
def State.streamOk (s : State) (x : Stream) (bs : List Byte) : Bool :=
  decide (bitsOf (wordAt bs 5) 2 2 = 0) && decide (bitsOf (wordAt bs 5) 8 8 = 0) && decide (wordAt bs 6 = 0) &&
    decide (wordAt bs 7 = 0) && (x.cnt.all fun c => decide (c ≠ 0)) && decide (1 ≤ x.slen) && decide (x.slen ≤ s.vlmax x.w.bytes) &&
    decide (2 ≤ x.nb) && decide (x.nb ≤ 8) && decide (x.reg + x.nb ≤ s.nv)

/-- A stream-binding violation (R293); the spec gives BADVA no value for it (log entry 19). -/
def State.streamTrap {α : Type} (s : State) (d : BitVec 8) : Res α := s.trapHere 0x0C d s.free false

/-- A vector register field of a scalar-stream instruction is checked (R17). -/
def checkV (s : State) (d : BitVec 6) (f : Res Unit) : Res Unit := if s.nv ≤ d.toNat then s.regTrap 1 else f

/-- Whether a gang mask is one that the issuing core may use (R292; R293, DETAIL 7). -/
def State.gangOk (s : State) (m : Word) : Bool :=
  decide (m.toNat < 16) && (decide (m = 0) || (!s.cur.id.place.isBase && m.getLsbD s.cur.id.place.core))

/-- The lines of which the cluster L2 of the current context holds a copy: what a stream bound or rewound now may not be served by (R129). -/
def State.l2Held (s : State) : List Nat :=
  (s.copies.filter fun c => !c.l1 && decide (c.home = s.cur.id.place.cluster)).map fun c => c.line

/-- Whether two bindings are of one gang's stream: binds are matched by descriptor address and mask (R292). -/
def Stream.gangOf (x y : Stream) : Bool := decide (y.desc = x.desc ∧ y.mask = x.mask)

/-- The members of a gang: the threads of the cluster on the cores of the mask with a stream of the same descriptor and mask. -/
def State.gang (s : State) (x : Stream) : List Thread :=
  s.threads.filter fun t => decide (t.id.place.cluster = s.cur.id.place.cluster) && x.mask.getLsbD t.id.place.core && t.vec.streams.any x.gangOf

/-- A change of the stream that the members of a gang share, at every member. -/
def State.gangMap (s : State) (x : Stream) (f : Stream → Stream) : State :=
  (s.gang x).foldl (fun s t => s.modThread t.id.ctxid fun u =>
    { u with vec := { u.vec with streams := u.vec.streams.map fun y => if x.gangOf y then f y else y } }) s

/-- The lines that the strips of a newly bound stream may not find in a copy of the cluster L2: those it holds now. A gang's reading begins when its
last member has bound, so that its strips observe what precedes the last bind (R129, R292). -/
def State.markStale (s : State) (x : Stream) : State :=
  if x.mask = 0 then s else s.gangMap x fun y => { y with stale := s.l2Held }

/-- The largest PTS of the members of a gang: its reads are placed after what every member has seen of the memory order (R129). -/
def State.gangPts (s : State) (x : Stream) : Nat := (s.gang x).foldl (fun m t => max m t.sys.pts) s.cur.sys.pts

/-- VSTREAM.BIND. The violations that need the descriptor are found once it is read. DESIGN CHOICE (log entry 128): a misaligned descriptor, for whose 64
bytes R210 has no width code, traps with DETAIL 3. -/
def execVstreamBind (d a b : BitVec 6) (s : State) : Host.Outcome State Fault Refusal :=
  finish (checkV s d (readG s a 2 fun x => readG s b 3 fun m =>
    if !s.gangOk m then s.streamTrap 7
    else if 4 ≤ s.cur.vec.streams.length then s.streamTrap 2
    else match s.spot needRd x 64 3 with
      | .bad c e => if decide (c = 8) && s.memBusy then s.stall else s.trapHere c e x false
      | p =>
        if s.memBusy || !s.vecQuiet then s.stall
        else
          let r := s.load false p 64
          let bs := natBytes 64 r.1
          let z := streamOf d.toNat x (m.setWidth 4) bs
          if !s.streamOk z bs then s.streamTrap 5
          else if z.regs.any fun n => s.isBuffer n then s.streamTrap 2
          else if z.regs.any fun n => s.isHeld n then s.stall
          else
            let v := r.2.cur.vec
            let v : Vec :=
              { v with
                regs := v.regs.map (fun e => if z.regs.contains e.1 then (e.1, { e.2 with tag := 0, log := 0 }) else e)
                src := v.src.filter (fun e => !z.regs.contains e.1)
                streams := v.streams ++ [{ z with stale := r.2.l2Held }] }
            done (({ r.2 with cur := { r.2.cur with vec := v } } : State).markStale z).retire))

/-- A stream unbound: its strips are discarded and its registers hold zero (R291). -/
def State.unbind (s : State) (x : Stream) : State :=
  let v := s.cur.vec
  let rb := s.rb
  let v : Vec :=
    { v with
      vrf := v.vrf.write (x.reg * rb) (List.replicate (x.nb * rb) 0)
      regs := v.regs.filter (fun r => !x.regs.contains r.1)
      streams := v.streams.filter (fun y => decide (y.reg ≠ x.reg)) }
  { s with cur := { s.cur with vec := v } }

/-- A stream rewound: its strips are discarded and strip 0 is next (R291). -/
def State.rewind (s : State) (x : Stream) : State :=
  s.setStreams (s.cur.vec.streams.map fun y => if y.reg = x.reg then { y with popped := 0, ready := [], err := none, stale := s.l2Held } else y)

/-- Whether every core of a gang mask satisfies a test on one of its members. -/
def State.gangAll (s : State) (x : Stream) (f : Thread → Bool) : Bool :=
  (List.range 4).all fun c => !x.mask.getLsbD c || (s.gang x).any fun t => decide (t.id.place.core = c) && f t

/-- UNBIND and REWIND (R291, R292): a gang's acts for every member once every member has issued it. UNBIND zeroes the buffer registers, so it
waits for a lineage that holds one (R74). -/
def unbindOr (s : State) (d : BitVec 6) (rewind : Bool) : Res Unit :=
  checkV s d (
    let over_ : Bool := match s.cur.wait with
      | some (.gang _ _ _ true) => true
      | _ => false
    if over_ then done s.retire
    else match s.cur.vec.streams.find? fun x => x.reg == d.toNat with
      | none => s.streamTrap 4
      | some x =>
        if !s.vecQuiet || (!rewind && x.regs.any fun r => s.isHeld r) then s.stall
        else if x.mask = 0 then done (if rewind then s.rewind x else s.unbind x).retire
        else
          let c := s.cur.id.ctxid
          let here : Thread → Bool := fun t => decide (t.id.ctxid = c) || decide (t.wait = some (.gang rewind x.desc x.mask false))
          if !s.gangAll x here then .wait (.gang rewind x.desc x.mask false) s
          else
            let ms := ((s.gang x).filter fun t => here t && decide (t.id.ctxid ≠ c)).map fun t => t.id.ctxid
            let act : State → State := fun s =>
              match s.cur.vec.streams.find? x.gangOf with
              | none => s
              | some y => if rewind then s.rewind y else s.unbind y
            let s := ms.foldl (fun s m => (s.withThread m act).modThread m fun t =>
              { t with wait := some (.gang rewind x.desc x.mask true), stalled := false }) s
            done (act s).retire)

/-- VSTREAM.UNBIND. -/
def execVstreamUnbind (d : BitVec 6) (s : State) : Host.Outcome State Fault Refusal := finish (unbindOr s d false)

/-- VSTREAM.REWIND. -/
def execVstreamRewind (d : BitVec 6) (s : State) : Host.Outcome State Fault Refusal := finish (unbindOr s d true)

/-- The address of element n of a stream (R288). -/
def Stream.elem (x : Stream) (n : Nat) : Word :=
  let c0 := max 1 (x.cnt.getD 0 1)
  let c1 := max 1 (x.cnt.getD 1 1)
  let k := fun (i : Nat) => x.str.getD i 0
  x.base + BitVec.ofNat 64 (n % c0) * k 0 + BitVec.ofNat 64 (n / c0 % c1) * k 1 + BitVec.ofNat 64 (n / (c0 * c1)) * k 2

/-- The elements of strip j. -/
def Stream.strip (x : Stream) (j : Nat) : List Nat :=
  let total := x.cnt.foldl (· * ·) 1
  (List.range (min x.slen (total - j * x.slen))).map fun i => j * x.slen + i

/-- An element of a strip read at a place: an ordinary access of the current context with no entry of its queue. The copy that the cluster L2
has held of a stale line since before the binding or rewind does not serve it (R129). -/
def streamLoad (s : State) (x : Stream) (w : Where) : Nat × State :=
  let old : List Nat := match w with
    | .phys pa => if x.stale.contains (pa / 128) then [pa / 128] else []
    | _ => []
  let qs := s.queue
  let here := s.cur.id.place.cluster
  let v : Vec := { s.cur.vec with queue := [], streams := s.cur.vec.streams.map fun y =>
    if y.reg = x.reg then { y with stale := y.stale.filter fun l => !old.contains l } else y }
  let s : State := { s with
    cur := { s.cur with vec := v }
    copies := s.copies.filter fun c => !(old.contains c.line && !c.l1 && decide (c.home = here)) }
  let r := s.load true w x.w.bytes
  (r.1, { r.2 with cur := { r.2.cur with vec := { r.2.cur.vec with queue := qs } } })

/-- A strip read element by element, or the fault that stops it. -/
def readStrip (s : State) (x : Stream) : List Nat → Except (BitVec 8 × BitVec 8 × Word) (List Byte × State)
  | [] => .ok ([], s)
  | n :: t =>
    let ea := x.elem n
    match s.spot needRd ea x.w.bytes (BitVec.ofNat 8 x.w.num) with
    | .bad c d => .error (c, d, ea)
    | p =>
      let r := streamLoad s x p
      match readStrip r.2 (((r.2.cur.vec.streams.find? fun y => y.reg == x.reg).getD x)) t with
      | .ok z => .ok (natBytes x.w.bytes r.1 ++ z.1, z.2)
      | .error e => .error e

/-- What a strip read leaves with every member of its gang: the lines that the L2 has read anew since the binding, and a PTS that places the pop
after the read (R129). -/
def State.afterStrip (s : State) (x : Stream) : State :=
  if x.mask = 0 then s
  else
    let l := ((s.cur.vec.streams.find? fun y => y.reg == x.reg).getD x).stale
    let p := s.cur.sys.pts
    (s.gang x).foldl (fun s t => s.modThread t.id.ctxid fun u => if s.isDet then u else { u with sys := { u.sys with pts := max u.sys.pts p } })
      (s.gangMap x fun y => { y with stale := l })

/-- STREAM_READAHEAD (R129, R130, R289, R290): the next strip of a stream lands in a free buffer register of every member that has not
read it; a fault stops the reading until the strip is popped. A gang's stream waits for a member that is not resident, and is read once, by one
member, at a timestamp that no member's PTS exceeds. DESIGN CHOICE (log entry 120): in a DET launch a gang's strip shows the buffered stores and the
epoch of the member that the event names. -/
def execStreamReadahead (c r : Nat) (s : State) : Host.Outcome State Fault Refusal :=
  stepOr s ((s.focus c).bind fun s1 =>
    (s1.cur.vec.streams.find? fun x => x.reg == r).bind fun x =>
      let n := x.popped + x.ready.length
      let same : Stream → Bool := fun y => if x.mask = 0 then y.reg == r else x.gangOf y
      let due : Stream → Bool := fun y => same y && decide (y.popped + y.ready.length = n)
      let full : Stream → Bool := fun y => decide (y.nb ≤ y.ready.length + (if y.popped = 0 then 0 else 1))
      let ms : List Thread := if x.mask = 0 then [s1.cur] else s1.gang x
      let ok := decide (s1.cur.st = .running) && decide (n < x.strips) && x.err.isNone &&
        (decide (x.mask = 0) || (s1.gangAll x (fun _ => true) && ms.all fun t => decide (t.st = .running))) &&
        ms.all fun t => t.vec.streams.all fun y => !due y || !full y
      if !ok then none
      else
        let put : (Stream → Stream) → State → State := fun f s => ms.foldl (fun s t => s.modThread t.id.ctxid fun u =>
          { u with vec := { u.vec with streams := u.vec.streams.map (fun y => if due y then f y else y) } }) s
        match readStrip (if x.mask = 0 ∨ s1.isDet then s1 else s1.raisePts (s1.gangPts x)) x (x.strip n) with
        | .error e => some (done (put (fun y => { y with err := some e }) s1))
        | .ok z => some (done (put (fun y => { y with ready := y.ready ++ [z.1], err := none }) (z.2.afterStrip x))))

end Sys2Proof.Machine
end

