-- ==== Sys2Proof/Machine/Engines.lean ====
section
/-!
DEFINITION. Engines: shadowed buffers and their publication, sync words, the copy functions from issue to completion, remote pushes,
collectives, and the waits on them (R113 to R133, R221, R222, R344 to R354, R358).
-/
namespace Sys2Proof.Machine

/-! ### Shadowed buffers (R113 to R116) -/

/-- Physical address of an offset in the visible copy of a buffer as the tables map it now (R202), or none where they map it nowhere in
memory. -/
def State.visible (s : State) (b : Shadow) (off : Nat) : Option Nat :=
  match s.xlate ⟨b.part, b.asid, 0xFFFFFFFF, none, 0⟩ sysRd (BitVec.ofNat 64 (b.vbase + off)) with
  | .phys pa => some pa
  | _ => none

/-- What the visible copy of a line holds, and whether it is poisoned. -/
def State.visibleLine (s : State) (b : Shadow) (n : Nat) : Option (LineData × Bool) :=
  (s.visible b (128 * n)).map fun pa => (s.mem.line (pa / 128), (s.line (pa / 128)).poison)

/-- The declared buffer of a handle in a partition. -/
def State.shadow? (s : State) (p h : Nat) : Option Shadow := s.shadows.find? fun b => decide (b.part = p ∧ b.handle = h)

/-- A change of one buffer. -/
def State.modShadow (s : State) (p h : Nat) (f : Shadow → Shadow) : State :=
  { s with shadows := s.shadows.map (fun b => if b.part = p ∧ b.handle = h then f b else b) }

/-- Capture of lines of a shadow copy that a launch is about to write (R228). -/
def State.captureShadow (s : State) (launch : Nat) (b : Shadow) (ns : List Nat) : State :=
  ns.foldl (fun s n => s.captureOld launch (.shad ⟨b.part, b.handle, n, Tab.get b.lines n⟩)) s

/-- The launch of the command that writes under a name, or none that has a number where that is a push of another module. -/
def State.writerLaunch (s : State) (writer : Nat) : Nat := ((s.cmds.find? fun c => c.key == writer).map fun c => c.launch).getD 0

/-- An engine's write to the shadow copy (R115): a line whose written bit is clear starts from its visible contents, poison included (R204);
a write of the whole line leaves no poison. DESIGN CHOICE (log entry 108): a line whose visible copy the tables map nowhere starts from what its
shadow holds, zeros where nothing has been written. -/
def State.shadowWrite (s : State) (p h : Nat) (writer off : Nat) (bs : List Byte) : State :=
  match s.shadow? p h with
  | none => s
  | some b =>
    let ws := pieces bs.length off bs
    let s := s.captureShadow (s.writerLaunch writer) b (ws.map fun w => w.1 / 128)
    let ls := ws.foldl (fun (ls : Tab ShLine) w =>
      let n := w.1 / 128
      let own : LineData × Bool := ((Tab.get ls n).map fun l => (l.data, l.poison)).getD (0, false)
      let old := if (Tab.get ls n).any fun l => l.written then own else (s.visibleLine b n).getD own
      Tab.set ls n ⟨putBytes old.1 (w.1 % 128) w.2, true, writer, old.2 && w.2.length != 128⟩) b.lines
    s.modShadow p h fun b => { b with lines := ls }

/-- The rebase that an access at a timestamp needs (R99), with a timestamp that the access keeps in hand. -/
def State.rebaseWith (s : State) (p high pts : Nat) : Nat × State :=
  if Config.rebaseAt ≤ high then (pts - Config.rebaseBy, s.rebase p) else (pts, s)

/-- The lines of a buffer that a publication swaps, with where their visible copies lie: the written ones, but for those whose visible copy the
tables map nowhere in memory as the publication performs, which stay as they are (R116, R202; DESIGN CHOICE, log entry 108). -/
def State.swaps (s : State) (b : Shadow) : List ((Nat × ShLine) × Nat) :=
  (b.lines.filter fun l => l.2.written).filterMap fun l => (s.visible b (128 * l.1)).map fun pa => (l, pa)

/-- A publication (R116): the shadow and the visible copy of every line that it swaps change places, with their poison (R204), at one timestamp,
which is answered where there was such a line. -/
def State.publish (s : State) (p launch h pts : Nat) : Option Nat × State :=
  match s.shadow? p h with
  | none => (none, s)
  | some b =>
    let ls := s.swaps b
    if ls.isEmpty then (none, s)
    else
      let s := s.captureShadow launch b (ls.map fun l => l.1.1)
      let r := s.unitWrite p launch pts (ls.map fun l => (l.2, natBytes 128 l.1.2.data.toNat))
      let t := ls.foldl (fun s l => s.setLine (l.2 / 128) { s.line (l.2 / 128) with poison := l.1.2.poison }) r.2
      (some r.1, t.modShadow p h fun b =>
        { b with lines := b.lines.map fun l => match ls.find? fun x => x.1.1 == l.1 with
          | some x => (l.1, ⟨s.mem.line (x.2 / 128), false, l.2.writer, (s.line (x.2 / 128)).poison⟩)
          | none => l })

/-- The shadow lines that a failed, aborted or cancelled command last wrote: their visible copies stand (R222). -/
def State.cancelLines (s : State) (writer : Nat) : State :=
  { s with shadows := s.shadows.map (fun b => { b with
      lines := b.lines.map (fun l => if l.2.writer = writer then (l.1, { l.2 with written := false }) else l) }) }

/-- PUBLISH (R353): a handle that is not declared names nothing. -/
def execPublish (a : BitVec 6) (s : State) : Host.Outcome State Fault Refusal :=
  finish (readG s a 2 fun h =>
    let r := s.publish s.launch.part s.cur.id.launch h.toNat s.cur.sys.pts
    done (match r.1 with
      | some ts => r.2.setPts ts
      | none => r.2).retire)

/-! ### Sync words (R121, R122) -/

/-- The fields of a sync word that engines and SYNCW change. -/
structure SyncWord where
  target : Nat
  count : Nat
  gen : Nat
  pub : Bool
  err : Bool
  ovf : Bool
  shid : Nat
  deriving DecidableEq, Repr

def SyncWord.ofNat (w : Nat) : SyncWord :=
  { target := w % 2 ^ 32, count := w / 2 ^ 32 % 2 ^ 32, gen := w / 2 ^ 64 % 2 ^ 32, pub := w.testBit 96, err := w.testBit 97
    ovf := w.testBit 98, shid := w / 2 ^ 112 % 2 ^ 16 }

def SyncWord.toNat (w : SyncWord) : Nat :=
  w.target + 2 ^ 32 * w.count + 2 ^ 64 * w.gen + (if w.pub then 2 ^ 96 else 0) + (if w.err then 2 ^ 97 else 0)
    + (if w.ovf then 2 ^ 98 else 0) + 2 ^ 112 * w.shid

/-- SyncCount: the word after n more bytes, and whether a generation completed. DESIGN CHOICE (log entry 119): a remainder that COUNT cannot hold is
kept modulo 2^32. -/
def SyncWord.counted (w : SyncWord) (n : Nat) : SyncWord × Bool :=
  let c := w.count + n
  if w.target = 0 then
    (if 2 ^ 32 ≤ c then { w with count := 2 ^ 32 - 1, ovf := true } else { w with count := c }, false)
  else if c < w.target then ({ w with count := c }, false)
  else
    ({ w with count := (c - w.target) % 2 ^ 32, gen := (w.gen + 1) % 2 ^ 32, ovf := w.ovf || decide (w.target < c) }, true)

/-- SYNCW's word: target, buffer and PUB from the setting, COUNT, OVF and ERR clear, GEN as it stands (R354). -/
def SyncWord.prepared (w : SyncWord) (v : Word) : SyncWord :=
  { w with target := v.toNat % 2 ^ 32, shid := bitsOf v 32 16, pub := v.getLsbD 48, count := 0, ovf := false, err := false }

/-- SYNCW (R354). -/
def execSyncw (a b : BitVec 6) (s : State) : Host.Outcome State Fault Refusal :=
  finish (readG s a 2 fun x => readG s b 3 fun y =>
    match s.spot needRw x 16 3 with
    | .bad c d => if decide (c = 8) && s.memBusy then s.stall else s.trapHere c d x false
    | p =>
      if s.memBusy then s.stall
      else done (s.rmwWrite false p 16 ((SyncWord.ofNat (s.rmwRead p 16)).prepared y).toNat).retire)

/-- SYNCWAIT (R124, R358). -/
def execSyncwait (d a b : BitVec 6) (s : State) : Host.Outcome State Fault Refusal :=
  finish (regs3 s d a b fun x y =>
    waitWatched s (match s.spot needRd x 16 3 with
      | .bad c e => if decide (c = 8) && s.memBusy then s.stall else s.trapHere c e x false
      | p => if s.memBusy then s.stall else checkWatched s d.toNat x .gen p (BitVec.ofNat 64 (y.toNat % 2 ^ 32))))

/-! ### Copy descriptors (R345, R348 to R351) -/

/-- Doubleword n of the function area, from 0x60 on. -/
def CopyDesc.fn (d : CopyDesc) (n : Nat) : Word := d.fa.getD n 0

/-- A descriptor from its 128 bytes. -/
def copyDescOf (fn : EngFn) (bs : List Byte) : CopyDesc :=
  let w5 := wordAt bs 5
  let fa := [wordAt bs 12, wordAt bs 13, wordAt bs 14, wordAt bs 15]
  let plain := decide (fn = .cpy) || (decide (fn = .cpyf) && decide (bitsOf w5 24 4 = 0))
  { src := wordAt bs 0, dst := wordAt bs 1, sync := wordAt bs 2, crec := wordAt bs 3, cnt0 := bitsOf (wordAt bs 4) 0 32
    cnt1 := bitsOf (wordAt bs 4) 32 32, cnt2 := bitsOf w5 32 32, conv := bitsOf w5 28 4, rlay := bitsOf w5 24 4, esz := bitsOf w5 22 2
    pubc := w5.getLsbD 21, rsv := decide (bitsOf w5 0 21 ≠ 0) || (plain && fa.any fun w => decide (w ≠ 0))
    ss := [wordAt bs 6, wordAt bs 7, wordAt bs 8], ds := [wordAt bs 9, wordAt bs 10, wordAt bs 11], fa := fa }

/-- Extents and offsets of a re-layout (R348). -/
def CopyDesc.tt (d : CopyDesc) : Nat := bitsOf (d.fn 0) 48 16
def CopyDesc.hh (d : CopyDesc) : Nat := bitsOf (d.fn 0) 32 16
def CopyDesc.ee (d : CopyDesc) : Nat := bitsOf (d.fn 0) 16 16
def CopyDesc.td (d : CopyDesc) : Nat := bitsOf (d.fn 0) 0 16
def CopyDesc.hoff (d : CopyDesc) : Nat := bitsOf (d.fn 1) 48 16
def CopyDesc.toff (d : CopyDesc) : Nat := bitsOf (d.fn 1) 32 16

/-- Handle and route of a push (R350). -/
def CopyDesc.rsh (d : CopyDesc) : Nat := bitsOf (d.fn 1) 16 16
def CopyDesc.route (d : CopyDesc) : Nat := bitsOf (d.fn 1) 0 16

/-- Group, operation, element type and instance of a collective (R351). -/
def CopyDesc.grp (d : CopyDesc) : Nat := bitsOf (d.fn 0) 48 16
def CopyDesc.op (d : CopyDesc) : Nat := bitsOf (d.fn 0) 28 4
def CopyDesc.etype (d : CopyDesc) : Nat := bitsOf (d.fn 0) 24 4
def CopyDesc.seq (d : CopyDesc) : Word := d.fn 1

/-- The signed value of 32 bits of a doubleword. -/
def half (w : Word) (hi : Bool) : Int := sgn 32 (bitsOf w (if hi then 32 else 0) 32)

/-- Origin and bounds of a tile (R349). -/
def CopyDesc.origin (d : CopyDesc) : List Int := [half (d.fn 0) false, half (d.fn 0) true, half (d.fn 1) false]
def CopyDesc.bounds (d : CopyDesc) : List Nat := [bitsOf (d.fn 1) 32 32, bitsOf (d.fn 2) 0 32, bitsOf (d.fn 2) 32 32]

/-- Extents of the pattern. -/
def CopyDesc.cnts (d : CopyDesc) : List Nat := [d.cnt0, d.cnt1, d.cnt2]

/-- Bytes of a source element, and of a destination element (R132, R345, R351). -/
def Cmd.ssz (c : Cmd) : Nat :=
  match c.fn with
  | .coll => match c.desc.etype with
    | 1 => 2
    | 3 => 8
    | _ => 4
  | _ => 2 ^ c.desc.esz

def Cmd.dsz (c : Cmd) : Nat :=
  match c.fn, c.desc.conv with
  | .coll, _ => c.ssz
  | _, 1 => 2
  | _, 2 => 4
  | _, 3 => 1
  | _, 4 => 2
  | _, 5 => 1
  | _, _ => c.ssz

/-- An element converted (R132), with its flags. -/
def convElem (conv : Nat) (x : Nat) : FRes :=
  match conv with
  | 1 => Fmt.bf.convert false (Fmt.sf.decode x)
  | 2 => Fmt.sf.convert false (Fmt.bf.decode x)
  | 3 => Fmt.e4.convert true (Fmt.bf.decode x)
  | 4 => Fmt.bf.convert false (Fmt.e4.decode x)
  | 5 => Fmt.e4.convert true (Fmt.sf.decode x)
  | _ => ⟨x, 0⟩

/-- Coordinates of element k in pattern order. -/
def CopyDesc.coords (d : CopyDesc) (k : Nat) : List Nat := [k % d.cnt0, k / d.cnt0 % d.cnt1, k / (d.cnt0 * d.cnt1)]

/-- A sum of coordinates times signed strides. -/
def stridden (xs : List Int) (st : List Word) : Int := (xs.zip st).foldl (fun a p => a + p.1 * p.2.toInt) 0

/-- The tensor index of a tile element, and whether it lies within the bounds (R349). -/
def CopyDesc.tensor (d : CopyDesc) (k : Nat) : List Int := ((d.coords k).zip d.origin).map fun p => (p.1 : Int) + p.2
def CopyDesc.inBounds (d : CopyDesc) (xs : List Int) : Bool := (xs.zip d.bounds).all fun p => decide (0 ≤ p.1 ∧ p.1 < p.2)

/-- The source address of element k, or none where a tile fills it. -/
def Cmd.srcAt (c : Cmd) (k : Nat) : Option Word :=
  let d := c.desc
  match c.fn with
  | .coll => some (d.src + BitVec.ofNat 64 (k * c.ssz))
  | .cptile => if d.inBounds (d.tensor k) then some (d.src + BitVec.ofInt 64 (stridden (d.tensor k) d.ss)) else none
  | _ => some (d.src + BitVec.ofInt 64 (stridden ((d.coords k).map fun n => (n : Int)) d.ss))

/-- The destination element index of source element k under a re-layout (R133). -/
def CopyDesc.relaid (d : CopyDesc) (k : Nat) : Nat :=
  match d.rlay with
  | 1 =>
    let e := k % d.ee
    let h := k / d.ee % d.hh
    let t := k / (d.ee * d.hh)
    ((h + d.hoff) * d.td + (t + d.toff)) * d.ee + e
  | 2 =>
    let e := k % d.ee
    let t := k / d.ee % d.tt
    let h := k / (d.ee * d.tt)
    (t * d.hh + h) * d.ee + e
  | _ =>
    let e := k % d.ee
    let t := k / d.ee
    e * d.tt + t

/-- Where element k goes: an address, or for a push an offset in the remote buffer. -/
def Cmd.dstAt (c : Cmd) (k : Nat) : Int :=
  let d := c.desc
  (d.dst.toNat : Int) +
    (match c.fn with
      | .coll => ((k * c.dsz : Nat) : Int)
      | _ => if d.rlay = 0 then stridden ((d.coords k).map fun n => (n : Int)) d.ds else ((d.relaid k * c.dsz : Nat) : Int))

/-- Elements of the destination. -/
def Cmd.elems (c : Cmd) (members : Nat) : Nat :=
  match c.fn with
  | .coll => if c.desc.op = 3 then members * c.desc.cnt0 else c.desc.cnt0
  | _ => c.desc.cnt0 * c.desc.cnt1 * c.desc.cnt2

/-- The lowest and the highest value of a sum of strided coordinates, each coordinate from `lo` on for `n` values. -/
def extent (ls : List (Int × Nat × Word)) : Int × Int :=
  ls.foldl (fun a x =>
    let p := x.1 * x.2.2.toInt
    let q := (x.1 + (x.2.1 : Int) - 1) * x.2.2.toInt
    (a.1 + min p q, a.2 + max p q)) (0, 0)

/-- The source range, first byte and one past the last, or none where nothing is read. -/
def Cmd.srcRange (c : Cmd) : Option (Int × Int) :=
  let d := c.desc
  let base : Int := d.src.toNat
  match c.fn with
  | .coll => some (base, base + ((d.cnt0 * c.ssz : Nat) : Int))
  | .cptile =>
    let iv := ((d.origin.zip d.cnts).zip d.bounds).map fun p => (max p.1.1 0, min (p.1.1 + (p.1.2 : Int)) (p.2 : Int))
    if iv.any fun i => decide (i.2 ≤ i.1) then none
    else
      let e := extent ((iv.zip d.ss).map fun p => (p.1.1, (p.1.2 - p.1.1).toNat, p.2))
      some (base + e.1, base + e.2 + c.ssz)
  | _ =>
    let e := extent ((d.cnts.zip d.ss).map fun p => (0, p.1, p.2))
    some (base + e.1, base + e.2 + c.ssz)

/-- The destination range. -/
def Cmd.dstRange (c : Cmd) (members : Nat) : Int × Int :=
  let d := c.desc
  let base : Int := d.dst.toNat
  match c.fn, d.rlay with
  | .coll, _ => (base, base + ((c.elems members * c.dsz : Nat) : Int))
  | _, 0 =>
    let e := extent ((d.cnts.zip d.ds).map fun p => (0, p.1, p.2))
    (base + e.1, base + e.2 + c.dsz)
  | _, 1 =>
    let lo := (d.hoff * d.td + d.toff) * d.ee
    let hi := ((d.hh - 1 + d.hoff) * d.td + (d.tt - 1 + d.toff)) * d.ee + d.ee
    (base + ((lo * c.dsz : Nat) : Int), base + ((hi * c.dsz : Nat) : Int))
  | _, _ => (base, base + ((d.tt * d.hh * d.ee * c.dsz : Nat) : Int))

/-! ### Refusals (R347) -/

/-- The translation context of a command. -/
def State.cmdCtx (s : State) (c : Cmd) : XCtx := (s.launchOf c.launch).xctx c.cluster

/-- The partition of a command. -/
def State.cmdPart (s : State) (c : Cmd) : Nat := (s.launchOf c.launch).part

/-- The collective group of a command, and the members it counts. -/
def State.groupOf (s : State) (c : Cmd) : Option Group := s.link.groups.find? fun g => decide (g.num = c.desc.grp)
def State.members (s : State) (c : Cmd) : Nat := ((s.groupOf c).map fun g => g.sects.length).getD 1

/-- The pages of a range. -/
def pagesOf (r : Int × Int) : List Word :=
  if r.1 < 0 ∨ r.2 ≤ r.1 then []
  else
    let lo := r.1.toNat / Config.pageBytes
    (List.range ((r.2.toNat - 1) / Config.pageBytes - lo + 1)).map fun i => BitVec.ofNat 64 ((lo + i) * Config.pageBytes)

/-- Whether a range enters the local store window and is not within the launch's size of it (R119). -/
def windowBad (c : XCtx) (r : Int × Int) : Bool :=
  let w : Int := Config.windowBase
  decide (w < r.2) && decide (r.1 < Config.vaTop) && (decide (r.1 < w) || decide (w + c.local_ < r.2))

/-- Where a command's destination lies. -/
inductive Dest
  | shadow (handle base : Nat)
  | loc
  | host
  | none_
  deriving DecidableEq, Repr

/-- The destination of a command on its own module (R114, R119, R120). -/
def State.destOf (s : State) (c : Cmd) : Dest :=
  let x := s.cmdCtx c
  let r := c.dstRange (s.members c)
  let ps := pagesOf r
  match s.shadows.find? fun b => decide (b.part = x.part ∧ b.asid = x.asid ∧ (b.vbase : Int) ≤ r.1 ∧ r.2 ≤ ((b.vbase + b.size : Nat) : Int)) with
  | some b => .shadow b.handle b.vbase
  | none =>
    if Config.windowBase ≤ r.1 && !windowBad x r && decide (r.1 < Config.vaTop) then .loc
    else if decide (r.1 < 0) || ps.any (s.pageIs x false) || !(ps.any (s.pageIs x true)) then .none_
    else .host

/-- Whether a range names a host page. -/
def State.namesHost (s : State) (c : Cmd) (r : Int × Int) : Bool := (pagesOf r).any (s.pageIs (s.cmdCtx c) true)

/-- The entry of the route table that a push names, and the partition of this module that it designates, if it does (R350). -/
def State.routeOf (s : State) (c : Cmd) : Option Route := s.link.routes.find? fun q => decide (q.num = c.desc.route)
def State.selfPart (s : State) (c : Cmd) : Option Nat :=
  if c.fn = .cprem then (s.routeOf c).bind fun q => if q.self then some q.part else none else none

/-- A buffer that accepts pushes: it was declared REMOTE, with a sync word (R350, R352). -/
def State.pushBuffer (s : State) (part handle : Nat) : Option Shadow :=
  (s.shadow? part handle).bind fun b => if b.remote && decide (b.sync ≠ 0) then some b else none

/-- The buffer that a push of a range goes to, where the whole range lies within it (R114, R350). -/
def State.pushTarget (s : State) (part handle : Nat) (r : Int × Int) : Option Shadow :=
  (s.pushBuffer part handle).bind fun b => if 0 ≤ r.1 ∧ r.2 ≤ (b.size : Int) then some b else none

/-- Whether a command is refused with DESC. DESIGN CHOICE (log entry 88): where SYNC or CREC of a COLL or CPREM lies on a host page, which
R120 would end with DESC, the command pauses at that write with DETAIL 5, as R222 says. -/
def State.refusedDesc (s : State) (c : Cmd) : Bool :=
  let d := c.desc
  let src := c.srcRange.getD (0, 0)
  d.rsv || d.cnts.any (fun n => decide (n = 0)) || decide (2 ^ 32 ≤ c.elems (s.members c) * c.dsz)
    || (decide (c.fn ≠ .cprem) && decide (d.sync.toNat % 16 ≠ 0)) || decide (d.crec.toNat % 32 ≠ 0)
    || (match c.fn with
      | .cprem => (s.link.routes.all fun r => decide (r.num ≠ d.route)) || s.namesHost c src
      | .coll => (s.groupOf c).isNone || decide (d.cnt1 ≠ 1) || decide (d.cnt2 ≠ 1) || s.namesHost c src ||
          s.namesHost c (c.dstRange (s.members c))
      | _ => false)
    || (decide (d.rlay ≠ 0) && (decide (c.fn = .cpyf) || decide (c.fn = .cprem)) &&
        (decide (d.tt = 0) || decide (d.hh = 0) || decide (d.ee = 0) || decide (d.tt * d.hh * d.ee ≠ d.cnt0 * d.cnt1 * d.cnt2)))

/-- Whether a command is refused with CODE. DESIGN CHOICE (log entry 89): re-layout code 3 with H other than 1, for which R133 names no status,
gives CODE. -/
def Cmd.refusedCode (c : Cmd) : Bool :=
  let d := c.desc
  let fits := match d.conv with
    | 0 => true
    | 1 => decide (d.esz = 2)
    | 2 => decide (d.esz = 1)
    | 3 => decide (d.esz = 1)
    | 4 => decide (d.esz = 0)
    | 5 => decide (d.esz = 2)
    | _ => false
  match c.fn with
  | .cpy => decide (d.conv ≠ 0) || decide (d.rlay ≠ 0)
  | .cpyf => !fits || decide (4 ≤ d.rlay) || (decide (d.rlay = 3) && decide (d.hh ≠ 1))
  | .cprem => !fits || decide (4 ≤ d.rlay) || (decide (d.rlay = 3) && decide (d.hh ≠ 1))
  | .cptile => !fits || decide (d.rlay ≠ 0)
  | .coll => decide (d.conv ≠ 0) || decide (d.rlay ≠ 0) || decide (4 ≤ d.op) || decide (4 ≤ d.etype)

/-- The status with which a command is refused before any byte is written, or 0. -/
def State.refusal (s : State) (c : Cmd) : Nat :=
  if s.refusedDesc c then 7
  else if c.refusedCode then 2
  else if windowBad (s.cmdCtx c) (c.srcRange.getD (0, 0)) || (decide (c.fn ≠ .cprem) && windowBad (s.cmdCtx c) (c.dstRange (s.members c))) then 1
  else if c.fn = .cprem then (match s.selfPart c with
    | some p => if (s.pushTarget p c.desc.rsh (c.dstRange 1)).isNone then 1 else 0
    | none => 0)
  else if s.destOf c = .none_ then 1
  else 0

/-! ### Engine accesses (R127, R222) -/

/-- A value, or why there is none: a fault of translation or permission, or a status. -/
inductive Eng (α : Type)
  | ok (v : α)
  | fault (code : BitVec 8) (detail : BitVec 8) (va : Word)
  | fails (status : Nat)

def Eng.andThen {α β : Type} (e : Eng α) (f : α → Eng β) : Eng β :=
  match e with
  | .ok v => f v
  | .fault c d v => .fault c d v
  | .fails n => .fails n

/-- LeaseRead of a line at its owner or home for an agent without a private copy, at a timestamp, with a lease: the line, the timestamp
afterwards, and the state. -/
def State.homeRead (s : State) (p pts lease l : Nat) : LineData × Nat × State :=
  let r := s.rebaseWith p (max (s.line l).rts (pts + lease)) pts
  let s := r.2.fillLine l
  let x := s.line l
  let s := s.setLine l { x with rts := max x.rts (r.1 + lease), owner := none }
  let s : State := match x.owner with
    | some o => s.putCopy .normal ⟨false, o, l, s.mem.line l, x.wts, max x.rts (r.1 + lease), s.copyScales o l x.wts⟩
    | none => s
  (s.mem.line l, max r.1 x.wts, s)

/-- A range of addresses cut at line boundaries: address and length of each piece. -/
def spans (a n : Nat) : List (Nat × Nat) := (pieces n a (List.replicate n 0)).map fun p => (p.1, p.2.length)

/-- A command with the state it acts on. -/
abbrev Run := Cmd × State

/-- The name under which a command keeps a source line of the local store. -/
def locLine (off : Nat) : Nat := 2 ^ 60 + off / 128

/-- A source read of n bytes (R120, R127): a line is read whole the first time that the command reads of it. -/
def engRead (r : Run) (ea : Word) (n : Nat) : Eng (List Byte × Run) :=
  (spans ea.toNat n).foldl (fun acc p => acc.andThen fun a =>
    let c := a.2.1
    let s := a.2.2
    let va := BitVec.ofNat 64 p.1
    match s.xlate (s.cmdCtx c) engRd va with
    | .phys pa => match Tab.get c.read (pa / 128) with
      | some d => .ok (a.1 ++ lineBytes d (pa % 128) p.2, c, s)
      | none =>
        if s.poisoned pa then .fails 3
        else
          let g := s.homeRead (s.cmdPart c) c.pts c.lease (pa / 128)
          .ok (a.1 ++ lineBytes g.1 (pa % 128) p.2, { c with pts := g.2.1, read := Tab.set c.read (pa / 128) g.1 }, g.2.2)
    | .loc off =>
      let d := (Tab.get c.read (locLine off)).getD (((s.launchOf c.launch).store c.cluster).line (off / 128))
      .ok (a.1 ++ lineBytes d (off % 128) p.2, { c with read := Tab.set c.read (locLine off) d }, s)
    | .host h =>
      if Config.hostFails s.cycle h then .fails 8
      else .ok (a.1 ++ (List.range p.2).map (fun i => Config.hostByte s.cycle (h + i)), c, s)
    | .bad k d => .fault k d va) (.ok ([], r))

/-- A destination write (R115, R119, R120). -/
def engWrite (r : Run) (x : Dest) (ea : Int) (bs : List Byte) : Eng Run :=
  let va := BitVec.ofInt 64 ea
  (spans va.toNat bs.length).foldl (fun acc p => acc.andThen fun a =>
    let c := a.1
    let s := a.2
    let o := p.1 - va.toNat
    let part := (bs.drop o).take p.2
    match s.xlate (s.cmdCtx c) engWr (BitVec.ofNat 64 p.1), x with
    | .bad k d, _ => .fault k d (BitVec.ofNat 64 p.1)
    | .loc off, _ => .ok (c, s.locWriteAt c.launch c.cluster off part)
    | .host h, _ => if Config.hostFails s.cycle h then .fails 8 else .ok (c, s)
    | .phys _, .shadow h base => .ok (c, s.shadowWrite (s.cmdPart c) h c.key (p.1 - base) part)
    | .phys _, _ => .ok (c, s)) (.ok r)

/-- One read-modify-write of a sync word at a timestamp no lower than `pts`, with the publication that it brings about (R122): the
timestamp and whether a publication took place. -/
def syncUpdate (s : State) (x : XCtx) (launch : Nat) (pts : Nat) (sync : Word) (f : SyncWord → SyncWord × Bool) :
    Eng (Nat × Bool × State) :=
  match s.xlate x sysRw sync with
  | .bad k d => .fault k d sync
  | .host _ => .fault 3 5 sync
  | .phys pa =>
    if s.poisoned pa then .fails 3
    else
      let u := f (SyncWord.ofNat (s.mem.nat pa 16))
      let b := s.shadow? x.part u.1.shid
      let pub := u.2 && u.1.pub
      let lines := if pub then (b.map fun b => (s.swaps b).map fun l => l.2).getD [] else []
      let high := (pa :: lines).foldl (fun m a => max m ((s.line (a / 128)).rts + 1)) pts
      let r := s.rebaseWith x.part high pts
      let w := r.2.unitWrite x.part launch r.1 [(pa, natBytes 16 u.1.toNat)]
      if !pub then .ok (w.1, false, w.2)
      else
        let z := w.2.publish x.part launch u.1.shid w.1
        match z.1 with
        | none => .ok (w.1, false, z.2)
        | some ts =>
          let l := pa / 128
          .ok (ts, true, z.2.setLine l { z.2.line l with wts := ts, rts := ts })
  | .loc off =>
    let m := ((s.launchOf launch).store x.cluster).nat off 16
    let u := f (SyncWord.ofNat m)
    let s := s.locWriteAt launch x.cluster off (natBytes 16 u.1.toNat)
    if !(u.2 && u.1.pub) then .ok (pts, false, s)
    else
      let z := s.publish x.part launch u.1.shid pts
      match z.1 with
      | none => .ok (pts, false, z.2)
      | some ts => .ok (ts, true, z.2.stampLoc launch x.cluster off ts)

/-! ### The end of a command (R125, R346, R347) -/

/-- A push to another module has ended at its sender without OK: the receiving engine is told, with a message of no bytes. -/
def State.sendEnd (s : State) (c : Cmd) : State :=
  if c.fn ≠ .cprem ∨ c.acked then s
  else match s.routeOf c with
    | some q => if q.self then s else s.sendFlits q.port c.key 0
    | none => s

/-- XFD of a channel: the smallest ID that has not completed. -/
def State.advanceXfd (s : State) (owner ch : Nat) : State :=
  s.modThread owner fun t =>
    let left := (s.cmds.filter fun c => decide (c.owner = owner ∧ c.ch = ch) && !c.ended).map fun c => c.id
    let v := left.foldl min (t.nextId.toList.getD ch 0)
    { t with sys := { t.sys with xfd := t.sys.xfd.setIfInBounds ch (BitVec.ofNat 64 v) } }

/-- A command's record replaced. -/
def State.putCmd (s : State) (c : Cmd) : State := { s with cmds := s.cmds.map (fun x => if x.key = c.key then c else x) }

/-- A command has ended. -/
def State.endCmd (s : State) (c : Cmd) : State := (s.putCmd { c with ended := true, paused := none }).advanceXfd c.owner c.ch

/-- The bytes of a completion record (R346). -/
def recordBytes (dev : Nat) (flags : BitVec 8) (status id ridx : Nat) : List Byte :=
  natBytes 8 (2 ^ 63 + dev * 65536 + flags.toNat * 256 + status) ++ natBytes 8 id ++ natBytes 8 ridx ++ natBytes 8 0

/-- The sync word that a command counts into: its place, who translates it, and the launch whose local store may hold it. A push of this
module to itself counts into the one of the buffer (R350). -/
def State.syncOf (s : State) (c : Cmd) : Option (Word × XCtx × Nat) :=
  if c.fn = .cprem then
    ((s.selfPart c).bind fun p => s.pushBuffer p c.desc.rsh).map fun b => (b.sync, ⟨b.part, b.asid, 0xFFFFFFFF, none, 0⟩, 0)
  else if c.desc.sync = 0 then none
  else some (c.desc.sync, s.cmdCtx c, c.launch)

/-- Whether the timestamps of a command's sync word are those of its own domain. -/
def State.ownDomain (s : State) (c : Cmd) : Bool := c.fn != .cprem || s.selfPart c == some (s.cmdPart c)

/-- Whether an address lies in the page at whose fault a command was aborted: a write there is skipped (R222). -/
def samePage (bad : Option Word) (va : Word) : Bool := bad.any fun b => decide (b.toNat / Config.pageBytes = va.toNat / Config.pageBytes)

/-- ERR set in the sync word of a failing command (R123, R222); that of a push to another module is set there, by what the sender tells it.
`bad` is the fault at which the command was aborted. -/
def setErr (r : Run) (bad : Option Word) : Eng Run :=
  let c := r.1
  let s := r.2
  match s.syncOf c with
  | none => .ok (c, s.sendEnd c)
  | some (w, x, l) =>
    if w.toNat % 16 ≠ 0 then .ok r
    else match syncUpdate s x l (if s.ownDomain c then c.pts else 0) w fun w => ({ w with err := true }, false) with
      | .ok z => .ok ({ c with pts := if s.ownDomain c then z.1 else c.pts }, z.2.2)
      | .fault k d v => if samePage bad v then .ok r else .fault k d v
      | .fails _ => .ok r

/-- The destination bytes that a command's record reports as written: of a push to another module that ends at its sender before the receiver has
reported, those whose flits the other side has acknowledged (log entry 98). -/
def State.written (s : State) (c : Cmd) : Nat :=
  if c.fn ≠ .cprem ∨ c.acked ∨ (s.selfPart c).isSome then c.bytes
  else match (s.routeOf c).bind fun q => s.link.ports[q.port]? with
    | some p => c.bytes - bytesOf p.unsent c.key
    | none => c.bytes

/-- The completion record written. -/
def writeRecord (r : Run) (bad : Option Word) : Eng Run :=
  let c := r.1
  let s := r.2
  let bs := recordBytes (if c.fn = .coll then c.dev else 0) c.flags c.status c.id (s.written c)
  if c.desc.crec = 0 ∨ c.desc.crec.toNat % 32 ≠ 0 then .ok r
  else match s.xlate (s.cmdCtx c) sysWr c.desc.crec with
    | .bad k d => if samePage bad c.desc.crec then .ok r else .fault k d c.desc.crec
    | .host _ => if samePage bad c.desc.crec then .ok r else .fault 3 5 c.desc.crec
    | .loc off => .ok (c, s.locWriteAt c.launch c.cluster off bs)
    | .phys pa =>
      if s.poisoned pa then .ok r
      else let w := s.unitWrite (s.cmdPart c) c.launch c.pts [(pa, bs)]; .ok ({ c with pts := w.1 }, w.2)

/-- What a command does next: a part counted, its end, a fault at which it pauses with what it has done so far, or a wait for another
agent. -/
inductive EngStep
  | part (s : State)
  | ended (s : State)
  | fault (r : Run) (code : BitVec 8) (detail : BitVec 8) (va : Word)
  | waits

/-- The buffer that a completing command publishes where it asks for that: its partition and handle (R116, R345). A destination in the local
store or in host memory has none (R119, R120). -/
def State.pubTarget (s : State) (c : Cmd) : Option (Nat × Nat) :=
  if !c.desc.pubc then none
  else if c.fn = .cprem then (s.selfPart c).map fun p => (p, c.desc.rsh)
  else match s.destOf c with
    | .shadow h _ => some (s.cmdPart c, h)
    | _ => none

/-- The publication that a command asked for on its completion. -/
def publishEnd (r : Run) : Run :=
  let c := r.1
  match r.2.pubTarget c with
  | none => r
  | some (p, h) =>
    let own := decide (p = r.2.cmdPart c)
    let u := r.2.publish p c.launch h (if own then c.pts else 0)
    match u.1 with
    | some ts => (if own then { c with pts := max c.pts ts, pubTs := max c.pubTs ts } else c, u.2)
    | none => (c, u.2)

/-- The end with a status: the failed lines cancelled, ERR set or the publication made, then the record. -/
def endWith (r : Run) (status : Nat) (bad : Option Word) : EngStep :=
  let c : Cmd := { r.1 with status := status }
  let s := if status = 0 then r.2 else r.2.cancelLines c.key
  let e : Eng Run := if c.settled then .ok (c, s) else if status = 0 then .ok (publishEnd (c, s)) else setErr (c, s) bad
  match e with
  | .fault k d v => .fault (c, s) k d v
  | .fails _ => .waits
  | .ok z =>
    let y : Run := ({ z.1 with settled := true }, z.2)
    match writeRecord y bad with
    | .ok z => .ended (z.2.endCmd z.1)
    | .fault k d v => .fault y k d v
    | .fails _ => .waits

/-! ### Collectives (R88, R351) -/

/-- One element of the fold: the value, whether it is invalid from here on, the flags, and the device of R88. -/
structure CollAcc where
  val : Nat
  bad : Option Nat
  flags : BitVec 8
  deriving DecidableEq, Repr

/-- Whether two values are infinities of opposite signs. -/
def opposite : Fv → Fv → Bool
  | .inf a, .inf b => a != b
  | _, _ => false

/-- One step of the fold of a floating-point type: a NaN, or infinities of opposite signs that meet, make the element the canonical NaN,
for MIN and MAX as well (R88). DESIGN CHOICE (log entry 118): what comes to an element that is NaN already raises no flag, a signalling NaN
neither. -/
def foldFloat (f : Fmt) (op : Nat) (a : CollAcc) (dev x : Nat) : CollAcc :=
  if a.bad.isSome then a
  else if (f.decode x).isNaN then { a with val := f.nan, bad := some dev, flags := a.flags ||| sigNV (f.decode x) }
  else if opposite (f.decode a.val) (f.decode x) then { val := f.nan, bad := some dev, flags := a.flags ||| fNV }
  else match op with
    | 0 =>
      let r := f.addV (f.decode a.val) (f.decode x)
      { val := r.code, bad := if (f.decode r.code).isNaN then some dev else none, flags := a.flags ||| r.flags }
    | _ => { a with val := (f.minmax (op == 2) a.val x).code }

/-- One step of the fold of an integer type. -/
def foldInt (w op : Nat) (a : CollAcc) (x : Nat) : CollAcc :=
  match op with
  | 0 => { a with val := (a.val + x) % 2 ^ w }
  | 1 => { a with val := if sgn w x < sgn w a.val then x else a.val }
  | _ => { a with val := if sgn w a.val < sgn w x then x else a.val }

/-- The fold of one element over the devices in ascending order, starting from device 0's contribution. -/
def foldElem (etype op : Nat) : List Nat → CollAcc
  | [] => ⟨0, none, 0⟩
  | x :: t =>
    let f : Fmt := if etype = 1 then .bf else .sf
    let w := if etype = 3 then 64 else 32
    let start : CollAcc := if etype < 2 ∧ (f.decode x).isNaN then ⟨f.nan, some 0, sigNV (f.decode x)⟩ else ⟨x, none, 0⟩
    ((t.zip (List.range t.length)).foldl (fun a p =>
      if etype < 2 then foldFloat f op a (p.2 + 1) p.1 else foldInt w op a p.1) start)

/-- The result of a collective over the contributions in device order: bytes, flags, and the device of R88. -/
def collResult (etype op sz n : Nat) (cs : List (List Byte)) : List Byte × BitVec 8 × Nat :=
  if op = 3 then (cs.flatten, 0, 0xFFFF)
  else
    let el : List Byte → Nat → Nat := fun bs i => leNat ((bs.drop (sz * i)).take sz)
    let rs := (List.range n).map fun i => foldElem etype op (cs.map fun bs => el bs i)
    ((rs.map fun r => natBytes sz r.val).flatten, rs.foldl (fun f r => f ||| r.flags) 0,
      rs.foldl (fun m r => match r.bad with
        | some d => min m d
        | none => m) 0xFFFF)

/-- The contribution of a device to an instance, where it has arrived. -/
def State.contrib (s : State) (c : Cmd) (dev : Nat) : Option (List Byte) :=
  (s.link.contribs.find? fun x => decide (x.grp = c.desc.grp ∧ x.seq = c.desc.seq ∧ x.dev = dev)).map fun x => x.data

/-- The collective's result, once every member has issued. -/
def collReady (r : Run) (g : Group) : Option (Eng Run) :=
  let c := r.1
  let s := r.2
  let others := (List.range g.sects.length).filter fun d => decide (d ≠ g.dev)
  if others.any fun d => (s.contrib c d).isNone then none
  else some ((engRead r c.desc.src (c.desc.cnt0 * c.ssz)).andThen fun own =>
    let cs := (List.range g.sects.length).map fun d => if d = g.dev then own.1 else (s.contrib c d).getD []
    let z := collResult c.desc.etype c.desc.op c.ssz c.desc.cnt0 cs
    let t := own.2.2
    .ok ({ own.2.1 with result := some z.1, flags := z.2.1, dev := z.2.2 },
      { t with link := { t.link with contribs := t.link.contribs.filter (fun x => !decide (x.grp = c.desc.grp ∧ x.seq = c.desc.seq)) } }))

/-- COLL_CONTRIBUTION_RECEIVE: another member's contribution arrives; one that has already arrived is dropped (R221). -/
def execCollContributionReceive (x : CollPart) (s : State) : Host.Outcome State Fault Refusal :=
  stepOr s (s.accepted (.contribution x) fun s => some (done (
    if s.link.contribs.any fun y => decide (y.grp = x.grp ∧ y.seq = x.seq ∧ y.dev = x.dev) then s
    else { s with link := { s.link with contribs := s.link.contribs ++ [x] } })))

/-! ### Remote pushes (R131, R221, R350) -/

/-- The receiving engine's record of parts, over the last 256 IDs of a channel. -/
def Link.sees (k : Link) (x : RemotePart) : Link :=
  { k with seen := (x.src, x.ch, x.id, x.part) :: k.seen.filter (fun y => !(decide (y.1 = x.src ∧ y.2.1 = x.ch ∧ y.2.2.1 + 256 ≤ x.id))) }

/-- Whether a part has arrived before. -/
def Link.hasSeen (k : Link) (x : RemotePart) : Bool := k.seen.any fun y => decide (y = (x.src, x.ch, x.id, x.part))

/-- Whether every part of a push has arrived. -/
def Link.complete (k : Link) (x : RemotePart) : Bool :=
  decide (x.total ≤ (k.seen.filter fun y => decide (y.1 = x.src ∧ y.2.1 = x.ch ∧ y.2.2.1 = x.id)).length)

/-- The runs of a part written to the shadow of a buffer. -/
def State.writeRuns (s : State) (part handle writer : Nat) (ws : List (Nat × List Byte)) : State :=
  ws.foldl (fun s w => s.shadowWrite part handle writer w.1 w.2) s

/-- The fault of the first address of some runs that the tables do not let an engine write, as an engine destination at a buffer's address (R113,
R196): code, DETAIL and address. -/
def State.pushFault (s : State) (b : Shadow) (ws : List (Nat × List Byte)) : Option (BitVec 8 × BitVec 8 × Word) :=
  (ws.flatMap fun w => spans (b.vbase + w.1) w.2.length).findSome? fun p =>
    match s.xlate ⟨b.part, b.asid, 0xFFFFFFFF, none, 0⟩ sysWr (BitVec.ofNat 64 p.1) with
    | .phys _ => none
    | .bad k d => some (k, d, BitVec.ofNat 64 p.1)
    | .host _ => some (3, 5, BitVec.ofNat 64 p.1)
    | .loc _ => some (3, 3, BitVec.ofNat 64 p.1)

/-- The name under which the shadow lines of another module's push are kept. -/
def pushWriter (x : RemotePart) : Nat := 2 ^ 64 * (1 + x.src * 8 + x.ch) + x.id

/-- Whether two parts are of one push. -/
def samePush (x y : RemotePart) : Bool := decide (x.src = y.src ∧ x.ch = y.ch ∧ x.id = y.id)

/-- The status with which a push of another module has failed here. -/
def Link.failed (k : Link) (x : RemotePart) : Option Nat := (k.dead.find? fun y => samePush x y.1).map fun y => y.2

/-- A push noted as under way here: some part of it has arrived. -/
def Link.begins (k : Link) (x : RemotePart) : Link :=
  if k.opened.any (samePush x) then k else { k with opened := k.opened ++ [{ x with runs := [] }] }

/-- A push noted as ended here. One that failed is remembered, over the last 256 IDs of its channel, so that its later parts write nothing. -/
def Link.closes (k : Link) (x : RemotePart) (status : Option Nat) : Link :=
  { k with
    opened := k.opened.filter fun y => !samePush x y
    held := k.held.filter fun y => !samePush x y
    dead := match status with
      | none => k.dead
      | some n => k.dead.filter (fun y => !(decide (y.1.src = x.src ∧ y.1.ch = x.ch ∧ y.1.id + 256 ≤ x.id))) ++ [({ x with runs := [] }, n)] }

/-- ERR set in the sync word of a buffer that accepts pushes, or the fault that this meets; an uncorrectable error there leaves it out (R123,
R222). -/
def State.pushErr (s : State) (x : RemotePart) : Eng State :=
  match s.pushBuffer x.dom x.handle with
  | none => .ok s
  | some b => match syncUpdate s ⟨b.part, b.asid, 0xFFFFFFFF, none, 0⟩ 0 0 b.sync fun w => ({ w with err := true }, false) with
    | .ok z => .ok z.2.2
    | .fault k d v => .fault k d v
    | .fails _ => .ok s

/-- A push noted as failed here, with the lines that it wrote last cancelled: no later part of it is written (R222, R347). -/
def State.closePush (s : State) (x : RemotePart) (status : Nat) : State :=
  let t := s.cancelLines (pushWriter x)
  { t with link := t.link.closes x (some status) }

/-- A push of another module pauses here at a fault of its buffer or of its sync word, with an ENGFLT record of the buffer's partition, which names the sending
module in place of a CTXID; its part comes again once ENGRES has let it go on (R222; DESIGN CHOICE, log entry 109). The answer is none while it is
paused. -/
def State.holdPush (s : State) (x : RemotePart) (k d : BitVec 8) (v : Word) : Option State :=
  if s.link.held.any (samePush x) then none
  else some ((({ s with link := { s.link.begins x with held := s.link.held ++ [x], inbox := s.link.inbox ++ [.part x] } } : State)).raiseEvent x.dom
    { type := 3, ctxid := x.src, cause := d.setWidth 64 <<< 8 ||| k.setWidth 64, epc := 0, badva := v, id := x.id, ch := x.ch, cycle := s.cycle })

/-- A push of another module fails here: ERR is set, where that meets no fault (R123, R222, R347). -/
def State.failPush (s : State) (x : RemotePart) (status : Nat) : Option State :=
  match s.pushErr x with
  | .ok t => let u := t.closePush x status; some (if x.ends.isSome then u else { u with link := u.link.sees x })
  | .fault k d v => (s.cancelLines (pushWriter x)).holdPush x k d v
  | .fails _ => none

/-- ENGABT on a push of another module that is paused here: it fails with FAULT, and ERR stays clear where its sync word still faults (R222). -/
def State.abortPush (s : State) (x : RemotePart) : State :=
  match s.pushErr x with
  | .ok t => t.closePush x 4
  | _ => s.closePush x 4

/-- A part of another module's push at the receiving engine: written once to the shadow, and counted (R122, R350); a part that arrives again is
dropped. The last part to arrive publishes the buffer where the push asks for it (R345). A message that the push has failed at its sender sets
ERR, and one that a kill cancelled it does not (R123). A fault of the buffer or of the sync word pauses the push, of which nothing goes on until
ENGRES (R196, R222). The answer is the state, or none while it is paused. -/
def State.receivePart (s : State) (x : RemotePart) : Option State :=
  if s.link.hasSeen x then some s
  else
    let seen : State → State := fun s => { s with link := s.link.sees x }
    if (s.link.failed x).isSome then some (seen s)
    else match x.ends with
      | some true => s.failPush x 4
      | some false => let t := s.cancelLines (pushWriter x); some { t with link := t.link.closes x (some 4) }
      | none => if s.link.held.any (samePush x) then none else match s.pushTarget x.dom x.handle (x.lo, x.hi) with
        | none => s.failPush x 1
        | some b => match s.pushFault b x.runs with
          | some f => s.holdPush x f.1 f.2.1 f.2.2
          | none =>
          let s1 := s.writeRuns x.dom x.handle (pushWriter x) x.runs
          let n := x.runs.foldl (fun n r => n + r.2.length) 0
          match syncUpdate s1 ⟨b.part, b.asid, 0xFFFFFFFF, none, 0⟩ 0 0 b.sync fun w => w.counted n with
          | .ok z =>
            let t := seen z.2.2
            some (if t.link.complete x then
                let t := if x.pubc then (t.publish x.dom 0 x.handle z.1).2 else t
                { t with link := t.link.closes x none }
              else { t with link := t.link.begins x })
          | .fault k d v => s.holdPush x k d v
          | .fails m => s1.failPush x m

/-- REMOTE_PART_RECEIVE: a part of a push by another module. -/
def execRemotePartReceive (x : RemotePart) (s : State) : Host.Outcome State Fault Refusal :=
  stepOr s (s.accepted (.part x) fun s => (s.receivePart x).map done)

/-- The push of another module that is paused here under a module's number, channel and ID. -/
def State.heldPush (s : State) (p c ch : Nat) (id : Word) : Option RemotePart :=
  s.link.held.find? fun x => decide (x.dom = p ∧ x.src = c ∧ x.ch = ch ∧ x.id = id.toNat)

/-! ### Contributions -/

/-- A member's contribution goes to every other member. -/
def State.sendContribution (s : State) (c : Cmd) : State :=
  match c.fn, s.groupOf c with
  | .coll, some g => if s.refusal c = 0 then g.ports.foldl (fun s p => s.sendFlits p c.key (c.desc.cnt0 * c.ssz)) s else s
  | _, _ => s

/-! ### The parts of a command -/

/-- Bytes of a part (R345). -/
def partBytes : Nat := 4096

/-- Number of elements in a part, and the parts of a command. -/
def Cmd.perPart (c : Cmd) : Nat := partBytes / c.dsz
def Cmd.partCount (c : Cmd) (members : Nat) : Nat := (c.elems members + c.perPart - 1) / c.perPart

/-- The elements of the part under way. -/
def Cmd.partElems (c : Cmd) (members : Nat) : List Nat :=
  let from_ := c.parts * c.perPart
  (List.range (min c.perPart (c.elems members - from_))).map fun i => from_ + i

/-- An element of the destination as bytes: from a collective's result, a tile's fill value, or the source, converted. -/
def elemBytes (r : Run) (k : Nat) : Eng (List Byte × Run) :=
  let c := r.1
  match c.result with
  | some bs => .ok ((bs.drop (k * c.dsz)).take c.dsz, r)
  | none => match c.srcAt k with
    | none => .ok (natBytes c.dsz (c.desc.fn 3).toNat, r)
    | some ea => (engRead r ea c.ssz).andThen fun z =>
        let v := convElem c.desc.conv (leNat z.1)
        .ok (natBytes c.dsz v.code, { z.2.1 with flags := z.2.1.flags ||| v.flags }, z.2.2)

/-- The elements of a part, with where each goes. -/
def partData (r : Run) (ks : List Nat) : Eng (List (Int × List Byte) × Run) :=
  ks.foldl (fun acc k => acc.andThen fun a => (elemBytes a.2 k).andThen fun z => .ok (a.1 ++ [(r.1.dstAt k, z.1)], z.2)) (.ok ([], r))

/-- The bytes of the part under way are written, and its SyncCount performs (R122). A command of another module's buffer hands its part to
the link, and the other side counts it. -/
def countPart (r : Run) : EngStep :=
  let c := r.1
  let s := r.2
  let m := s.members c
  let n := (c.partElems m).length * c.dsz
  let z : Cmd := { c with parts := c.parts + 1, wrote := false }
  let z : Cmd := { z with acked := decide (c.fn = .cprem) && (s.selfPart c).isSome && decide (z.parts = c.partCount m) }
  match s.syncOf c with
  | none => .part (s.putCmd z)
  | some (w, x, l) => match syncUpdate s x l (if s.ownDomain c then c.pts else 0) w fun w => w.counted n with
    | .fault k d v => .fault (c, s) k d v
    | .fails n => endWith (c, s) n none
    | .ok u =>
      if s.ownDomain c then .part (u.2.2.putCmd { z with pts := max c.pts u.1, pubTs := if u.2.1 then max c.pubTs u.1 else c.pubTs })
      else .part (u.2.2.putCmd z)

/-- The elements that the step of the part under way writes: those of the part, or, where the destination is the local store, at the first
part all of the command's, so that every line is written whole (R119). -/
def Cmd.toWrite (c : Cmd) (x : Dest) (members : Nat) : List Nat :=
  if x = .loc then (if c.parts = 0 then List.range (c.elems members) else []) else c.partElems members

/-- The next part: read, converted, written, and counted (R122, R345). A push whose port has left the route table ends with LINK (R391). -/
def nextPart (r : Run) : EngStep :=
  let c := r.1
  let m := r.2.members c
  let x := if c.fn = .cprem then .none_ else r.2.destOf c
  if c.wrote then countPart r
  else match partData r (c.toWrite x m) with
    | .fault k d v => .fault r k d v
    | .fails n => endWith r n none
    | .ok a =>
      let wrote : Cmd → Cmd := fun z => { z with wrote := true, bytes := z.bytes + (c.toWrite x m).length * c.dsz }
      if c.fn = .cprem then
        match r.2.selfPart c with
        | some p =>
          let ws := a.1.map fun w => (w.1.toNat, w.2)
          match (a.2.2.shadow? p c.desc.rsh).bind fun b => a.2.2.pushFault b ws with
          | some f => .fault r f.1 f.2.1 f.2.2
          | none => countPart (wrote a.2.1, a.2.2.writeRuns p c.desc.rsh c.key ws)
        | none => match r.2.routeOf c with
          | none => endWith r 5 none
          | some q => countPart (wrote a.2.1, a.2.2.sendFlits q.port c.key ((c.partElems m).length * c.dsz))
      else
        let put : Eng Run := a.1.foldl (fun (acc : Eng Run) w => acc.andThen fun z => engWrite z x w.1 w.2) (.ok a.2)
        match put with
        | .fault k d v => .fault r k d v
        | .fails n => endWith r n none
        | .ok z => countPart (wrote z.1, z.2)

/-- What a command does next. -/
def State.engNext (s : State) (c : Cmd) : EngStep :=
  if c.ended then .waits
  else if c.status ≠ 0 ∨ c.settled then endWith (c, s) c.status none
  else
    let n := if c.parts = 0 ∧ !c.wrote then s.refusal c else 0
    if n ≠ 0 then endWith (c, s) n none
    else if c.partCount (s.members c) ≤ c.parts then
      if c.fn = .cprem ∧ !c.acked then .waits else endWith (c, s) 0 none
    else match decide (c.fn = .coll) && c.result.isNone, s.groupOf c with
      | true, some g => match collReady (c, s) g with
        | none => .waits
        | some (.ok z) => nextPart z
        | some (.fault k d v) => .fault (c, s) k d v
        | some (.fails n) => endWith (c, s) n none
      | _, _ => nextPart (c, s)

/-- The command of a key that is not paused. -/
def State.runs (s : State) (n : Nat) : Option Cmd := s.cmds.find? fun c => decide (c.key = n) && c.paused.isNone

/-- SYNC_COUNT: the next part of a command is finished. -/
def execSyncCount (n : Nat) (s : State) : Host.Outcome State Fault Refusal :=
  stepOr s ((s.runs n).bind fun c => match s.engNext c with
    | .part t => some (done t)
    | _ => none)

/-- ENGINE_COMMAND_COMPLETE: a command ends, with its record written and XFD advanced. -/
def execEngineCommandComplete (n : Nat) (s : State) : Host.Outcome State Fault Refusal :=
  stepOr s ((s.runs n).bind fun c => match s.engNext c with
    | .ended t => some (done t)
    | _ => none)

/-- A command paused at a fault, with an ENGFLT record; what it had written and counted before stays (R214, R222). -/
def State.pauseCmd (s : State) (r : Run) (k d : BitVec 8) (v : Word) : State :=
  let c := r.1
  (r.2.putCmd { c with paused := some (k, d, v) }).raiseEvent (s.cmdPart c)
    { type := 3, ctxid := c.owner, cause := d.setWidth 64 <<< 8 ||| k.setWidth 64, epc := c.pc, badva := v, id := c.id, ch := c.ch, cycle := s.cycle }

/-- ENGINE_FAULT_PAUSE: a command pauses at a fault. -/
def execEngineFaultPause (n : Nat) (s : State) : Host.Outcome State Fault Refusal :=
  stepOr s ((s.runs n).bind fun c => match s.engNext c with
    | .fault r k d v => some (done (s.pauseCmd r k d v))
    | _ => none)

/-- ENGINE_ERROR_REPAIR: the affected parts are written again into the shadow, and none is counted again: nothing changes (R221). -/
def execEngineErrorRepair (n : Nat) (s : State) : Host.Outcome State Fault Refusal :=
  stepOr s ((s.runs n).map fun _ => done s)

/-- A command aborted: by ENGABT with FAULT, or by a failed link with LINK. Its writes of ERR and of its record in the page at whose fault it
stood are skipped; another fault that one of them meets pauses it there (R222). -/
def State.abortCmd (s : State) (c : Cmd) (status : Nat) : State :=
  match endWith ({ c with paused := none, settled := c.settled && decide (c.status ≠ 0) }, s) status (c.paused.map fun f => f.2.2) with
  | .ended t => t
  | .fault r k d v => s.pauseCmd r k d v
  | _ => s

/-- The commands of a killed context cancelled: they neither count nor set ERR, and write no record; the receiving engine of a push is told
(R112, R222, R225). -/
def State.cancelCmds (s : State) (owner : Nat) : State :=
  (s.cmds.filter fun c => decide (c.owner = owner) && !c.ended).foldl (fun s c => ((s.cancelLines c.key).sendEnd c).endCmd c) s

/-! ### Issue (R344) -/

/-- Most incomplete copy commands of a thread. -/
def copyLimit : Nat := 256

/-- A copy function at issue. -/
def copyIssue (s : State) (fn : EngFn) (d a b : BitVec 6) : Res Unit :=
  checkG s d 1 (readG s a 2 fun x =>
    if 8 ≤ b.toNat then s.regTrap 8
    else match s.spot needRd x 128 3 with
      | .bad c e => if decide (c = 8) && s.memBusy then s.stall else s.trapHere c e x false
      | p =>
        if s.memBusy || decide (copyLimit ≤ (s.cmds.filter fun c => decide (c.owner = s.cur.id.ctxid) && !c.ended).length) then s.stall
        else
          let r := s.load false p 128
          let s := r.2
          let ch := b.toNat
          let id := s.cur.nextId.toList.getD ch 0
          let c : Cmd :=
            { key := s.order, owner := s.cur.id.ctxid, launch := s.cur.id.launch, cluster := s.cur.id.place.cluster, pc := s.cur.pc, ch := ch
              id := id, fn := fn, desc := copyDescOf fn (natBytes 128 r.1), pts := s.cur.sys.pts, lease := s.cur.sys.lease.toNat, parts := 0
              bytes := 0, read := [], wrote := false, result := none, flags := 0, paused := none, status := 0, settled := false, dev := 0xFFFF, acked := false, ended := false, pubTs := 0 }
          let t : Thread := { s.cur with nextId := s.cur.nextId.setIfInBounds ch (id + 1) }
          (({ s with cur := t, cmds := s.cmds ++ [c], order := s.order + 1 } : State).sendContribution c).result d (BitVec.ofNat 64 id))

/-- CPY. -/
def execCpy (d a b : BitVec 6) (s : State) : Host.Outcome State Fault Refusal := finish (copyIssue s .cpy d a b)

/-- CPYF. -/
def execCpyf (d a b : BitVec 6) (s : State) : Host.Outcome State Fault Refusal := finish (copyIssue s .cpyf d a b)

/-- CPTILE. -/
def execCptile (d a b : BitVec 6) (s : State) : Host.Outcome State Fault Refusal := finish (copyIssue s .cptile d a b)

/-- CPREM. -/
def execCprem (d a b : BitVec 6) (s : State) : Host.Outcome State Fault Refusal := finish (copyIssue s .cprem d a b)

/-- COLL. -/
def execColl (d a b : BitVec 6) (s : State) : Host.Outcome State Fault Refusal := finish (copyIssue s .coll d a b)

/-- XFWAIT (R126): PTS rises to the largest publish timestamp among the completed commands below XFD. -/
def execXfwait (a b : BitVec 6) (s : State) : Host.Outcome State Fault Refusal :=
  finish (if 8 ≤ a.toNat then s.regTrap 8
    else readG s b 3 fun y =>
      let x := s.cur.sys.xfd.toList.getD a.toNat 0
      if y.toNat < x.toNat then
        let top := s.cmds.foldl (fun m c =>
          if c.owner = s.cur.id.ctxid ∧ c.ch = a.toNat ∧ c.id < x.toNat then max m c.pubTs else m) 0
        done (s.raisePts top).retire
      else .wait (.xfer a.toNat y) s)

/-! ### SHADOW (R352) -/

/-- The pages of a range translated with W, or the first fault with its address. -/
def State.shadowPages (s : State) (base size : Nat) : Except (BitVec 8 × BitVec 8 × Word) (List Nat) :=
  let ps := pagesOf ((base : Int), ((base + size : Nat) : Int))
  ps.foldl (fun acc p => match acc with
    | .error e => .error e
    | .ok l =>
      let va := if p.toNat < base then BitVec.ofNat 64 base else p
      match s.xlate s.xctx sysWr va with
      | .phys pa => .ok (l ++ [pa / Config.pageBytes * Config.pageBytes])
      | .bad c d => .error (c, d, va)
      | .loc _ => .error (3, 3, va)
      | .host _ => .error (3, 5, va)) (.ok [])

/-- Whether two ranges of one size overlap. -/
def overlaps (a n b m : Nat) : Bool := decide (a < b + m) && decide (b < a + n)

/-- A handle that names no buffer of a partition. R113 leaves open which: it is the free value's where that names none, else the lowest one
(log entry 8). -/
def State.freeHandle (s : State) (p : Nat) : Nat :=
  let used := fun h : Nat => (s.shadow? p h).isSome
  let h := s.free.toNat % 65536
  if used h then ((List.range 65536).find? fun h => !used h).getD 0 else h

/-- SHADOW: a declaration. -/
def execShadow (d a : BitVec 6) (s : State) : Host.Outcome State Fault Refusal :=
  finish (regs2 s d a fun x =>
    match s.spot needRd x 32 3 with
    | .bad c e => if decide (c = 8) && s.memBusy then s.stall else s.trapHere c e x false
    | p =>
      if s.memBusy then s.stall
      else
        let r := s.load false p 32
        let s := r.2
        let bs := natBytes 32 r.1
        let v := (wordAt bs 0).toNat
        let b := (wordAt bs 1).toNat
        let n := (wordAt bs 2).toNat
        let w := wordAt bs 3
        let refuse : Nat → Res Unit := fun k => s.result d (BitVec.ofNat 64 (2 ^ 63 + k))
        if v % 128 ≠ 0 ∨ b % 128 ≠ 0 ∨ n % 128 ≠ 0 ∨ n < 128 ∨ 2 ^ 30 < n then refuse 1
        else match s.shadowPages v n with
          | .error e => s.trapHere e.1 e.2.1 e.2.2 false
          | .ok vp => match s.shadowPages b n with
            | .error e => s.trapHere e.1 e.2.1 e.2.2 false
            | .ok sp =>
              let x := s.xctx
              let hits := fun (q : Nat) => s.shadows.any fun z => decide (z.part = x.part ∧ z.asid = x.asid) &&
                (overlaps q n z.vbase z.size || overlaps q n z.sbase z.size)
              if hits v || hits b || overlaps v n b n then refuse 2
              else if 65536 ≤ (s.shadows.filter fun z => decide (z.part = x.part)).length then refuse 3
              else
                let h := s.freeHandle x.part
                let z : Shadow :=
                  { handle := h, part := x.part, asid := x.asid, vbase := v, sbase := b, size := n, sync := w &&& ~~~(15 : Word)
                    remote := w.getLsbD 0, vpages := vp, spages := sp, lines := [] }
                ({ s with shadows := s.shadows ++ [z] } : State).result d (BitVec.ofNat 64 h))

/-- Whether a command that has not ended writes a buffer, one of another module included that has begun to arrive. -/
def State.writesTo (s : State) (p h : Nat) : Bool :=
  (s.link.opened.any fun x => decide (x.dom = p ∧ x.handle = h)) || s.cmds.any fun c => !c.ended && (decide (c.fn = .cprem) &&
      (s.link.routes.any fun q => decide (q.num = c.desc.route ∧ q.part = p) && q.self) && decide (c.desc.rsh = h)
    || decide (s.cmdPart c = p) && decide (c.fn ≠ .cprem) && match s.destOf c with
      | .shadow k _ => decide (k = h)
      | _ => false)

/-- SHADOW: a release (R352). The visible lines stand in place, so nothing is copied. DESIGN CHOICE (log entry 90): the memory of the second
backing, whose contents no rule states, holds what it held before the declaration. -/
def execShadowRelease (d b : BitVec 6) (s : State) : Host.Outcome State Fault Refusal :=
  finish (checkG s d 1 (readG s b 3 fun y =>
    let p := s.launch.part
    match s.shadow? p y.toNat with
    | none => s.result d (BitVec.ofNat 64 (2 ^ 63 + 4))
    | some _ =>
      if s.writesTo p y.toNat then s.stall
      else ({ s with shadows := s.shadows.filter (fun z => !decide (z.part = p ∧ z.handle = y.toNat)) } : State).result d 0))

end Sys2Proof.Machine
end

