-- ==== Sys2Proof/Machine/VMem.lean ====
section
/-!
DEFINITION. VMem: what the vector memory instructions do when they complete (R83, R84, R102 to R105, R200, R215, R279 to R286,
R294).
-/
namespace Sys2Proof.Machine

def VMemOp.isIndexed : VMemOp → Bool
  | .ldx => true
  | .stx => true
  | _ => false

/-- Whether B names a stride register. -/
def VMemOp.isStrided : VMemOp → Bool
  | .lds => true
  | .sts => true
  | _ => false

/-- Fields per element (R283); q.b of a segment form holds nf - 1. -/
def VMemOp.fields (f : VMemOp) (q : QEntry) : Nat :=
  match f with
  | .ldseg => q.b + 1
  | .stseg => q.b + 1
  | _ => 1

/-- The byte offsets of an indexed form, unsigned 32-bit elements of the index group (R282). -/
def State.offsets (s : State) (q : QEntry) : List Nat := if q.hold.isEmpty then s.elems q.b 4 s.vl else q.hold

/-- The address of field `fd` of element i (R279, R283). -/
def elemAddr (f : VMemOp) (q : QEntry) (size : Nat) (offs : List Nat) (i fd : Nat) : Word :=
  match f with
  | .lds => q.xa + BitVec.ofNat 64 i * q.xb
  | .sts => q.xa + BitVec.ofNat 64 i * q.xb
  | .ldx => q.xa + BitVec.ofNat 64 (offs.getD i 0)
  | .stx => q.xa + BitVec.ofNat 64 (offs.getD i 0)
  | .ldseg => q.xa + BitVec.ofNat 64 ((i * (q.b + 1) + fd) * size)
  | .stseg => q.xa + BitVec.ofNat 64 ((i * (q.b + 1) + fd) * size)
  | _ => q.xa + BitVec.ofNat 64 (i * size)

/-- A fault of an element: its code, DETAIL and address. -/
structure ElemFault where
  code : BitVec 8
  detail : BitVec 8
  ea : Word
  deriving DecidableEq, Repr

/-- The places of an element's fields, or its fault: the cause that ranks first by R211, and among equals the lowest field. The
ranks of the codes that arise here are their numbers. `look` is the check of one address. -/
def elemPlaces (look : Word → Where) (f : VMemOp) (q : QEntry) (w : Wid) (offs : List Nat) (i : Nat) :
    Except ElemFault (List (Word × Where)) :=
  let size := w.bytes
  let code := BitVec.ofNat 8 w.num
  let all := (List.range (f.fields q)).map fun fd =>
    let ea := elemAddr f q size offs i fd
    (ea, if f.isIndexed && decide (offs.getD i 0 % size ≠ 0) then Where.bad 2 code else look ea)
  let bad := all.filterMap fun p => match p.2 with
    | .bad c d => some (⟨c, d, p.1⟩ : ElemFault)
    | _ => none
  match bad with
  | [] => .ok all
  | b :: t => .error (t.foldl (fun x y => if y.code.toNat < x.code.toNat then y else x) b)

/-- The elements of a list with their places, up to the lowest that faults by a check. -/
def checkedBy (look : Word → Where) (f : VMemOp) (q : QEntry) (w : Wid) (offs : List Nat) :
    List Nat → List (Nat × List (Word × Where)) × Option (Nat × ElemFault)
  | [] => ([], none)
  | i :: t =>
    match elemPlaces look f q w offs i with
    | .error e => ([], some (i, e))
    | .ok ps => let r := checkedBy look f q w offs t; ((i, ps) :: r.1, r.2)

/-- The elements of a list with their places, up to the lowest that faults, poison included (R200, R280). -/
def checked (s : State) (n : Need) (f : VMemOp) (q : QEntry) (w : Wid) (offs els : List Nat) :
    List (Nat × List (Word × Where)) × Option (Nat × ElemFault) :=
  checkedBy (fun ea => s.spot n ea w.bytes (BitVec.ofNat 8 w.num)) f q w offs els

/-- The loads of one element's fields. -/
def loadFields (s : State) (n : Nat) : List (Word × Where) → List Nat × State
  | [] => ([], s)
  | p :: t =>
    let r := s.load true p.2 n
    let z := loadFields r.2 n t
    (r.1 :: z.1, z.2)

/-- The loads of a list of elements, in ascending index (R103). -/
def loadElems (s : State) (n : Nat) : List (Nat × List (Word × Where)) → List (Nat × List Nat) × State
  | [] => ([], s)
  | p :: t =>
    let r := loadFields s n p.2
    let z := loadElems r.2 n t
    ((p.1, r.1) :: z.1, z.2)

/-- The stores of one element's fields, or the address of the first for which a DET thread has no room (R218, R283). -/
def storeFields (s : State) (n : Nat) : List (Word × Where) → List Nat → Except Word State
  | [], _ => .ok s
  | _, [] => .ok s
  | p :: t, v :: vs =>
    match s.store true p.1 p.2 n v with
    | some s => storeFields s n t vs
    | none => .error p.1

/-- The stores of a list of elements; the element that finds a DET thread's area full stops them (R218). `value` gives an
element's field values; an element that loses a collision stores nothing (R83, R284). -/
def storeElems (s : State) (n : Nat) (value : Nat → List Nat) (loses : Nat → Bool) :
    List (Nat × List (Word × Where)) → State × Option (Nat × Word)
  | [] => (s, none)
  | p :: t =>
    if loses p.1 then storeElems s n value loses t
    else match storeFields s n p.2 (value p.1) with
      | .ok s => storeElems s n value loses t
      | .error ea => (s, some (p.1, ea))

/-- Whether a later active element of a store names the same address (R83). -/
def losesTo (f : VMemOp) (q : QEntry) (size : Nat) (offs els : List Nat) (i : Nat) : Bool :=
  els.any fun j => decide (i < j) && decide (elemAddr f q size offs i 0 = elemAddr f q size offs j 0)

/-- The register uses of a load or store (R281). -/
def memUses (s : State) (q : QEntry) (f : VMemOp) (w : Wid) : List RegUse :=
  let size := w.bytes
  (List.range (f.fields q)).map (fun j => if f.isStore then RegUse.src (q.d + j) size s.vl 1 else RegUse.dst (q.d + j) size s.vl 1)
    ++ [.scalar q.a 2] ++ (if f.isStrided then [.scalar q.b 3] else []) ++ (if f.isIndexed then [.src q.b 4 s.vl 3] else [])
    ++ (if f = .ldsc then [.pairDst (q.d + 1)] else [])

/-- R281: a vector memory instruction names no buffer register of a bound stream at all. -/
def memStreamBad (s : State) (uses : List RegUse) : Bool :=
  uses.any fun u => (u.dsts s ++ u.srcs s).any fun r => s.isBuffer r

/-- The checks of R280 and R281, and the lineage stall (R76). -/
def memFrame (s : State) (q : QEntry) (lim : Nat) (uses : List RegUse) (f : Unit → Res Unit) : Res Unit :=
  match s.checkRegs lim uses false with
  | some c => vtrap s q c.1 c.2 s.free
  | none =>
    if memStreamBad s uses then vtrap s q 0x0C 1 s.free
    else match s.judge (uses.map fun u => u.srcs s).flatten (uses.map fun u => u.dsts s).flatten false fun _ => false with
      | .plain => f ()
      | _ => .wait .lineage s

/-- Loaded fields written to the registers: field j of element i to element i of register D + j. -/
def putLoaded (s : State) (q : QEntry) (size nf : Nat) (vals : List (Nat × List Nat)) : State :=
  let top := vals.foldl (fun m p => max m (p.1 + 1)) 0
  (List.range nf).foldl (fun s j =>
    s.putV (q.d + j) size ((List.range top).map fun i => (vals.find? fun p => p.1 == i).map fun p => p.2.getD j 0)) s

/-- The progress of an entry that stops at an element, with the index operands it keeps. -/
def State.stopAt (s : State) (i : Nat) (offs : List Nat) : State :=
  { s with cur := { s.cur with vec := { s.cur.vec with
      queue := match s.cur.vec.queue with
        | [] => []
        | q :: t => { q with prog := i, hold := offs } :: t } } }

/-- The progress index of a load's destination registers (R33). -/
def State.loadStopAt (s : State) (q : QEntry) (f : VMemOp) (w : Wid) (i : Nat) (offs : List Nat) : State :=
  (s.setRegProg (((memUses s q f w).map fun u => u.dsts s).flatten) i).stopAt i offs

/-- Whether VLDFF trims at a fault (R215). -/
def trims (f : VMemOp) (i : Nat) (e : ElemFault) : Bool :=
  decide (f = .ldff) && decide (0 < i) && (decide (e.code = 3) || decide (e.code = 4) || decide (e.code = 8))

/-- FSTAT written (R286). -/
def State.setFstat (s : State) (n : Nat) : State :=
  { s with cur := { s.cur with sys := { s.cur.sys with fstat := BitVec.ofNat 16 n } } }

/-- The physical address of a payload byte among the bytes that a VLDSC has just performed, with the metadata of its line. -/
def scaleAt (s : State) (ps : List (Nat × List (Word × Where))) (i : Nat) : Option (Nat × Scales) :=
  match ps.find? fun p => p.1 == i with
  | some (_, (_, .phys pa) :: _) => (s.lineScales (pa / 128)).map fun sc => (pa, sc)
  | _ => none

/-- The format of the scaled line that holds byte 0 and the block size that it gives, as codes. Where that line is no scaled line, the spec states no
block size: either one (log entry 19). -/
def scaleForm (s : State) (ps : List (Nat × List (Word × Where))) : List Nat :=
  match scaleAt s ps 0 with
  | some x => [x.2.fmt.toNat + 1, if x.2.fmt = 1 then 4 else 32]
  | none => [0, if s.free.getLsbD 0 then 4 else 32]

/-- The scale bytes of VLDSC (R285), one a block, from the block of byte `from_` on: for each that lies whole below `n` payload bytes (or, at the end,
in part), the scale of its line, or 0xFF where the line is no scaled line of the format of the line that holds byte 0. A block below was written
before a fault, and stands; of the block of byte `from_` that byte is looked at, since a block lies within one line. -/
def scaleBytes (s : State) (ps : List (Nat × List (Word × Where))) (form : List Nat) (from_ n : Nat) (whole : Bool) : List (Option Nat) :=
  let fmt := form.getD 0 0
  let b := form.getD 1 32
  (List.range (if whole then n / b else (n + b - 1) / b)).map fun k =>
    if k < from_ / b then none
    else some <| match scaleAt s ps (max (k * b) from_) with
      | some (pa, sc) => if sc.fmt.toNat + 1 = fmt then ((sc.scales.getD (pa % 128 / b) 0xFF).toNat) else 0xFF
      | none => 0xFF

/-- VLDSC's scales written to D + 1, with POISON (R285). -/
def putScales (s : State) (q : QEntry) (bs : List (Option Nat)) : State :=
  (s.putV (q.d + 1) 1 bs).accrue (flagIf (bs.contains (some 0xFF)) fPOISON)

/-- Loads (R280, R283, R285, R286). DESIGN CHOICE (log entry 127): a VLDSC whose base is no multiple of 32 traps under a zero length too. -/
def doLoad (s : State) (q : QEntry) (f : VMemOp) (m : BitVec 3) (w : Wid) : Res Unit :=
  let size := w.bytes
  let nf := f.fields q
  memFrame s q (s.vlmax size) (memUses s q f w) fun _ =>
    if decide (f = .ldsc) && decide (q.xa.toNat % 32 ≠ 0) then vtrap s q 2 0 q.xa
    else
      let offs := if f.isIndexed then s.offsets q else []
      let els := (s.actives m).filter fun i => decide (q.prog ≤ i)
      let r := checked s needRd f q w offs els
      let z := loadElems s size r.1
      let t := putLoaded z.2 q size nf z.1
      let form := if q.prog ≠ 0 ∧ q.hold.length = 2 then q.hold else scaleForm t (checked s needRd f q w offs [0]).1
      match r.2 with
      | none =>
        let t := if f = .ldsc then putScales t q (scaleBytes t r.1 form q.prog s.vl false) else t
        done (if f = .ldff then t.setFstat s.vl else t).popQueue
      | some (i, e) =>
        if trims f i e then done (t.setFstat i).popQueue
        else
          let t := if f = .ldsc then putScales t q (scaleBytes t r.1 form q.prog i true) else t
          vtrap (t.loadStopAt q f w i (if f = .ldsc then form else offs)) q e.code e.detail e.ea

/-- Stores (R280, R283, R284). -/
def doStore (s : State) (q : QEntry) (f : VMemOp) (m : BitVec 3) (w : Wid) : Res Unit :=
  let size := w.bytes
  let nf := f.fields q
  memFrame s q (s.vlmax size) (memUses s q f w) fun _ =>
    let offs := if f.isIndexed then s.offsets q else []
    let els := (s.actives m).filter fun i => decide (q.prog ≤ i)
    let r := checked s needWr f q w offs els
    let data := (List.range nf).map fun j => s.elems (q.d + j) size s.vl
    let z := storeElems s size (fun i => data.map fun c => c.getD i 0) (losesTo f q size offs els) r.1
    match z.2, r.2 with
    | some (i, ea), _ => vtrap (z.1.stopAt i offs) q z.1.noRoom 0 ea
    | none, some (i, e) => vtrap (z.1.stopAt i offs) q e.code e.detail e.ea
    | none, none => done z.1.popQueue

/-! ### VAMO (R84, R294) -/

/-- Op of a vector atomic, on codes of a width: FADD is FP32 for .w and BF16 for .h. -/
def amoVec (f : VAmoOp) (w : Wid) (a b : Nat) : FRes :=
  let n := 8 * w.bytes
  match f with
  | .add => ⟨(a + b) % 2 ^ n, 0⟩
  | .min => ⟨if sgn n a ≤ sgn n b then a else b, 0⟩
  | .max => ⟨if sgn n a ≤ sgn n b then b else a, 0⟩
  | .fadd => let t : Fmt := if w = .h then .bf else .sf; t.addV (t.decode a) (t.decode b)

/-- The operands that name one address, merged in ascending element order. -/
def mergeOps (f : VAmoOp) (w : Wid) : List Nat → Nat × BitVec 8
  | [] => (0, 0)
  | x :: t => t.foldl (fun acc y => let r := amoVec f w acc.1 y; (r.code, acc.2 ||| r.flags)) (x, 0)

/-- An address put into an ascending list without repeats. -/
def insertAddr (a : Word × Where) : List (Word × Where) → List (Word × Where)
  | [] => [a]
  | b :: t => if a.1 = b.1 then b :: t else if a.1.toNat < b.1.toNat then a :: b :: t else b :: insertAddr a t

/-- VAMO: one application per distinct address; every element receives the value before it. Every page is translated before anything is
applied; then a poisoned line stops it before anything is applied, which R294 allows, at the lowest element that names one. -/
def doAmo (s : State) (q : QEntry) (f : VAmoOp) (m : BitVec 3) (w : Wid) : Res Unit :=
  let size := w.bytes
  memFrame s q (s.vlmax size) [.dst q.d size s.vl 1, .scalar q.a 2, .src q.b 4 s.vl 3, .src q.d size s.vl 1] fun _ =>
    let offs := s.elems q.b 4 s.vl
    let r := checkedBy (fun ea => s.aim needRw ea size (BitVec.ofNat 8 w.num)) .ldx q w offs (s.actives m)
    match r.2.orElse fun _ => (checked s needRw .ldx q w offs (s.actives m)).2 with
    | some (_, e) => vtrap (s.setProg 0) q e.code e.detail e.ea
    | none =>
      let ops := s.elems q.d size s.vl
      let els := r.1.filterMap fun p => p.2.head?.map fun x => (p.1, x)
      let addrs := els.foldl (fun l p => insertAddr p.2 l) []
      let fin := addrs.foldl (fun (acc : State × List (Word × Nat)) a =>
        let mine := (els.filter fun p => decide (p.2.1 = a.1)).map fun p => ops.getD p.1 0
        let mg := mergeOps f w mine
        let old := acc.1.rmwRead a.2 size
        let z := amoVec f w old mg.1
        (((acc.1.rmwWrite true a.2 size z.code).accrue (mg.2 ||| z.flags)).note (BitVec.ofNat 64 old), (a.1, old) :: acc.2)) (s, [])
      let vals := (List.range s.vl).map fun i =>
        (els.find? fun p => p.1 == i).bind fun p => (fin.2.find? fun x => x.1 == p.2.1).map fun x => x.2
      done (fin.1.putV q.d size vals).popQueue

/-- A vector memory instruction completes. -/
def doMem (s : State) (q : QEntry) (f : VMemOp) (m : BitVec 3) (w : Wid) : Res Unit :=
  if f.isStore then doStore s q f m w else doLoad s q f m w

end Sys2Proof.Machine
end

