-- ==== Sys2Proof/Machine/Press.lean ====
section
/-!
DEFINITION. Press: what the press instructions do when they complete (R64 to R73, R78, R317 to R331, R379, R380).
-/
namespace Sys2Proof.Machine

/-! ### Shares (R317, R320, R321) -/

/-- An accumulator of +0, not open, with no lineage. -/
def Acc.init : Acc := ⟨[], false, 0, [], []⟩

/-- Element n of an accumulator's values or corrections; absent ones are +0. -/
def accElem (l : List (BitVec 32)) (n : Nat) : BitVec 32 := l.getD n 0

/-- The state with the current context's share replaced. -/
def State.setShare (s : State) (h : Option Share) : State := { s with cur := { s.cur with share := h } }

/-- The state with one accumulator of the share replaced. -/
def State.setAcc (s : State) (h : Share) (c : Nat) (a : Acc) : State :=
  s.setShare (some { h with acc := h.acc.setIfInBounds c a })

/-- An accumulator of a share. -/
def Share.get (h : Share) (c : Nat) : Acc := h.acc.getD c Acc.init

/-- PGRANT written. -/
def State.setGrant (s : State) (n : Nat) : State :=
  { s with cur := { s.cur with sys := { s.cur.sys with pgrant := BitVec.ofNat 8 n } } }

/-- Rows of the current context's press that attached contexts hold. -/
def State.pressRows (s : State) : Nat :=
  s.threads.foldl (fun n t =>
    if t.id.place.cluster = s.cur.id.place.cluster ∧ t.id.place.isBase = false then n + (t.share.map fun h => h.rows).getD 0 else n) 0

/-- Whether a context of the current core is attached. -/
def State.coreAttached (s : State) : Bool :=
  s.threads.any fun t => t.share.isSome && decide (t.id.place.coreKey = s.cur.id.place.coreKey)

/-- The checks of R319 in its order: not on a base core, where the instruction is reserved (R235), register numbers, attachment, the
instruction's own conditions; then the stream bindings, which rank after an illegal instruction (R211); then `f` with the share. -/
def pressFrame (s : State) (q : QEntry) (uses : List RegUse) (own : Share → Bool) (f : Share → Res Unit) : Res Unit :=
  if s.cur.id.place.isBase then vtrap s q 1 0 0
  else match s.checkNums s.vl uses false with
    | some c => vtrap s q c.1 c.2 s.free
    | none =>
      match s.cur.share with
      | none => vtrap s q 1 0 s.free
      | some h =>
        if !own h then vtrap s q 1 0 s.free
        else if uses.any fun u => u.streamBad s then vtrap s q 0x0C 1 s.free
        else f h

/-- A press function with no condition of its own. -/
def noCond (_ : Share) : Bool := true

/-- PATTACH (R320). -/
def doAttach (s : State) (q : QEntry) (rows : Nat) : Res Unit :=
  if s.cur.id.place.isBase then vtrap s q 1 0 0
  else if s.coreAttached then vtrap s q 1 0 s.free
  else
    let g := 32 * (min rows (128 - s.pressRows) / 32)
    let s := s.setGrant g
    let s := if g = 0 then s else { s with cur := { s.cur with
      sys := { s.cur.sys with pnan := 0 }
      share := some ⟨g, 0, 0, false, [], [], 0, Vector.replicate 4 Acc.init⟩ } }
    done s.popQueue

/-! ### Finishing a contraction (R70, R331) -/

/-- The state with a core's lineage replaced. -/
def State.setLin (s : State) (ln : Nat) (l : Option Lineage) : State :=
  let k := s.core s.cur.id.place
  s.setCore s.cur.id.place { k with lins := match l with
    | some l => Tab.set k.lins ln l
    | none => Tab.del k.lins ln }

/-- RoundNE32(P + delta), element by element, with the flags. -/
def addAll (n : Nat) (p d : List (BitVec 32)) : List (BitVec 32) × BitVec 8 :=
  let rs := (List.range n).map fun i =>
    Fmt.sf.addV (Fmt.sf.decode (accElem p i).toNat) (Fmt.sf.decode (accElem d i).toNat)
  (rs.map fun r => BitVec.ofNat 32 r.code, rs.foldl (fun f r => f ||| r.flags) 0)

/-- PFIN of one accumulator: an open one is closed with its final value, and delta-C goes to the chase unit. -/
def finishAcc (s : State) (c : Nat) : State :=
  match s.cur.share with
  | none => s
  | some h =>
    let a := h.get c
    if !a.isOpen then s
    else
      let n := h.rows * 128
      let r := addAll n a.vals a.corr
      let s := (s.setAcc h c { a with vals := r.1, isOpen := false, corr := [], lin := if a.src.isEmpty then 0 else a.lin }).accrue r.2
      match Tab.get (s.core s.cur.id.place).lins a.lin with
      | none => s
      | some l => s.setLin a.lin (some { l with delta := some ((List.range n).map (accElem a.corr)) })

/-- PFIN (R331). -/
def doPfin (s : State) (q : QEntry) (c : Nat) : Res Unit :=
  pressFrame s q [] noCond fun _ => done (finishAcc s c).popQueue

/-- The share given back; PNAN keeps its counts (R321). -/
def State.detach (s : State) : State :=
  let k := s.cur.id.place.cluster
  let cl := s.cluster k
  let s := if cl.loader = some s.cur.id.ctxid then s.setCluster k { cl with loader := none, bPart := [] } else s
  (s.setShare none).setGrant 0

/-- The steps of PDETACH before the share is freed: every open contraction is finished; the answer says whether every lineage of the
context has settled. -/
def finishAll (s : State) : State := (List.range 4).foldl finishAcc s

/-- PDETACH (R321). -/
def doDetach (s : State) (q : QEntry) : Res Unit :=
  pressFrame s q [] noCond fun _ =>
    let s := finishAll s
    if s.ownLins.isEmpty then done s.detach.popQueue else .wait .again s

/-! ### Operand loads (R322 to R325) -/

/-- The press formats, by the code of memory mode; register mode has FP32 for code 3 (R322). -/
def pressFmt (mem : Bool) (code : Nat) : Fmt :=
  match code with
  | 0 => .bf
  | 1 => .e4
  | 2 => .e5
  | _ => if mem then .e2 else .sf

/-- Bytes of a K-group of 32 elements in memory. -/
def groupBytes (code : Nat) : Nat :=
  match code with
  | 0 => 64
  | 3 => 16
  | _ => 32

/-- The format code of a window whose lines match a press format (R59, R323). -/
def windowFmt (code : Nat) : Nat :=
  match code with
  | 1 => 2
  | 2 => 3
  | 3 => 1
  | _ => 0

/-- The element codes of the bytes of a K-group. -/
def groupCodes (code : Nat) (bs : List Byte) : List Nat :=
  match code with
  | 0 => (chunks 2 32 bs).map leNat
  | 3 => (bs.map fun b => [b.toNat % 16, b.toNat / 16]).flatten
  | _ => bs.map fun b => b.toNat

/-- The scales of a K-group that begins at a physical address: those of its line where it is a scaled line of the format. -/
def groupScales (s : State) (code pa : Nat) : List (BitVec 8) × BitVec 16 :=
  match s.lineScales (pa / 128) with
  | none => (List.replicate 32 0xFF, 0)
  | some sc =>
    if sc.fmt.toNat ≠ windowFmt code then (List.replicate 32 0xFF, 0)
    else
      let o := pa % 128
      ((List.range 32).map fun i => sc.scales.getD (if code = 3 then (2 * o + i) / 8 else (o + i) / 32) 0xFF, sc.band)

/-- The elements of a K-group read at a place, with the scales of its line. -/
def loadGroup (s : State) (code : Nat) (p : Where) : List PElem × State :=
  let g := groupBytes code
  let r := s.load true p g
  let sc := match p with
    | .phys pa => groupScales r.2 code pa
    | _ => (List.replicate 32 0xFF, 0)
  (((groupCodes code (natBytes g r.1)).zip sc.1).map fun x => ⟨BitVec.ofNat 32 x.1, x.2, sc.2, .zero⟩, r.2)

/-- The K-groups of a row or column read in order. -/
def loadGroups (s : State) (code : Nat) : List Where → List PElem × State
  | [] => ([], s)
  | p :: t =>
    let r := loadGroup s code p
    let z := loadGroups r.2 code t
    (r.1 ++ z.1, z.2)

/-- The first fault of a list of addresses by a check. -/
def firstFault (look : Word → Where) (eas : List Word) : Option ElemFault :=
  eas.findSome? fun ea => match look ea with
    | .bad c d => some ⟨c, d, ea⟩
    | _ => none

/-- One row or column of a memory-mode load: every address is translated, then its lines are looked at for poison, then it is read; or its
fault (R323). -/
def loadLine (s : State) (code : Nat) (eas : List Word) : List PElem × State × Option ElemFault :=
  let g := groupBytes code
  match (firstFault (fun ea => s.aim needRd ea g 0) eas).orElse fun _ => firstFault (fun ea => s.spot needRd ea g 0) eas with
  | some e => ([], s, some e)
  | none => let r := loadGroups s code (eas.map fun ea => s.spot needRd ea g 0); (r.1, r.2, none)

/-- The rows or columns of a memory-mode load from number n on: what was read, and the fault that stopped it with its number. -/
def loadLines (s : State) (q : QEntry) (code kgroups : Nat) : List Nat → List PElem × State × Option (Nat × ElemFault)
  | [] => ([], s, none)
  | n :: t =>
    let base := q.xa + BitVec.ofNat 64 n * q.xb
    let r := loadLine s code ((List.range kgroups).map fun g => base + BitVec.ofNat 64 (g * groupBytes code))
    match r.2.2 with
    | some e => ([], s, some (n, e))
    | none =>
      let z := loadLines r.2.1 q code kgroups t
      (r.1 ++ z.1, z.2.1, z.2.2)

/-- Whether another context is in the midst of loading the press's B buffer (R325). -/
def State.bBusy (s : State) : Bool :=
  match (s.cluster s.cur.id.place.cluster).loader with
  | none => false
  | some c => decide (c ≠ s.cur.id.ctxid)

/-- Rows or columns of k elements with those from number n on replaced. Below n stand the ones read before an earlier fault; where the progress
index of a save image skips some that were never read, the old buffer's elements stay in their places (log entry 105). -/
def placeRows (part buf : List PElem) (k n : Nat) (new : List PElem) : List PElem :=
  let old := (part ++ buf.drop part.length).take (n * k)
  old ++ List.replicate (n * k - old.length) ⟨0, 0, 0, .zero⟩ ++ new

/-- PLDA in memory mode. -/
def doPldaMem (s : State) (q : QEntry) (code k : Nat) : Res Unit :=
  pressFrame s q [.scalar q.a 2, .scalar q.b 3] noCond fun h =>
    let g := groupBytes code
    if q.xa.toNat % g ≠ 0 then vtrap s q 2 0 q.xa
    else if q.xb.toNat % g ≠ 0 then vtrap s q 2 0 s.free
    else if h.aLin ≠ 0 then .wait .lineage s
    else
      let r := loadLines s q code (k / 32) ((List.range h.rows).filter fun n => decide (q.prog ≤ n))
      let got := placeRows h.aPart h.aBuf k q.prog r.1
      match r.2.2 with
      | some (n, e) => vtrap ((r.2.1.setShare (some { h with aPart := got })).setProg n) q e.code e.detail e.ea
      | none => done ((r.2.1.setShare (some { h with ka := k, ta := code, aMem := true, aBuf := got, aPart := [] })).popQueue)

/-- PLDB in memory mode. -/
def doPldbMem (s : State) (q : QEntry) (code k : Nat) : Res Unit :=
  pressFrame s q [.scalar q.a 2, .scalar q.b 3] noCond fun _ =>
    let g := groupBytes code
    if q.xa.toNat % g ≠ 0 then vtrap s q 2 0 q.xa
    else if q.xb.toNat % g ≠ 0 then vtrap s q 2 0 s.free
    else if s.bBusy then .wait .again s
    else
      let r := loadLines s q code (k / 32) ((List.range 128).filter fun n => decide (q.prog ≤ n))
      let cl := r.2.1.cluster s.cur.id.place.cluster
      let got := placeRows cl.bPart cl.bBuf k q.prog r.1
      match r.2.2 with
      | some (n, e) =>
        vtrap ((r.2.1.setCluster s.cur.id.place.cluster { cl with bPart := got, loader := some s.cur.id.ctxid }).setProg n)
          q e.code e.detail e.ea
      | none =>
        done ((r.2.1.setCluster s.cur.id.place.cluster
          { cl with kb := k, tb := code, bMem := true, bBuf := got, bPart := [], loader := none }).popQueue)

/-- Bytes of an element in register mode. -/
def regElemBytes (code : Nat) : Nat :=
  match code with
  | 0 => 2
  | 3 => 4
  | _ => 1

/-- The elements of a register-mode load, with no scales. -/
def regElems (s : State) (q : QEntry) (code n : Nat) : List PElem :=
  ((s.elems q.a (regElemBytes code) n).zip (List.range n)).map fun p =>
    ⟨BitVec.ofNat 32 p.1, 0, 0, if code = 3 then s.srcOf (laneOf s.rb q.a 4 p.2) else .zero⟩

/-- PLDA in register mode: FP32 elements may be provisional (R324). -/
def doPldaReg (s : State) (q : QEntry) (code k : Nat) : Res Unit :=
  let n := ((s.cur.share.map fun h => h.rows).getD 0) * k
  let uses := [RegUse.src q.a (regElemBytes code) n 2]
  pressFrame s q uses noCond fun h =>
    let srcs := s.group q.a (regElemBytes code) n
    if h.aLin ≠ 0 then .wait .lineage s
    else match s.judge srcs [] (decide (code = 3)) fun _ => false with
      | .wait => .wait .lineage s
      | .plain => popAll s q srcs fun s =>
          done ((s.setShare (some { h with ka := k, ta := code, aMem := false, aPart := []
                                           aBuf := (regElems s q code n).map fun x => { x with src := .zero } })).popQueue)
      | .linear t =>
          let s1 := s.setShare (some { h with ka := k, ta := code, aMem := false, aPart := [], aLin := t, aBuf := regElems s q code n })
          done (s1.logLinear s t q [] srcs [] fun _ => false).popQueue

/-- PLDB in register mode. -/
def doPldbReg (s : State) (q : QEntry) (code k : Nat) : Res Unit :=
  let n := 128 * k
  let uses := [RegUse.src q.a (regElemBytes code) n 2]
  pressFrame s q uses noCond fun _ =>
    let srcs := s.group q.a (regElemBytes code) n
    if s.bBusy then .wait .again s
    else match s.judge srcs [] false fun _ => false with
      | .plain => popAll s q srcs fun s =>
          let cl := s.cluster s.cur.id.place.cluster
          done ((s.setCluster s.cur.id.place.cluster
            { cl with kb := k, tb := code, bMem := false, bBuf := regElems s q code n, bPart := [], loader := none }).popQueue)
      | _ => .wait .lineage s

/-! ### Multiply-accumulate (R64 to R69, R326, R379) -/

/-- A factor of a product: its value, or none for an infinity times a zero within it, and whether its block scale is poison. -/
structure Factor where
  v : Option Fv
  poison : Bool
  deriving DecidableEq, Repr

/-- An element as a factor: its code, times its block scale and band scale for scaled operands (R52, R53). A block scale of 0x00 gives zero with
the sign of the code, whatever the code and the band scale hold: a NaN code or a NaN or infinite band scale in such a block makes no NaN, no
invalid operation and no term counted under NANZ. DESIGN CHOICE, log entry 104. -/
def factor (scaled : Bool) (f : Fmt) (p : PElem) : Factor :=
  let x := f.decode p.code.toNat
  if !scaled then ⟨some x, false⟩
  else
    let y : Option Fv :=
      if p.scale = 0 then some (.fin (f.isNeg p.code.toNat) 0 0)
      else (if p.scale = 0xFF then some (.nan false) else mulV x (scaleV p.scale.toNat)).bind fun z => mulV z (Fmt.bf.decode p.band.toNat)
    ⟨y, p.scale == 0xFF⟩

/-- What a K-group sums to so far: the exact finite sum, or a special result, with flags and the number of terms taken as zero. -/
structure GroupAcc where
  neg : Bool
  m : Nat
  e : Int
  pinf : Bool
  ninf : Bool
  nan : Bool
  flags : BitVec 8
  zeroed : Nat
  first : Bool
  deriving DecidableEq, Repr

def GroupAcc.init : GroupAcc := ⟨false, 0, 0, false, false, false, 0, 0, true⟩

/-- A finite term added exactly; the first term starts the sum. -/
def GroupAcc.add (g : GroupAcc) (n : Bool) (m : Nat) (e : Int) : GroupAcc :=
  if g.first then { g with neg := n, m := m, e := e, first := false }
  else let r := addFin g.neg g.m g.e n m e; { g with neg := r.1, m := r.2.1, e := r.2.2 }

/-- One product of a K-group (R64, R65, R68). -/
def GroupAcc.term (nanz : Bool) (g : GroupAcc) (a b : Factor) : GroupAcc :=
  let g := { g with flags := g.flags ||| flagIf (a.poison || b.poison) fPOISON }
  let p : Option Fv := match a.v, b.v with
    | some x, some y => mulV x y
    | _, _ => none
  match p with
  | some (.fin n m e) => g.add n m e
  | some (.inf n) => { g with pinf := g.pinf || !n, ninf := g.ninf || n }
  | some (.nan q) =>
    if nanz then { g.add false 0 0 with zeroed := g.zeroed + 1 } else { g with nan := true, flags := g.flags ||| flagIf q fNV }
  | none => if nanz then { g.add false 0 0 with zeroed := g.zeroed + 1 } else { g with nan := true, flags := g.flags ||| fNV }

/-- The group sum before any rounding. -/
def GroupAcc.value (g : GroupAcc) : Fv :=
  if (g.pinf && g.ninf) || g.nan then .nan false
  else if g.pinf then .inf false
  else if g.ninf then .inf true
  else .fin g.neg g.m g.e

/-- The group sum rounded to FP32 (R64, R65). -/
def GroupAcc.result (g : GroupAcc) : FRes :=
  if g.pinf && g.ninf then ⟨Fmt.sf.nan, g.flags ||| fNV⟩
  else if g.nan then ⟨Fmt.sf.nan, g.flags⟩
  else if g.pinf then ⟨0x7F800000, g.flags⟩
  else if g.ninf then ⟨0xFF800000, g.flags⟩
  else let r := Fmt.sf.rnd g.neg g.m g.e; ⟨r.code, r.flags ||| g.flags⟩

/-- The group sum of 32 products. -/
def groupSum (nanz : Bool) (as bs : List Factor) : FRes × Nat :=
  let g := (as.zip bs).foldl (fun g p => g.term nanz p.1 p.2) GroupAcc.init
  (g.result, g.zeroed)

/-- The K-groups of one output element entered into its accumulator in ascending order: its new code, the flags, the terms taken as
zero. -/
def contract (nanz : Bool) (c : Nat) (rows cols : List (List Factor)) : Nat × BitVec 8 × Nat :=
  (rows.zip cols).foldl (fun acc p =>
    let g := groupSum nanz p.1 p.2
    let r := Fmt.sf.addV (Fmt.sf.decode acc.1) (Fmt.sf.decode g.1.code)
    (r.code, acc.2.1 ||| g.1.flags ||| r.flags, acc.2.2 + g.2)) (c, 0, 0)

/-- The K-groups koff/32 onward of a row or column. -/
def kGroups {α : Type} (l : List α) (k koff n : Nat) (row : Nat) : List (List α) :=
  chunks 32 (n / 32) ((l.drop (row * k + koff)).take n)

/-- The formats that PMMA and PMMAS pair (R326). -/
def pairs (scaled aMem bMem : Bool) (ta tb : Nat) : Bool :=
  let fp8 := fun t : Nat => decide (t = 1) || decide (t = 2)
  if scaled then aMem && bMem && decide (1 ≤ ta) && decide (1 ≤ tb)
  else (decide (ta = 0) && decide (tb = 0)) || (fp8 ta && fp8 tb) || (decide (ta = 3) && !aMem && decide (tb = 0))

/-- PNAN of an accumulator grown, saturating (R23, R69). -/
def growPnan (p : BitVec 64) (c n : Nat) : BitVec 64 := setBits p (16 * c) 16 (min 0xFFFF (bitsOf p (16 * c) 16 + n))

/-- The correction key of an accumulator's element, beside the lanes of the vector registers. -/
def accKey (c n : Nat) : Nat := 16384 * (c + 1) + n

/-- The correction of an accumulator's element. -/
def Acc.srcOf (a : Acc) (n : Nat) : DSrc := ((a.src.find? fun x => x.1 == n).map fun x => x.2).getD .zero

/-- An entry appended to a lineage's log. -/
def State.addEntry (s : State) (ln : Nat) (e : LogEntry) : State :=
  match Tab.get (s.core s.cur.id.place).lins ln with
  | none => s
  | some l => s.setLin ln (some { l with log := l.log ++ [e] })

/-- Whether a lineage can take another log entry (R76, R380). -/
def State.canLog (s : State) (ln : Nat) : Bool :=
  match Tab.get (s.core s.cur.id.place).lins ln with
  | none => false
  | some l => decide (l.log.length < 32) && l.delta.isNone

/-- The contraction itself: every K-group entered into delta-C of an open accumulator, else into the accumulator (R64, R70), with
flags (R66) and counts (R69). -/
def pmmaRun (s : State) (q : QEntry) (h : Share) (cl : Cluster) (scaled : Bool) (c koff k : Nat) : State :=
  let a := h.get c
  let fa := h.aBuf.map (factor scaled (pressFmt h.aMem h.ta))
  let fb := cl.bBuf.map (factor scaled (pressFmt cl.bMem cl.tb))
  let rows := (List.range h.rows).map (kGroups fa h.ka koff k)
  let cols := (List.range 128).map (kGroups fb cl.kb koff k)
  let t := if a.isOpen then a.corr else a.vals
  let rs : List (Nat × BitVec 8 × Nat) := ((rows.zip (List.range h.rows)).map (fun r =>
    (cols.zip (List.range 128)).map fun p => contract q.nanz (accElem t (r.2 * 128 + p.2)).toNat r.1 p.1)).flatten
  let vals := rs.map fun r => BitVec.ofNat 32 r.1
  let s := (s.setAcc h c (if a.isOpen then { a with corr := vals } else { a with vals := vals })).accrue
    (rs.foldl (fun f r => f ||| r.2.1) 0)
  { s with cur := { s.cur with sys := { s.cur.sys with
      pnan := growPnan s.cur.sys.pnan c (rs.foldl (fun n r => n + r.2.2) 0) } } }

/-- The corrections of a multiply of the linear class, by element of its accumulator (R73). -/
def pmmaDefs (h : Share) (cl : Cluster) (scaled : Bool) (c koff k : Nat) : List (Nat × DOp) :=
  let a := h.get c
  let ga := (List.range h.rows).map (kGroups h.aBuf h.ka koff k)
  let gb := (List.range 128).map (kGroups cl.bBuf cl.kb koff k)
  ((ga.zip (List.range h.rows)).map (fun r =>
    (gb.zip (List.range 128)).filterMap fun p =>
      let x := a.srcOf (r.2 * 128 + p.2)
      let gs := (r.1.zip p.1).map fun z => (z.1.zip z.2).map fun y => (y.1.src, y.2.code, y.2.scale, y.2.band)
      if decide (x = .zero) && (gs.all fun g => g.all fun y => decide (y.1 = .zero)) then none
      else some (r.2 * 128 + p.2, DOp.mma x scaled cl.tb cl.bMem gs))).flatten

/-- The log length of a lineage of the current core. -/
def State.logLen (s : State) (ln : Nat) : Nat :=
  ((Tab.get (s.core s.cur.id.place).lins ln).map fun l => l.log.length).getD 0

/-- The corrections of an accumulator recorded as a log entry: the accumulator carries the lineage from here on. -/
def State.logAcc (s : State) (ln : Nat) (q : QEntry) (c : Nat) (defs : List (Nat × DOp)) (held : List Nat) : State :=
  let n := s.logLen ln
  let s := s.addEntry ln ⟨q.pc, q.word, q.xa, q.xb, defs.map (fun d => (accKey c d.1, d.2)), held⟩
  match s.cur.share with
  | none => s
  | some h => s.setAcc h c { h.get c with lin := ln, src := defs.map (fun d => (d.1, DSrc.entry n (accKey c d.1))) }

/-- PMMA and PMMAS (R326). The depth of the A buffer is looked at first, with the checks of R319. The contents, depth and format of the B buffer are
those at its acceptance (R325): a multiply that waits for a lineage is not accepted yet, and the conditions that concern B are looked at only when
it is (R379). -/
def doPmma (s : State) (q : QEntry) (scaled : Bool) (c koff k : Nat) : Res Unit :=
  pressFrame s q [] (fun h => decide (koff + k ≤ h.ka)) fun h =>
    let cl := s.cluster s.cur.id.place.cluster
    let a := h.get c
    if s.bBusy then .wait .again s
    else
      let accept : State → Res Unit := fun t =>
        if cl.kb < koff + k ∨ !pairs scaled h.aMem cl.bMem h.ta cl.tb then vtrap s q 1 0 s.free else done t.popQueue
      let carried := if a.isOpen && decide (h.aLin = 0) then 0 else a.lin
      match ([h.aLin, carried].filter fun n => decide (n ≠ 0)).dedup with
      | [] => accept (pmmaRun s q h cl scaled c koff k)
      | [ln] =>
        if s.canLog ln then accept ((pmmaRun s q h cl scaled c koff k).logAcc ln q c (pmmaDefs h cl scaled c koff k) [])
        else .wait .lineage s
      | _ => .wait .lineage s

/-! ### Zeroing, reading and writing accumulators (R327 to R329) -/

/-- PZERO. -/
def doPzero (s : State) (q : QEntry) (c : Nat) : Res Unit :=
  pressFrame s q [] (fun h => !(h.get c).isOpen) fun h =>
    let a := h.get c
    if a.lin ≠ 0 then .wait .lineage s
    else
      let s := s.setAcc h c Acc.init
      done ({ s with cur := { s.cur with sys := { s.cur.sys with pnan := setBits s.cur.sys.pnan (16 * c) 16 0 } } } : State).popQueue

/-- The conditions that PRDACC and PWRACC share: rows within the grant, VL within the register. -/
def accRange (s : State) (q : QEntry) (h : Share) : Bool :=
  decide (q.xb.toNat + (s.vl + 127) / 128 ≤ h.rows) && decide (s.vl ≤ s.vlmax 4)

/-- PRDACC: from its progress index on, an open accumulator gives its provisional value, tagged as a root of its lineage (R328). -/
def doPrdacc (s : State) (q : QEntry) (c : Nat) : Res Unit :=
  pressFrame s q [.dst q.d 4 s.vl 1, .scalar q.b 3] (accRange s q) fun h =>
    let a := h.get c
    let dsts := s.group q.d 4 s.vl
    let todo := (List.range s.vl).filter fun i => decide (q.prog ≤ i)
    let wrote := todo.map fun i => laneOf s.rb q.d 4 i
    if dsts.any fun r => s.isHeld r then .wait .lineage s
    else if !a.isOpen && a.lin ≠ 0 then .wait .lineage s
    else if a.isOpen && s.mixes a.lin dsts wrote.contains then
      .wait .lineage s
    else
      let base := q.xb.toNat * 128
      let kept := s.cur.vec.src.filter fun x => dsts.contains x.1 && !wrote.contains x.2.1
      let s := s.putV q.d 4 ((List.range s.vl).map fun i => if q.prog ≤ i then some (accElem a.vals (base + i)).toNat else none)
      let s := if !a.isOpen then s else
        let v := s.cur.vec
        let new := (wrote.zip todo).map fun p => (4 * p.1 / s.rb, p.1, DSrc.root (base + p.2))
        { s with cur := { s.cur with vec := { v with
            regs := (dsts.filter fun r => new.any fun x => x.1 == r).foldl
              (fun t r => Tab.set t r { v.reg r with tag := a.lin, log := 0 }) v.regs
            src := (v.src.filter fun x => !dsts.contains x.1) ++ kept ++ new } } }
      done s.popQueue

/-- PWRACC (R329). -/
def doPwracc (s : State) (q : QEntry) (c : Nat) : Res Unit :=
  pressFrame s q [.src q.a 4 s.vl 2, .scalar q.b 3] (fun h => accRange s q h && !(h.get c).isOpen) fun h =>
    let a := h.get c
    let srcs := s.group q.a 4 s.vl
    let base := q.xb.toNat * 128
    let put := fun (s : State) =>
      let xs := s.elems q.a 4 s.vl
      (List.range (h.rows * 128)).map fun i =>
        if base ≤ i ∧ i < base + s.vl then BitVec.ofNat 32 (xs.getD (i - base) 0) else accElem a.vals i
    match s.judge srcs [] true fun _ => false with
    | .wait => .wait .lineage s
    | .plain =>
      if a.lin ≠ 0 then .wait .lineage s
      else popAll s q srcs fun s => done (s.setAcc h c { a with vals := put s }).popQueue
    | .linear t =>
      if a.lin ≠ 0 && decide (a.lin ≠ t) then .wait .lineage s
      else
        let new := (List.range s.vl).filterMap fun i =>
          let x := s.srcOf (laneOf s.rb q.a 4 i)
          if x = .zero then none else some (base + i, DOp.copy x)
        let kept := (a.src.filter fun x => !(decide (base ≤ x.1) && decide (x.1 < base + s.vl))).map fun x => (x.1, DOp.copy x.2)
        let held := srcs.filter fun r => decide (s.tag r = 0)
        done ((s.setAcc h c { a with vals := put s }).logAcc t q c (new ++ kept) held).popQueue

/-! ### Publishing (R330) -/

/-- LNACT with a lineage's bit set or cleared (R24). -/
def State.setLnact (s : State) (n : Nat) (b : Bool) : State :=
  let m := (1 : BitVec 16) <<< n
  { s with cur := { s.cur with sys := { s.cur.sys with lnact := if b then s.cur.sys.lnact ||| m else s.cur.sys.lnact &&& ~~~m } } }

/-- PPUB. -/
def doPpub (s : State) (q : QEntry) (c ln : Nat) : Res Unit :=
  if s.cur.id.place.isBase then vtrap s q 1 0 0
  else if ln = 0 ∨ 16 ≤ ln then vtrap s q 0x0B 9 s.free
  else pressFrame s q [] (fun h => !(h.get c).isOpen) fun h =>
    let a := h.get c
    if (Tab.get (s.core s.cur.id.place).lins ln).isSome || a.lin ≠ 0 then .wait .lineage s
    else
      let s := s.setAcc h c { a with isOpen := true, lin := ln, corr := [], src := [] }
      done ((s.setLin ln (some ⟨s.cur.id.ctxid, c, [], none⟩)).setLnact ln true).popQueue

/-! ### Errors in a multiply (R221, R224) -/

/-- A register entry that loses a lineage's tag. -/
def VReg.settled (ln : Nat) (r : VReg) : VReg := if r.tag = ln then { r with tag := 0, log := 0 } else r

/-- A share that no longer refers to a lineage. -/
def Share.settled (ln : Nat) (h : Share) : Share :=
  { h with
    aLin := if h.aLin = ln then 0 else h.aLin
    aBuf := if h.aLin = ln then h.aBuf.map (fun p => { p with src := .zero }) else h.aBuf
    acc := h.acc.map (fun a => if a.lin = ln && !a.isOpen then { a with lin := 0, src := [] } else a) }

/-- The tags and corrections of a lineage taken out of the register directory. -/
def Vec.settled (ln : Nat) (v : Vec) : Vec :=
  let tagged := (v.regs.filter fun r => decide (r.2.tag = ln)).map fun r => r.1
  { v with regs := v.regs.map (fun r => (r.1, r.2.settled ln)), src := v.src.filter (fun x => !tagged.contains x.1) }

/-- The provisional FP32 lanes of a lineage, with their corrections. -/
def Vec.lanesOf (v : Vec) (ln : Nat) : List (Nat × DSrc) := (v.src.filter fun x => decide ((v.reg x.1).tag = ln)).map fun x => x.2

/-- FP32 lanes written by the chase or by the press's error: their registers become dirty and keep their tags until the lineage is dropped
(R75, R219, R224). `rb` is the size of a register. -/
def Vec.putLanes (rb : Nat) (v : Vec) (vs : List (Nat × Nat)) : Vec :=
  { v with
    vrf := vs.foldl (fun m x => m.write (4 * x.1) (natBytes 4 x.2)) v.vrf
    regs := v.regs.map (fun r => if vs.any fun x => decide (4 * x.1 / rb = r.1) then (r.1, { r.2 with dirty := true }) else r) }

/-- A change of the vector registers, made to the current context's and to the copies of them that a collator has of its loop (R170, R172). -/
def State.bothRegs (s : State) (f : Vec → Vec) : State :=
  { s with cur := { s.cur with vec := f s.cur.vec, loop := s.cur.loop.map fun l => { l with vec := f l.vec } } }

/-- A lineage freed: tags, held registers, the share's references and the number (R74, R78, R225). -/
def State.dropLin (s : State) (ln : Nat) : State :=
  let s := (s.setLin ln none).bothRegs (Vec.settled ln)
  let c : Thread := { s.cur with share := s.cur.share.map (fun h => h.settled ln) }
  ({ s with cur := c } : State).setLnact ln false

/-- The provisional elements of a lineage in a share replaced by the canonical NaN. -/
def Share.nan (ln : Nat) (h : Share) : Share :=
  let nan : BitVec 32 := BitVec.ofNat 32 Fmt.sf.nan
  let fix : Acc → List (BitVec 32) := fun a =>
    (a.vals.zip (List.range a.vals.length)).map fun p => if a.srcOf p.2 = .zero then p.1 else nan
  { h with
    aBuf := if h.aLin = ln then h.aBuf.map (fun p => if p.src = .zero then p else { p with code := nan }) else h.aBuf
    acc := h.acc.map (fun a => if a.lin = ln && !a.isOpen then { a with vals := fix a } else a) }

/-- Every element of a lineage that is provisional replaced by the canonical NaN (R224). -/
def State.nanLin (s : State) (ln : Nat) : State :=
  let s := s.bothRegs fun v => v.putLanes s.rb ((v.lanesOf ln).map fun l => (l.1, Fmt.sf.nan))
  let c : Thread := { s.cur with share := s.cur.share.map (fun h => h.nan ln) }
  { s with cur := c }

/-- The accumulator that a press instruction works on. -/
def QOp.accOf : QOp → Option Nat
  | .pmma _ c _ _ => some c
  | .pfin c => some c
  | _ => none

/-- The second failure of a rerun (R224): the accumulator becomes NaN, the lineage published from it settles on NaN, and the press error
trap is raised; the thread resumes at the next instruction, so the entry leaves the queue. -/
def pressError (s : State) (q : QEntry) (c : Nat) : Res Unit :=
  match s.cur.share with
  | none => done s
  | some h =>
    let a := h.get c
    let nan : BitVec 32 := BitVec.ofNat 32 Fmt.sf.nan
    let ln := if a.isOpen then a.lin else 0
    let s := s.setAcc h c { a with vals := List.replicate (h.rows * 128) nan, isOpen := false, corr := [], lin := if a.isOpen then 0 else a.lin }
    let s := if ln = 0 then s else (s.nanLin ln).dropLin ln
    let s := s.popQueue
    .trap ⟨true, 9, BitVec.ofNat 8 c, q.pc, s.free, s.cur.pc⟩ s

end Sys2Proof.Machine
end

