-- ==== Sys2Proof/Machine/Banks.lean ====
section
/-!
DEFINITION. Banks: cache maintenance over ranges and the bank commands, from issue to completion, pause and abort (R79 to R81, R134 to R138,
R202, R203, R355 to R358, R375, R376, R378).
-/
namespace Sys2Proof.Machine

/-! ### Ranges of pages -/

/-- A place in memory by page: the address the range has in it first, and where it lies. -/
structure PageAt where
  va : Nat
  len : Nat
  place : Where
  page : PageTag
  deriving DecidableEq, Repr

/-- The pages of a range translated in ascending order, or the first fault with its address; `fuel` bounds them. -/
def xlateRange (s : State) (n : Need) : Nat → Nat → Nat → Except (BitVec 8 × BitVec 8 × Word) (List PageAt)
  | 0, _, _ => .ok []
  | fuel + 1, va, len =>
    if len = 0 then .ok []
    else
      let k := min len (Config.pageBytes - va % Config.pageBytes)
      match s.xlate s.xctx n (BitVec.ofNat 64 va) with
      | .bad c d => .error (c, d, BitVec.ofNat 64 va)
      | w => match xlateRange s n fuel (va + k) (len - k) with
        | .ok l => .ok (⟨va, k, w, s.pageTag s.xctx (BitVec.ofNat 64 va)⟩ :: l)
        | .error e => .error e

/-- The pages of a range of bytes. -/
def State.range (s : State) (n : Need) (va len : Nat) : Except (BitVec 8 × BitVec 8 × Word) (List PageAt) :=
  xlateRange s n (len / Config.pageBytes + 2) va len

/-- The lines of memory behind translated pages. -/
def linesBehind (ps : List PageAt) : List Nat :=
  (ps.map fun p => match p.place with
    | .phys pa => linesOf pa p.len
    | _ => []).flatten

/-! ### CLEANR and INVALR (R135, R355, R378) -/

/-- The common part: the wait of R378, the range rounded outward to lines, its pages translated. DESIGN CHOICE (log entry 91): lines of the
local store window, for which R135 names no effect, are left alone. -/
def maintain (s : State) (n : Need) (a b : BitVec 6) (f : List Nat → State) : Res Unit :=
  readG s a 2 fun x => readG s b 3 fun y =>
    let lo := x.toNat / 128 * 128
    let hi := (x.toNat + y.toNat + 127) / 128 * 128
    match s.range n lo (if y = 0 then 0 else hi - lo) with
    | .error e => s.trapHere e.1 e.2.1 (if e.2.2.toNat < x.toNat then x else e.2.2) false
    | .ok ps => if s.memBusy then s.stall else done (f (linesBehind ps)).retire

/-- CLEANR: every dirty copy in the range is written to DRAM. -/
def execCleanr (a b : BitVec 6) (s : State) : Host.Outcome State Fault Refusal :=
  finish (maintain s sysRd a b fun ls => ls.foldl (fun s l => s.cleanLine l) s)

/-- Every copy of a line discarded, with data that was not written back; the line then holds the DRAM contents at a timestamp. -/
def State.invalidate (s : State) (ts l : Nat) : State :=
  let d := s.dramLine l
  let r := s.line l
  let x : Line := { r with wts := ts, rts := ts, owner := none, cached := false, dirty := false, under := none, scales := none, ver := r.ver + 1 }
  let t := s.setLine l x
  { t with
    mem := s.mem.setLine l d
    copies := s.copies.filter (fun c => decide (c.line ≠ l))
    gathered := s.gathered.filter (fun g => !(g.bytes.any fun b => decide (b.1 / 128 = l))) }

/-- INVALR: one store of the DRAM contents to every line of the range. -/
def execInvalr (a b : BitVec 6) (s : State) : Host.Outcome State Fault Refusal :=
  finish (maintain s sysWr a b fun ls =>
    if ls.isEmpty then s
    else
      let top : State → Nat := fun s => ls.foldl (fun m l => max m ((s.line l).rts + 1)) s.cur.sys.pts
      let s := s.rebaseFor s.launch.part (top s)
      let ts := top s
      (ls.foldl (fun s l => s.invalidate ts l) s).setPts ts)

/-! ### Bank descriptors (R356, R375, R376) -/

/-- A descriptor from its 128 bytes. -/
def bankDescOf (bs : List Byte) : BankDesc :=
  let w5 := wordAt bs 5
  { w := wordAt bs 0, x := wordAt bs 1, y := wordAt bs 2, crec := wordAt bs 3, rows := bitsOf (wordAt bs 4) 32 32
    k := bitsOf (wordAt bs 4) 0 32, seg := bitsOf w5 32 32, mode := bitsOf w5 0 4, pitch := (wordAt bs 6).toNat, scl := wordAt bs 7
    bnd := wordAt bs 8, rstart := (wordAt bs 9).toNat
    rsv := decide (bitsOf w5 4 28 ≠ 0) || [10, 11, 12, 13, 14, 15].any fun n => decide (wordAt bs n ≠ 0) }

/-- Output rows, or in mode 4 output lines. -/
def BankDesc.total (d : BankDesc) : Nat := if d.mode = 4 then d.k / 64 else d.rows

/-- Whether the fields alone break R356 or R375. -/
def BankDesc.bad (d : BankDesc) : Bool :=
  d.rsv || decide (5 ≤ d.mode) || decide (d.rows = 0) || decide (d.k < 32) || decide (2 ^ 20 < d.k) || decide (d.k % 32 ≠ 0)
    || decide (d.total ≤ d.rstart) || decide (d.crec.toNat % 32 ≠ 0)
    || (if d.mode = 4 then decide (d.rows ≠ 1) || decide (d.k % 64 ≠ 0) || decide (d.w.toNat % 128 ≠ 0) ||
          decide (d.x.toNat % 128 ≠ 0) || decide (d.y.toNat % 128 ≠ 0)
        else decide (d.seg % 32 ≠ 0) || decide (d.pitch % 128 ≠ 0))

/-- Bytes of a weight row. -/
def BankDesc.rowBytes (d : BankDesc) : Nat :=
  match d.mode with
  | 0 => 2 * d.k
  | 3 => d.k / 2
  | _ => d.k

/-- The ranges that the command reads of the weights and of the second operand, and the ones it writes (R137). -/
def BankDesc.weights (d : BankDesc) : List (Nat × Nat) :=
  if d.mode = 4 then [(d.w.toNat + 128 * d.rstart, 2 * d.k - 128 * d.rstart)]
  else (List.range (d.rows - d.rstart)).map fun i => (d.w.toNat + (d.rstart + i) * d.pitch, d.rowBytes)

def BankDesc.seconds (d : BankDesc) : List (Nat × Nat) :=
  match d.mode with
  | 4 => [(d.x.toNat + 128 * d.rstart, 2 * d.k - 128 * d.rstart)]
  | 3 => [(d.x.toNat, 32 * d.k)]
  | _ => [(d.x.toNat, 2 * d.k)]

def BankDesc.scales (d : BankDesc) : List (Nat × Nat) :=
  if d.mode = 3 then
    [(d.scl.toNat + d.rstart * (d.k / 8), (d.rows - d.rstart) * (d.k / 8)),
     (d.bnd.toNat + 2 * (d.rstart / 64), 2 * ((d.rows - 1) / 64 - d.rstart / 64 + 1))]
  else []

def BankDesc.output (d : BankDesc) : Nat × Nat :=
  if d.mode = 4 then (d.y.toNat + 128 * d.rstart, 2 * d.k - 128 * d.rstart) else (d.y.toNat + 4 * d.rstart, 4 * (d.rows - d.rstart))

/-- Needs of a bank command: host pages are told apart, and none of its accesses is an ordinary one. -/
def bankRd : Need := ⟨true, false, false, true, false⟩
def bankWr : Need := ⟨false, true, false, true, false⟩

/-- The pages of several ranges. -/
def rangesOf (s : State) (n : Need) (rs : List (Nat × Nat)) : Except (BitVec 8 × BitVec 8 × Word) (List PageAt) :=
  rs.foldl (fun acc r => match acc with
    | .error e => .error e
    | .ok l => match s.range n r.1 r.2 with
      | .error e => .error e
      | .ok m => .ok (l ++ m)) (.ok [])

/-- Whether a page is one that a bank command may use: HBM of this module. -/
def State.bankPage (s : State) (p : PageAt) : Bool := match p.place with
  | .phys pa => (s.stackOf pa).isSome
  | _ => false

/-- Whether pages lie in one stack. -/
def State.oneStack (s : State) (ps : List PageAt) : Bool :=
  let ks := ps.map fun p => match p.place with
    | .phys pa => s.stackOf pa
    | _ => none
  match ks with
  | [] => true
  | k :: t => t.all fun x => decide (x = k)

/-- The pins of translated pages. -/
def pinsOf (ps : List PageAt) : List Pin :=
  (ps.filterMap fun p => match p.place with
    | .phys pa => some ⟨p.va / Config.pageBytes * Config.pageBytes, pa / Config.pageBytes * Config.pageBytes, p.page⟩
    | _ => none).dedup

/-- BANKCMD (R137, R356). -/
def execBankcmd (d a : BitVec 6) (s : State) : Host.Outcome State Fault Refusal :=
  finish (regs2 s d a fun x =>
    match s.spot needRd x 128 3 with
    | .bad c e => if decide (c = 8) && s.memBusy then s.stall else s.trapHere c e x false
    | p =>
      if s.memBusy then s.stall
      else
        let r := s.load false p 128
        let s := r.2
        let z := bankDescOf (natBytes 128 r.1)
        let ops : Except (BitVec 8 × BitVec 8 × Word) (List PageAt × List PageAt × List PageAt) :=
          if z.bad then .ok ([], [], [])
          else match rangesOf s bankRd z.weights, rangesOf s bankRd z.scales, rangesOf s bankRd z.seconds, rangesOf s bankWr [z.output] with
            | .ok w, .ok c, .ok v, .ok y => .ok (w ++ v, c, y)
            | .error e, _, _, _ => .error e
            | _, .error e, _, _ => .error e
            | _, _, .error e, _ => .error e
            | _, _, _, .error e => .error e
        let rec_ := if z.crec = 0 ∨ z.crec.toNat % 32 ≠ 0 then (.ok [] : Except (BitVec 8 × BitVec 8 × Word) (List PageAt))
          else rangesOf s bankWr [(z.crec.toNat, 32)]
        match ops, rec_ with
        | .error e, _ => s.trapHere e.1 e.2.1 e.2.2 false
        | _, .error e => s.trapHere e.1 e.2.1 e.2.2 false
        | .ok o, .ok c =>
          let all := o.1 ++ o.2.1 ++ o.2.2 ++ c
          let bad := z.bad || (all.any fun p => !s.bankPage p) || (decide (z.mode = 3) && !s.oneStack o.1) ||
            (decide (z.mode = 4) && !s.oneStack (o.1 ++ o.2.2))
          let k : BankCmd :=
            { key := s.order, owner := s.cur.id.ctxid, launch := s.cur.id.launch, part := s.launch.part, asid := s.launch.asid, pc := s.cur.pc, tag := s.cur.nextTag
              desc := z, pins := pinsOf all, resume := z.rstart, paused := false, flags := 0, status := if bad then 7 else 0, ended := false }
          let t : Thread := { s.cur with nextTag := s.cur.nextTag + 1 }
          ({ s with cur := t, banks := s.banks ++ [k], order := s.order + 1 } : State).result d (BitVec.ofNat 64 s.cur.nextTag))

/-- BANKWAIT (R358). -/
def execBankwait (d a : BitVec 6) (s : State) : Host.Outcome State Fault Refusal :=
  finish (regs2 s d a fun x =>
    if s.cur.nextTag ≤ x.toNat then s.result d 7
    else if s.banks.all fun k => decide (k.owner ≠ s.cur.id.ctxid) || decide (x.toNat < k.tag) || k.ended then
      let st := ((s.banks.find? fun k => decide (k.owner = s.cur.id.ctxid ∧ k.tag = x.toNat)).map fun k => k.status).getD 0
      s.result d (BitVec.ofNat 64 st)
    else .wait (.banks x) s)

/-! ### What a row holds (R79 to R81, R357, R375) -/

/-- The physical place of an address under a command's pins. -/
def BankCmd.at_ (k : BankCmd) (va : Nat) : Option Nat :=
  (k.pins.find? fun p => decide (p.va = va / Config.pageBytes * Config.pageBytes)).map fun p => p.pa + va % Config.pageBytes

/-- n bytes of DRAM from an address on, each line whole; none where a line has an uncorrectable error. -/
def BankCmd.read (k : BankCmd) (s : State) (va n : Nat) : Option (List Byte) :=
  (spans va n).foldl (fun acc p => acc.bind fun l => (k.at_ p.1).bind fun pa =>
    if s.poisoned pa then none else some (l ++ s.dramBytes pa p.2)) (some [])

/-- Codes of n bytes each. -/
def codesOf (n : Nat) (bs : List Byte) : List Nat := (chunks n (bs.length / n) bs).map leNat

/-- Plain factors of a format. -/
def factorsOf (f : Fmt) (cs : List Nat) : List Factor := cs.map fun c => ⟨some (f.decode c), false⟩

/-- The K-group sums of a row entered in ascending order: segment by segment, each from its first value (R81). -/
def sumSegments (seg : Nat) (gs : List FRes) : FRes :=
  let add : FRes → FRes → FRes := fun a b =>
    let r := Fmt.sf.addV (Fmt.sf.decode a.code) (Fmt.sf.decode b.code)
    ⟨r.code, a.flags ||| b.flags ||| r.flags⟩
  let run : List FRes → FRes := fun l => match l with
    | [] => ⟨0, 0⟩
    | x :: t => t.foldl add x
  run ((chunks seg (gs.length / seg + 1) gs).filter (fun l => !l.isEmpty) |>.map run)

/-- A K-group of 32 table entries in LUT mode: the exact sum, which the rules of a press group govern (R65), of every entry times the scale of its
block of eight, times the band scale, rounded once to FP32 (R80). DESIGN CHOICE (log entry 104): the zeros of blocks whose scale is 0x00 belong to
that sum, so that a negative band scale turns the sign of a sum of them, and an infinite or NaN one makes it NaN, where R53 would leave zeros with
the signs of their codes. -/
def lutGroup (entries scales : List Nat) (band : Nat) : FRes :=
  let g := (entries.zip (List.range entries.length)).foldl (fun (g : GroupAcc) p =>
    let c := scales.getD (p.2 / 8) 0
    g.term false ⟨some (Fmt.bf.decode p.1), false⟩ ⟨some (scaleV c), c = 0xFF⟩) GroupAcc.init
  match mulV g.value (Fmt.bf.decode band) with
  | none => ⟨Fmt.sf.nan, g.flags ||| flagIf (g.pinf && g.ninf) fNV ||| fNV⟩
  | some v => let r := Fmt.sf.ofV v; ⟨r.code, r.flags ||| g.flags ||| flagIf (g.pinf && g.ninf) fNV⟩

/-- Output row r of modes 0 to 3: its FP32 code and flags, or none at an uncorrectable error. -/
def BankCmd.row (k : BankCmd) (s : State) (r : Nat) : Option FRes :=
  let d := k.desc
  let seg := if d.seg = 0 ∨ d.k ≤ d.seg then d.k / 32 else d.seg / 32
  (k.read s (d.w.toNat + r * d.pitch) d.rowBytes).bind fun w =>
    if d.mode = 3 then
      (k.read s d.x.toNat (32 * d.k)).bind fun x =>
      (k.read s (d.scl.toNat + r * (d.k / 8)) (d.k / 8)).bind fun sc =>
      (k.read s (d.bnd.toNat + 2 * (r / 64)) 2).bind fun bd =>
        let qs := (w.map fun b => [b.toNat % 16, b.toNat / 16]).flatten
        let es := (qs.zip (List.range d.k)).map fun p => leNat ((x.drop (32 * p.2 + 2 * p.1)).take 2)
        let ss := sc.map fun b => b.toNat
        some (sumSegments seg (((chunks 32 (d.k / 32) es).zip (chunks 4 (d.k / 32) ss)).map fun g => lutGroup g.1 g.2 (leNat bd)))
    else
      (k.read s d.x.toNat (2 * d.k)).bind fun x =>
        let f : Fmt := match d.mode with
          | 0 => .bf
          | 1 => .e4
          | _ => .e5
        let ws := chunks 32 (d.k / 32) (factorsOf f (codesOf (if d.mode = 0 then 2 else 1) w))
        let xs := chunks 32 (d.k / 32) (factorsOf .bf (codesOf 2 x))
        some (sumSegments seg ((ws.zip xs).map fun p => (groupSum false p.1 p.2).1))

/-- Output line r of mode 4: 64 sums, with their flags. -/
def BankCmd.line (k : BankCmd) (s : State) (r : Nat) : Option (List Byte × BitVec 8) :=
  let d := k.desc
  (k.read s (d.w.toNat + 128 * r) 128).bind fun w => (k.read s (d.x.toNat + 128 * r) 128).bind fun x =>
    let rs := ((codesOf 2 w).zip (codesOf 2 x)).map fun p => Fmt.bf.addV (Fmt.bf.decode p.1) (Fmt.bf.decode p.2)
    some ((rs.map fun z => natBytes 2 z.code).flatten, rs.foldl (fun f z => f ||| z.flags) 0)

/-- A command's record replaced. -/
def State.putBank (s : State) (k : BankCmd) : State := { s with banks := s.banks.map (fun x => if x.key = k.key then k else x) }

/-- What a line would hold once every cache is cleaned and invalidated. -/
def State.cleanedLine (s : State) (l : Nat) : LineData := if (s.line l).dirty then s.mem.line l else s.dramLine l

/-- Capture of a line that a bank command is about to write, for a pass of a profiling replay (R229; log entry 60). -/
def State.captureBank (s : State) (k : BankCmd) (l : Nat) : State :=
  s.record k.part (.mem l (s.cleanedLine l)) fun d => d.logPass (.mem l (s.cleanedLine l))

/-- The next output row or line written to DRAM, or none at an uncorrectable error. -/
def BankCmd.produce (k : BankCmd) (s : State) : Option (BankCmd × State) :=
  let d := k.desc
  let out : Option (Nat × List Byte × BitVec 8) :=
    if d.mode = 4 then (k.line s k.resume).map fun z => (d.y.toNat + 128 * k.resume, z.1, z.2)
    else (k.row s k.resume).map fun z => (d.y.toNat + 4 * k.resume, natBytes 4 z.code, z.flags)
  out.map fun z =>
    let s := (pieces z.2.1.length z.1 z.2.1).foldl (fun s p => match k.at_ p.1 with
      | some pa => (s.captureBank k (pa / 128)).dramWrite pa p.2
      | none => s) s
    ({ k with resume := k.resume + 1, flags := k.flags ||| (z.2.2 &&& 0x7E) }, s)

/-- Rows produced in ascending order; the status is MEMERR where one cannot be. -/
def produceRows : Nat → BankCmd → State → BankCmd × State
  | 0, k, s => (k, s)
  | n + 1, k, s =>
    match k.produce s with
    | some z => produceRows n z.1 z.2
    | none => ({ k with status := 3 }, s)

/-! ### How a command ends (R138, R202, R225, R346) -/

/-! ### Invalidations and pins (R202, R203) -/

/-- Whether an address of an ASID, mapped by a page of either size, lies in the scope of an invalidation; one whose entry has G set belongs to
every ASID (R193, R202). -/
def Inval.has (v : Inval) (asid va : Nat) (t : PageTag) : Bool :=
  let mine := t.glob || decide (bitsOf v.ctl 0 12 = asid)
  let n := if t.big then Config.bigPageBytes else Config.pageBytes
  match bitsOf v.ctl 16 2 with
  | 0 => mine && decide (bitsOf v.page 16 40 * Config.pageBytes / n = va / n)
  | 1 => mine
  | _ => true

/-- The bank commands of a partition that hold a pin in the scope of an invalidation. -/
def State.pinners (s : State) (p : Nat) (v : Inval) : List BankCmd :=
  s.banks.filter fun k => !k.ended && decide (k.part = p) && k.pins.any fun x => v.has k.asid x.va x.page

/-- Whether an access that a dropped translation served has yet to perform: a store that a DET thread, or an ended one, has buffered, or a send
to a catchword unit (R202). -/
def State.unperformed (s : State) (p : Nat) (v : Inval) : Bool :=
  let has := fun (l : Nat) (ds : List DetStore) => decide ((s.launchOf l).part = p) && ds.any fun d => !d.loc && v.has (s.launchOf l).asid d.va.toNat d.page
  (s.threads.any fun t => has t.id.launch t.det) || (s.launches.any fun l => l.left.any fun x => has l.id x.2)
    || s.sends.any fun x => decide ((s.launchOf x.launch).part = p) && v.has (s.launchOf x.launch).asid (recordVa x.base x.seq).toNat x.page

/-- Every invalidation that no pin and no outstanding access holds up any more is over: BUSY falls. -/
def State.settleInvals (s : State) : State :=
  { s with parts := s.parts.map (fun p =>
    match p.inval with
    | some v => if (s.pinners p.idx v).isEmpty && !s.unperformed p.idx v then { p with inval := none, k := { p.k with tinvc := setBits p.k.tinvc 62 1 0 } } else p
    | none => p) }

/-- The completion record, where the descriptor names one that can be written, and the pins released. -/
def State.bankEnd (s : State) (k : BankCmd) (status : Nat) : State :=
  let k := { k with status := status, ended := true, paused := false }
  let s := if k.desc.crec = 0 ∨ k.desc.crec.toNat % 32 ≠ 0 then s
    else match k.at_ k.desc.crec.toNat with
      | none => s
      | some pa =>
        if s.poisoned pa then s
        else (s.unitWrite k.part k.launch 0 [(pa, recordBytes 0 k.flags status k.tag k.resume)]).2
  s.putBank { k with pins := [] }

/-- A bank command that has not ended. -/
def State.bankRuns (s : State) (n : Nat) : Option BankCmd := s.banks.find? fun k => decide (k.key = n) && !k.ended

/-- BANK_COMMAND_COMPLETE: the rows that are left are produced, and the command ends. -/
def execBankCommandComplete (n : Nat) (s : State) : Host.Outcome State Fault Refusal :=
  stepOr s ((s.bankRuns n).bind fun k =>
    if k.paused then none
    else if k.status ≠ 0 then some (done (s.bankEnd k k.status))
    else
      let z := produceRows (k.desc.total - k.resume) k s
      some (done (z.2.bankEnd z.1 z.1.status)))

/-- BANK_COMMAND_PAUSE: the command pauses at resume index r, the rows below it produced. -/
def execBankCommandPause (n r : Nat) (s : State) : Host.Outcome State Fault Refusal :=
  stepOr s ((s.bankRuns n).bind fun k =>
    if k.paused ∨ k.status ≠ 0 ∨ r < k.resume ∨ k.desc.total ≤ r then none
    else
      let z := produceRows (r - k.resume) k s
      some (done (z.2.putBank { z.1 with paused := decide (z.1.status = 0) })))

/-- BANK_COMMAND_CONTINUE. -/
def execBankCommandContinue (n : Nat) (s : State) : Host.Outcome State Fault Refusal :=
  stepOr s ((s.bankRuns n).bind fun k => if k.paused then some (done (s.putBank { k with paused := false })) else none)

/-- BANK_UNIT_ERROR: the word is corrected and the command reruns from its resume index: nothing changes. -/
def execBankUnitError (n : Nat) (s : State) : Host.Outcome State Fault Refusal :=
  stepOr s ((s.bankRuns n).map fun _ => done s)

/-- The bank commands of a killed context cancelled at their resume index, with no record (R225). -/
def State.cancelBanks (s : State) (owner : Nat) : State :=
  { s with banks := s.banks.map (fun k => if k.owner = owner ∧ !k.ended then { k with ended := true, pins := [] } else k) }

/-! ### The end of waiting for pins (R202, R203) -/

/-- PIN_TIMEOUT_ABORT: LIM microseconds have passed since GO, and the commands that still pin abort at their resume index with status ABORT
and an event record. -/
def execPinTimeoutAbort (p : Nat) (s : State) : Host.Outcome State Fault Refusal :=
  stepOr s ((s.part? p).bind fun q => q.inval.bind fun v =>
    let lim := q.k.pintmo.toNat
    let ks := s.pinners p v
    if lim = 0 ∨ s.cycle < v.start + 800 * lim ∨ ks.isEmpty then none
    else
      let s := s.wake.modPart p fun x => { x with k := { x.k with tinvc := setBits x.k.tinvc 61 1 1 } }
      some (done (ks.foldl (fun s k => (s.bankEnd k 6).raiseEvent p
        { type := 4, ctxid := k.owner, cause := 0, epc := k.pc, badva := 0, id := k.resume, ch := 0, cycle := s.cycle }) s)))

end Sys2Proof.Machine
end

