-- ==== Sys2Proof/Machine/Complete.lean ====
section
/-!
DEFINITION. Complete: the oldest entry of a vector instruction queue performs (R29 to R33), the drain of a queue (R32, R216), the delivery
of a trap that waited for it (R211, R212), and errors met by the press (R221, R224).
-/
namespace Sys2Proof.Machine

/-- A VSETL marker (R276). -/
def doSetvl (s : State) (vl : Nat) (sew : BitVec 2) : Res Unit :=
  done ({ s with cur := { s.cur with sys := { s.cur.sys with vlg := BitVec.ofNat 14 vl, sewc := sew } } } : State).popQueue

/-- A press operand load. -/
def doPload (s : State) (q : QEntry) (isB reg : Bool) (fmt k : Nat) : Res Unit :=
  match isB, reg with
  | false, false => doPldaMem s q fmt k
  | false, true => doPldaReg s q fmt k
  | true, false => doPldbMem s q fmt k
  | true, true => doPldbReg s q fmt k

/-- What an entry does. -/
def perform (s : State) (q : QEntry) : Res Unit :=
  match q.op with
  | .int f m c t => doInt s q f m c t
  | .wide f m c t => doWide s q f m c t
  | .nclip g m c t => doNclip s q g m c t
  | .fp f m c t => doFp s q f m c t
  | .cmp f m c t => doCmp s q f m c t
  | .sel m c t => doSel s q m c t
  | .slide u m t => doSlide s q u m t
  | .gather m c t => doGather s q m c t
  | .merge t => doMerge s q t
  | .mlog f => doMlog s q f
  | .one f m t => doOne s q f m t
  | .splat m t => doSplat s q m t
  | .mvsx m t => doMvsx s q m t
  | .mvxs t => doMvxs s q t
  | .vid m t => doVid s q m t
  | .iota m t => doIota s q m t
  | .compress m t => doCompress s q m t
  | .red f m t => doRed s q f m t
  | .mpop m => doMpop s q m
  | .mfirst m => doMfirst s q m
  | .mnot m => doMnot s q m
  | .mpart f m => doMpart s q f m
  | .sortk m t => doSortk s q m t
  | .uniq m t => doUniq s q m t
  | .cvt f m t => doCvt s q f m t
  | .mem f m _ _ w => doMem s q f m w
  | .amo f m w => doAmo s q f m w
  | .setvl v w => doSetvl s v w
  | .bar b => doBar s b
  | .post k i => doPost s k i
  | .attach r => doAttach s q r
  | .detach => doDetach s q
  | .pload isB reg f k => doPload s q isB reg f k
  | .pmma sc c o k => doPmma s q sc c o k
  | .pzero c => doPzero s q c
  | .prdacc c => doPrdacc s q c
  | .pwracc c => doPwracc s q c
  | .ppub c ln => doPpub s q c ln
  | .pfin c => doPfin s q c
  | .tkarm => doTkarm s q
  | .tkdisarm => doTkdisarm s q
  | .tkemit d => doTkemit s q d
  | .tkconf => doTkconf s q
  | .reserved => vtrap s q 1 0 0

/-- The vector registers that an entry writes. -/
def QEntry.targets (s : State) (q : QEntry) : List Nat :=
  match q.op with
  | .mem f _ _ _ w => ((memUses s q f w).map fun u => u.dsts s).flatten
  | .amo _ _ w => s.group q.d w.bytes s.vl
  | .prdacc _ => s.group q.d 4 s.vl
  | _ => s.entryDsts q

/-- What an entry does, and once it has completed, the progress index of what it wrote at the granted length (R33). -/
def performWhole (s : State) (q : QEntry) : Res Unit :=
  (perform s q).seq fun t => done (if t.queue.length < s.queue.length then t.setRegProg (q.targets s) s.vl else t)

/-! ### Element-wise chaining (R33; log entry 30) -/

/-- The mask that an element-wise entry reads (0: none) and the mask that it writes; none where the entry is not element-wise. -/
def QEntry.chainMasks (q : QEntry) : Option (Nat × Option Nat) :=
  match q.op with
  | .int _ m _ _ => some (m.toNat, none)
  | .wide _ m _ _ => some (m.toNat, none)
  | .nclip _ m _ _ => some (m.toNat, none)
  | .fp _ m _ _ => some (m.toNat, none)
  | .cmp _ m _ _ => some (m.toNat, some q.d)
  | .sel m _ _ => some (m.toNat, none)
  | .one _ m _ => some (m.toNat, none)
  | .splat m _ => some (m.toNat, none)
  | .vid m _ => some (m.toNat, none)
  | .cvt .f4 _ _ => none
  | .cvt .fromf4 _ _ => none
  | .cvt _ m _ => some (m.toNat, none)
  | _ => none

/-- An entry of the queue that has not completed, as the interlock sees it: its register uses, the masks that it reads and writes, and its
progress index. -/
structure InFlight where
  uses : List RegUse
  rmask : Nat
  wmask : Option Nat
  prog : Nat

/-- The trapping entry as the entries behind it see it, where it works element by element. -/
def State.headFlight (s : State) (q : QEntry) : Option InFlight :=
  match q.op with
  | .mem f m _ _ w => some ⟨memUses s q f w, m.toNat, none, q.prog⟩
  | _ => q.chainMasks.map fun k => ⟨(vframe s q).uses, k.1, k.2, q.prog⟩

/-- First register and element size of a use of a vector group. -/
def RegUse.shape : RegUse → Option (Nat × Nat)
  | .dst n e _ _ => some (n, e)
  | .src n e _ _ => some (n, e)
  | _ => none

/-- Whether one of two uses writes a register that the other names. -/
def RegUse.depends (s : State) (a b : RegUse) : Bool :=
  (a.dsts s).any (fun r => (b.dsts s).contains r || (b.srcs s).contains r) || (b.dsts s).any fun r => (a.srcs s).contains r

/-- How far an older entry lets a younger one go: to its own progress index where they share elements one by one, not at all where they share
registers otherwise. -/
def InFlight.limit (s : State) (old new : InFlight) : Nat :=
  let shared := (new.uses.map fun a => (old.uses.filter fun b => a.depends s b).map fun b => (a, b)).flatten
  let regs := if shared.isEmpty then s.vl else if shared.all fun p => decide (p.1.shape = p.2.shape ∧ p.1.shape.isSome) then old.prog else 0
  let masks := decide (old.wmask.isSome ∧ (old.wmask = some new.rmask ∨ old.wmask = new.wmask)) ||
    decide (new.wmask.isSome ∧ new.wmask = some old.rmask)
  if masks then min regs old.prog else regs

/-- Whether an entry could be performed now, on settled registers and without a stream. -/
def State.chainable (s : State) (q : QEntry) : Bool :=
  let srcs := s.entrySrcs q
  let dsts := s.entryDsts q
  (s.checkFrame q).isNone && (srcs ++ dsts).all fun r => decide (s.tag r = 0) && !s.isStream r && !s.isHeld r

/-- The elements of an entry from its progress index up to a limit, performed out of turn. The answer is the entry as it then stands. -/
def State.ahead (s : State) (q : QEntry) (n : Nat) : Option (QEntry × State) :=
  if n ≤ q.prog then some (q, s)
  else
    let s1 : State := { s with cur := { s.cur with vec := { s.cur.vec with queue := [{ q with upto := some n }] } } }
    match perform s1 { q with upto := some n } with
    | .ok _ t => some ({ q with prog := n }, { t with cur := { t.cur with vec := { t.cur.vec with queue := s.cur.vec.queue } } })
    | _ => none

/-- The entries behind a trap, oldest first, each as far as the ones in flight before it let it; the first that is not element-wise, or
cannot be performed, ends the chain. -/
def chainOn (s : State) (old : List InFlight) : List QEntry → List QEntry × State
  | [] => ([], s)
  | q :: t =>
    match q.chainMasks with
    | none => (q :: t, s)
    | some k =>
      if s.chainable q then
        let me : InFlight := ⟨(vframe s q).uses, k.1, k.2, q.prog⟩
        let lim := old.foldl (fun n o => min n (o.limit s me)) s.vl
        match s.ahead q lim with
        | none => (q :: t, s)
        | some r =>
          let z := chainOn r.2 (old ++ [{ me with prog := r.1.prog }]) t
          (r.1 :: z.1, z.2)
      else (q :: t, s)

/-- The progress index of every register that an entry of the queue is to write: that of the oldest such entry, 0 where it has written nothing yet
(R33). A VSETL marker changes the length of what stands behind it. -/
def flightOn (s : State) (t : State) : List Nat → List QEntry → State
  | _, [] => t
  | seen, q :: l =>
    let mine := ((q.targets s).filter fun r => !seen.contains r && decide (r < s.nv)).dedup
    let s1 : State := match q.op with
      | .setvl v w => { s with cur := { s.cur with sys := { s.cur.sys with vlg := BitVec.ofNat 14 v, sewc := w } } }
      | _ => s
    flightOn s1 (t.setRegProg mine q.prog) (mine ++ seen) l

/-- The register directory as the interlock sees it while entries stand in the queue (R33). -/
def State.flight (s : State) : State := flightOn s s [] s.queue

/-- A vector trap of the oldest entry: the younger element-wise entries have gone as far as the interlock lets them, and stay in the queue
with the progress that they reached (R31, R33). -/
def State.chained (s : State) : State :=
  match s.queue with
  | [] => s
  | q :: t => match s.headFlight q with
    | none => s
    | some h =>
      let r := chainOn s [h] t
      { r.2 with cur := { r.2.cur with vec := { r.2.cur.vec with queue := q :: r.1 } } }

/-! ### The head of the queue and the drain -/

/-- The oldest entry performs, with the lanes unless it is a marker. A trap leaves the register directory as R33 has it. -/
def completeHead (s : State) : Res Unit :=
  match s.queue with
  | [] => done s
  | q :: _ =>
    if q.op.isMarker then perform s q
    else match s.lanes with
      | none => .wait (.again) s.queueForLanes
      | some s => match performWhole s q with
        | .trap t u => if t.vs then .trap t u.chained.flight else .trap t u
        | r => r

/-- Whether the entry at the head, which waits, is one that cannot proceed: an unfired marker, or an instruction that a lineage stalls
(R216). -/
def State.cannotProceed (s : State) (w : Watch) : Bool :=
  decide (w = .lineage) || (s.queue.head?.map fun q => match q.op with
    | .bar _ => true
    | .post _ _ => true
    | _ => false).getD false

/-- The drain: entries complete in order until one cannot proceed, which stays with all behind it (R216). One that has to wait for something
else still completes first: the drain is not over. `fuel` bounds the entries. -/
def drain : Nat → State → Res Unit
  | 0, s => done s
  | n + 1, s =>
    if s.queue.isEmpty then done s
    else match completeHead s with
      | .ok _ s => drain n s
      | .trap t s => .trap t s
      | .wait w s => if s.cannotProceed w then done s.flight else .wait w s
      | .hole p => .hole p

/-- The queue drained, then what waited for it; where an entry has yet to complete, the request comes again. -/
def State.drained (s : State) (f : State → Res Unit) : Res Unit :=
  match drain (s.queue.length) s with
  | .ok _ t => f t
  | .wait _ t => done t
  | .trap t u => .trap t u
  | .hole p => .hole p

/-- VECTOR_INSTRUCTION_COMPLETE: the oldest entry of a resident context performs; one that has to wait stays. -/
def execVectorInstructionComplete (c : Nat) (s : State) : Host.Outcome State Fault Refusal :=
  match s.focus c with
  | none => .next s
  | some t =>
    if t.cur.st = .running then
      match completeHead t with
      | .wait _ u => .next u
      | r => finish r
    else .next s

/-- TRAP_DELIVERY: the queue has drained, and the scalar trap is delivered; a vector trap met in the drain is delivered instead (R31,
R211). -/
def execTrapDelivery (c : Nat) (s : State) : Host.Outcome State Fault Refusal :=
  stepOr s ((s.focus c).bind fun s =>
    match decide (s.cur.st = .running), s.cur.trap with
    | true, some t => some (s.drained fun s => s.deliver t)
    | _, _ => none)

/-- The current thread, its queue drained, gives up its hardware context (R216). A scalar trap that was to be delivered is delivered. -/
def State.saveDrained (s : State) : Res Unit :=
  match s.cur.trap with
  | some t => s.deliver t
  | none => s.saveCur (if s.cur.waiting then .savedWaiting else .saved)

/-- PRESS_ERROR_RERUN: the oldest entry's multiply or finish meets an error and is rerun, with no effect on any value; a second failure
raises the press error trap (R221, R224). -/
def execPressErrorRerun (c : Nat) (again : Bool) (s : State) : Host.Outcome State Fault Refusal :=
  stepOr s ((s.focus c).bind fun s =>
    match decide (s.cur.st = .running), s.queue with
    | true, q :: _ => match q.op.accOf with
      | some a => some (if again then (match pressError s q a with
        | .trap t u => .trap t u.flight
        | r => r) else done s)
      | none => none
    | _, _ => none)

end Sys2Proof.Machine
end

