-- ==== Sys2Proof/Machine/Control.lean ====
section
/-!
DEFINITION. Control: branches and jumps (R268 to R271).
-/
namespace Sys2Proof.Machine

/-- A taken transfer (R232, R268): a misaligned target, then one beyond the address space, traps with BADVA the target and no other
effect; else `f` writes the link register and control goes to the target. -/
def transfer (s : State) (t : Word) (f : State → State) : Res Unit :=
  if t.toNat % 4 ≠ 0 then s.trapHere 2 2 t false
  else if Config.vaTop ≤ t.toNat then s.trapHere 3 2 t false
  else done ((f s).goto t)

/-- A conditional branch (R269); its outcome enters the path digest (R229). -/
def branch (s : State) (a b : BitVec 6) (d : BitVec 13) (c : Word → Word → Bool) : Res Unit :=
  readG s a 2 fun x => readG s b 3 fun y =>
    if c x y then transfer s (s.cur.pc + BitVec.ofInt 64 (d.toInt * 4)) fun s => s.note 1 else done (s.note 0).retire

/-- BEQ. -/
def execBeq (a b : BitVec 6) (d : BitVec 13) (s : State) : Host.Outcome State Fault Refusal :=
  finish (branch s a b d fun x y => decide (x = y))

/-- BNE. -/
def execBne (a b : BitVec 6) (d : BitVec 13) (s : State) : Host.Outcome State Fault Refusal :=
  finish (branch s a b d fun x y => decide (x ≠ y))

/-- BLT. -/
def execBlt (a b : BitVec 6) (d : BitVec 13) (s : State) : Host.Outcome State Fault Refusal :=
  finish (branch s a b d fun x y => decide (x.toInt < y.toInt))

/-- BGE. -/
def execBge (a b : BitVec 6) (d : BitVec 13) (s : State) : Host.Outcome State Fault Refusal :=
  finish (branch s a b d fun x y => decide (y.toInt ≤ x.toInt))

/-- BLTU. -/
def execBltu (a b : BitVec 6) (d : BitVec 13) (s : State) : Host.Outcome State Fault Refusal :=
  finish (branch s a b d fun x y => decide (x.toNat < y.toNat))

/-- BGEU. -/
def execBgeu (a b : BitVec 6) (d : BitVec 13) (s : State) : Host.Outcome State Fault Refusal :=
  finish (branch s a b d fun x y => decide (y.toNat ≤ x.toNat))

/-- The target of J and JAL (R270). -/
def jumpTarget (s : State) (d : BitVec 25) : Word := s.cur.pc + BitVec.ofInt 64 (d.toInt * 4)

/-- J. -/
def execJ (d : BitVec 25) (s : State) : Host.Outcome State Fault Refusal := finish (transfer s (jumpTarget s d) id)

/-- JAL: g31 takes the address of the next word. -/
def execJal (d : BitVec 25) (s : State) : Host.Outcome State Fault Refusal :=
  finish (checkG s 31 1 (transfer s (jumpTarget s d) fun s => s.setX 31 (s.cur.pc + 4)))

/-- JALR (R271): the target is formed from the old X[A]. -/
def execJalr (d a : BitVec 6) (i : BitVec 13) (s : State) : Host.Outcome State Fault Refusal :=
  finish (regs2 s d a fun x =>
    transfer s (x + BitVec.ofInt 64 (i.toInt * 4)) fun s => s.setX d.toNat (s.cur.pc + 4))

end Sys2Proof.Machine
end

