-- ==== Sys2Proof/Machine/Loops.lean ====
section
/-!
DEFINITION. Loops: LMARK and LEND, the trace of the demonstration, and the replay at the home collator (R166 to R178, R359, R360, R373).
-/
namespace Sys2Proof.Machine

/-! ### LMARK (R166, R359) -/

/-- The home collator of a core: its section and slice (R10). -/
def Place.collator (p : Place) : Nat := p.sect * 32 + (4 * p.unit + p.core) % 32

/-- Loop slots of a collator (R166). -/
def loopSlots : Nat := 4

/-- Why a loop is not captured, the lowest code first (R166, R174). -/
def State.notCaptured (s : State) (n d : Nat) : Option (BitVec 8) :=
  if s.cur.id.place.isBase then some 0x10
  else if n ≤ d ∨ 2 ^ 32 - 1 < n then some 0x11
  else if loopSlots ≤ (Tab.get s.slots (Place.collator s.cur.id.place)).getD 0 then some 0x12
  else if s.isDet then some 0x13
  else none

/-- LSTAT and the loop instance set. -/
def State.setLoop (s : State) (l : Option Loop) (st : BitVec 4) (why : BitVec 8) : State :=
  { s with cur := { s.cur with loop := l, sys := { s.cur.sys with lstate := st, lwhy := why } } }

/-- A loop instance as LMARK opens it. -/
def State.newLoop (s : State) (a n d : Nat) : Loop :=
  { reg := a, pc := s.cur.pc, d := d, n := n, it := 0, first := [], trace := [], base0 := [], base1 := []
    slot := Place.collator s.cur.id.place, next := d, lanes := 0, rts := 0, flags := 0, g := s.cur.g, vec := s.cur.vec, sys := s.cur.sys
    out := none }

/-- LMARK. -/
def execLmark (a : BitVec 6) (d : BitVec 3) (s : State) : Host.Outcome State Fault Refusal :=
  finish (readG s a 2 fun x =>
    let s := s.abandon 0x01
    match s.notCaptured x.toNat d.toNat with
    | some why => done (s.setLoop none 6 why).retire
    | none =>
      let l := s.newLoop a.toNat x.toNat d.toNat
      let s := { s with slots := Tab.set s.slots l.slot ((Tab.get s.slots l.slot).getD 0 + 1) }
      done (s.setLoop (some l) 1 0).retire)

/-! ### What can be captured (R167) -/

/-- Whether a pushed operation belongs to the capturable subset; a VSETL is told apart. -/
def QOp.capturable : QOp → Bool
  | .int _ _ _ _ => true
  | .wide _ _ _ _ => true
  | .nclip _ _ _ _ => true
  | .fp _ _ _ _ => true
  | .cmp _ _ _ _ => true
  | .sel _ _ _ => true
  | .one _ _ _ => true
  | .splat _ _ => true
  | .mvsx _ _ => true
  | .vid _ _ => true
  | .iota _ _ => true
  | .compress _ _ => true
  | .cvt _ _ _ => true
  | .mem f _ _ _ _ => decide (f ≠ .ldff) && decide (f ≠ .ldsc)
  | .setvl _ _ => true
  | _ => false

/-- The register uses of an entry of the subset (R296). -/
def entryUses (s : State) (q : QEntry) : List RegUse :=
  match q.op with
  | .mem f _ _ _ w => memUses s q f w
  | _ => (vframe s q).uses

/-- The vector registers that an entry names. -/
def entryRegs (s : State) (q : QEntry) : List Nat := ((entryUses s q).map fun u => u.dsts s ++ u.srcs s).flatten.dedup

/-- A traced vector memory instruction, with its element width. -/
def Traced.memWidth (x : Traced) : Option Nat :=
  match x.entry with
  | some q => match q.op with
    | .mem _ _ _ _ w => some w.bytes
    | _ => none
  | none => none

/-- Whether a traced instruction is a load. -/
def Traced.isLoad (x : Traced) : Bool :=
  match x.entry with
  | some q => match q.op with
    | .mem f _ _ _ _ => !f.isStore
    | _ => false
  | none => false

/-- Scalar registers that a body writes as induction registers, and as destination of its VSETL. -/
def inductionRegs (tr : List Traced) : List Nat := (tr.filterMap fun x => x.ind.map fun i => i.1).dedup
def vsetlRegs (tr : List Traced) : List Nat := tr.filterMap fun x => x.vset.map fun v => v.1

/-- Whether the index registers of an indexed access were last written, in this iteration, by a load. -/
def indexLoaded (s : State) (before : List Traced) (x : Traced) : Bool :=
  match x.entry with
  | some q => match q.op with
    | .mem f _ _ _ _ =>
      !f.isIndexed || ((s.group q.b 4 s.vl).all fun r => ((before.reverse.find? fun y => y.dsts.contains r).map fun y => y.isLoad).getD false)
    | _ => true
  | none => true

/-- The first code of R174 that the trace of an iteration gives rise to so far. An element stride register of VLDS or VSTS takes no part in it: where
the body itself changes that register, so that it is not the loop-invariant one of which R169 speaks, the replay steps it as the core would
(DESIGN CHOICE, log entry 59). -/
def bodyWhy (s : State) (l : Loop) (before : List Traced) (x : Traced) (ok : Bool) : Option (BitVec 8) :=
  let tr := before ++ [x]
  let regs := (tr.map fun y => y.regs).flatten.dedup
  let wr := inductionRegs tr ++ vsetlRegs tr
  let incs := tr.filterMap fun y => y.ind.bind fun i => i.2.1
  if !ok then some 0x01
  else if 48 < tr.length then some 0x02
  else if 16 < regs.length then some 0x03
  else if 12 < (tr.filter fun y => y.memWidth.isSome).length then some 0x04
  else if decide (8 < (inductionRegs tr).length) || (incs.any fun r => wr.contains r) || wr.contains l.reg then some 0x05
  else if 1 < (vsetlRegs tr).length then some 0x06
  else if !indexLoaded s before x then some 0x09
  else none

/-- The bases of the vector memory instructions of a trace. -/
def basesOf (tr : List Traced) : List Word := (tr.filter fun y => y.memWidth.isSome).map fun y => y.xa

/-- Whether a vector memory instruction's address is affine (R169): the j-th of iteration i. -/
def affine (l : Loop) (j : Nat) (x : Traced) : Bool :=
  match x.memWidth with
  | none => true
  | some w =>
    let b := l.base0.getD j 0
    let st := if l.it = 1 then x.xa - b else l.base1.getD j 0 - b
    decide (st.toInt % w = 0) && decide (x.xa = b + BitVec.ofNat 64 l.it * st)

/-- The code that a traced instruction of a later iteration gives rise to: its strip may be longer, so the limits are tested again. Where several
hold R174 gives no order: 0x07 stands before the codes of `bodyWhy` (0x01 to 0x06, then 0x09), and 0x08 comes last. DESIGN CHOICE, log entry 59. -/
def laterWhy (s : State) (l : Loop) (x : Traced) (ok : Bool) : Option (BitVec 8) :=
  if ((l.first[l.trace.length]?).map fun y => y.word) ≠ some x.word then some 0x07
  else (bodyWhy s l l.trace x ok).or (if !affine l (basesOf l.trace).length x then some 0x08 else none)

/-- The code that the end of an iteration gives rise to. -/
def endWhy (l : Loop) : Option (BitVec 8) :=
  if l.it = 0 then
    match l.trace.filterMap fun x => x.vset with
    | [v] => if (inductionRegs l.trace).contains v.2.1 then none else some 0x06
    | _ => some 0x06
  else if l.trace.length ≠ l.first.length then some 0x07
  else none

/-- An instruction that a thread in demonstration has completed, traced and checked (R168). `s` is the state before it. DESIGN CHOICE (log
entry 95): one that names the buffer register of a bound stream is outside the subset. -/
def State.traceInstr (s : State) (w : BitVec 32) (i : Instr) (t : State) : State :=
  match t.cur.loop with
  | none => t
  | some l =>
    if t.cur.sys.lstate ≠ 1 then t
    else match i with
      | .lmark _ _ => t
      | .lend _ _ => t
      | _ =>
        let q : Option QEntry := if s.queue.length < t.queue.length then t.queue.getLast? else none
        let q := match q with
          | some e => if e.pc = s.cur.pc then some e else none
          | none => none
        let ind : Option (Nat × Option Nat × Word) := match i with
          | .add d a b => if d = a then some (d.toNat, some b.toNat, 0) else none
          | .addi d a k => if d = a then some (d.toNat, none, BitVec.ofInt 64 k.toInt) else none
          | _ => none
        let vset : Option (Nat × Nat × Nat × Wid) := match i with
          | .vsetl d a b w => some (d.toNat, a.toNat, b.toNat, w)
          | _ => none
        let vl := match (s.queue.filterMap fun e => match e.op with
            | .setvl v _ => some v
            | _ => none).getLast? with
          | some v => v
          | none => s.vl
        let u : State := { t with cur := { t.cur with sys := { t.cur.sys with vlg := BitVec.ofNat 14 vl } } }
        let regs := (q.map fun e => entryRegs u e).getD []
        let dsts := (q.map fun e => ((entryUses u e).map fun r => r.dsts u).flatten).getD []
        let x : Traced := ⟨w, (q.map fun e => e.xa).getD 0, (q.map fun e => e.xb).getD 0, q, regs, dsts, vset, ind⟩
        let ok := ind.isSome || ((q.map fun e => e.op.capturable).getD false && !regs.any u.isBuffer)
        let why := if l.it = 0 then bodyWhy u l l.trace x ok else laterWhy u l x ok
        match why with
        | some c => t.abandon c
        | none => { t with cur := { t.cur with loop := some { l with trace := l.trace ++ [x] } } }

/-! ### LEND (R170, R360) -/

/-- The lanes pass to a borrower for the length of the wait (R155). -/
def State.lendLanes (s : State) : State :=
  let k := s.core s.cur.id.place
  if k.holder = some s.cur.id.ctxid then (s.setCore s.cur.id.place { (k.without s.cur.id.ctxid) with lenders := k.lenders ++ [s.cur.id.ctxid] }).passLanes s.cur.id.place
  else s

/-- The end of an iteration of the demonstration, short of the last: the next one begins. -/
def Loop.advance (l : Loop) : Loop :=
  { l with
    it := l.it + 1
    first := if l.it = 0 then l.trace else l.first
    base0 := if l.it = 0 then basesOf l.trace else l.base0
    base1 := if l.it = 1 then basesOf l.trace else l.base1
    trace := [] }

/-- The confirmation (R170): the collator takes its copies, and the thread waits. -/
def State.confirm (s : State) (l : Loop) : State :=
  let l := { l.advance with
    next := l.d, lanes := (s.core s.cur.id.place).grant, rts := s.cur.sys.pts, flags := 0, g := s.cur.g, vec := s.cur.vec, sys := s.cur.sys }
  (s.setLoop (some l) 2 0).lendLanes

/-- LEND's transfer: the count goes down and what becomes of the capture happens; then back to its target while iterations are left. A transfer
that traps has no effect (R268). -/
def lendJump (s : State) (a : BitVec 6) (d : BitVec 13) (f : State → State) : Res Unit :=
  let x := s.x a.toNat - 1
  let g := fun s : State => (f s).setX a.toNat x
  if x ≠ 0 then transfer s (s.cur.pc + BitVec.ofInt 64 (d.toInt * 4)) g else done (g s).retire

/-- LEND. While the collator replays, the thread waits here, also where it has been restored after a trap or a stop (R176). -/
def execLend (a : BitVec 6) (d : BitVec 13) (s : State) : Host.Outcome State Fault Refusal :=
  finish (if s.cur.sys.lstate = 2 then .wait .replay s
    else checkG s a 2 (
      match s.cur.loop, decide (s.cur.sys.lstate = 1) with
      | some l, true =>
        if a.toNat ≠ l.reg ∨ s.cur.pc + BitVec.ofInt 64 (d.toInt * 4) ≠ l.pc + 4 then lendJump s a d fun s => s.abandon 0x01
        else match endWhy l with
          | some c => lendJump s a d fun s => s.abandon c
          | none =>
            if l.it + 1 < l.d then lendJump s a d fun s => { s with cur := { s.cur with loop := some l.advance } }
            else if !s.queue.isEmpty then s.stall
            else .wait .replay ((s.setX a.toNat (s.x a.toNat - 1)).confirm l)
      | _, _ => lendJump s a d id))

/-! ### Replay (R171 to R173) -/

/-- A store of an iteration: checked, and kept for the end of the iteration. The later loads of the iteration see it. -/
def stageStore (s : State) (q : QEntry) (f : VMemOp) (m : BitVec 3) (w : Wid) : Res Unit :=
  memFrame s q (s.vlmax w.bytes) (memUses s q f w) fun _ =>
    let offs := if f.isIndexed then s.offsets q else []
    let els := s.actives m
    let r := checked s needWr f q w offs els
    match r.2 with
    | some (i, e) => vtrap (s.stopAt i offs) q e.code e.detail e.ea
    | none =>
      let data := (List.range (f.fields q)).map fun j => s.elems (q.d + j) w.bytes s.vl
      let keep := r.1.filter fun p => !losesTo f q w.bytes offs els p.1
      let ds := (keep.map fun p => (p.2.zip (data.map fun c => c.getD p.1 0)).filterMap fun z =>
        match z.1.2 with
        | .phys pa => some (⟨z.1.1, pa, false, ⟨false, false⟩, true, q.vmpol, natBytes w.bytes z.2⟩ : DetStore)
        | .loc off => some ⟨z.1.1, off, true, ⟨false, false⟩, true, 0, natBytes w.bytes z.2⟩
        | _ => none).flatten
      done ({ s with cur := { s.cur with det := s.cur.det ++ ds } } : State).popQueue

/-- Which of A and B an operation captures as scalars (R20). -/
def QOp.capturesA : QOp → Bool
  | .mem _ _ _ _ _ => true
  | .splat _ _ => true
  | .mvsx _ _ => true
  | _ => false

def QOp.capturesB : QOp → Bool
  | .int _ _ c _ => c
  | .wide _ _ c _ => c
  | .nclip _ _ c _ => c
  | .fp _ _ c _ => c
  | .cmp _ _ c _ => c
  | .sel _ c _ => c
  | .mem f _ _ _ _ => f.isStrided
  | _ => false

/-- An entry as the replay engine runs it, with the scalars of its iteration. -/
def State.replayEntry (s : State) (q : QEntry) : QEntry :=
  { q with
    xa := if q.op.capturesA then s.x q.a else 0
    xb := if q.op.capturesB then s.x q.b else 0
    prog := 0
    hold := [] }

/-- One instruction of the body, with the effect it has on a core. -/
def replayOne (l : Loop) (s : State) (x : Traced) : Res Unit :=
  match x.ind, x.vset, x.entry with
  | some (r, inc, v), _, _ =>
    done (s.setX r (s.x r + (match inc with
      | some b => s.x b
      | none => v)))
  | _, some (d, a, b, w), e =>
    let g := s.granted w (s.x a).toNat (if b = 0 then 2 ^ 64 - 1 else (s.x b).toNat) l.lanes
    s.closeStrip.seq fun s =>
      let s := (s.openStrip true ((e.map fun q => q.pc).getD 0) g).note (BitVec.ofNat 64 g)
      let y : Sys := { s.cur.sys with vlg := BitVec.ofNat 14 g, sewc := BitVec.ofNat 2 w.num }
      done (({ s with cur := { s.cur with sys := y } } : State).setX d (BitVec.ofNat 64 g))
  | _, _, some q =>
    let q := s.replayEntry q
    let v : Vec := { s.cur.vec with queue := [q] }
    let s : State := { s with cur := { s.cur with vec := v } }
    match q.op with
    | .mem f m _ _ w => if f.isStore then stageStore s q f m w else performWhole s q
    | _ => performWhole s q
  | _, _, _ => done s

/-- The body in order. Where two instructions of one replayed iteration would trap, WHY reports the first in the order of the body, a store
earlier in it before a later load. DESIGN CHOICE, log entry 59. -/
def replayBody (l : Loop) : List Traced → State → Res Unit
  | [], s => done s
  | x :: t, s => (replayOne l s x).seq fun s => replayBody l t s

/-- The rebases of the current thread's domain so far. -/
def State.rebaseCount (s : State) : Nat := ((s.curPart).map fun p => p.rebases.toNat).getD 0

/-- Every cluster by another number: its scalar L1s, its L2, its gathered lines, and the lines that it owns. -/
def State.renumber (s : State) (f : Nat → Nat) : State :=
  { s with
    copies := s.copies.map (fun c => { c with home := if c.l1 then f (c.home / 8) * 8 + c.home % 8 else f c.home })
    gathered := s.gathered.map (fun g => { g with cluster := f g.cluster })
    lines := s.lines.map (fun l => (l.1, { l.2 with owner := l.2.owner.map f })) }

/-- Numbers above those of the clusters: the prefetched copies of a collator (R171), and a cluster that stands aside. -/
def prefetchHome (slot : Nat) : Nat := 256 + slot
def asideHome (cl : Nat) : Nat := 512 + cl

/-- The machine as the replay engine acts in it for one iteration: the collator's copies stand for the thread's registers, and its prefetched
copies for those of the cluster, whose own stand aside (R171). -/
def State.asReplay (s : State) (l : Loop) (i : Nat) : State :=
  let cl := s.cur.id.place.cluster
  let c : Thread := { s.cur with st := .running, g := l.g, vec := { l.vec with queue := [] }, sys := { l.sys with pts := l.rts, vstat := 0 }, det := [] }
  (({ s with cur := c } : State).renumber fun n => if n = cl then asideHome cl else if n = prefetchHome l.slot then cl else n).setX l.reg
    (BitVec.ofNat 64 (l.n - i))

/-- The clusters numbered as before; the replay engine owns no line. -/
def State.afterReplay (s : State) (l : Loop) : State :=
  let cl := s.cur.id.place.cluster
  let s : State := { s with lines := s.lines.map (fun x => if x.2.owner = some cl then (x.1, { x.2 with owner := none }) else x) }
  s.renumber fun n => if n = cl then prefetchHome l.slot else if n = asideHome cl then cl else n

/-- A timestamp after the rebases that took place meanwhile. -/
def rebased (n t : Nat) : Nat := t - n * Config.rebaseBy

/-- WHY of a departure by the trap that a replayed instruction meets (R174). -/
def departWhy (t : Trap) : BitVec 8 :=
  match t.code with
  | 3 => 0x20
  | 4 => 0x21
  | 2 => 0x22
  | 8 => 0x23
  | _ => 0x25

/-- The outcome of a replay delivered to the thread, into its save image where it is saved (R172, R173, R176). DESIGN CHOICE (log entry 121): the
whole image is written from the thread's record, so that what the kernel has rewritten in it since the save is lost (R212). -/
def State.deliverLoop (s : State) (l : Loop) (st : BitVec 4) (why : BitVec 8) (pc : Word) : Res Unit :=
  let behind := if s.cur.st = .running then 0 else (s.rebaseCount - s.cur.saveRebases) * Config.rebaseBy
  let y := s.cur.sys
  let skipped := match s.curPart with
    | some p => p.selects s.cur.id.ctxid && p.db.dbstop.getLsbD 63 && decide (y.stripc.toNat ≤ bitsOf p.db.dbstop 0 63) &&
        decide (bitsOf p.db.dbstop 0 63 < l.sys.stripc.toNat)
    | none => false
  let y : Sys := { y with
    vlg := l.sys.vlg, sewc := l.sys.sewc, stripc := l.sys.stripc, vstat := y.vstat ||| l.flags
    pts := max (y.pts - behind) l.rts + behind, lstate := st, lwhy := why, lhand := if st = 5 then BitVec.ofNat 32 l.next else y.lhand }
  let v : Vec := { s.cur.vec with vrf := l.vec.vrf, masks := l.vec.masks, regs := l.vec.regs, src := l.vec.src }
  let c : Thread := { s.cur with
    g := l.g, sys := y, vec := v, pc := pc, resume := pc, wait := none, stalled := false, loop := none, retired := s.cur.retired + 1
    stopDue := s.cur.stopDue || skipped }
  let s := ((({ s with cur := c } : State).setX l.reg (BitVec.ofNat 64 (l.n - l.next))).freeSlot l.slot).passLanes s.cur.id.place
  match decide (s.cur.st = .running), s.curPart with
  | false, some p => s.writeImage p
  | _, _ => done s

/-- Whether the outcome of a replay can reach the thread: it is resident, or its save image is in memory (R176, R220). -/
def State.reachable (s : State) : Bool := decide (s.cur.st = .running) || s.imageIn s.cur

/-- The outcome of a replay delivered, or, while the thread's image is paged out, kept by the collator until it can be. DESIGN CHOICE (log entry
114): no rule says what becomes of an outcome whose image is paged out. -/
def State.outcome (s : State) (l : Loop) (st : BitVec 4) (why : BitVec 8) : Res Unit :=
  if s.reachable then s.deliverLoop l st why (if st = 5 then l.pc + 4 else s.cur.pc + 4)
  else done { s with cur := { s.cur with loop := some { l with out := some (st, why) } } }

/-- A departure at the loop's next iteration. -/
def State.depart (s : State) (l : Loop) (why : BitVec 8) : Res Unit := s.outcome l 5 why

/-- One iteration committed, or the departure that it meets; none where it has to wait. -/
def State.replayNext (s : State) (l : Loop) : Option (Res Unit) :=
  let u := s.asReplay l l.next
  match replayBody l l.first u with
  | .trap t _ => some (s.depart l (departWhy t))
  | .wait _ _ => none
  | .hole p => some (.hole p)
  | .ok _ v =>
    let v := v.performStores v.cur.det
    let n := v.rebaseCount - s.rebaseCount
    let l' : Loop := { l with
      next := l.next + 1, rts := v.cur.sys.pts, flags := l.flags ||| v.cur.sys.vstat, g := v.cur.g
      vec := { v.cur.vec with queue := [] }, sys := v.cur.sys }
    let own := if s.cur.st = .running then rebased n s.cur.sys.pts else s.cur.sys.pts
    let c : Thread := { v.cur with loop := some l', st := s.cur.st, pc := s.cur.pc, g := s.cur.g, vec := s.cur.vec, sys := { s.cur.sys with pts := own }, det := s.cur.det }
    let t : State := { v.afterReplay l with cur := c }
    some (if l'.next = l.n then t.outcome l' 3 0 else done t)

/-- REPLAY_ITERATION: the next iteration, or the delivery of an outcome that had to wait. `err` says that the replay engine itself errs (R221). -/
def execReplayIteration (c : Nat) (err : Bool) (s : State) : Host.Outcome State Fault Refusal :=
  stepOr s ((s.focus c).bind fun s => match s.cur.loop, decide (s.cur.sys.lstate = 2) with
    | some l, true => match l.out with
      | some o => if s.reachable then some (s.outcome l o.1 o.2) else none
      | none => if err then some (s.depart l 0x24) else s.replayNext l
    | _, _ => none)

end Sys2Proof.Machine
end

