-- ==== Sys2Proof/Machine/Placement.lean ====
section
/-!
DEFINITION. Placement: launch records and their checks (R139 to R147, R394), the instances of the work tree, and which thread may run where
(R148 to R153).
-/
namespace Sys2Proof.Machine

/-! ### The launch record (R139 to R147) -/

/-- Bytes of a launch record. -/
def recordSize : Nat := 1536

/-- A launch record from its bytes. -/
def launchRecOf (bs : List Byte) : LaunchRec :=
  let w : Nat → Word := fun o => wordAt bs (o / 8)
  let h := w 0
  { prio := bitsOf h 16 4, ring := h.getLsbD 15, det := h.getLsbD 14, lsg := bitsOf h 20 6
    argp := w 8, heapb := w 0x10, heapsz := (w 0x18).toNat, stkb := w 0x20, stksz := bitsOf (w 0x28) 0 32, donep := w 0x30
    levels := (List.range (bitsOf h 0 4)).map fun n =>
      let d := w (0x40 + 16 * n)
      ⟨bitsOf d 32 32, d.getLsbD 19, bitsOf d 16 3, bitsOf d 8 3⟩
    stages := (List.range (bitsOf h 4 4)).map fun n =>
      let d := w (0xC8 + 32 * n)
      ⟨w (0xC0 + 32 * n), bitsOf d 32 32, bitsOf d 16 16, bitsOf d 0 16⟩
    queues := (List.range (bitsOf h 8 5)).map fun n =>
      let d := w (0x1C8 + 32 * n)
      ⟨w (0x1C0 + 32 * n), bitsOf d 28 3, bitsOf d 25 3, bitsOf d 16 9, bitsOf d 0 16⟩
    bars := (List.range (bitsOf h 32 8)).map fun n =>
      let e := leNat ((bs.drop (0x3C0 + 4 * n)).take 4)
      ⟨e / 2 ^ 28 % 8, e / 2 ^ 24 % 8, e % 65536⟩ }

/-- Whether the counts, the reserved fields and the version of a record are in order. -/
def recordForm (bs : List Byte) : Bool :=
  let w : Nat → Word := fun o => wordAt bs (o / 8)
  let h := w 0
  let z : Nat → Nat → Nat → Bool := fun o lo n => decide (bitsOf (w o) lo n = 0)
  decide (bitsOf h 56 8 = 1) && z 0 40 16 && z 0 26 6 && z 0 13 1 && z 0x28 32 32 && z 0x38 0 64
    && decide (1 ≤ bitsOf h 0 4 ∧ bitsOf h 0 4 ≤ 8) && decide (1 ≤ bitsOf h 4 4 ∧ bitsOf h 4 4 ≤ 8)
    && decide (bitsOf h 8 5 ≤ 16) && decide (bitsOf h 32 8 ≤ 128) && decide (bitsOf h 20 6 ≤ 32)
    && ((List.range (bitsOf h 0 4)).all fun n =>
      z (0x40 + 16 * n) 20 12 && z (0x40 + 16 * n) 11 5 && z (0x40 + 16 * n) 0 8 && z (0x48 + 16 * n) 0 64)
    && ((List.range (bitsOf h 4 4)).all fun n => z (0xD0 + 32 * n) 0 64 && z (0xD8 + 32 * n) 0 64)
    && ((List.range (bitsOf h 8 5)).all fun n =>
      z (0x1C8 + 32 * n) 31 33 && z (0x1D0 + 32 * n) 0 64 && z (0x1D8 + 32 * n) 0 64)
    && ((List.range (bitsOf h 32 8)).all fun n =>
      let e := leNat ((bs.drop (0x3C0 + 4 * n)).take 4)
      decide (e / 2 ^ 31 = 0) && decide (e / 2 ^ 27 % 2 = 0) && decide (e / 2 ^ 16 % 256 = 0))

/-- Whether a record is refused with FORMAT. -/
def badFormat (bs : List Byte) (l : LaunchRec) : Bool :=
  !recordForm bs || (l.levels.any fun x => decide (x.count = 0) || decide (x.dom = 7) || decide (3 < x.msc) || (x.fuse && decide (x.dom ≠ 2)))
    || (l.stages.any fun g => decide (g.entry.toNat % 4 ≠ 0)) || decide (l.stksz % 128 ≠ 0) || decide (l.donep.toNat % 8 ≠ 0)

/-- The domains that may stand below a domain, itself included (R142): thread 0, core 1, cluster 2, section 3, stack 4, package 5, group
6. -/
def domainsIn (d : Nat) : List Nat :=
  match d with
  | 0 => [0]
  | 1 => [0, 1]
  | 2 => [0, 1, 2]
  | 3 => [0, 1, 2, 3, 4]
  | 4 => [0, 1, 4]
  | 5 => [0, 1, 2, 3, 4, 5]
  | _ => [0, 1, 2, 3, 4, 5, 6]

/-- The narrowest memory scope that a level of a domain may name (R142). -/
def leastScope (d : Nat) : Nat :=
  match d with
  | 3 => 1
  | 4 => 1
  | 5 => 2
  | 6 => 3
  | _ => 0

/-- Whether each level's domain lies within its parent's. -/
def nested : List Level → Bool
  | x :: y :: t => (domainsIn x.dom).contains y.dom && nested (y :: t)
  | _ => true

/-- Whether a record is refused with DOMAIN. -/
def badDomain (l : LaunchRec) (byThread : Bool) : Bool :=
  let ds := l.levels.map fun x => x.dom
  !nested l.levels || ds.getLast? != some 0 || ds.dropLast.contains 0 || (ds.drop 1).contains 6
    || (l.levels.any fun x => decide (x.msc < leastScope x.dom))
    || ((List.range l.stages.length).any fun g => decide (2 ^ 32 ≤ l.threads g))
    || (byThread && ds.contains 6)

/-- Whether a record is refused with QUEUE. -/
def badQueue (l : LaunchRec) : Bool :=
  l.queues.any fun q => decide (q.cons ≤ q.prod) || decide (l.stages.length ≤ q.cons) || decide (q.isz = 0) || decide (256 < q.isz)
    || decide (q.isz % 8 ≠ 0) || decide (q.base.toNat % 128 ≠ 0)

/-- Whether a record is refused with BARRIER. -/
def badBarrier (l : LaunchRec) : Bool :=
  l.bars.any fun b => decide (l.levels.length ≤ b.lvl) || decide (l.stages.length ≤ b.stg) || decide (l.below b.lvl < b.pcnt)

/-- The domain that stands for a level's size: a level below a stack level of domain core is a base core (R142, R394). -/
def LaunchRec.onStack (l : LaunchRec) (n : Nat) : Bool := (l.levels.take (n + 1)).any fun x => decide (x.dom = 4)

/-- Contexts in one instance of a level's domain (R394). `others` counts those of a collective group's other members. -/
def LaunchRec.contexts (l : LaunchRec) (sects others n : Nat) : Nat :=
  match (l.levels[n]?).map fun x => x.dom with
  | some 0 => 1
  | some 1 => if l.onStack n then 2 else 4
  | some 2 => 16
  | some 3 => 384
  | some 4 => 16
  | some 5 => 384 * sects
  | some 6 => 384 * sects + others
  | _ => 0

/-- Whether a record is refused with SHAPE. -/
def badShape (l : LaunchRec) (sects others : Nat) : Bool :=
  l.bars.any fun b => decide (l.contexts sects others b.lvl < l.below b.lvl)

/-- The contexts of the other members' partitions, for a record with a group level (R394). -/
def State.groupOthers (s : State) : Nat :=
  (s.link.groups.head?.map fun g => 384 * ((g.sects.zip (List.range g.sects.length)).foldl (fun n x => if x.2 = g.dev then n else n + x.1) 0)).getD 0

/-- The checks of R147: the first status of the table that refuses a record. -/
def State.refuseRecord (s : State) (p : Part) (bs : List Byte) (l : LaunchRec) (byThread : Bool) : Option Nat :=
  if badFormat bs l then some 1
  else if badDomain l byThread then some 2
  else if badQueue l then some 3
  else if badBarrier l then some 4
  else if badShape l p.sections.length s.groupOthers then some 5
  else none

/-! ### The instances that a launch reaches (R149) -/

/-- The instances that nodes of a level can have within some instances: node c goes to instance c mod m, so the first ones of each. -/
def reachedFrom (sects : List Nat) (pd dom count : Nat) (is : List Inst) : List Inst :=
  if dom = pd ∨ dom = 0 then is else (is.flatMap fun i => (i.subs sects dom).take count).eraseDups

/-- The instances that the nodes of a launch can have at the last of its first n levels; with all of them, those of its threads. -/
def LaunchRec.reached (l : LaunchRec) (sects : List Nat) (n : Nat) : List Inst :=
  let tops := (List.range l.stages.length).foldl (fun m g => max m (l.tops g)) 0
  ((List.range n).foldl (fun (a : Nat × List Inst) n =>
    let dom := ((l.levels[n]?).map fun x => x.dom).getD 0
    (dom, reachedFrom sects a.1 dom (if n = 0 then tops else l.count n) a.2)) (l.rootDom, [.all])).2

/-- The clusters that a launch will use, by number. -/
def Launch.clusters (l : Launch) (sects : List Nat) : List Nat :=
  ((l.lrec.reached sects l.lrec.levels.length).flatMap fun i => match i with
    | .core n u _ => [n * 32 + u]
    | .stack n u => [n * 32 + u]
    | _ => (i.subs sects 2).map fun j => match j with
      | .cluster n u => n * 32 + u
      | _ => 0).eraseDups

/-- Whether a level of a launch is fused (R141, R150). -/
def Launch.fuses (l : Launch) : Bool := l.lrec.levels.any fun x => x.fuse

/-- Whether a launch holds the resources of its admission (R148). -/
def Launch.holds (l : Launch) : Bool := l.admitted && !l.finished

/-- Whether another launch holds a whole cluster for a fused level (R148, R150). -/
def State.fusedElsewhere (s : State) (l : Launch) (cl : Nat) : Bool :=
  s.launches.any fun o => decide (o.id ≠ l.id) && o.holds && o.fuses && (o.clusters (s.sectsOf o)).contains cl

/-- Whether a resident thread of another launch stands on a cluster. -/
def State.othersOn (s : State) (l : Launch) (cl : Nat) : Bool :=
  s.threads.any fun t => decide (t.st = .running) && decide (t.id.launch ≠ l.id) && decide (t.id.place.cluster = cl)

/-! ### Contexts (R149) -/

/-- Whether no thread is resident in a context. -/
def State.vacant (s : State) (p : Place) : Bool := s.threads.all fun t => decide (t.st ≠ .running) || decide (t.id.place ≠ p)

/-- Whether a cluster takes threads of a launch. -/
def State.clusterTakes (s : State) (l : Launch) (cl : Nat) : Bool := !s.fusedElsewhere l cl && !(l.fuses && s.othersOn l cl)

/-- Whether a launch's thread with some coordinates may stand in a context, vacant or not. -/
def State.mayStand (s : State) (l : Launch) (lv : List (BitVec 32)) (p : Place) : Bool :=
  Place.valid p && s.clusterTakes l p.cluster && match s.instOf l lv with
    | some i => i.has (s.sectsOf l) p
    | none => false

/-- Whether a saved thread is bound to the core it was saved from: attached to a press, or owner of an unsettled lineage (R78, R149). -/
def Thread.bound (t : Thread) : Bool := t.share.isSome || decide (t.sys.lnact ≠ 0)

/-- Whether a saved thread may be restored into a context. DESIGN CHOICE (log entry 102): any context of its instance that R149 allows, in
whichever section it lies. -/
def State.mayRestoreAt (s : State) (t : Thread) (p : Place) : Bool :=
  s.mayStand (s.launchOf t.id.launch) t.id.lv p && (!t.bound || decide (p.coreKey = t.id.place.coreKey))

/-- Resident threads of a stage. -/
def State.stageResident (s : State) (launch stage : Nat) : Nat :=
  (s.threads.filter fun t => decide (t.st = .running) && decide (t.id.launch = launch ∧ t.id.stage = stage)).length

/-- Whether a stage may hold one more context (MAXCTX, R143). -/
def State.stageRoom (s : State) (l : Launch) (stage n : Nat) : Bool :=
  match l.lrec.stages[stage]? with
  | some g => decide (g.maxctx = 0) || decide (s.stageResident l.id stage + n ≤ g.maxctx)
  | none => false

/-! ### Gangs (R149) -/

/-- The widest level that a barrier of a stage is bound to: the threads of one of its nodes are a gang. DESIGN CHOICE (log entry 92): a
level that only another stage's entry names makes no gangs of this stage. -/
def LaunchRec.gangLevel (l : LaunchRec) (stage : Nat) : Option Nat :=
  (l.bars.filter fun b => decide (b.stg = stage)).foldl (fun (m : Option Nat) b => some (match m with
    | none => b.lvl
    | some x => min x b.lvl)) none

/-- Whether two live threads belong to one gang. -/
def State.sameGang (s : State) (t u : Thread) : Bool :=
  let l := (s.launchOf t.id.launch).lrec
  decide (t.id.ctxid = u.id.ctxid) || (decide (t.id.launch = u.id.launch ∧ t.id.stage = u.id.stage) && match l.gangLevel t.id.stage with
    | some n => decide (t.id.node l n = u.id.node l n)
    | none => false)

/-- The gang of a thread, itself included, without the members that stand before the resident kernel (R212). -/
def State.gangOf (s : State) (t : Thread) : List Thread :=
  s.threads.filter fun u => decide (u.st ≠ .free) && decide (u.st ≠ .suspended) && s.sameGang t u

/-! ### The order of the runnable threads (R153) -/

/-- The value of a word of a queue's control block, or none where it cannot be read. -/
def State.queueWord (s : State) (l : Launch) (q : QDesc) (o : Nat) : Option Word :=
  match s.xlate (l.xctx 0) sysRd (q.base + BitVec.ofNat 64 o) with
  | .phys pa => some (s.mem.word pa)
  | _ => none

/-- Whether a queue is full, and whether it is empty and not closed (R144). -/
def State.queueFull (s : State) (l : Launch) (q : QDesc) : Bool :=
  match s.queueWord l q 0, s.queueWord l q 0x18 with
  | some t, some r => decide (q.capm1 < (t - r).toNat)
  | _, _ => false

def State.queueEmpty (s : State) (l : Launch) (q : QDesc) : Bool :=
  match s.queueWord l q 8, s.queueWord l q 0x10 with
  | some c, some h => !c.getLsbD 63 && decide (bitsOf c 0 63 ≤ h.toNat)
  | _, _ => false

/-- Whether a stage's threads come last in a rotation. -/
def State.stageLast (s : State) (l : Launch) (stage : Nat) : Bool :=
  let outs := l.lrec.queues.filter fun q => decide (q.prod = stage)
  let ins := l.lrec.queues.filter fun q => decide (q.cons = stage)
  (!outs.isEmpty && outs.all fun q => s.queueFull l q) || (!ins.isEmpty && ins.all fun q => s.queueEmpty l q)

/-- Whether a stage holds fewer contexts than it is to keep (MINCTX, R143). -/
def State.stageShort (s : State) (l : Launch) (stage : Nat) : Bool :=
  match l.lrec.stages[stage]? with
  | some g => decide (s.stageResident l.id stage < g.minctx)
  | none => false

/-- The round of a gang: that of the member that is furthest behind, since a gang counts as one (R153). -/
def State.gangTurn (s : State) (t : Thread) : Nat := (((s.gangOf t).map fun u => u.turn).min?).getD t.turn

/-- The place of a runnable thread in the order: priority first, then its round, then within the rotation the stages that hold fewer contexts than
MINCTX, the stages that queue occupancy puts last, and the time at which the thread came into the round. A smaller number comes first. DESIGN
CHOICE (log entry 64): MINCTX goes before queue occupancy. -/
def State.rank (s : State) (t : Thread) : Nat :=
  let l := s.launchOf t.id.launch
  ((((15 - t.sys.eprio.toNat) * 2 ^ 64 + s.gangTurn t) * 2 + (if s.stageShort l t.id.stage then 0 else 1)) * 2 +
    (if s.stageLast l t.id.stage then 1 else 0)) * 2 ^ 64 + t.turnAt

/-- Whether a slice of a thread would come before one that another runnable thread of its priority in the instance is due, wherever that one may
run: it would be a second slice before the other's first (R153). -/
def State.overtakes (s : State) (t : Thread) : Bool :=
  s.threads.any fun u => s.isRunnable u && decide (u.sys.eprio = t.sys.eprio) && decide (s.gangTurn u < s.gangTurn t) && s.sharesInstance t u

/-- The members of a thread's gang that are saved, without itself; the bound ones first. -/
def State.savedGang (s : State) (t : Thread) : List Thread :=
  let l := (s.gangOf t).filter fun u => decide (u.st ≠ .running) && decide (u.id.ctxid ≠ t.id.ctxid)
  l.filter (fun u => u.bound) ++ l.filter (fun u => !u.bound)

/-- The runnable threads that a context could take, their gangs within MAXCTX of their stage (R143). -/
def State.candidates (s : State) (p : Place) : List Thread :=
  s.threads.filter fun t => s.isRunnable t && s.mayRestoreAt t p && s.stageRoom (s.launchOf t.id.launch) t.id.stage ((s.savedGang t).length + 1)

/-- The runnable thread that comes next for a context. -/
def State.nextFor (s : State) (p : Place) : Option Thread :=
  (s.candidates p).foldl (fun (b : Option Thread) t => match b with
    | none => some t
    | some x => if s.rank t < s.rank x then some t else b) none

/-- The threads made together with the thread `q` of a stage: its gang's, or itself alone. -/
def LaunchRec.together (l : LaunchRec) (stage q : Nat) : List Nat :=
  (List.range (match l.gangLevel stage with
    | some k => l.below k
    | none => 1)).map fun k => q + k

/-- Those of them that belong to this module. -/
def State.madeHere (s : State) (l : Launch) (stage q : Nat) : List Nat :=
  (l.lrec.together stage q).filter fun k => (s.instOf l (l.lrec.coords k)).isSome

/-- A launch with a thread still to be created that a context could take: the launch's priority is the thread's. -/
def State.creatable (s : State) (p : Place) (l : Launch) : Bool :=
  l.holds && !l.killed && (List.range l.lrec.stages.length).any fun g =>
    let q := (l.made[g]?).getD 0
    decide (q < l.lrec.threads g) && (l.made.take g == (List.range g).map l.lrec.threads) && s.stageRoom l g (s.madeHere l g q).length &&
      s.mayStand l (l.lrec.coords q) p

/-- The highest effective priority that waits for a context, of threads made and to be made. -/
def State.waitingPrio (s : State) (p : Place) : Option Nat :=
  let a := (s.candidates p).map fun t => t.sys.eprio.toNat
  let b := (s.launches.filter fun l => s.creatable p l).map fun l => l.lrec.prio
  (a ++ b).max?

end Sys2Proof.Machine
end

