-- ==== Sys2Proof/Machine/QIssue.lean ====
section
/-!
DEFINITION. QIssue: the vector memory, press and token instructions at issue (R29, R279, R294, R318, R320, R361): each is pushed with its
captured scalars. What they do when they complete is in VMem, Press and Token. The table `queueWord` gives the entry of any word that the queue takes, for a restore
from an image that the kernel has rewritten (R217).
-/
namespace Sys2Proof.Machine

/-! ### Vector memory (R279, R294) -/

/-- VLD (R279, R280). -/
def execVld (x : M0Args) (s : State) : Host.Outcome State Fault Refusal :=
  finish (pushed s ⟨.mem .ld x.m x.o x.k x.w, x.d.toNat, x.a.toNat, 0, true, false⟩)

/-- VLDS (R279, R280). -/
def execVlds (x : MArgs) (s : State) : Host.Outcome State Fault Refusal :=
  finish (pushed s ⟨.mem .lds x.m x.o x.k x.w, x.d.toNat, x.a.toNat, x.b.toNat, true, true⟩)

/-- VLDX (R279, R280). -/
def execVldx (x : MArgs) (s : State) : Host.Outcome State Fault Refusal :=
  finish (pushed s ⟨.mem .ldx x.m x.o x.k x.w, x.d.toNat, x.a.toNat, x.b.toNat, true, false⟩)

/-- VLDSEG (R279, R280). -/
def execVldseg (x : MArgs) (s : State) : Host.Outcome State Fault Refusal :=
  finish (pushed s ⟨.mem .ldseg x.m x.o x.k x.w, x.d.toNat, x.a.toNat, x.b.toNat, true, false⟩)

/-- VLDFF (R279, R286). -/
def execVldff (x : M0Args) (s : State) : Host.Outcome State Fault Refusal :=
  finish (pushed s ⟨.mem .ldff x.m x.o x.k x.w, x.d.toNat, x.a.toNat, 0, true, false⟩)

/-- VLDSC (R285). -/
def execVldsc (d a : BitVec 6) (s : State) : Host.Outcome State Fault Refusal :=
  finish (pushed s ⟨.mem .ldsc 0 false false .b, d.toNat, a.toNat, 0, true, false⟩)

/-- VST (R279, R280). -/
def execVst (x : M0Args) (s : State) : Host.Outcome State Fault Refusal :=
  finish (pushed s ⟨.mem .st x.m x.o x.k x.w, x.d.toNat, x.a.toNat, 0, true, false⟩)

/-- VSTS (R279, R280). -/
def execVsts (x : MArgs) (s : State) : Host.Outcome State Fault Refusal :=
  finish (pushed s ⟨.mem .sts x.m x.o x.k x.w, x.d.toNat, x.a.toNat, x.b.toNat, true, true⟩)

/-- VSTX (R279, R280). -/
def execVstx (x : MArgs) (s : State) : Host.Outcome State Fault Refusal :=
  finish (pushed s ⟨.mem .stx x.m x.o x.k x.w, x.d.toNat, x.a.toNat, x.b.toNat, true, false⟩)

/-- VSTSEG (R279, R280). -/
def execVstseg (x : MArgs) (s : State) : Host.Outcome State Fault Refusal :=
  finish (pushed s ⟨.mem .stseg x.m x.o x.k x.w, x.d.toNat, x.a.toNat, x.b.toNat, true, false⟩)

/-- VAMO.ADD (R294). -/
def execVamoAdd (x : AArgs) (s : State) : Host.Outcome State Fault Refusal :=
  finish (pushed s ⟨.amo .add x.m x.w, x.d.toNat, x.a.toNat, x.b.toNat, true, false⟩)

/-- VAMO.MIN (R294). -/
def execVamoMin (x : AArgs) (s : State) : Host.Outcome State Fault Refusal :=
  finish (pushed s ⟨.amo .min x.m x.w, x.d.toNat, x.a.toNat, x.b.toNat, true, false⟩)

/-- VAMO.MAX (R294). -/
def execVamoMax (x : AArgs) (s : State) : Host.Outcome State Fault Refusal :=
  finish (pushed s ⟨.amo .max x.m x.w, x.d.toNat, x.a.toNat, x.b.toNat, true, false⟩)

/-- VAMO.FADD (R294). -/
def execVamoFadd (x : AArgs) (s : State) : Host.Outcome State Fault Refusal :=
  finish (pushed s ⟨.amo .fadd x.m x.w, x.d.toNat, x.a.toNat, x.b.toNat, true, false⟩)

/-! ### Press (R318 to R331) -/

/-- K of an instruction's K field (R322, R326). -/
def kOf (k : BitVec 4) : Nat := 32 * (k.toNat + 1)

/-- Whether a PATTACH stands in the queue. -/
def QOp.isAttach : QOp → Bool
  | .attach _ => true
  | _ => false

/-- PATTACH (R320): pushed, and the scalar stream waits until PGRANT is written. -/
def execPattach (z : BitVec 6) (s : State) : Host.Outcome State Fault Refusal :=
  finish (if s.cur.wait = some .attach then
      if s.queue.any (fun q => q.op.isAttach) then .wait .attach s else done s.retire
    else pushAt s s.cur.pc s.cur.ir ⟨.attach (32 * z.toNat), 0, 0, 0, false, false⟩ fun s => .wait .attach s)

/-- PDETACH (R321). -/
def execPdetach (s : State) : Host.Outcome State Fault Refusal :=
  finish (pushed s ⟨.detach, 0, 0, 0, false, false⟩)

/-- PLDA in memory mode (R322, R323). -/
def execPldaMem (f : BitVec 2) (a b : BitVec 6) (k : BitVec 4) (s : State) : Host.Outcome State Fault Refusal :=
  finish (pushed s ⟨.pload false false f.toNat (kOf k), 0, a.toNat, b.toNat, true, true⟩)

/-- PLDA in register mode (R322, R324). -/
def execPldaReg (f : BitVec 2) (a : BitVec 6) (k : BitVec 4) (s : State) : Host.Outcome State Fault Refusal :=
  finish (pushed s ⟨.pload false true f.toNat (kOf k), 0, a.toNat, 0, false, false⟩)

/-- PLDB in memory mode (R322, R323). -/
def execPldbMem (f : BitVec 2) (a b : BitVec 6) (k : BitVec 4) (s : State) : Host.Outcome State Fault Refusal :=
  finish (pushed s ⟨.pload true false f.toNat (kOf k), 0, a.toNat, b.toNat, true, true⟩)

/-- PLDB in register mode (R322, R324). -/
def execPldbReg (f : BitVec 2) (a : BitVec 6) (k : BitVec 4) (s : State) : Host.Outcome State Fault Refusal :=
  finish (pushed s ⟨.pload true true f.toNat (kOf k), 0, a.toNat, 0, false, false⟩)

/-- PMMA (R326). -/
def execPmma (c : BitVec 2) (a : BitVec 6) (k : BitVec 4) (s : State) : Host.Outcome State Fault Refusal :=
  finish (pushed s ⟨.pmma false c.toNat (32 * a.toNat) (kOf k), 0, 0, 0, false, false⟩)

/-- PMMAS (R326). -/
def execPmmas (c : BitVec 2) (a : BitVec 6) (k : BitVec 4) (s : State) : Host.Outcome State Fault Refusal :=
  finish (pushed s ⟨.pmma true c.toNat (32 * a.toNat) (kOf k), 0, 0, 0, false, false⟩)

/-- PZERO (R327). -/
def execPzero (c : BitVec 2) (s : State) : Host.Outcome State Fault Refusal :=
  finish (pushed s ⟨.pzero c.toNat, 0, 0, 0, false, false⟩)

/-- PRDACC (R328). -/
def execPrdacc (c : BitVec 2) (d b : BitVec 6) (s : State) : Host.Outcome State Fault Refusal :=
  finish (pushed s ⟨.prdacc c.toNat, d.toNat, 0, b.toNat, false, true⟩)

/-- PWRACC (R329). -/
def execPwracc (c : BitVec 2) (a b : BitVec 6) (s : State) : Host.Outcome State Fault Refusal :=
  finish (pushed s ⟨.pwracc c.toNat, 0, a.toNat, b.toNat, false, true⟩)

/-- PPUB (R330). -/
def execPpub (c : BitVec 2) (l : BitVec 6) (s : State) : Host.Outcome State Fault Refusal :=
  finish (pushed s ⟨.ppub c.toNat l.toNat, 0, 0, 0, false, false⟩)

/-- PFIN (R331). -/
def execPfin (c : BitVec 2) (s : State) : Host.Outcome State Fault Refusal :=
  finish (pushed s ⟨.pfin c.toNat, 0, 0, 0, false, false⟩)

/-! ### Token instructions (R361, R362) -/

/-- TKARM (R363). -/
def execTkarm (d a b : BitVec 6) (s : State) : Host.Outcome State Fault Refusal :=
  finish (pushed s ⟨.tkarm, d.toNat, a.toNat, b.toNat, true, true⟩)

/-- TKDISARM (R363). -/
def execTkdisarm (b : BitVec 6) (s : State) : Host.Outcome State Fault Refusal :=
  finish (pushed s ⟨.tkdisarm, 0, 0, b.toNat, false, true⟩)

/-- TKEMIT (R364). -/
def execTkemit (a b : BitVec 6) (s : State) : Host.Outcome State Fault Refusal :=
  finish (pushed s ⟨.tkemit false, 0, a.toNat, b.toNat, false, false⟩)

/-- TKEMIT.DRAFT (R364). -/
def execTkemitDraft (a b : BitVec 6) (s : State) : Host.Outcome State Fault Refusal :=
  finish (pushed s ⟨.tkemit true, 0, a.toNat, b.toNat, false, false⟩)

/-- TKCONF (R364). -/
def execTkconf (a b : BitVec 6) (s : State) : Host.Outcome State Fault Refusal :=
  finish (pushed s ⟨.tkconf, 0, a.toNat, b.toNat, false, false⟩)

/-! ### The entry of a word (R217) -/

/-- The entry of a word whose constant bits are as its row of the opcode map has them. -/
def qRow (w mask pat : BitVec 32) (p : Push) : Option Push := if w &&& mask = pat then some p else none

/-- The entry of a vector memory word with a base and, in b, a second operand. -/
def qMem (w mask pat : BitVec 32) (x : VMemOp) (capB : Bool) : Option Push :=
  let m := mArgs w
  qRow w mask pat ⟨.mem x m.m m.o m.k m.w, m.d.toNat, m.a.toNat, if mask = 0xFE001F80 then 0 else m.b.toNat, true, capB⟩

/-- The entry of a word of the VAMO family. -/
def qAmo (w : BitVec 32) : Option Push :=
  let x := aArgs w
  let p := fun o => some ⟨.amo o x.m x.w, x.d.toNat, x.a.toNat, x.b.toNat, true, false⟩
  match (fld w 2 2).toNat with
  | 0 => p .add
  | 1 => p .min
  | 2 => p .max
  | _ => if x.w = .h ∨ x.w = .w then p .fadd else none

/-- The entry of a word of the PRESS family. -/
def qPress (w : BitVec 32) : Option Push :=
  let c := (fld w 23 2).toNat
  let a := (fld w 17 6).toNat
  let b := (fld w 11 6).toNat
  let k := kOf (fld w 0 4)
  match (fld w 5 6).toNat with
  | 0 | 1 => if 1 ≤ (fld w 0 6).toNat ∧ (fld w 0 6).toNat ≤ 4 then qRow w 0xFFFFFFC0 0x70000000 ⟨.attach (32 * (fld w 0 6).toNat), 0, 0, 0, false, false⟩ else none
  | 2 => qRow w 0xFFFFFFFF 0x70000040 ⟨.detach, 0, 0, 0, false, false⟩
  | 4 => qRow w 0xFE0007F0 0x70000080 ⟨.pload false false c k, 0, a, b, true, true⟩
  | 5 => qRow w 0xFE01FFF0 0x700000A0 ⟨.pload false true c k, 0, a, 0, false, false⟩
  | 6 => qRow w 0xFE0007F0 0x700000C0 ⟨.pload true false c k, 0, a, b, true, true⟩
  | 7 => if c = 3 then none else qRow w 0xFE01FFF0 0x700000E0 ⟨.pload true true c k, 0, a, 0, false, false⟩
  | 8 => if 15 < a then none else qRow w 0xFE01FFF0 0x70000100 ⟨.pmma false c (32 * a) k, 0, 0, 0, false, false⟩
  | 10 => if 15 < a then none else qRow w 0xFE01FFF0 0x70000140 ⟨.pmma true c (32 * a) k, 0, 0, 0, false, false⟩
  | 12 => qRow w 0xFE7FFFFF 0x70000180 ⟨.pzero c, 0, 0, 0, false, false⟩
  | 14 => qRow w 0xFE0007FF 0x700001C0 ⟨.prdacc c, a, 0, b, false, true⟩
  | 16 => qRow w 0xFE0007FF 0x70000200 ⟨.pwracc c, 0, a, b, false, true⟩
  | 18 => qRow w 0xFE01FFFF 0x70000240 ⟨.ppub c a, 0, 0, 0, false, false⟩
  | 20 => qRow w 0xFE7FFFFF 0x70000280 ⟨.pfin c, 0, 0, 0, false, false⟩
  | _ => none

/-- The entry of a word of the TOKEN family; TKSYNC enters no queue. -/
def qToken (w : BitVec 32) : Option Push :=
  let d := (fld w 19 6).toNat
  let a := (fld w 13 6).toNat
  let b := (fld w 7 6).toNat
  match (fld w 0 7).toNat with
  | 0 => some ⟨.tkarm, d, a, b, true, true⟩
  | 1 => qRow w 0xFFFFE07F 0x78000001 ⟨.tkdisarm, 0, 0, b, false, true⟩
  | 2 => if 1 < d then none else some ⟨.tkemit (decide (d = 1)), 0, a, b, false, false⟩
  | 4 => qRow w 0xFFF8007F 0x78000004 ⟨.tkconf, 0, a, b, false, false⟩
  | _ => none

/-- What a word pushes that the queue takes. One that no instruction of the queue has is reserved. -/
def queueWord (w : BitVec 32) : Push :=
  (match (fld w 25 7).toNat with
    | 0x20 => qMem w 0xFE001F80 0x40000000 .ld false
    | 0x21 => qMem w 0xFE000000 0x42000000 .lds true
    | 0x22 => qMem w 0xFE000000 0x44000000 .ldx false
    | 0x23 => if 1 ≤ (fld w 7 6).toNat ∧ (fld w 7 6).toNat ≤ 7 then qMem w 0xFE000000 0x46000000 .ldseg false else none
    | 0x24 => qMem w 0xFE001F80 0x48000000 .ldff false
    | 0x25 => qRow w 0xFE001FFF 0x4A000000 ⟨.mem .ldsc 0 false false .b, (fld w 19 6).toNat, (fld w 13 6).toNat, 0, true, false⟩
    | 0x26 => qMem w 0xFE001F80 0x4C000000 .st false
    | 0x27 => qMem w 0xFE000000 0x4E000000 .sts true
    | 0x28 => qMem w 0xFE000000 0x50000000 .stx false
    | 0x29 => if 1 ≤ (fld w 7 6).toNat ∧ (fld w 7 6).toNat ≤ 7 then qMem w 0xFE000000 0x52000000 .stseg false else none
    | 0x2B => qAmo w
    | 0x38 => qPress w
    | 0x3C => qToken w
    | _ => vWord w).getD ⟨.reserved, 0, 0, 0, false, false⟩

end Sys2Proof.Machine
end

