-- ==== Sys2Proof/Machine/Launching.lean ====
section
/-!
DEFINITION. Launching: how a launch comes to run and ends, and how its threads are created, saved and restored (R148 to R155, R164, R216 to
R220).
-/
namespace Sys2Proof.Machine

/-! ### Writes of the dispatcher in a launch's address space (R145, R151) -/

/-- One read-modify-write of a doubleword at a timestamp no lower than the launch's final PTS, or the fault that prevents it. A local store
serves no access of a dispatcher. -/
def State.sysRmw (s : State) (l : Launch) (va : Word) (f : Word → Word) : Except (BitVec 8 × BitVec 8) State :=
  match s.xlate (l.xctx 0) sysRw va with
  | .phys pa =>
    if s.poisoned pa then .error (8, 0)
    else
      let r := s.rebaseWith l.part (max l.finalPts ((s.line (pa / 128)).rts + 1)) l.finalPts
      .ok (r.2.unitWrite l.part l.id r.1 [(pa, natBytes 8 (f (r.2.mem.word pa)).toNat)]).2
  | .bad c d => .error (c, d)
  | .host _ => .error (3, 5)
  | .loc _ => .error (3, 3)

/-- The control block of a queue cleared at admission (R144). One that cannot be reached stays as it is. -/
def State.clearQueue (s : State) (l : Launch) (q : QDesc) : State :=
  match s.xlate (l.xctx 0) sysWr q.base with
  | .phys pa =>
    let r := s.rebaseWith l.part (max l.ts ((s.line (pa / 128)).rts + 1)) l.ts
    (r.2.unitWrite l.part l.id r.1 [(pa, List.replicate 128 0)]).2
  | _ => s

/-- The dirty lines of an image written back (R377). -/
def State.cleanImage (s : State) (i : Image) : State :=
  (s.lines.filter fun l => i.pages.contains (128 * l.1 / 65536 * 65536)).foldl (fun (s : State) l => s.cleanLine l.1) s

/-- The images of an address space written back. -/
def State.cleanImages (s : State) (part asid : Nat) : State :=
  (s.host.images.filter fun i => decide (i.part = part ∧ i.asid = asid)).foldl (fun (s : State) i => s.cleanImage i) s

/-- CLOSED set in the queues that an ended stage produces (R145). -/
def State.closeQueues (s : State) (id stage : Nat) : State :=
  ((s.launchOf id).lrec.queues.filter fun q => decide (q.prod = stage)).foldl (fun s q =>
    match s.sysRmw (s.launchOf id) (q.base + 8) fun w => w ||| 0x8000000000000000 with
    | .ok t => t
    | .error _ => s) s

/-- An event of the host's ring joins those that wait to be written (R387). -/
def State.hostEvent (s : State) (e : HostEv) : State := { s with host := { s.host with waiting := s.host.waiting ++ [e] } }

/-- The stores that ended threads of a DET launch left in their buffers perform as at a last fence: by stage and ascending LTHR, each thread's
in program order (R85, R151; log entry 49). One to a poisoned line has no effect (R267; log entry 129). -/
def State.drainLeft (s : State) (id : Nat) : State :=
  ((s.launchOf id).left.flatMap fun x => x.2).foldl (fun s d =>
    if d.loc || s.poisoned d.pa then s
    else
      let l := s.launchOf id
      let r := s.unitWrite l.part id l.finalPts [(d.pa, d.data)]
      r.2.modLaunch id fun x => { x with finalPts := max x.finalPts r.1 }) s

/-- The end of a launch (R151, R388): what a DET launch still has buffered performs; DONEP, or the DONEF record of a skipped increment; then the
host's END event. -/
def State.endLaunch (s : State) (id : Nat) : State :=
  let s := s.drainLeft id
  let l := s.launchOf id
  let s := s.modLaunch id fun x => { x with finished := true, stores := [], allocs := [], bars := [], rings := [], arrived := [], snap := [], left := [] }
  let s : State :=
    if l.lrec.donep = 0 then s
    else match s.sysRmw l l.lrec.donep fun w => w + 1 with
      | .ok t => t
      | .error e => s.raiseEvent l.part
          { type := 5, ctxid := 0, cause := e.2.setWidth 64 <<< 8 ||| e.1.setWidth 64, epc := 0, badva := l.lrec.donep, id := 0, ch := 0, cycle := s.cycle }
  if l.host.isSome then
    s.hostEvent { type := 5, part := l.part, status := if l.killed || !l.dead.isEmpty then 1 else 0, tag := 0, note := BitVec.ofNat 64 id, tbase := 0, ctx := 0 }
  else s

/-- Whether every thread of a stage has been made and has ended. -/
def Launch.stageOver (l : Launch) (stage : Nat) : Bool :=
  decide (l.lrec.threads stage ≤ (l.made[stage]?).getD 0) && decide (l.lrec.threads stage ≤ (l.ended[stage]?).getD 0)

/-- A list with one element changed. -/
def bump (l : List Nat) (k n : Nat) : List Nat := (l.zip (List.range l.length)).map fun p => if p.2 = k then p.1 + n else p.1

/-- Threads of a stage ended: its queues are closed with the last of them, and the launch ends with its last stage. -/
def State.countEnded (s : State) (id stage n : Nat) : State :=
  let was := (s.launchOf id).stageOver stage
  let s := s.modLaunch id fun l => { l with ended := bump l.ended stage n }
  let l := s.launchOf id
  let s := if l.stageOver stage && !was then s.closeQueues id stage else s
  if !l.finished && (List.range l.lrec.stages.length).all fun g => l.stageOver g then s.endLaunch id else s

/-- The current thread is gone (R112, R225, R368): its locks pass, its streams are unbound, the lanes and its CTXID are free, no collective
fence counts it as arrived, no verdict reaches a later thread of its CTXID (R191), its ended commands are forgotten (R358), its table entry is
FREE, and its launch counts it. -/
def State.gone (s : State) (killed : Bool) : Res Unit :=
  let id := s.cur.id
  let s := (s.setPts s.ptsNow).passLocks.releaseLanes
  let s : State :=
    { s with
      sends := s.sends.map (fun x => if x.owner = id.ctxid then { x with live := false } else x)
      cmds := s.cmds.filter (fun x => decide (x.owner ≠ id.ctxid) || !x.ended)
      banks := s.banks.filter (fun x => decide (x.owner ≠ id.ctxid) || !x.ended) }
  let s := s.modLaunch id.launch fun l =>
    { l with
      arrived := (l.arrived.map fun a => (a.1, a.2.filter fun c => decide (c ≠ id.ctxid))).filter (fun a => !a.2.isEmpty)
      finalPts := max l.finalPts s.cur.sys.pts
      dead := if killed then l.dead ++ [(id.stage, id.lthr)] else l.dead
      left := if killed || s.cur.det.isEmpty then l.left else Tab.set l.left (id.stage * 2 ^ 32 + id.lthr) s.cur.det }
  let free : Res Unit := match s.curPart with
    | some p => s.putTState p id.ctxid .free
    | none => done s
  free.seq fun s =>
    let c : Thread := { s.cur with
      st := .free, wait := none, trap := none, stalled := false, loop := none, share := none, det := [], vec := { s.cur.vec with streams := [], queue := [] } }
    done (({ s with cur := c } : State).countEnded id.launch id.stage 1)

/-- The current thread killed: its commands are cancelled, its lineages freed without a chase, its share given back, a replay of its loop
stops, and it is gone. -/
def State.kill (s : State) : Res Unit :=
  let c := s.cur.id.ctxid
  let s := (s.cancelCmds c).cancelBanks c
  let s := s.ownLins.foldl (fun (s : State) n => s.dropLin n.1) s
  let s := if s.cur.share.isSome then s.detach else s
  let s := match s.cur.loop with
    | some l => (s.freeSlot l.slot).setLoop none (if s.cur.sys.lstate = 2 then 0 else s.cur.sys.lstate) s.cur.sys.lwhy
    | none => s
  s.gone true

/-! ### Admission (R148) -/

/-- Ring channels of a section, and those that one launch takes. -/
def ringRoom : Nat := 64 / 16

/-- Whether a launch can count on a context: it is vacant, or the dispatcher may save the thread that stands in it to place the launch's (R153;
log entry 63). -/
def State.reservable (s : State) (l : Launch) (p : Place) : Bool :=
  s.threads.all fun t => decide (t.st ≠ .running) || decide (t.id.place ≠ p) || t.waiting || decide (t.sys.eprio.toNat ≤ l.lrec.prio)

/-- Whether the dispatcher can reserve what a launch needs. -/
def State.canAdmit (s : State) (l : Launch) : Bool :=
  let sects := s.sectsOf l
  let held := s.launches.filter fun o => o.holds
  let cls := l.clusters sects
  let sum : Nat → Nat := fun c => held.foldl (fun n o => if (o.clusters (s.sectsOf o)).contains c then n + o.lrec.lsg else n) 0
  let rings : Nat → Nat := fun n =>
    (held.filter fun o => o.lrec.ring && (o.clusters (s.sectsOf o)).any fun c => decide (c / 32 = n)).length
  (cls.all fun c => decide (sum c + l.lrec.lsg ≤ 32) && (!l.fuses || s.clusterTakes l c))
    && (!l.lrec.ring || cls.all fun c => decide (rings (c / 32) < ringRoom))
    && l.lrec.bars.all fun b => (l.lrec.reached sects (b.lvl + 1)).any fun i =>
        decide (min (l.lrec.below b.lvl) (i.places sects).length ≤ ((i.places sects).filter fun p => s.reservable l p).length)

/-- Whether a launch waits in a partition's queues. -/
def Launch.queuedIn (l : Launch) (part : Nat) : Bool := decide (l.part = part) && !l.admitted && !l.finished && !l.killed

/-- Whether a waiting launch heads the queue of its priority and can be admitted. -/
def State.admissible (s : State) (x : Launch) : Bool :=
  s.canAdmit x && s.launches.all fun o => !o.queuedIn x.part || decide (o.lrec.prio ≠ x.lrec.prio) || decide (x.order ≤ o.order)

/-- LAUNCH_ADMIT: the first launch of its priority's queue, where it can be admitted and the head of no higher priority's queue can. Queue control
blocks that lie in a submitted image are written back as the rest of it (R377). DESIGN
CHOICE (log entry 93): a partition of several sections has one queue for each priority. -/
def execLaunchAdmit (l : Nat) (s : State) : Host.Outcome State Fault Refusal :=
  stepOr s (
    let x := s.launchOf l
    if (s.launches.any fun o => decide (o.id = l)) && x.queuedIn x.part && s.admissible x
        && !(s.launches.any fun o => o.queuedIn x.part && decide (x.lrec.prio < o.lrec.prio) && s.admissible o) then
      let s := s.wake.modLaunch l fun o => { o with admitted := true }
      let s := x.lrec.queues.foldl (fun s q => s.clearQueue (s.launchOf l) q) s
      some (done (if x.host.isSome then s.cleanImages x.part x.asid else s))
    else none)

/-! ### A thread takes a context (R13 to R19, R149, R150) -/

/-- A cluster takes a thread of a launch: the launch's local store is set aside there, out of the L2, which drops the copies that it has no room
for any more (R34, R148), and the cluster changes to or from the fused mode, which discards what the L1s hold (R150). DESIGN CHOICE (log entry
113): once a fused launch has ended, its clusters leave the mode as a thread of a launch without a fused level next enters. -/
def State.enterCluster (s : State) (l : Launch) (cl : Nat) : State :=
  let s : State :=
    if l.stood.contains cl then s
    else
      let t := s.modLaunch l.id fun x => { x with stood := x.stood ++ [cl] }
      { t with copies := fitCache false cl t.copies (t.cacheLines false cl) }
  let k := s.cluster cl
  if k.fused = l.fuses then s
  else
    let s := s.setCluster cl { k with fused := l.fuses }
    { s with copies := s.copies.filter (fun c => !(c.l1 && decide (c.home / 8 = cl))) }

/-- Threads of the stages before one. -/
def LaunchRec.base (l : LaunchRec) (stage : Nat) : Nat := (List.range stage).foldl (fun n g => n + l.threads g) 0

/-- A thread at its creation: g1 holds ARGP, g30 the top of its stack area (R13, R140), PTS the launch timestamp (R370). -/
def Launch.thread (l : Launch) (stage lthr : Nat) (p : Place) (c cycle : Nat) : Thread :=
  let r := l.lrec
  let top : Word := if r.stksz = 0 then 0 else r.stkb + BitVec.ofNat 64 ((r.base stage + lthr + 1) * r.stksz)
  { Thread.init with
    id := { ctxid := c, launch := l.id, stage := stage, lthr := lthr, place := p, lv := r.coords lthr }
    st := .running
    g := ((Thread.init.g).setIfInBounds 1 r.argp).setIfInBounds 30 top
    pc := ((r.stages[stage]?).map fun g => g.entry).getD 0
    sys := { Sys.init with
      pts := l.ts, bprio := BitVec.ofNat 4 r.prio, eprio := BitVec.ofNat 4 r.prio
      lv := Vector.ofFn fun n : Fin 8 => ((r.coords lthr)[n.val]?).getD 0 }
    driftAt := cycle
    sliceAt := cycle
    turnAt := cycle
    snap := if r.det then l.snap else [] }

/-- The state with a new thread as the current one. -/
def State.addThread (s : State) (t : Thread) : State :=
  { s with cur := t, others := if s.cur.st = .free then s.others else s.cur :: s.others }

/-- Places chosen for threads one after another: each the first vacant one that it may take. -/
def choosePlaces {α : Type} (fits : α → Place → Bool) (room : α → List Place) : List Place → List α → Option (List (α × Place))
  | _, [] => some []
  | used, x :: t =>
    ((room x).find? fun p => fits x p && !used.contains p).bind fun p =>
      (choosePlaces fits room (p :: used) t).map fun r => (x, p) :: r

/-- The contexts of a launch's instance. -/
def State.roomOf (s : State) (l : Launch) (lv : List (BitVec 32)) : List Place :=
  match s.instOf l lv with
  | some i => i.places (s.sectsOf l)
  | none => []

/-- The lowest CTXID at or above a number that no live thread has (R27). -/
def State.freshCtx (s : State) (from_ : Nat) : Option Nat :=
  (List.range (s.threads.length + 1)).findSome? fun k => if from_ + k ≤ 65535 ∧ !s.live (from_ + k) then some (from_ + k) else none

/-- A thread made at a place. -/
def State.createAt (s : State) (id stage lthr : Nat) (p : Place) (c : Nat) : Res Unit :=
  let l := s.launchOf id
  let s := ((s.enterCluster l p.cluster).addThread (l.thread stage lthr p c s.cycle)).joined
  match s.curPart with
  | some q => s.putTState q c .running
  | none => done s

/-- The lowest CTXID at or above a number that no live thread has, or where there is none the lowest of all (R27). -/
def State.nextCtx (s : State) (from_ : Nat) : Option Nat := (s.freshCtx from_).or (s.freshCtx 1)

/-- Threads made at places, in order, each with the next CTXID that no live thread has. -/
def createAll (id stage : Nat) : Nat → List (Nat × Place) → State → Res Unit
  | _, [], s => done s
  | c, (q, p) :: t, s =>
    match s.nextCtx (c + 1) with
    | none => done s
    | some c => (s.createAt id stage q p c).seq fun s => createAll id stage c t s

/-- The next stage of a launch with a thread to be made. -/
def Launch.nextStage (l : Launch) : Option Nat :=
  (List.range l.lrec.stages.length).find? fun g => decide ((l.made[g]?).getD 0 < l.lrec.threads g)

/-- THREAD_CREATE: the next thread of a launch in ascending order, at a vacant context of its instance with a CTXID that no live thread has,
together with the rest of its gang. A thread that belongs to another module is passed over. -/
def execThreadCreate (id : Nat) (p : Place) (c : Nat) (s : State) : Host.Outcome State Fault Refusal :=
  stepOr s (
    let l := s.launchOf id
    if !l.holds || l.killed then none
    else l.nextStage.bind fun g =>
      let q := (l.made[g]?).getD 0
      let made : Nat → State := fun n => s.modLaunch id fun x => { x with made := bump x.made g n }
      if (s.instOf l (l.lrec.coords q)).isNone then some (done ((made 1).countEnded id g 1))
      else
        let n := (l.lrec.together g q).length
        let mine := s.madeHere l g q
        let rest := mine.filter fun k => decide (k ≠ q)
        if c = 0 ∨ 65535 < c ∨ s.live c ∨ !s.vacant p ∨ !s.mayStand l (l.lrec.coords q) p ∨ !s.stageRoom l g mine.length
            ∨ 65535 < (s.threads.filter fun t => decide (t.st ≠ .free)).length + mine.length
            ∨ (s.candidates p).any (fun t => decide (l.lrec.prio < t.sys.eprio.toNat)) then none
        else
          (choosePlaces (fun k x => s.vacant x && s.mayStand l (l.lrec.coords k) x) (fun k => s.roomOf l (l.lrec.coords k)) [p] rest).map fun ps =>
            ((made n).createAt id g q p c).seq fun s =>
            (createAll id g c ps s).seq fun s => done (if n = mine.length then s else s.countEnded id g (n - mine.length)))

/-- Whether a launch's next thread, with its gang, has vacant contexts to go to. -/
def State.hasRoom (s : State) (l : Launch) : Bool := (l.nextStage.map fun g =>
  let lv := l.lrec.coords ((l.made[g]?).getD 0)
  let n := (s.madeHere l g ((l.made[g]?).getD 0)).length
  decide (n ≤ ((s.roomOf l lv).filter fun p => s.vacant p && s.mayStand l lv p).length)).getD true

/-- Whether a thread that can be made in a vacant context has its turn there before a saved one: it is created as the dispatcher can first place it
(R149), unless its priority is lower. -/
def State.creationDue (s : State) (p : Place) (t : Thread) : Bool :=
  decide ((s.threads.filter fun t => decide (t.st ≠ .free)).length < 65535) &&
    s.launches.any fun l => s.creatable p l && s.hasRoom l && decide (t.sys.eprio.toNat ≤ l.lrec.prio)

/-! ### Restore (R216 to R219, R18, R19) -/

/-- A register's lines as the image holds them, the rest zero. -/
def reloadReg (m : Mem) (image nv rb : Nat) (vrf : Mem) (r : Nat × VReg) : Mem :=
  if r.2.valid = 0 then vrf
  else vrf.write (r.1 * rb) (m.run (image + 0x10000 + r.1 * (65536 / nv)) (min rb (128 * r.2.valid)) ++ List.replicate (rb - 128 * r.2.valid) 0)

/-- A queue entry as the image holds it: the one of the thread's record where it has the word, else the one that the word stands for; with the
captured scalars, the captured modes, the progress index and the address that the image gives. -/
def reloadEntry (old : Option QEntry) (m : Mem) (a : Nat) : QEntry :=
  let modes := m.word (a + 24)
  let w := BitVec.ofNat 32 (m.nat a 4)
  let p := queueWord w
  let fresh : QEntry := ⟨0, w, p.op, p.d, p.a, p.b, 0, 0, 0, 0, false, 0, none, []⟩
  let q := match old with
    | some q => if q.word = w then q else fresh
    | none => fresh
  { q with pc := m.word (a + 40), xa := m.word (a + 8), xb := m.word (a + 16), rmode := modes.setWidth 2, vmpol := (modes >>> 8).setWidth 3
           nanz := modes.getLsbD 16, prog := m.nat (a + 32) 8 }

/-- The queue as the image holds it, up to the entry whose word is zero. -/
def reloadQueue (old : List QEntry) (m : Mem) (image : Nat) : List QEntry :=
  let n := ((List.range 64).takeWhile fun k => decide (m.nat (image + 0x2000 + 64 * k) 4 ≠ 0)).length
  (List.range n).map fun k => reloadEntry old[k]? m (image + 0x2000 + 64 * k)

/-- The watch as the image holds it; the one of the thread's record where it waits on the same thing, since that may have been granted
meanwhile. -/
def reloadWait (old : Option Watch) (m : Mem) (a : Nat) : Option Watch :=
  match old, Watch.ofWords ((List.range 40).map fun k => m.nat (a + 8 * k) 8) with
  | some x, some y => if x.same y then some x else some y
  | _, y => y

/-- The frame buffer as the image holds it. -/
def reloadFrame (m : Mem) (a : Nat) : Option FrameBuf :=
  if m.nat a 8 = 0 then none else some ⟨m.word (a + 8), m.nat (a + 16) 8, m.nat (a + 24) 8⟩

/-- A bound stream as the image holds it. Its strips are read again where it is another stream than before. -/
def reloadStream (old : Option Stream) (m : Mem) (a : Nat) : Option Stream :=
  let h := m.nat a 8
  if h / 256 % 256 = 0 then none
  else
    let w : Nat → Word := fun k => m.word (a + 8 * k)
    let x : Stream :=
      ⟨h % 256, h / 256 % 256, w 1, w 2, [w 3, w 4, w 5], [(w 6).toNat, (w 7).toNat, (w 8).toNat], (w 9).toNat,
        (match (w 10).toNat with | 0 => .b | 1 => .h | 2 => .w | _ => .d), BitVec.ofNat 4 (h / 65536), (w 11).toNat, [], none, []⟩
    match old with
    | some y => if { y with ready := [], err := none, stale := [] } = x then some y else some x
    | none => some x

/-- A register directory entry that the image holds; no register is dirty after a restore (R219). -/
def VReg.reload (m : Mem) (a : Nat) : VReg := ⟨m.nat a 2, m.nat (a + 2) 2, false, m.nat (a + 4) 1, m.nat (a + 5) 1⟩

/-- The register directory as the image holds it: every register that has an entry there or in the thread's record. -/
def reloadDir (old : Tab VReg) (nv : Nat) (m : Mem) (image : Nat) : Tab VReg :=
  (List.range nv).filterMap fun r =>
    let e := VReg.reload m (image + 0x3000 + 16 * r)
    if e = ⟨0, 0, false, 0, 0⟩ ∧ (Tab.get old r).isNone then none else some (r, e)

/-- The thread as its image holds it: resume address, retired count, registers, masks, queue, register directory, wait state, frame buffer and
stream bindings (R217, R219). What the spec lays out no field of keeps what the thread's record holds (log entry 14). -/
def Thread.reload (t : Thread) (m : Mem) (image : Nat) : Thread :=
  let t := ((sysNumbers.zip (List.range sysNumbers.length)).foldl (fun (t : Thread) x => t.sysRestore x.1 (m.word (image + 0x200 + 8 * x.2))) t)
  let ks := (List.range 7).map fun n => (n + 1, BitVec.ofNat 8192 (m.nat (image + 0x400 + 1024 * n) 1024))
  let regs := reloadDir t.vec.regs t.sys.nvreg.toNat m image
  let ws := image + 0x3400
  let v : Vec := { t.vec with
    masks := ks.foldl (fun (x : Vector (BitVec 8192) 8) k => x.setIfInBounds k.1 k.2) t.vec.masks
    regs := regs
    queue := reloadQueue t.vec.queue m image
    frame := reloadFrame m (ws + 320)
    streams := (List.range 4).filterMap (fun k => reloadStream t.vec.streams[k]? m (ws + 448 + 128 * k))
    vrf := regs.foldl (reloadReg m image t.sys.nvreg.toNat t.regBytes) t.vec.vrf }
  { t with
    vec := v, wait := reloadWait t.wait m ws, resume := m.word (image + 0x10), retired := m.nat (image + 0x30) 8
    g := (List.range 31).foldl (fun (g : Vector Word 32) n => g.setIfInBounds (n + 1) (m.word (image + 0x108 + 8 * n))) t.g }

/-- The lineages that the current thread owns as its image holds them: the words, addresses and scalars of the log entries, how many there are,
and the registers held (R217). -/
def State.reloadLins (s : State) (image : Nat) : State :=
  let c := s.cur.id.ctxid
  let core := s.core s.cur.id.place
  let entry : Nat → Nat × LogEntry → LogEntry := fun n e =>
    let w : Nat → Word := fun k => s.mem.word (image + 0x4000 + 1024 * (n - 1) + 32 * e.1 + 8 * k)
    let mask := s.mem.nat (image + 0x7C00 + 16 * (n - 1) + 8) 8
    { e.2 with word := (w 0).setWidth 32, pc := w 1, xa := w 2, xb := w 3, held := e.2.held.filter fun r => mask.testBit r }
  let lins := core.lins.map fun l =>
    if l.2.owner = c then
      let log := l.2.log.take (s.mem.nat (image + 0x7C00 + 16 * (l.1 - 1) + 1) 1)
      (l.1, { l.2 with log := ((List.range log.length).zip log).map (entry l.1) })
    else l
  if core.lins.any fun l => decide (l.2.owner = c) then s.setCore s.cur.id.place { core with lins := lins } else s

/-- Whether a line of the current thread's save image at an address is poisoned, or one of the overflow slots that it uses (R204). -/
def State.imagePoisoned (s : State) (image : Nat) : Bool :=
  (s.lines.any fun l => l.2.poison && decide (image ≤ 128 * l.1 ∧ 128 * l.1 < image + 0x20000)) ||
    (List.range (s.cur.det.length - Config.wcbEntries)).any s.slotPoisoned

/-- The current thread restored into a context, or killed where its save image has an uncorrectable error (R204). What it has
had of its slice counts on (R153, log entry 64). DESIGN CHOICE (log entry 103): the drift counter starts anew. -/
def State.restoreAt (s : State) (p : Place) : Res Unit :=
  match s.curPart with
  | none => done s
  | some q =>
    let b := s.imageBase q s.cur.id.ctxid
    if !s.isMemory b then .hole b
    else if s.imagePoisoned b then s.kill
    else
      let s := s.enterCluster s.launch p.cluster
      let s := s.reloadLins b
      let s : State := { s with cur := s.cur.reload s.mem b }
      let t := s.cur
      let pts := s.ptsNow
      let c : Thread := { t with
        id := { t.id with place := p }, st := .running, pc := t.resume, stalled := false, sliceAt := s.cycle - t.sliceUsed, sliceUsed := 0, driftAt := s.cycle
        sys := { t.sys with pts := pts } }
      (({ s with cur := c } : State).inherit).putTState q c.id.ctxid .running

/-- Threads restored at places, one after another. -/
def restoreAll : List (Thread × Place) → State → Res Unit
  | [], s => done s
  | (t, p) :: r, s =>
    match s.focus t.id.ctxid with
    | none => restoreAll r s
    | some u => (u.restoreAt p).seq fun u => restoreAll r u

/-- The places of a thread and its gang, or none where one of them has none. -/
def State.gangPlaces (s : State) (t : Thread) (p : Place) : Option (List (Thread × Place)) :=
  let l := s.savedGang t
  if l.any fun u => !s.imageIn u then none
  else (choosePlaces (fun u x => s.vacant x && s.mayRestoreAt u x) (fun u => s.roomOf (s.launchOf u.id.launch) u.id.lv) [p] l).map
    fun r => r ++ [(t, p)]

/-- The next runnable thread takes a context that has become vacant, where it and its gang can be placed. A thread that is still to be created
has its turn before it, unless its priority is lower. -/
def State.passContext (s : State) (p : Place) : Res Unit :=
  match s.nextFor p with
  | none => done s
  | some t =>
    if s.overtakes t || s.launches.any fun l => s.creatable p l && decide (t.sys.eprio.toNat ≤ l.lrec.prio) then done s
    else match s.gangPlaces t p with
      | none => done s
      | some r => restoreAll r s

/-- RESTORE: a runnable thread takes a vacant context of its instance, its gang with it; no runnable thread that could take the context comes
before it, none of its priority in the instance is due a slice before it, and no thread that can be made there has its turn first. -/
def execRestore (c : Nat) (p : Place) (s : State) : Host.Outcome State Fault Refusal :=
  stepOr s ((s.thread? c).bind fun t =>
    if s.vacant p && ((s.candidates p).any fun u => decide (u.id.ctxid = c)) && !((s.candidates p).any fun u => decide (s.rank u < s.rank t)) && !s.overtakes t &&
        !s.creationDue p t then
      (s.gangPlaces t p).map fun r => restoreAll r s
    else none)

/-! ### Pre-emption and slices (R153, R216) -/

/-- The queues of threads drained one after another, then what waited for it; a trap that one meets is delivered. Where an entry has yet to
complete, nothing of it happens, and the request comes again. -/
def drainAll : List Nat → State → (State → Res Unit) → Res Unit
  | [], s, f => f s
  | c :: r, s, f =>
    match s.focus c with
    | none => drainAll r s f
    | some u =>
      if u.cur.st = .running then
        match drain u.queue.length u with
        | .ok _ t => drainAll r t f
        | .wait _ t => done t
        | .trap t v => (v.deliver t).seq fun w => drainAll r w f
        | .hole p => .hole p
      else drainAll r u f

/-- Threads saved one after another, their queues drained. -/
def saveAll : List Nat → State → Res Unit
  | [], s => done s
  | c :: r, s =>
    match s.focus c with
    | none => saveAll r s
    | some u => (if u.cur.st = .running then u.saveDrained else done u).seq fun u => saveAll r u

/-- Threads give up their contexts together, and something follows. -/
def vacateAll (l : List Nat) (s : State) (f : State → Res Unit) : Res Unit := drainAll l s fun s => (saveAll l s).seq f

/-- The resident members of the current thread's gang, itself last. -/
def State.residentGang (s : State) : List Nat :=
  (((s.gangOf s.cur).filter fun u => decide (u.st = .running) && decide (u.id.ctxid ≠ s.cur.id.ctxid)).map fun u => u.id.ctxid) ++ [s.cur.id.ctxid]

/-- The machine as it would be without the current thread's gang, for what could take its context. -/
def State.withoutGang (s : State) : State :=
  s.residentGang.foldl (fun (s : State) c => s.modThread c fun t => { t with st := .suspended }) s

/-- The end of a slice: the thread and its gang go to the end of the rotation, and the context passes on (R153). -/
def State.endSlice (s : State) : Res Unit :=
  let p := s.cur.id.place
  let g := s.residentGang
  let turn := s.nextTurn
  vacateAll g s fun s =>
    let s := g.foldl (fun (s : State) c => s.modThread c fun t => t.toRound turn s.cycle) s
    s.passContext p

/-- Whether no member of the current thread's gang that could run has a priority above some other. -/
def State.gangBelow (s : State) (n : Nat) : Bool :=
  ((s.gangOf s.cur).filter fun u => decide (u.st = .running)).all fun u => u.waiting || decide (u.sys.eprio.toNat ≤ n)

/-- Whether a runnable thread of the same effective priority waits in the instance, wherever it may run, or one is to be made here, and no member of
the gang is above it. -/
def State.peerWaits (s : State) : Bool :=
  let e := s.cur.sys.eprio.toNat
  let u := s.withoutGang
  s.gangBelow e && ((u.threads.any fun t => u.isRunnable t && decide (t.sys.eprio.toNat = e) && s.sharesInstance s.cur t) ||
    (u.launches.any fun l => u.creatable s.cur.id.place l && decide (l.lrec.prio = e)))

/-- TIME_SLICE_END: the slice of a resident thread is over and another of its priority waits. A thread in a waiting instruction takes no
slice. -/
def execTimeSliceEnd (c : Nat) (s : State) : Host.Outcome State Fault Refusal :=
  stepOr s ((s.focus c).bind fun s =>
    if s.cur.st = .running ∧ s.cur.waiting = false ∧ s.cur.sliceAt + Config.sliceCycles ≤ s.cycle ∧ s.peerWaits then some s.endSlice else none)

/-- Whether the stage of the current thread needs its contexts: without this gang's it would hold fewer than MINCTX, and it has a runnable
thread (R143). -/
def State.keepsMin (s : State) : Bool :=
  let i := s.cur.id
  match (s.launch.lrec.stages[i.stage]?).map fun g => g.minctx with
  | some n => decide (s.withoutGang.stageResident i.launch i.stage < n) &&
      s.threads.any fun t => decide (t.id.launch = i.launch ∧ t.id.stage = i.stage) && (s.isRunnable t || (decide (t.st = .running) && !t.waiting))
  | none => false

/-- Whether another resident thread could give way to a runnable one instead, whose stage keeps its MINCTX. -/
def State.spareFor (s : State) (u : Thread) : Bool :=
  s.threads.any fun v => decide (v.st = .running) && !s.residentGang.contains v.id.ctxid && s.mayRestoreAt u v.id.place &&
    (v.waiting || decide (v.sys.eprio.toNat < u.sys.eprio.toNat)) && match s.focus v.id.ctxid with
      | some w => w.gangBelow u.sys.eprio.toNat && !w.keepsMin
      | none => false

/-- Whether the current thread is to give way: to a higher priority, or, where it waits, to any thread; no member of its gang that could
run gives way to a lower priority, and no stage falls below its MINCTX for another where a spare context serves as well (R143, R153). -/
def State.givesWay (s : State) : Bool :=
  let p := s.cur.id.place
  match s.withoutGang.waitingPrio p with
  | none => false
  | some w => (decide (s.cur.sys.eprio.toNat < w) || s.cur.waiting) && s.gangBelow w &&
      !(s.keepsMin && match s.withoutGang.nextFor p with
        | some u => decide (u.id.launch ≠ s.cur.id.launch ∨ u.id.stage ≠ s.cur.id.stage) && s.spareFor u
        | none => false)

/-- Whether the current thread waits for a lock whose holder is descheduled: it is descheduled in turn (R157). -/
def State.lockStuck (s : State) : Bool :=
  match s.cur.wait with
  | some (.lock k none) => match s.thread? (holderOf (s.keyWord k)) with
    | some t => decide (t.st ≠ .running ∧ t.st ≠ .free)
    | none => false
  | _ => false

/-- PREEMPTION: the thread and its gang are saved. -/
def execPreemption (c : Nat) (s : State) : Host.Outcome State Fault Refusal :=
  stepOr s ((s.focus c).bind fun s =>
    if s.cur.st = .running ∧ (s.givesWay ∨ s.lockStuck) then some (vacateAll s.residentGang s done) else none)

/-! ### The lanes (R154, R155, R164) -/

/-- The current thread's queue drained, and its lanes given up; with `again` it queues for them behind the waiters of its own priority. -/
def State.yieldLanes (s : State) (again : Bool) : Res Unit :=
  s.drained fun s =>
    let k := (s.core s.cur.id.place).without s.cur.id.ctxid
    done ((s.setCore s.cur.id.place { k with waiters := k.waiters ++ (if again then [s.cur.id.ctxid] else []) }).passLanes s.cur.id.place)

/-- LANE_SLICE_END: the holder has had the lanes for a whole slice while another context waits. -/
def execLaneSliceEnd (c : Nat) (s : State) : Host.Outcome State Fault Refusal :=
  stepOr s ((s.focus c).bind fun s =>
    let k := s.core s.cur.id.place
    if s.cur.st = .running ∧ k.holder = some c ∧ k.since + Config.sliceCycles ≤ s.cycle ∧ k.waiters.any (fun x => decide (x ≠ c)) then
      some (s.yieldLanes true)
    else none)

/-- Whether the current thread borrows the lanes of a context whose replay is over. -/
def State.lanesDue (s : State) : Option Nat :=
  let k := s.core s.cur.id.place
  if k.holder = some s.cur.id.ctxid then s.lenderBack k else none

/-- LANE_HANDOVER: the borrower's queue drains, and the lanes return to the context that lent them. -/
def execLaneHandover (c : Nat) (s : State) : Host.Outcome State Fault Refusal :=
  stepOr s ((s.focus c).bind fun s =>
    match decide (s.cur.st = .running), s.lanesDue with
    | true, some _ => some (s.yieldLanes false)
    | _, _ => none)

/-- Whether a core has a base core's number. -/
def isBaseKey (k : Nat) : Bool := decide (24 ≤ k / 8 % 32)

/-- LANE_GRANT_CHANGE: a quarter, a half, three quarters or all of a core's lanes; the next VSETL takes note. -/
def execLaneGrantChange (k n : Nat) (s : State) : Host.Outcome State Fault Refusal :=
  stepOr s (
    let quarter := if isBaseKey k then 4 else 16
    if [quarter, 2 * quarter, 3 * quarter, 4 * quarter].contains n then
      let c := (Tab.get s.cores k).getD (Core.init (isBaseKey k))
      some (done { s with cores := Tab.set s.cores k { c with grant := n } })
    else none)

end Sys2Proof.Machine
end

