-- ==== Sys2Proof/Machine/System.lean ====
section
/-!
DEFINITION. System: the SYS family (R366 to R372).
-/
namespace Sys2Proof.Machine

/-- NOP. -/
def execNop (s : State) : Host.Outcome State Fault Refusal := finish (done s.retire)

/-- YIELD (R367): the queue drains as for a pre-emption, and the slice ends where a peer waits. DESIGN CHOICE (log entry 59): a YIELD of a demonstrated
body that ends the slice shows the pre-emption, WHY 0x0A, and not the instruction outside the subset, 0x01. -/
def execYield (s : State) : Host.Outcome State Fault Refusal :=
  finish (s.drained fun s => if s.peerWaits then drainAll s.residentGang s fun s => s.retire.endSlice else done s.retire)

/-- BRK: the breakpoint trap; the spec gives BADVA no value for it (log entry 19). -/
def execBrk (s : State) : Host.Outcome State Fault Refusal := finish (s.trapHere 0x06 0 s.free true)

/-- TRAP: DETAIL is the low byte of X[A]. -/
def execTrap (a : BitVec 6) (s : State) : Host.Outcome State Fault Refusal :=
  finish (readG s a 2 fun x => s.trapHere 0x05 (x.setWidth 8) s.free true)

/-! ### EXIT (R368) -/

/-- The digest of a path (R229). -/
def pathDigest (ws : List Word) : BitVec 512 := Config.sha512 (ws.flatMap fun w => natBytes 8 w.toNat)

/-- The path digest of a selected thread at its end, held against the one that the thread of the same number, stage and launch had in the first
pass; in a reverse-step replay that ends before its stop, against the original run (R229). -/
def State.comparePath (s : State) : State :=
  match s.curPart with
  | none => s
  | some p =>
    if !p.selects s.cur.id.ctxid then s
    else
      let n := s.launch.num
      let against : Option (List Word) := s.cur.orig.orElse fun _ =>
        (p.db.paths.find? fun x => decide (x.1 = n ∧ x.2.1 = s.cur.id.stage ∧ x.2.2.1 = s.cur.id.lthr)).map fun x => x.2.2.2
      match against with
      | some x => if pathDigest x = pathDigest s.cur.path then s
        else s.modPart p.idx fun q => { q with db := { q.db with dbflag := true } }
      | none => s.modPart p.idx fun q => { q with db := { q.db with paths := q.db.paths ++ [(n, s.cur.id.stage, s.cur.id.lthr, s.cur.path)] } }

/-- EXIT: everything older is over, the context is detached, and the thread ends. -/
def execExit (s : State) : Host.Outcome State Fault Refusal :=
  finish (
    let c := s.cur.id.ctxid
    if !s.queue.isEmpty || !s.ownLins.isEmpty then s.stall
    else if !(s.cmdsEnded c && s.banksEnded c) then .wait (.fence true true) s
    else
      let s := (s.abandon 0x01).comparePath
      (if s.cur.share.isSome then (finishAll s).detach else s).gone false)

/-! ### The heap (R87, R369) -/

/-- Whether a run of bytes meets no allocation. -/
def heapFree (l : List Alloc) (a n : Nat) : Bool := l.all fun x => decide (x.addr + x.size ≤ a) || decide (a + n ≤ x.addr)

/-- The lowest granule-aligned run of n bytes that is free within a range. -/
def lowestFit (l : List Alloc) (lo hi n : Nat) : Option Nat :=
  let up : Nat → Nat := fun a => (a + 127) / 128 * 128
  ((up lo :: l.map fun x => x.addr + x.size).filter fun a => decide (up lo ≤ a ∧ a + n ≤ hi) && heapFree l a n).min?

/-- The thread's number across the stages (R140, R369). -/
def State.threadNo (s : State) : Nat := s.launch.lrec.base s.cur.id.stage + s.cur.id.lthr

/-- The part of the heap that serves the current thread: all of it, or its slice in a DET launch. -/
def State.heapRange (s : State) : Nat × Nat :=
  let r := s.launch.lrec
  let h := r.heapb.toNat
  if r.det then
    let z := 128 * (r.heapsz / (128 * max 1 (r.base r.stages.length)))
    (h + s.threadNo * z, h + (s.threadNo + 1) * z)
  else (h, h + r.heapsz)

/-- ALLOC. -/
def execAlloc (d a : BitVec 6) (s : State) : Host.Outcome State Fault Refusal :=
  finish (regs2 s d a fun x =>
    let n := (x.toNat + 127) / 128 * 128
    let r := s.heapRange
    if n = 0 ∨ s.launch.lrec.heapsz = 0 then s.result d 0
    else match lowestFit s.launch.allocs r.1 r.2 n with
      | none => s.result d 0
      | some at_ =>
        (s.modLaunch s.cur.id.launch fun l => { l with allocs := l.allocs ++ [⟨at_, n, s.threadNo⟩] }).result d (BitVec.ofNat 64 at_))

/-- FREE. -/
def execFree (d a : BitVec 6) (s : State) : Host.Outcome State Fault Refusal :=
  finish (regs2 s d a fun x =>
    if x = 0 then s.result d 0
    else match s.launch.allocs.find? fun y => decide (y.addr = x.toNat) with
      | none => s.result d 1
      | some y =>
        if s.isDet && decide (y.owner ≠ s.threadNo) then s.result d 1
        else (s.modLaunch s.cur.id.launch fun l => { l with allocs := l.allocs.filter (fun z => decide (z.addr ≠ y.addr)) }).result d 0)

/-! ### LAUNCH (R370) -/

/-- A launch that joins the dispatcher queues: its record, who submits it, and its timestamp. -/
def State.addLaunch (s : State) (part asid : Nat) (r : LaunchRec) (ts : Nat) (host : Bool) : State :=
  let l : Launch :=
    { Launch.empty with
      id := s.nextLaunch, host := if host then some s.nextLaunch else none, part := part, asid := asid, lrec := r, ts := ts, order := s.order
      num := ((s.part? part).map fun p => p.db.launched).getD 0
      made := r.stages.map fun _ => 0, ended := r.stages.map fun _ => 0, snap := if r.det then s.mem else [] }
  ({ s with launches := s.launches ++ [l], nextLaunch := s.nextLaunch + 1, order := s.order + 1 } : State).modPart part fun p =>
    { p with db := { p.db with launched := p.db.launched + 1 } }

/-- The lines of a record from an address on, each checked as an ordinary load of the current thread, or the first that traps. -/
def recordLines (s : State) (x : Word) : List Nat → Except (Word × BitVec 8 × BitVec 8) (List Where)
  | [] => .ok []
  | k :: t =>
    let ea := x + BitVec.ofNat 64 (128 * k)
    match s.spot needRd ea 128 3 with
    | .bad c d => .error (ea, c, d)
    | p => match recordLines s x t with
      | .ok r => .ok (p :: r)
      | .error e => .error e

/-- Loads of whole lines, one after another. -/
def loadEach (s : State) : List Where → List Byte × State
  | [] => ([], s)
  | p :: t =>
    let r := s.load false p 128
    let q := loadEach r.2 t
    (natBytes 128 r.1 ++ q.1, q.2)

/-- The lines loaded over again until PTS stands: every one of them is then read at that one timestamp. `fuel` bounds the rounds; a round that
moves PTS renews a line, or rebases. -/
def loadSettled : Nat → State → List Where → List Byte × State
  | 0, s, ps => loadEach s ps
  | n + 1, s, ps =>
    let r := loadEach s ps
    if r.2.cur.sys.pts = s.cur.sys.pts then r else loadSettled n r.2 ps

/-- Whole lines as one ordinary load, at one timestamp (R91, R95, R370). -/
def loadLinesAt (s : State) (ps : List Where) : List Byte × State := loadSettled (2 * ps.length + 2) s ps

/-- LAUNCH: the record is read, checked and queued, at no more than the issuer's base priority (R152). -/
def execLaunch (d a : BitVec 6) (s : State) : Host.Outcome State Fault Refusal :=
  finish (regs2 s d a fun x =>
    if x.toNat % 128 ≠ 0 then s.trapHere 2 3 x false
    else match recordLines s x (List.range (recordSize / 128)) with
      | .error e => if decide (e.2.1 = 8) && s.memBusy then s.stall else s.trapHere e.2.1 e.2.2 e.1 false
      | .ok ps =>
        if s.memBusy then s.stall
        else
          let r := loadLinesAt s ps
          let s := r.2
          let rec_ := launchRecOf r.1
          match s.curPart with
          | none => s.result d 0
          | some p => match s.refuseRecord p r.1 rec_ true with
            | some n => s.result d (BitVec.ofNat 64 (2 ^ 63 + n))
            | none =>
              (s.addLaunch p.idx s.launch.asid { rec_ with prio := min rec_.prio s.cur.sys.bprio.toNat } s.cur.sys.pts false).result d 0)

/-! ### DEAL and PRIO (R371, R372) -/

/-- DEAL: the block of strips of a thread within its node at a level. -/
def execDeal (d a b : BitVec 6) (s : State) : Host.Outcome State Fault Refusal :=
  finish (regs3 s d a b fun x y =>
    let r := s.launch.lrec
    let n := min y.toNat r.leaf
    let strips := x.toNat % 2 ^ 32
    let total := r.below n
    let t := ((List.range r.levels.length).filter fun k => decide (n < k)).foldl (fun t k => t * r.count k + s.cur.id.coord k) 0
    s.result d (BitVec.ofNat 64 ((t + 1) * strips / total * 2 ^ 32 + t * strips / total)))

/-- PRIO: the base priority, at most the launch's; the effective priorities follow (R157). -/
def execPrio (a : BitVec 6) (s : State) : Host.Outcome State Fault Refusal :=
  finish (readG s a 2 fun x =>
    let p := min x.toNat s.launch.lrec.prio
    done (({ s with cur := { s.cur with sys := { s.cur.sys with bprio := BitVec.ofNat 4 p } } } : State).inherit).retire)

end Sys2Proof.Machine
end

