-- ==== Sys2Proof/Machine/Kernel.lean ====
section
/-!
DEFINITION. Kernel: what the resident kernel makes the machine do through a partition's control registers, its events, and debug (R101, R202,
R212 to R214, R220, R222, R225, R227, R228, R374).
-/
namespace Sys2Proof.Machine

/-! ### Kills (R112, R225) -/

/-- A thread of a partition, live. -/
def State.threadIn (s : State) (p c : Nat) : Option Thread :=
  (s.thread? c).filter fun t => decide (t.st ≠ .free) && decide ((s.launchOf t.id.launch).part = p)

/-- Threads killed one after another. -/
def killAll : List Nat → State → Res Unit
  | [], s => done s
  | c :: r, s =>
    match s.focus c with
    | none => killAll r s
    | some u => u.kill.seq fun u => killAll r u

/-- Every thread of a launch killed, and none made any more (R388, R204). -/
def State.killLaunch (s : State) (id : Nat) : Res Unit :=
  let l := s.launchOf id
  if l.finished then done s
  else
    let stages := List.range l.lrec.stages.length
    let left := fun g : Nat => l.lrec.threads g - (l.made[g]?).getD 0
    let s := s.modLaunch id fun x => { x with killed := true, made := stages.map l.lrec.threads }
    let cs := (s.threads.filter fun t => decide (t.st ≠ .free ∧ t.id.launch = id)).map fun t => t.id.ctxid
    (killAll cs s).seq fun s => done (stages.foldl (fun (s : State) g => s.countEnded id g (left g)) s)

/-! ### KCMD (R213) -/

/-- The fields of KCMD that a write sets. -/
def kcmdFields : Word := 0x00000000070FFFFF

/-- CH, OP and CTXID written; BUSY and REF stand, whether or not a command is in progress. -/
def KRegs.putKcmd (k : KRegs) (v : Word) : KRegs := { k with kcmd := (v &&& kcmdFields) ||| (k.kcmd &&& 0x6000000000000000) }

/-- BUSY and REF set; the fields stand. -/
def State.kcmdFlags (s : State) (p : Nat) (busy ref : Bool) : State :=
  s.modPart p fun x => { x with k := { x.k with kcmd := (x.k.kcmd &&& kcmdFields) |||
    (if busy then 0x4000000000000000 else 0) ||| (if ref then 0x2000000000000000 else 0) } }

/-- Whether a trapped thread's event record still waits for room: the thread stays suspended until it is written (R212). -/
def Part.recordWaits (p : Part) (c : Nat) : Bool := p.pending.any fun e => decide (e.type = 1 ∧ e.ctxid = c)

/-- The word that starts a command. -/
def kcmdWord (op c ch : Nat) : Word := BitVec.ofNat 64 (2 ^ 63 + ch % 8 * 2 ^ 24 + op * 65536 + c % 65536)

/-- The paused engine command that KCMD and KARG name. -/
def State.pausedCmd (s : State) (p c ch : Nat) (id : Word) : Option Cmd :=
  s.cmds.find? fun x => decide (x.owner = c ∧ x.ch = ch ∧ x.id = id.toNat ∧ s.cmdPart x = p) && x.paused.isSome && !x.ended

/-- What a command of KCMD does: it acts, is refused, or stays in progress: a RESUME until the thread's event record is written (log entry 96),
a SAVE until the queues have drained. -/
def State.kcmdAct (s : State) (p : Part) (v : Word) : Res Unit :=
  let c := bitsOf v 0 16
  let ch := bitsOf v 24 3
  let refused := done (s.kcmdFlags p.idx false true)
  let busy := s.kcmdFlags p.idx true false
  let s := s.kcmdFlags p.idx false false
  match bitsOf v 16 4 with
  | 1 => match (s.threadIn p.idx c).bind fun t => if t.st = .suspended then s.focus c else none with
    | some u => if p.recordWaits c then done busy else u.resumeCur
    | none => refused
  | 2 => match (s.threadIn p.idx c).bind fun _ => s.focus c with
    | some u => u.kill
    | none => refused
  | 3 => match (busy.threadIn p.idx c).bind fun t => if t.st = .running then busy.focus c else none with
    | some u => vacateAll u.residentGang u fun u => done (u.kcmdFlags p.idx false false)
    | none => refused
  | 4 => match s.pausedCmd p.idx c ch p.k.karg with
    | some x => done (s.putCmd { x with paused := none })
    | none => match s.heldPush p.idx c ch p.k.karg with
      | some x => done { s with link := { s.link with held := s.link.held.filter fun y => !samePush x y } }
      | none => refused
  | 5 => match s.pausedCmd p.idx c ch p.k.karg with
    | some x => done (s.abortCmd x 4)
    | none => match s.heldPush p.idx c ch p.k.karg with
      | some x => done (s.abortPush x)
      | none => refused
  | _ => refused

/-- A command of KCMD started: the fields are written, and the command is kept apart from them for as long as it is in progress. -/
def State.command (s : State) (p : Part) (v : Word) : Res Unit :=
  (s.modPart p.idx fun x => { x with k := { x.k.putKcmd v with kact := v &&& kcmdFields } }).kcmdAct p v

/-- Whether KCMD has a command in progress, during which GO is ignored. -/
def Part.kcmdBusy (p : Part) : Bool := p.k.kcmd.getLsbD 62

/-- A command of a partition as a step of its own: KCMD is written, or the command in progress is tried again. -/
def kcmdStep (s : State) (p op c ch : Nat) : Host.Outcome State Fault Refusal :=
  stepOr s ((s.part? p).bind fun q =>
    if !q.kcmdBusy then some (s.command q (kcmdWord op c ch))
    else if decide (bitsOf q.k.kact 16 4 = op) && decide (bitsOf q.k.kact 0 16 = c % 65536) then some (s.kcmdAct q q.k.kact)
    else none)

/-- KCMD_RESUME. -/
def execKcmdResume (p c : Nat) (s : State) : Host.Outcome State Fault Refusal := kcmdStep s p 1 c 0

/-- KCMD_KILL. -/
def execKcmdKill (p c : Nat) (s : State) : Host.Outcome State Fault Refusal := kcmdStep s p 2 c 0

/-- KCMD_SAVE. -/
def execKcmdSave (p c : Nat) (s : State) : Host.Outcome State Fault Refusal := kcmdStep s p 3 c 0

/-- KCMD_ENGRES: KARG holds the transfer ID. -/
def execKcmdEngres (p c ch : Nat) (s : State) : Host.Outcome State Fault Refusal := kcmdStep s p 4 c ch

/-- KCMD_ENGABT: KARG holds the transfer ID. -/
def execKcmdEngabt (p c ch : Nat) (s : State) : Host.Outcome State Fault Refusal := kcmdStep s p 5 c ch

/-- CONTEXT_STATE_ERROR: an uncorrectable error in a thread's registers, queue or save image kills that context (R204). -/
def execContextStateError (c : Nat) (s : State) : Host.Outcome State Fault Refusal :=
  stepOr s ((s.focus c).bind fun s => if s.cur.st = .free then none else some s.kill)

/-! ### Events (R212, R214) -/

/-- The 64 bytes of an event record. -/
def EvRec.bytes (e : EvRec) : List Byte :=
  natBytes 8 (e.type * 2 ^ 56 + e.ctxid) ++ natBytes 8 e.cause.toNat ++ natBytes 8 e.epc.toNat ++ natBytes 8 e.badva.toNat ++ natBytes 8 e.id
    ++ natBytes 8 e.ch ++ natBytes 8 e.cycle ++ natBytes 8 0

/-- EVENT_RECORD_WRITE: the oldest waiting record of a partition goes to its queue, where there is room, and the management die is interrupted. -/
def execEventRecordWrite (p : Nat) (s : State) : Host.Outcome State Fault Refusal :=
  stepOr s ((s.part? p).bind fun q => match q.pending with
    | [] => none
    | e :: rest =>
      let full := decide (4096 ≤ (q.k.evqt - q.k.evqh).toNat)
      let a := bitsOf q.k.evqb 18 34 * 2 ^ 18 + 64 * (q.k.evqt.toNat % 4096)
      if full then none
      else if !s.isMemory a then some (.hole a)
      else
        let s := (s.sysStore a e.bytes).modPart p fun x => { x with pending := rest, k := { x.k with evqt := x.k.evqt + 1 } }
        some (done { s.wake with host := { s.wake.host with irq := true } }))

/-- THREAD_TABLE_RES_SET: the kernel has paged an image in and sets RES. A waiter whose WAKE is set becomes runnable; the kernel clears
WAKE. The image takes the presets of the domain's timestamps that it has missed (R374). -/
def execThreadTableResSet (p c : Nat) (s : State) : Host.Outcome State Fault Refusal :=
  stepOr s ((s.part? p).map fun q =>
    let a := q.tableEntry c
    if !s.isMemory a then .hole a
    else
      let woken := (s.mem.word (a + 8)).getLsbD 63
      let s := (s.sysStore a (natBytes 8 (setBits (s.mem.word a) 63 1 1).toNat)).withThread c fun u => u.addPtsSlot 0
      match s.threadIn p c with
      | some t =>
        if woken && decide (t.st = .savedWaiting) then
          let s := s.sysStore (a + 8) (natBytes 8 (setBits (s.mem.word (a + 8)) 63 1 0).toNat)
          (s.putTState q c .saved).seq fun s => done ((s.modThread c fun t => { t with st := .saved, stalled := false }).withThread c State.joined)
        else done s
      | none => done s)

/-! ### Translations and timestamps (R101, R202, R374) -/

/-- Whether an invalidation drops a TLB entry; one with G set belongs to every ASID (R193, R202). -/
def Inval.dropsTlb (v : Inval) (t : Tlb) : Bool :=
  v.has t.asid (t.vpage * (if t.big then Config.bigPageBytes else Config.pageBytes)) ⟨t.big, t.entry.getLsbD 7⟩

/-- Whether an invalidation drops a table pointer of a walk cache: one that leads to the page (R202). -/
def Inval.dropsWalk (v : Inval) (w : WalkPtr) : Bool :=
  match bitsOf v.ctl 16 2 with
  | 0 => decide (w.asid = bitsOf v.ctl 0 12) && decide (w.index = bitsOf v.page 16 40 / 2 ^ (if w.level = 0 then 26 else 13))
  | 1 => decide (w.asid = bitsOf v.ctl 0 12)
  | _ => true

/-- A write of TINVC: SCOPE and ASID, and with GO an invalidation, unless one is in progress. -/
def State.writeTinvc (s : State) (p : Part) (v : Word) : State :=
  let put : Word → Option Inval → State := fun keep i =>
    s.modPart p.idx fun x => { x with inval := i, k := { x.k with tinvc := keep ||| v &&& 0x30FFF } }
  if p.inval.isSome || !v.getLsbD 63 then put (p.k.tinvc &&& 0x6000000000000000) p.inval
  else
    let i : Inval := ⟨s.cycle, v &&& 0x30FFF, p.k.tinva⟩
    let s := put 0x4000000000000000 (some i)
    { s with
      tlb := s.tlb.filter (fun t => decide (t.part ≠ p.idx) || !i.dropsTlb t)
      walks := s.walks.filter (fun w => decide (w.part ≠ p.idx) || !i.dropsWalk w) }

/-- TLB_INVALIDATE: TINVC is written. -/
def execTlbInvalidate (p : Nat) (v : BitVec 64) (s : State) : Host.Outcome State Fault Refusal :=
  stepOr s ((s.part? p).map fun q => done (s.writeTinvc q v))

/-- A write of TSDPRE: OFFSET, and with GO the preset, in a partition whose debug is enabled. The count of rebases is the smallest from 1 to
3 that brings TSMAX + OFFSET below 0xC0000, or none where it lies below already. The PTS in every save image rises with it (R374). -/
def State.writeTsdpre (s : State) (p : Part) (v : Word) : State :=
  if !p.debugOn then s
  else
    let off := bitsOf v 0 20
    let s := s.modPart p.idx fun x => { x with k := { x.k with tsdpre := BitVec.ofNat 20 off } }
    if !v.getLsbD 63 then s
    else
      let top := s.tsmax p + off
      let j := if top < Config.rebaseAt then 0
        else (([1, 2, 3].find? fun j => decide (top < Config.rebaseAt + Config.rebaseBy * j))).getD 3
      let s := (s.shiftTs p off (Config.rebaseBy * j)).modPart p.idx fun x => { x with rebases := x.rebases + BitVec.ofNat 32 j }
      (s.threads.filter fun t => decide ((s.launchOf t.id.launch).part = p.idx)).foldl (fun s t => s.withThread t.id.ctxid fun u => u.addPtsSlot off) s

/-- TSDPRE_PRESET: TSDPRE is written. -/
def execTsdprePreset (p : Nat) (v : BitVec 64) (s : State) : Host.Outcome State Fault Refusal :=
  stepOr s ((s.part? p).map fun q => done (s.writeTsdpre q v))

/-! ### Format windows (R59) -/

/-- A change of one window. -/
def State.modWindow (s : State) (n : Nat) (f : Window → Window) : State :=
  { s with windows := (s.windows.zip (List.range s.windows.length)).map fun w => if w.2 = n then f w.1 else w.1 }

/-- A write of FWCTL: EN stays 0 unless LINES, FMT and the range are valid. -/
def Window.control (w : Window) (v : Word) : Window :=
  let ok := decide (bitsOf v 20 16 ≠ 0) && decide (1 ≤ bitsOf v 0 4 ∧ bitsOf v 0 4 ≤ 3) && decide (w.pay.toNat < w.lim.toNat)
  { w with ctl := v &&& 0xFFFF0000F ||| (if v.getLsbD 63 && ok then 0x8000000000000000 else 0) }

/-- The window registers at an offset (R59). -/
def Window.put (w : Window) (o : Nat) (v : Word) : Window :=
  match o with
  | 0x00 => { w with pay := v &&& 0xFFFFFFFFFFF80 }
  | 0x08 => { w with lim := v &&& 0xFFFFFFFFFFF80 }
  | 0x10 => { w with scl := v &&& 0xFFFFFFFFFFFE0 }
  | 0x18 => { w with bnd := v &&& 0xFFFFFFFFFFFFE }
  | 0x20 => w.control v
  | _ => w

/-- FORMAT_WINDOW_ENABLE: FWCTL of a window is written. -/
def execFormatWindowEnable (n : Nat) (v : BitVec 64) (s : State) : Host.Outcome State Fault Refusal :=
  stepOr s (if n < 32 then some (done (s.modWindow n fun w => w.control v)) else none)

/-! ### Debug (R227, R228) -/

/-- Whether a checkpoint of the current thread is due: every DBCKI retired instructions, once, while there is a capture area with room. A thread
whose loop is being replayed retires nothing; the checkpoint at its count was due before. -/
def State.checkpointDue (s : State) : Bool :=
  match s.curPart with
  | none => false
  | some p =>
    let n := p.db.dbcki.toNat
    p.selects s.cur.id.ctxid && p.db.dbctl.getLsbD 62 && decide (n ≠ 0) && decide (s.cur.retired % max 1 n = 0) && decide (s.cur.retired ≠ 0)
      && decide (bitsOf p.db.dbcap 0 16 ≠ 0) && !p.db.full && decide (s.cur.sys.lstate ≠ 2)
      && p.db.ckpts.all fun k => decide (k.thread.id.ctxid ≠ s.cur.id.ctxid) || decide (k.thread.retired ≠ s.cur.retired)

/-- CHECKPOINT: a copy of the thread as its save image would hold it, from which on old line contents are captured. -/
def execCheckpoint (c : Nat) (s : State) : Host.Outcome State Fault Refusal :=
  stepOr s ((s.focus c).bind fun s =>
    if s.cur.st = .running ∧ s.checkpointDue then
      some (done (s.modPart s.launch.part fun x => { x with db := { x.db with
        ckpts := ⟨{ s.flight.cur with saveRebases := x.rebases.toNat, share := none }, s.ownLins, [], [], []⟩ :: x.db.ckpts } }))
    else none)

/-- Whether the retired-count stop holds before the current thread's next instruction. -/
def State.retiredStop (s : State) : Bool :=
  match s.curPart with
  | none => false
  | some p => p.selects s.cur.id.ctxid && p.db.dbret.getLsbD 63 && decide (s.cur.retired = bitsOf p.db.dbret 0 63) && !s.cur.pass

/-- The path digest of a reverse-step replay, held against that of the original run up to the same outcome (R229). -/
def State.compareReplay (s : State) : State :=
  match s.cur.orig with
  | none => s
  | some o =>
    let t : State := { s with cur := { s.cur with orig := none } }
    if pathDigest (o.take s.cur.path.length) = pathDigest s.cur.path then t
    else t.modPart s.launch.part fun q => { q with db := { q.db with dbflag := true } }

/-- RETIRED_COUNT_STOP: the breakpoint trap with DETAIL 2 before the instruction; the spec gives BADVA no value (log entry 19). -/
def execRetiredCountStop (c : Nat) (s : State) : Host.Outcome State Fault Refusal :=
  stepOr s ((s.focus c).bind fun s =>
    if s.cur.st = .running ∧ s.cur.trap.isNone ∧ s.retiredStop then some (s.compareReplay.trapHere 0x06 2 s.free false) else none)

/-- The checkpoint image of the current thread written over its save image, every register that holds anything included. -/
def State.imageOver (s : State) (p : Part) : State :=
  let regs := s.cur.vec.regs.map fun r => (r.1, { r.2 with dirty := true })
  match ({ s with cur := { s.cur with vec := { s.cur.vec with regs := regs } } } : State).writeImage p with
  | .ok _ s => s
  | _ => s

/-- Lines of memory hold their old contents again. -/
def State.putOldLines (s : State) (ls : Tab LineData) : State := ls.foldl (fun s l => s.sysStore (128 * l.1) (natBytes 128 l.2.toNat)) s

/-- Lines of shadow copies hold their old contents again, where the buffer is still declared. -/
def State.putOldShadows (s : State) (xs : List ShadowOld) : State :=
  xs.foldl (fun s x => s.modShadow x.part x.handle fun b => { b with lines := match x.old with
    | some l => Tab.set b.lines x.line l
    | none => Tab.del b.lines x.line }) s

/-- The lines captured in some checkpoint intervals, newest first, hold their old contents again. -/
def State.uncapture (s : State) (ks : List Ckpt) : State :=
  ks.foldl (fun s k =>
    let s := (s.putOldLines k.lines).putOldShadows k.shads
    k.locs.foldl (fun s l => s.modLaunch k.thread.id.launch fun x =>
      let cl := l.1 / 2 ^ 32
      { x with stores := Tab.set x.stores cl ((x.store cl).setLine (l.1 % 2 ^ 32) l.2) }) s) s

/-- The loop instance that a checkpoint image brings back for the current thread, in place of the one that it is in: the slot of that one is free,
and a demonstration takes a slot of its collator again, or is abandoned where none is free (R166, R175; DESIGN CHOICE, log entry 60). -/
def State.reenterLoop (s : State) (k : Thread) : State :=
  let s := match s.cur.loop with
    | some l => s.freeSlot l.slot
    | none => s
  match k.loop with
  | none => { s with cur := k }
  | some l =>
    let used := (Tab.get s.slots l.slot).getD 0
    if used < loopSlots then { s with cur := k, slots := Tab.set s.slots l.slot (used + 1) }
    else ({ s with cur := k } : State).setLoop none 4 0x0A

/-- Steps 2 and 3 of reverse stepping (R228): the captured lines hold their old contents again, newest interval first, back to the target's
nearest checkpoint before its present retired count, and the saved target, its lineages and its save image stand as that checkpoint has them.
The press share, which is no part of the image, stays as it is (R317). -/
def State.rewind_ (s : State) (c : Nat) : State :=
  match (s.thread? c).bind fun t => (s.part? (s.launchOf t.id.launch).part).map fun p => (t, p) with
  | none => s
  | some (t, p) =>
    let after := p.db.ckpts.takeWhile fun k => !(decide (k.thread.id.ctxid = c) && decide (k.thread.retired < t.retired))
    match p.db.ckpts.drop after.length with
    | [] => s
    | k :: ks =>
      if t.st = .running ∨ t.st = .free then s
      else
        let other := fun y : Ckpt => decide (y.thread.id.launch ≠ k.thread.id.launch)
        let s := s.uncapture ((after.filter fun y => !other y) ++ [k])
        let s := s.modPart p.idx fun x => { x with db := { x.db with ckpts := after.filter other ++ { k with lines := [], locs := [], shads := [] } :: ks } }
        let core := s.core k.thread.id.place
        let kept := core.lins.filter fun l => decide (l.2.owner ≠ c)
        let s := s.setCore k.thread.id.place { core with lins := k.lins.foldl (fun m l => Tab.set m l.1 l.2) kept }
        let orig := match t.orig with
          | some o => if o.length < t.path.length then t.path else o
          | none => t.path
        s.withThread c fun u =>
          (u.reenterLoop { k.thread with st := u.cur.st, resume := k.thread.pc, stalled := false, share := u.cur.share, orig := some orig }).imageOver p

/-- Between two passes of a profiling replay (R229): every line of memory and of a shadow copy that the pass's launches have stored to holds again
what it held as the pass began, the checkpoints are gone, and every cache of the partition is cleaned and invalidated. -/
def State.newPass (s : State) (p : Part) : State :=
  let mine := fun l : Nat => s.owns p (128 * l)
  let s := (s.putOldLines p.db.pass).putOldShadows p.db.passShads
  let s := s.modPart p.idx fun x => { x with db := { x.db with ckpts := [], pass := [], passShads := [], full := false, launched := 0 } }
  let s := (s.lines.filter fun l => l.2.cached && mine l.1).foldl (fun (s : State) l => s.evictLine l.1) s
  { s with
    copies := s.copies.filter (fun c => !mine c.line)
    gathered := s.gathered.filter (fun g => !mine g.line)
    cores := s.cores.map (fun k => if p.hasSect (k.1 / 256) then (k.1, { k.2 with icache := [] }) else k) }

end Sys2Proof.Machine
end

