-- ==== Sys2Proof/Machine/Colophon.lean ====
section
/-!
DEFINITION. Colophon: secure boot, measurements, the mailbox and the quote (R204 to R209).
-/
namespace Sys2Proof.Machine

/-! ### Measurement (R207) -/

/-- MEASn extended by a digest. -/
def Colophon.extend (c : Colophon) (n : Nat) (d : List Byte) : Colophon :=
  { c with meas := c.meas.setIfInBounds n (Config.sha512 (natBytes 64 (c.meas.getD n 0).toNat ++ d)) }

/-- The 64 bytes of a digest. -/
def digest (bs : List Byte) : List Byte := natBytes 64 (Config.sha512 bs).toNat

/-! ### Boot (R205, R206) -/

/-- A field of the configuration record. -/
def cfgField (r : List Byte) (o n : Nat) : Nat := leNat ((r.drop o).take n)

/-- Section mask, second-tier base and limit of a partition in the record. -/
def cfgPart (r : List Byte) (n : Nat) : Nat × Nat × Nat :=
  (cfgField r (8 + n) 1, cfgField r (0x18 + 16 * n) 8, cfgField r (0x20 + 16 * n) 8)

/-- Whether step 2 accepts a record: its version, masks and ranges. DESIGN CHOICE (log entry 124): a TIER entry whose limit does not exceed its base is
an empty range, accepted wherever it lies, and the alignment of TIER is not checked. -/
def cfgOk (r : List Byte) : Bool :=
  let ps := (List.range 8).map (cfgPart r)
  let pairs := (List.range 8).flatMap fun a => (List.range a).map fun b => (ps.getD a (0, 0, 0), ps.getD b (0, 0, 0))
  decide (cfgField r 0 4 = 1)
    && (pairs.all fun x => decide (x.1.1 &&& x.2.1 = 0) &&
      (decide (x.1.2.2 ≤ x.1.2.1) || decide (x.2.2.2 ≤ x.2.2.1) || decide (x.1.2.2 ≤ x.2.2.1) || decide (x.2.2.2 ≤ x.1.2.1)))
    && ps.all fun x => decide (x.2.2 ≤ x.2.1) || (decide (Config.tierBase ≤ x.2.1) && decide (x.2.2 ≤ Config.tierBase + Config.tierBytes))

/-- The partitions that a record lays out. -/
def cfgParts (r : List Byte) : List Part :=
  ((List.range 8).filter fun n => decide ((cfgPart r n).1 ≠ 0)).map fun n =>
    let c := cfgPart r n
    { idx := n, sects := BitVec.ofNat 8 c.1, tierLo := c.2.1, tierHi := c.2.2, debugOn := (cfgField r 0x10 8).testBit n, rebases := 0, tsBase := 0
      k := KRegs.init, db := Debug.init, pending := [], inval := none }

/-- The ranges that a record gives the second tier. -/
def cfgTier (r : List Byte) : List (Nat × Nat) := (((List.range 8).map (cfgPart r)).map fun x => x.2).filter fun x => decide (x.1 < x.2)

/-- The CXL ports trained: those with a device that answers; the decoders take the ranges of the record (R390). -/
def Cxl.train (x : Cxl) (r : List Byte) : Cxl := { x with trained := x.attached, ranges := cfgTier r }

/-- Whether the ports that a record's second tier needs have trained: its lines interleave across all eight (R390). -/
def Cxl.serves (x : Cxl) : Bool := x.ranges.isEmpty || x.trained.all id

/-- The five steps of boot. A failure of step 1, 2, 3 or 5 leaves the module held in reset; one of step 4 leaves it without a key. DEDUCED (log
entry 111): the CXL ports train as the record is checked, since a port that fails leaves the record's range refused and halts boot (R390). -/
def State.boot (s : State) : State :=
  let f := s.flash
  let c := { s.colophon with booted := true }
  if !Config.ed25519Verify Config.rootKey f.colophon f.colophonSig then { s with colophon := c }
  else
    let c := c.extend 0 (digest f.colophon)
    let x := s.cxl.train f.config
    if !(Config.ed25519Verify Config.rootKey f.ownerCert f.ownerSig
        && Config.ed25519Verify (Config.ownerKeyOf f.ownerCert) (f.config.take 0xD8) ((f.config.drop 0xD8).take 64)
        && cfgOk f.config && x.serves) then { s with colophon := c }
    else
      let c := { c.extend 1 (digest f.config) with
        seq := BitVec.ofNat 32 (cfgField f.config 4 4), parts := BitVec.ofNat 64 (cfgField f.config 8 8), seed := Config.pufSeed f.helper }
      let s : State := { s with parts := cfgParts f.config, colophon := c, cxl := x }
      let req := cfgField f.config 0x98 64
      if req ≠ 0 ∧ req ≠ (Config.sha512 f.kernel).toNat then s
      else { s with colophon := { c.extend 2 (digest f.kernel) with kernelUp := true } }

/-- PACKAGE_BOOT: once after a package reset. -/
def execPackageBoot (s : State) : Host.Outcome State Fault Refusal :=
  stepOr s (if s.colophon.booted then none else some (done s.boot))

/-! ### Mailbox (R209) -/

/-- The quote for a nonce and a partition, or none without an identity key. -/
def State.quote (s : State) (nonce : List Byte) (part : Nat) : Option (List Byte) :=
  s.colophon.seed.map fun seed =>
    let body := nonce.take 64 ++ (s.colophon.meas.toList.map fun m => natBytes 64 m.toNat).flatten ++ natBytes 4 s.colophon.seq.toNat
      ++ natBytes 1 (s.colophon.parts.toNat / 256 ^ part) ++ natBytes 3 0 ++ natBytes 32 (Config.ed25519Public seed).toNat
    body ++ natBytes 64 (Config.ed25519Sign seed body).toNat

/-- The outcome of a QUOTE command on the first bytes of its buffer: MBSTAT, and the quote where there is one. DESIGN CHOICE (log entry 123): an index
above 7 is refused also without an identity key. -/
def State.quoteFor (s : State) (bytes : List Byte) : BitVec 2 × List Byte :=
  let p := leNat ((bytes.drop 64).take 1)
  if 7 < p then (2, [])
  else match s.quote (bytes.take 64) p with
    | none => (3, [])
    | some q => (1, q)

/-- The 4 KiB buffer of the mailbox. -/
def State.mailbox (s : State) : Nat := s.colophon.mbbuf.toNat / 4096 * 4096

/-- MBSTAT set. -/
def State.setMbstat (s : State) (v : BitVec 2) : State := { s with colophon := { s.colophon with mbstat := v } }

/-- A mailbox command (MBCMD written with a code): 0 busy, 1 done, 2 refused, 3 NOID. DESIGN CHOICE (log entry 80): a buffer outside the memory of
the module ends in `physicalHole`; R209 gives it no effect. DESIGN CHOICE (log entry 129): a command that would read a poisoned line of its buffer is
refused. -/
def State.mailboxCmd (s : State) (code : Nat) : Res Unit :=
  let b := s.mailbox
  if code = 0 ∨ 3 < code then done (s.setMbstat 2)
  else if !s.isMemory b then .hole b
  else
    let bytes := s.mem.run b 128
    if code ≠ 3 ∧ s.poisonedRun b 128 = true then done (s.setMbstat 2)
    else match code with
    | 1 =>
      let n := leNat (bytes.take 1)
      if n < 3 ∨ 7 < n then done (s.setMbstat 2)
      else done (({ s with colophon := s.colophon.extend n (bytes.drop 64) } : State).setMbstat 1)
    | 2 =>
      let z := s.quoteFor bytes
      done ((s.sysStore b z.2).setMbstat z.1)
    | 3 =>
      let c := s.flash.devCert
      done ((s.sysStore b (natBytes 4 c.length ++ c.take 4092)).setMbstat 1)
    | _ => done (s.setMbstat 2)

/-- MAILBOX_EXTEND. -/
def execMailboxExtend (s : State) : Host.Outcome State Fault Refusal := finish (s.mailboxCmd 1)

/-- MAILBOX_QUOTE. -/
def execMailboxQuote (s : State) : Host.Outcome State Fault Refusal := finish (s.mailboxCmd 2)

/-- MAILBOX_DEVCERT. -/
def execMailboxDevcert (s : State) : Host.Outcome State Fault Refusal := finish (s.mailboxCmd 3)

/-! ### Resets (R204, R221) -/

/-- The package resets: everything that a package reset leaves (log entry 6), with flash, the devices attached to the CXL ports, and what the
environment still has to do. -/
def State.packageReset (s : State) : State :=
  { State.reset with flash := s.flash, cxl := { State.reset.cxl with attached := s.cxl.attached }, agenda := s.agenda }

/-- SPINE_ERROR: corrected by resending, or the package resets. -/
def execSpineError (fatal : Bool) (s : State) : Host.Outcome State Fault Refusal :=
  .next (if fatal then s.packageReset else s)

/-- Launches of a partition killed one after another. -/
def killLaunches : List Nat → State → Res Unit
  | [], s => done s
  | l :: r, s => (s.killLaunch l).seq fun s => killLaunches r s

/-- What a partition's reset clears besides its launches: its timestamp domain, its translation control registers except ASRT.RBASE, its
shadowed buffers, and what its section logic holds. -/
def State.clearPart (s : State) (p : Part) : State :=
  let inDom := fun l : Nat => s.owns p (128 * l)
  let sect := fun n : Nat => p.hasSect n
  { s with
    lines := s.lines.map (fun l => if inDom l.1 then (l.1, { l.2 with wts := 0, rts := 0 }) else l)
    copies := s.copies.filter (fun c => !inDom c.line)
    gathered := s.gathered.filter (fun g => !sect (g.cluster / 32))
    tlb := s.tlb.filter (fun t => decide (t.part ≠ p.idx))
    walks := s.walks.filter (fun w => decide (w.part ≠ p.idx))
    cores := s.cores.filter (fun c => !sect (c.1 / 256))
    clusters := s.clusters.filter (fun c => !sect (c.1 / 32))
    slots := s.slots.filter (fun c => !sect (c.1 / 32))
    shadows := s.shadows.filter (fun b => decide (b.part ≠ p.idx))
    sends := s.sends.filter (fun x => decide ((s.launchOf x.launch).part ≠ p.idx))
    holders := s.holders.filter (fun h => !sect h.2)
    launches := s.launches.filter (fun l => decide (l.part ≠ p.idx))
    host := { s.host with images := s.host.images.filter (fun i => decide (i.part ≠ p.idx)) }
    parts := s.parts.map (fun q => if q.idx = p.idx then
        { q with inval := none, tsBase := 0, k := { q.k with asrt := q.k.asrt &&& 0x7FFFFFFFFFFFFFFF, tinva := 0, tinvc := 0, pintmo := 1000, tsdpre := 0 } } else q) }

/-- The sends that the catchword units of a partition have accepted, served in their order: a killed context's emissions and confirmations still
complete (R191, R225). -/
def State.serveAll (s : State) (p : Part) : State :=
  (s.sends.filter fun x => decide ((s.launchOf x.launch).part = p.idx)).foldl (fun (s : State) x => s.serve x) s

/-- PARTITION_RESET: every launch of the partition is killed, what its catchword units have accepted completes, the partition resets, and the host
learns of it (R387). -/
def execPartitionReset (p : Nat) (s : State) : Host.Outcome State Fault Refusal :=
  stepOr s ((s.part? p).map fun q =>
    (killLaunches ((s.launches.filter fun l => decide (l.part = p) && !l.finished).map fun l => l.id) s).seq fun s =>
      done (((s.serveAll q).clearPart q).hostEvent { type := 4, part := p, status := 0, tag := 0, note := 0, tbase := 0, ctx := 0 }))

end Sys2Proof.Machine
end

