-- ==== Sys2Proof/Machine/HostLink.lean ====
section
/-!
DEFINITION. HostLink: the host window, its rings, and the requests of the host (R253 to R255, R370, R377, R383 to R389).
-/
namespace Sys2Proof.Machine

/-! ### The window (R385) -/

/-- Base and size of the host window. -/
def State.winBase (s : State) : Nat := bitsOf s.host.hwin 20 32 * 2 ^ 20
def State.winSize (s : State) : Nat := bitsOf s.host.hwin 56 8 * 2 ^ 20

/-- The partition that owns the window. -/
def State.winPart (s : State) : Option Part := s.parts.find? fun p => s.owns p s.winBase

/-- A write of an agent without a context at max(TSMAX, rts + 1), for a partition (R385). -/
def State.kernelWrite (s : State) (p : Part) (pa : Nat) (bs : List Byte) : State := (s.unitWrite p.idx 0 (s.tsmax p) [(pa, bs)]).2

/-- HOST_WINDOW_WRITE: n bytes at an offset of BAR2. -/
def execHostWindowWrite (a n : Nat) (v : BitVec 64) (s : State) : Host.Outcome State Fault Refusal :=
  stepOr s (s.winPart.bind fun p =>
    if !s.host.ready ∨ 8 < n ∨ s.winSize < a + n then none
    else some (done ((s.wake).kernelWrite p (s.winBase + a) (natBytes n v.toNat))))

/-- What a read of the window gives the host: the latest value in the memory order, and no bytes where a line is poisoned (R204, R385; DESIGN CHOICE, log
entry 129). -/
def State.windowBytes (s : State) (a n : Nat) : List Byte := if s.poisonedRun (s.winBase + a) n then [] else s.mem.run (s.winBase + a) n

/-- HOST_WINDOW_READ: the latest value in the memory order; no lease is taken. -/
def execHostWindowRead (a n : Nat) (s : State) : Host.Outcome State Fault Refusal :=
  stepOr s (
    if !s.host.ready ∨ s.winSize < a + n then none
    else some (done { s.wake with host := { s.wake.host with readback := s.windowBytes a n } }))

/-- A write of HRQT by the host: TAIL, and an interrupt of the management die. -/
def State.doorbell (s : State) (v : Word) : State := { s.wake with host := { s.wake.host with hrqt := v.setWidth 32, irq := true } }

/-- HOST_DOORBELL. -/
def execHostDoorbell (v : BitVec 64) (s : State) : Host.Outcome State Fault Refusal := finish (done (s.doorbell v))

/-! ### Events (R387) -/

/-- The 64 bytes of an event. -/
def HostEv.bytes (e : HostEv) : List Byte :=
  natBytes 1 e.type ++ natBytes 1 e.part ++ natBytes 2 e.status ++ natBytes 4 e.tag ++ natBytes 8 e.note.toNat ++ natBytes 8 e.tbase.toNat
    ++ natBytes 8 e.ctx ++ natBytes 32 0

/-- HOST_EVENT_WRITE: the oldest event that waits goes to the ring, where there is room; MSI-X vector 0 signals that the ring is no longer
empty. -/
def execHostEventWrite (s : State) : Host.Outcome State Fault Refusal :=
  stepOr s (
    match s.host.waiting, s.winPart with
    | e :: rest, some p =>
      let used := (s.host.tail - s.host.heqh).toNat
      if !s.host.ready ∨ 4096 ≤ used then none
      else
        let t := s.host.tail + 1
        let s := s.kernelWrite p (s.winBase + 0x40000 + 64 * (s.host.tail.toNat % 4096)) e.bytes
        let s := s.kernelWrite p (s.winBase + 0x80008) (natBytes 8 t.toNat)
        some (done { s.wake with host := { s.wake.host with waiting := rest, tail := t, msi := s.host.msi || decide (used = 0) } })
    | _, _ => none)

/-! ### Requests (R386, R388) -/

/-- The request that the kernel takes next, or none. DESIGN CHOICE (log entry 129): one in a poisoned line is answered as one of no known operation, whose
PART and TAG are free values. -/
def State.request (s : State) : Option (List Byte) :=
  let a := s.winBase + 64 * (s.host.consumed.toNat % 4096)
  if s.host.ready && decide (s.host.consumed ≠ s.host.hrqt) then
    some (if s.poisoned a then natBytes 8 (256 * s.free.toNat) ++ List.replicate 56 0 else s.mem.run a 64)
  else none

/-- A request answered: the consumed count advances and a DONE event follows. -/
def State.answer (s : State) (r : List Byte) (status : Nat) (note : Word) : State :=
  let n := s.host.consumed + 1
  let s := match s.winPart with
    | some p => s.kernelWrite p (s.winBase + 0x80000) (natBytes 8 n.toNat)
    | none => s
  let s : State := { s with host := { s.host with consumed := n, irq := decide (n ≠ s.host.hrqt) } }
  s.hostEvent { type := 1, part := leNat ((r.drop 1).take 1), status := status, tag := leNat ((r.drop 4).take 4), note := note, tbase := 0, ctx := 0 }

/-- A step of the kernel on a request: one with its own operation acts on its PART and ARG0, one with an unknown operation is completed with
status 1, any other is another step's. -/
def requestStep (s : State) (op : Nat) (act : List Byte → Nat → Word → Option (Res Unit)) : Host.Outcome State Fault Refusal :=
  stepOr s (s.request.bind fun r =>
    let got := leNat (r.take 1)
    if got = 0 ∨ 4 < got then some (done (s.answer r 1 0))
    else if got ≠ op then none
    else act r (leNat ((r.drop 1).take 1)) (wordAt r 1))

/-- A step on a request that concerns a partition of the layout; one that names no such partition gets status 1. -/
def hostStep (s : State) (op : Nat) (act : List Byte → Part → Word → Option (Res Unit)) : Host.Outcome State Fault Refusal :=
  requestStep s op fun r n arg => match s.part? n with
    | none => some (done (s.answer r 1 0))
    | some p => act r p arg

/-! ### LOAD (R253 to R255) -/

/-- A section record, a window record and a region record. -/
structure ImgSect where
  va : Nat
  size : Nat
  off : Nat
  kind : Nat
  rsv : Bool
  deriving DecidableEq, Repr

structure ImgWin where
  fmt : Nat
  lines : Nat
  pay : Nat
  pend : Nat
  scl : Nat
  bnd : Nat
  rsv : Bool
  deriving DecidableEq, Repr

/-- An image as its header and records give it. -/
structure Img where
  entry : Nat
  size : Nat
  ok : Bool
  sects : List ImgSect
  wins : List ImgWin
  regs : List (Nat × Nat)
  deriving DecidableEq, Repr

/-- An image from the bytes of the window. DESIGN CHOICE (log entry 126): a header whose NRES exceeds 4,096 is not in order. -/
def imgOf (bs : List Byte) : Img :=
  let n : Nat → Nat → Nat := fun o k => leNat ((bs.drop o).take k)
  let ns := n 6 2
  let nw := n 8 2
  let nr := n 10 2
  let size := n 0x18 8
  let w0 := 0x40 + 32 * ns
  let r0 := w0 + 48 * nw
  let head := decide (n 0 4 = 0x5332494D ∧ n 4 2 = 1 ∧ 1 ≤ ns ∧ ns ≤ 2 ∧ nw ≤ 32 ∧ nr ≤ 4096 ∧ n 0xC 4 = 0 ∧ n 0x20 32 = 0)
    && decide (r0 + 16 * nr ≤ size)
  { entry := n 0x10 8, size := size, ok := head
    sects := if !head then [] else (List.range ns).map fun i =>
      let o := 0x40 + 32 * i
      ⟨n o 8, n (o + 8) 8, n (o + 16) 8, n (o + 24) 1, decide (n (o + 25) 7 = 0)⟩
    wins := if !head then [] else (List.range nw).map fun i =>
      let o := w0 + 48 * i
      ⟨n o 1, n (o + 4) 4, n (o + 8) 8, n (o + 16) 8, n (o + 24) 8, n (o + 32) 8, decide (n (o + 1) 3 = 0 ∧ n (o + 40) 8 = 0)⟩
    regs := if !head then [] else (List.range nr).map fun i => (n (r0 + 16 * i) 8, n (r0 + 16 * i + 8) 8) }

/-- Whether no two of some ranges overlap. -/
def apart : List (Nat × Nat) → Bool
  | [] => true
  | x :: t => (t.all fun y => decide (x.1 + x.2 ≤ y.1) || decide (y.1 + y.2 ≤ x.1) || decide (x.2 = 0) || decide (y.2 = 0)) && apart t

/-- Whether R255 accepts an image, but for what the kernel can supply. DEDUCED (log entry 97): the code section occupies its pages
whole, so that a region in one of them overlaps it. -/
def Img.accepted (m : Img) : Bool :=
  let spans := (m.sects.map fun x => (x.va, if x.kind = 1 then (x.size + 65535) / 65536 * 65536 else x.size)) ++ m.regs
  m.ok
    && (m.sects.all fun x => x.rsv && decide (x.va % 65536 = 0) && decide (x.kind = 1 ∨ x.kind = 2) && decide (x.off % 128 = 0)
        && decide (x.off + x.size ≤ m.size))
    && decide ((m.sects.map fun x => x.kind).Nodup)
    && apart spans
    && (spans.all fun x => decide (x.1 + x.2 ≤ Config.windowBase))
    && decide (m.entry % 128 = 0)
    && (m.sects.any fun x => decide (x.kind = 2 ∧ x.va ≤ m.entry ∧ m.entry < x.va + x.size))
    && (m.wins.all fun w => w.rsv && decide (1 ≤ w.fmt ∧ w.fmt ≤ 3) && decide (w.pay % 128 = 0)
        && decide (w.pend % 128 = 0) && decide (w.pay < w.pend))

/-- The virtual pages of some ranges. -/
def vpages (l : List (Nat × Nat)) : List Nat :=
  (l.flatMap fun x => if x.2 = 0 then [] else
    (List.range ((x.1 + x.2 - 1) / 65536 - x.1 / 65536 + 1)).map fun i => x.1 / 65536 + i).eraseDups

/-- The code pages of an image, and its other pages. -/
def Img.textPages (m : Img) : List Nat := vpages ((m.sects.filter fun x => decide (x.kind = 1)).map fun x => (x.va, x.size))
def Img.dataPages (m : Img) : List Nat := vpages (((m.sects.filter fun x => decide (x.kind = 2)).map fun x => (x.va, x.size)) ++ m.regs)

/-- The bytes of a page of an image: what a section emitted there, otherwise zero. -/
def Img.page (m : Img) (bs : List Byte) (v : Nat) : List Byte :=
  match m.sects.find? fun x => decide (x.va / 65536 ≤ v ∧ v * 65536 < x.va + x.size) with
  | none => List.replicate 65536 0
  | some x =>
    let l := (((bs.drop x.off).take x.size).drop (v * 65536 - x.va)).take 65536
    l ++ List.replicate (65536 - l.length) 0

/-- The physical address behind a virtual one by a load's plan. -/
def LoadPlan.at_ (x : LoadPlan) (va : Nat) : Option Nat := (Tab.get x.pages (va / 65536)).map fun b => b + va % 65536

/-- Whether a range is backed contiguously by a plan, and where it begins. -/
def LoadPlan.run (x : LoadPlan) (va n : Nat) : Option Nat :=
  (LoadPlan.at_ x va).bind fun b => if (vpages [(va, n)]).all fun v => Tab.get x.pages v = some (b - va % 65536 + (v - va / 65536) * 65536) then some b else none

/-- The payload, scale and band ranges of a window request, by address and size (R60). -/
def ImgWin.ranges (w : ImgWin) : List (Nat × Nat) :=
  let n := w.pend - w.pay
  let rows := (n / 128 + w.lines - 1) / w.lines
  [(w.pay, n), (w.scl, if w.fmt = 1 then n / 4 else n / 32), (w.bnd, 2 * ((rows + 63) / 64))]

/-- Whether the registers of a window can hold what a request asks for (R59): LINES from 1 to 65,535, a scale region at a multiple of 32 and a band
region at an even address. A request that they cannot hold is one that the kernel cannot meet (R252). -/
def ImgWin.holds (w : ImgWin) : Bool :=
  decide (1 ≤ w.lines ∧ w.lines ≤ 65535) && decide (w.scl % 32 = 0) && decide (w.bnd % 2 = 0)

/-- The registers of a window that a request asks for (R252, R60), or none where they cannot hold it or its ranges have no contiguous backing. -/
def ImgWin.window (w : ImgWin) (x : LoadPlan) : Option Window :=
  let n := w.pend - w.pay
  match w.holds, (w.ranges.map fun r => LoadPlan.run x r.1 r.2) with
  | true, [some p, some s, some b] =>
    some <|
      [(0x00, p), (0x08, p + n), (0x10, s), (0x18, b), (0x20, 2 ^ 63 + w.lines * 2 ^ 20 + w.fmt)].foldl
        (fun (r : Window) x => r.put x.1 (BitVec.ofNat 64 x.2)) Window.init
  | _, _ => none

/-- Whether the tables map a page as the load asks: text with X and Rd, the rest with Rd and W, onto HBM of the partition, and for the load's ASID
alone (G = 0, R193): another image has its own pages at the same addresses (R253). -/
def State.mapsPage (s : State) (p : Part) (x : LoadPlan) (text : Bool) (v : Nat) : Bool :=
  match ({ s with walks := [] } : State).walk p ⟨p.idx, x.asid, 256, none, 0⟩ (v * 65536), Tab.get x.pages v with
  | .ok (e, false), some b => decide (entryPA e = b) && !e.getLsbD 52 && !e.getLsbD 7 && e.getLsbD 2 && (e.getLsbD 3 == !text) && (e.getLsbD 4 == text)
      && (s.stackOf b).isSome
  | _, _ => false

/-- Whether the TLBs and walk caches that an access of a partition and ASID may use hold no translation of a page but the one in the tables
(R193, R201, R202). -/
def State.noStale (s : State) (p : Part) (asid v : Nat) : Bool :=
  let t : State := { s with walks := [] }
  let va := v * 65536
  let is : Except (BitVec 8 × BitVec 8) Word → Word → Bool := fun r e => match r with
    | .ok x => decide (x = e)
    | .error _ => false
  (s.tlb.all fun e => !e.serves ⟨p.idx, asid, e.cluster, none, 0⟩ va || match t.walk p ⟨p.idx, asid, 256, none, 0⟩ va with
    | .ok r => decide (r = (e.entry, e.big))
    | .error _ => false) &&
  s.walks.all fun w => decide (w.part ≠ p.idx ∨ w.asid ≠ asid) || (match w.level with
    | 0 => decide (w.index ≠ va / 2 ^ 42) || is (t.topEntry p asid va) w.entry
    | _ => decide (w.index ≠ va / 2 ^ 29) || is (t.midEntry p ⟨p.idx, asid, 256, none, 0⟩ va) w.entry)

/-- The entries of an address's walk: in the ASID root table, the top, the middle and the leaf table (R194). -/
def State.tableEntries (s : State) (p : Part) (asid va : Nat) : List Nat :=
  let root := bitsOf p.k.asrt 16 36 * 65536 + 8 * asid
  let top := bitsOf (s.mem.word root) 17 35 * 131072 + 8 * (va / 2 ^ 42 % 2 ^ 14)
  let mid := entryPA (s.mem.word top) + 8 * (va / 2 ^ 29 % 2 ^ 13)
  let leaf := entryPA (s.mem.word mid) + 8 * (va / 2 ^ 16 % 2 ^ 13)
  [root, top, mid, leaf]

/-- The pages that hold the tables of an address's walk. -/
def State.tablePages (s : State) (p : Part) (asid va : Nat) : List Nat := (s.tableEntries p asid va).map fun a => a / 65536 * 65536

/-- The entries by which an image that is loaded is mapped. -/
def State.imageEntries (s : State) (i : Image) : List Nat := match s.part? i.part with
  | none => []
  | some q => i.vps.flatMap fun v => s.tableEntries q i.asid (v * 65536)

/-- Whether a range of a partition's memory holds what a load must leave alone: the host window, the thread table and its save images, the event
queue, and the pages of an image that is loaded, which stays until the partition resets (R388). -/
def State.inUse (s : State) (p : Part) (a n : Nat) : Bool :=
  overlaps a n s.winBase s.winSize || overlaps a n (p.tableEntry 0) 0x100000 || overlaps a n (bitsOf p.k.evqb 18 34 * 2 ^ 18) 0x40000 ||
    (s.threads.any fun t => decide (t.st ≠ .free ∧ (s.launchOf t.id.launch).part = p.idx) && s.imageThere p t.id.ctxid &&
      overlaps a n (s.imageBase p t.id.ctxid) 0x20000) ||
    s.host.images.any fun i => i.pages.any fun b => overlaps a n b 65536

/-- The tables of a plan written. -/
def State.putTables (s : State) (x : LoadPlan) : State := x.tables.foldl (fun (s : State) e => s.sysStore e.1 (natBytes 8 e.2.toNat)) s

/-- Whether a plan is one that the kernel can follow for a partition: an ASID that it may assign (R193); physical pages of the partition's memory that
are distinct and hold neither what is in use nor the tables that the plan writes or an image uses; and table entries in the partition's memory, none
of them in what is in use, that leave the mapping of every loaded image as it is and serve no other ASID (G = 0, R193). -/
def State.soundPlan (s : State) (p : Part) (x : LoadPlan) (ps : List Nat) : Bool :=
  let old := s.host.images.flatMap s.imageEntries
  let t := s.putTables x
  decide (1 ≤ x.asid ∧ x.asid ≤ 4095) && decide ps.Nodup &&
    (x.tables.all fun e => !(e.2.getLsbD 0 && e.2.getLsbD 7) && s.isMemory e.1 && s.owns p e.1 && !s.inUse p e.1 8 && !ps.contains (e.1 / 65536 * 65536)) &&
    (old.all fun a => decide (t.mem.word a = s.mem.word a)) &&
    ps.all fun b => decide (b % 65536 = 0) && (s.stackOf b).isSome && s.owns p b && !s.inUse p b 65536 && old.all fun a => decide (a / 65536 * 65536 ≠ b)

/-- The instruction caches without the lines of some pages. -/
def State.dropCode (s : State) (ps : List Nat) : State :=
  { s with cores := s.cores.map fun k => (k.1, { k.2 with icache := k.2.icache.filter fun l => !ps.contains (128 * l.1 / 65536 * 65536) }) }

/-- The pages of an image written where a plan places them; no instruction cache keeps what stood there before, so that the image runs as it stands
(R233, R253). -/
def State.putPages (s : State) (p : Part) (m : Img) (x : LoadPlan) (bs : List Byte) : State :=
  let vs := m.textPages ++ m.dataPages
  (vs.foldl (fun (s : State) v => match Tab.get x.pages v with
    | some b => s.kernelWrite p b (m.page bs v)
    | none => s) s).dropCode (vs.filterMap fun v => Tab.get x.pages v)

/-- Whether the pages of an image are mapped as a plan says, by tables that lie neither in the host window nor in a page of the load, so that
the mapping stands once those are written, and no structure holds an older translation of them. -/
def State.mapsImage (s : State) (p : Part) (m : Img) (x : LoadPlan) (ps : List Nat) : Bool :=
  (m.textPages.all fun v => s.mapsPage p x true v) && (m.dataPages.all fun v => s.mapsPage p x false v) &&
    (m.textPages ++ m.dataPages).all fun v => s.noStale p x.asid v && (s.tablePages p x.asid (v * 65536)).all fun a =>
      !ps.contains a && !overlaps a 65536 s.winBase s.winSize

/-- HOST_LOAD: the image at ARG0 is checked and loaded by the kernel's plan. Status 1 answers an image that R255 refuses, one with more window
requests than windows are free, and one whose requests cannot be met; a plan that does not fit the image is none that the kernel follows. DESIGN
CHOICE (log entry 115): an image whose header or ISIZE reaches past the end of the window gets status 1 too, and what a window's ranges cover outside
every section and region is backed by memory but neither mapped nor zeroed. DESIGN CHOICE (log entry 129): so does one of which the kernel meets a
poisoned line. -/
def execHostLoad (x : LoadPlan) (s : State) : Host.Outcome State Fault Refusal :=
  hostStep s 1 fun r p arg =>
    let room := s.winSize - arg.toNat
    let bs := s.mem.run (s.winBase + arg.toNat) (min room (leNat (s.mem.run (s.winBase + arg.toNat + 0x18) 8)))
    let m := imgOf bs
    let free := (List.range 32).filter fun n => ((s.windows[n]?).map fun w => !w.ctl.getLsbD 63).getD false
    let wins := m.wins.map fun w => w.window x
    if arg.toNat + 0x40 > s.winSize ∨ room < m.size ∨ s.poisonedRun (s.winBase + arg.toNat) (max 0x40 m.size) ∨ !m.accepted ∨ free.length < m.wins.length ∨ wins.contains none then some (done (s.answer r 1 0))
    else
      let t := s.putTables x
      let mapped := m.textPages ++ m.dataPages
      let vs := (mapped ++ vpages (m.wins.flatMap ImgWin.ranges)).eraseDups
      let ps := vs.filterMap fun v => Tab.get x.pages v
      if x.windows.length ≠ m.wins.length ∨ !(x.windows.all free.contains) ∨ !decide x.windows.Nodup ∨ !s.soundPlan p x ps
          ∨ !t.mapsImage p m x ps then none
      else
        let t := (x.windows.zip wins).foldl (fun (s : State) w => match w.2 with
          | some c => s.modWindow w.1 fun _ => c
          | none => s) (t.putPages p m x bs)
        let id := t.nextImage
        let t : State := { t with nextImage := id + 1, host := { t.host with images := t.host.images ++ [⟨id, p.idx, x.asid, BitVec.ofNat 64 m.entry, ps, mapped⟩] } }
        some (done (t.answer r 0 (BitVec.ofNat 64 id)))

/-! ### SUBMIT, KILL and QUOTE (R388) -/

/-- The bytes of an image's entry record as the kernel reads them, or none where it cannot. -/
def State.entryRecord (s : State) (i : Image) : Option (List Byte) :=
  (List.range (recordSize / 128)).foldl (fun (acc : Option (List Byte)) k => acc.bind fun bs =>
    match s.xlate ⟨i.part, i.asid, 256, none, 0⟩ sysRd (i.entry + BitVec.ofNat 64 (128 * k)) with
    | .phys pa => if s.poisoned pa then none else some (bs ++ s.mem.run pa 128)
    | _ => none) (some [])

/-- HOST_SUBMIT: an image's entry record becomes a launch at the domain's TSMAX (R370). -/
def execHostSubmit (s : State) : Host.Outcome State Fault Refusal :=
  hostStep s 2 fun r p arg => some (done (
    match s.host.images.find? fun i => decide (i.id = arg.toNat ∧ i.part = p.idx) with
    | none => s.answer r 1 0
    | some i => match s.entryRecord i with
      | none => s.answer r 1 0
      | some bs =>
        let l := launchRecOf bs
        match s.refuseRecord p bs l false with
        | some n => s.answer r (0x100 + n) 0
        | none =>
          let s := s.cleanImage i
          (s.wake.addLaunch p.idx i.asid l (s.tsmax p) true).answer r 0 (BitVec.ofNat 64 s.nextLaunch)))

/-- HOST_KILL. -/
def execHostKill (s : State) : Host.Outcome State Fault Refusal :=
  hostStep s 3 fun r p arg =>
    match s.launches.find? fun l => decide (l.id = arg.toNat ∧ l.part = p.idx) && !l.finished && l.host.isSome with
    | none => some (done (s.answer r 1 0))
    | some l => some ((s.killLaunch l.id).seq fun s => done (s.answer r 0 0))

/-- HOST_QUOTE: the kernel sets byte 64 of the area to PART, passes the area's contents to the Colophon in a buffer of a QUOTE command, whose outcome
MBSTAT shows, and writes the quote back into the area: a partition above 7 is refused, and one that the layout leaves out is quoted with its PARTS byte
(R209). DESIGN CHOICE (log entry 116): the buffer is the kernel's own, in memory that nothing else uses; MBBUF holds a free value afterwards. -/
def execHostQuote (s : State) : Host.Outcome State Fault Refusal :=
  requestStep s 4 fun r n arg =>
    let a := s.winBase + arg.toNat
    if s.winSize < arg.toNat + 4096 ∨ s.poisonedRun a 4096 = true then some (done (s.answer r 1 0))
    else match s.winPart with
      | none => none
      | some w =>
        let t := s.kernelWrite w (a + 64) (natBytes 1 n)
        let z := t.quoteFor (t.mem.run a 128)
        let t : State := { t with colophon := { t.colophon with mbbuf := t.free &&& 0xFFFFFFFFFFFFF000, mbstat := z.1 } }
        some (done (if z.1 = 1 then (t.kernelWrite w a z.2).answer r 0 0 else t.answer r 1 0))

/-! ### Bring-up (R389) -/

/-- Step 1 is done: the kernel has programmed ASRT, TTBASE and EVQB for each partition (R389). DEDUCED (log entry 112): ASRT is programmed once EN is
set, the bases once they have been written, whatever their value. -/
def State.programmed (s : State) : Bool := s.colophon.kernelUp && s.parts.all fun p => p.k.asrt.getLsbD 63 && p.k.ttSet && p.k.evqSet

/-- Step 2: the kernel trains the CXL ports, which boot has trained (log entry 111), and the Crenor Link ports, of which those listed come up; `ok`
says that the step has succeeded. A failure leaves READY at 0. -/
def State.trainLinks (s : State) (ups : List Bool) (ok : Bool) : State :=
  if !s.programmed ∨ s.link.trained then s
  else { s with link := { s.link with
    trained := ok && s.cxl.serves
    ports := (s.link.ports.zip (List.range s.link.ports.length)).map fun p => { p.1 with up := (ups[p.2]?).getD false } } }

/-- Step 2, its second half: the kernel fills the route and group tables (R350, R351) once it has trained the ports; it may fill them again later. -/
def State.fillTables (s : State) (r : List Route) (g : List Group) : State :=
  if !s.programmed ∨ !s.link.trained then s else { s with link := { s.link with routes := r, groups := g, filled := true } }

/-- Step 3: the kernel chooses the window, clears both rings and sets READY, once the steps before it are done. -/
def State.openWindow (s : State) (w : Word) : State :=
  let h := w &&& 0xFF0FFFFFFFF00000
  if !s.programmed ∨ !s.link.trained ∨ !s.link.filled ∨ bitsOf h 56 8 < 2 then s
  else
    let s : State := { s with host := { s.host with hwin := h } }
    match s.winPart with
    | none => s
    | some p =>
      let s := [(0, 0x40000), (0x40000, 0x40000), (0x80000, 16)].foldl (fun (s : State) x => s.kernelWrite p (s.winBase + x.1) (List.replicate x.2 0)) s
      { s with host := { s.host with ready := true, consumed := 0, tail := 0 } }

end Sys2Proof.Machine
end

