-- ==== Sys2Proof/Machine/Lineage.lean ====
section
/-!
DEFINITION. Lineage: SETTLE and the chase (R73, R75 to R78, R332).
-/
namespace Sys2Proof.Machine

/-- SETTLE: bit n - 1 of the mask names ln n. -/
def execSettle (l : BitVec 15) (s : State) : Host.Outcome State Fault Refusal :=
  finish (if s.cur.id.place.isBase then s.illegal
    else if s.queue.any fun q => match q.op with
        | .ppub _ _ => true
        | _ => false then s.stall
    else if s.cur.sys.lnact &&& (l.setWidth 16 <<< 1) = 0 then done s.retire
    else s.stall)

/-! ### Corrections (R73, R75) -/

/-- The corrections that the entries of a log have so far: by entry, by element. -/
abbrev Deltas := List (Tab (BitVec 32))

/-- The correction of a source, +0 where it is settled. -/
def deltaOf (root : List (BitVec 32)) (ds : Deltas) (x : DSrc) : BitVec 32 :=
  match x with
  | .zero => 0
  | .root i => root.getD i 0
  | .entry n e => (Tab.get (ds.getD n []) e).getD 0

/-- A correction with the other sign; a NaN stays the canonical one. -/
def negDelta (c : BitVec 32) : BitVec 32 :=
  if (Fmt.sf.decode c.toNat).isNaN then BitVec.ofNat 32 Fmt.sf.nan else c ^^^ 0x80000000

/-- A correction as an entry defines it, with the flags of its roundings. -/
def evalOp (d : DSrc → BitVec 32) (o : DOp) : FRes :=
  let v : DSrc → Fv := fun x => Fmt.sf.decode (d x).toNat
  let k : BitVec 32 → Fv := fun b => Fmt.sf.decode b.toNat
  match o with
  | .copy x => ⟨(d x).toNat, 0⟩
  | .pack ps => ⟨leNat (ps.map fun p => (d p.1).extractLsb' (8 * p.2) 8), 0⟩
  | .neg x => ⟨(negDelta (d x)).toNat, 0⟩
  | .add x y => Fmt.sf.addV (v x) (v y)
  | .sub x y => Fmt.sf.addV (v x) (v y).neg
  | .mul x b => Fmt.sf.mulF (v x) (k b)
  | .fma n x b y => Fmt.sf.fmaV (if n then (v x).neg else v x) (k b) (v y)
  | .mma x scaled tb bMem gs => gs.foldl (fun acc g =>
      let b := g.map fun p => factor scaled (pressFmt bMem tb) ⟨p.2.1, p.2.2.1, p.2.2.2, .zero⟩
      let r := (groupSum false (g.map fun p => ⟨some (v p.1), false⟩) b).1
      let z := Fmt.sf.addV (Fmt.sf.decode acc.code) (Fmt.sf.decode r.code)
      ⟨z.code, acc.flags ||| r.flags ||| z.flags⟩) ⟨(d x).toNat, 0⟩

/-- The corrections of a whole log in order, with their flags. -/
def deltas (root : List (BitVec 32)) (log : List LogEntry) : Deltas × BitVec 8 :=
  log.foldl (fun acc e =>
    let rs := e.defs.map fun p => (p.1, evalOp (deltaOf root acc.1) p.2)
    (acc.1 ++ [rs.map fun r => (r.1, BitVec.ofNat 32 r.2.code)], rs.foldl (fun f r => f ||| r.2.flags) acc.2)) ([], 0)

/-- A value corrected: RoundNE32(y + delta). -/
def correct (y : Nat) (d : BitVec 32) : FRes := Fmt.sf.addV (Fmt.sf.decode y) (Fmt.sf.decode d.toNat)

/-- An accumulator corrected where it carries the lineage. -/
def Acc.correct (a : Acc) (ln : Nat) (d : DSrc → BitVec 32) : Acc × BitVec 8 :=
  if a.lin = ln && !a.isOpen then
    let rs := (a.vals.zip (List.range a.vals.length)).map fun p =>
      let x := a.srcOf p.2
      if x = .zero then ⟨p.1.toNat, 0⟩ else Machine.correct p.1.toNat (d x)
    ({ a with vals := rs.map fun r => BitVec.ofNat 32 r.code }, rs.foldl (fun f r => f ||| r.flags) 0)
  else (a, 0)

/-- A share corrected: its accumulators, and its A buffer where it carries the lineage. -/
def Share.correct (h : Share) (ln : Nat) (d : DSrc → BitVec 32) : Share × BitVec 8 :=
  let as := h.acc.toList.map fun a => a.correct ln d
  let bs : List (PElem × BitVec 8) := h.aBuf.map fun p =>
    if h.aLin = ln && decide (p.src ≠ .zero) then
      let r := Machine.correct p.code.toNat (d p.src)
      ({ p with code := BitVec.ofNat 32 r.code }, r.flags)
    else (p, 0)
  ({ h with acc := h.acc.map (fun a => (a.correct ln d).1), aBuf := bs.map fun b => b.1 },
    as.foldl (fun f a => f ||| a.2) (bs.foldl (fun f b => f ||| b.2) 0))

/-- The chase of a lineage of the current context: every provisional element that still carries it takes its final value, the flags
accrue, and the lineage settles (R75). -/
def State.chase (s : State) (ln : Nat) (l : Lineage) (root : List (BitVec 32)) : State :=
  let ds := deltas root l.log
  let d := deltaOf root ds.1
  let fix : Vec → List (Nat × FRes) := fun v => (v.lanesOf ln).map fun x => (x.1, correct (v.vrf.nat (4 * x.1) 4) (d x.2))
  let rs := fix s.cur.vec ++ (s.cur.loop.map fun k => fix k.vec).getD []
  let sh := s.cur.share.map fun h => h.correct ln d
  let s := s.bothRegs fun v => v.putLanes s.rb ((fix v).map fun r => (r.1, r.2.code))
  let c : Thread := { s.cur with share := sh.map fun h => h.1 }
  let flags := rs.foldl (fun f r => f ||| r.2.flags) (ds.2 ||| (sh.map fun h => h.2).getD 0)
  (({ s with cur := c } : State).accrue flags).dropLin ln

/-- CHASE: the chase unit of a core takes a lineage whose delta-C the press has delivered, while its owner is resident there (R75,
R78). -/
def execChase (k n : Nat) (s : State) : Host.Outcome State Fault Refusal :=
  stepOr s ((Tab.get s.cores k).bind fun core => (Tab.get core.lins n).bind fun l => l.delta.bind fun root =>
    (s.focus l.owner).bind fun s =>
      if s.cur.st = .running ∧ s.cur.id.place.coreKey = k then some (done (s.chase n l root)) else none)

end Sys2Proof.Machine
end

