-- ==== Sys2Proof/Machine/LinkPower.lean ====
section
/-!
DEFINITION. LinkPower: Crenor Link ports, power states, line errors and evictions, and the control registers (R3, R59, R62, R101, R134, R202 to
R204, R209, R213, R223, R230, R384, R391, R392).
-/
namespace Sys2Proof.Machine

/-! ### Crenor Link (R223, R391) -/

/-- A sequence number acknowledged: everything up to it, where it lies among the 1,024 flits that the replay buffer may hold. -/
def Port.acked (p : Port) (a : BitVec 24) : Port :=
  if (a - p.unacked).toNat < 1024 then
    { p with unacked := a + 1, replays := 0, sent := p.sent.filter (fun x => decide ((a - p.unacked).toNat < (x.1 - p.unacked).toNat)) }
  else p

/-- Acknowledgments taken one after another. -/
def Port.ackedAll (p : Port) (acks : List (BitVec 24)) : Port := acks.foldl Port.acked p

/-- What an accepted flit reports of a push: its status and the bytes written, once the receiver has performed the final SyncCount (R131). -/
def State.takeReport (s : State) (r : Option (Nat × Nat × Nat)) : State :=
  match r with
  | none => s
  | some (k, st, n) => { s with cmds := s.cmds.map (fun c =>
      if c.key = k ∧ c.fn = .cprem ∧ !c.ended then { c with acked := true, status := max c.status st, bytes := n } else c) }

/-- FLIT_RECEIVE: a flit with a bad CRC is dropped and a replay requested; the next expected one is accepted and acknowledged, with the message
that it completes; any other is dropped. Whatever arrives wakes the module. -/
def execFlitReceive (x : Flit) (s : State) : Host.Outcome State Fault Refusal :=
  stepOr s ((s.link.ports[x.port]?).bind fun p =>
    if !p.up then none
    else
      let s : State := { s.wake with link := { s.link with lastFlit := s.cycle } }
      if !x.crcOk then some (done (s.modPort x.port fun p => { p with replay := true }))
      else if x.seq ≠ p.expect then some (done s)
      else
        let s := (s.modPort x.port fun p =>
          let p := { p.acked x.ack with expect := p.expect + 1, replay := false }
          if x.again then { p with replays := p.replays + 1 } else p).pumpPort x.port
        some (done (({ s with link := { s.link with inbox := s.link.inbox ++ x.msg.toList } } : State).takeReport x.report)))

/-- LINK_RETRAIN: after eight consecutive replays of one flit a port retrains, and its flits resume from the first unacknowledged one; or it
is marked down, the commands with flits unacknowledged on it end with LINK, and the host learns of it. `acks` are the acknowledgments that the
other side has returned by the end of the retraining (log entry 98). -/
def execLinkRetrain (n : Nat) (ok : Bool) (acks : List (BitVec 24)) (s : State) : Host.Outcome State Fault Refusal :=
  stepOr s ((s.link.ports[n]?).bind fun p =>
    if !p.up ∨ p.replays < 8 then none
    else if ok then some (done ((s.modPort n fun p => { p.ackedAll acks with replays := 0 }).pumpPort n))
    else
      let s := s.modPort n fun p => { p.ackedAll acks with up := false, replays := 0, sent := [], waiting := [] }
      let left := (p.ackedAll acks).unsent
      let s := (left.map fun x => x.1).dedup.foldl (fun (s : State) k => match s.cmds.find? fun c => decide (c.key = k) && !c.ended && decide (c.fn = .cprem ∨ c.fn = .coll) with
        | some c => s.abortCmd { c with bytes := if c.fn = .cprem then c.bytes - bytesOf left k else c.bytes } 5
        | none => s) s
      let s : State := { s with link := { s.link with routes := s.link.routes.filter (fun r => decide (r.port ≠ n)) } }
      some (done (s.hostEvent { type := 3, part := 0, status := n, tag := 0, note := 0, tbase := 0, ctx := 0 })))

/-! ### Power (R392) -/

/-- Whether the module is idle: no runnable thread, waiter with a pending wake, command or replay. -/
def State.idle (s : State) : Bool :=
  (s.threads.all fun t => match t.st with
    | .free => true
    | .suspended => decide (t.sys.lstate ≠ 2)
    | .saved => false
    | _ => t.waiting && decide (t.sys.lstate ≠ 2) && match s.focus t.id.ctxid with
      | some u => !u.wakes
      | none => true)
    && (s.cmds.all fun c => c.ended) && s.banks.all fun b => b.ended

/-- The states that an idle module may be in, by how long no flit has come: each with its exit latency in microseconds. -/
def State.restStates (s : State) : List (Nat × Nat) :=
  let q := s.cycle - s.link.lastFlit
  [(1, 2)] ++ (if 800000 ≤ q then [(2, 150)] else []) ++ (if 80000000 ≤ q then [(3, 5000)] else [])

/-- POWER_STATE_ENTRY: an idle module enters the deepest state whose exit latency the host tolerates; a tolerance of 0 keeps it in M0. -/
def execPowerStateEntry (s : State) : Host.Outcome State Fault Refusal :=
  stepOr s (
    if !s.idle then none
    else match (s.restStates.filter fun x => decide (x.2 ≤ s.host.hltr.toNat)).getLast? with
      | none => none
      | some x => if x.1 ≤ s.host.pstate.toNat then none else some (done { s with host := { s.host with pstate := BitVec.ofNat 3 x.1 } }))

/-- POWER_WAKE. -/
def execPowerWake (s : State) : Host.Outcome State Fault Refusal :=
  stepOr s (if s.host.pstate = 0 then none else some (done s.wake))

/-! ### Lines (R62, R134, R204) -/

/-- LINE_POISON: an uncorrectable error in the line of a physical address. -/
def execLinePoison (a : Nat) (s : State) : Host.Outcome State Fault Refusal :=
  stepOr s (if s.isMemory a then some (done (s.setLine (a / 128) { s.line (a / 128) with poison := true })) else none)

/-- LINE_EVICTION: the line of a physical address leaves the caches, written back whole if dirty, without its metadata. -/
def execLineEviction (a : Nat) (s : State) : Host.Outcome State Fault Refusal :=
  stepOr s (if (s.line (a / 128)).cached then some (done (s.evictLine (a / 128))) else none)

/-! ### The package control space (R3) -/

/-- The partition whose registers are numbered n (R101, R202, R213). -/
def State.partAt (s : State) (n : Nat) : Option Part := s.parts.find? fun p => decide (p.lowest = n)

/-- The translation control registers at an offset (R202). -/
def State.putTrans (s : State) (p : Part) (o : Nat) (v : Word) : State :=
  let k : (KRegs → KRegs) → State := fun f => s.modPart p.idx fun x => { x with k := f x.k }
  match o with
  | 0x00 => k fun r => { r with asrt := v &&& 0x800FFFFFFFFF0000 }
  | 0x08 => k fun r => { r with tinva := v &&& 0xFFFFFFFFFF0000 }
  | 0x10 => s.writeTinvc p v
  | 0x18 => k fun r => { r with pintmo := v.setWidth 32 }
  | _ => s

/-- The kernel control registers at an offset (R213). KCMD starts a command where GO is set. -/
def State.putKernel (s : State) (p : Part) (o : Nat) (v : Word) : Res Unit :=
  let k : (KRegs → KRegs) → Res Unit := fun f => done (s.modPart p.idx fun x => { x with k := f x.k })
  match o with
  | 0x00 => k fun r => { r with ttbase := v &&& 0xFFFFFFFF00000, ttSet := true }
  | 0x08 => k fun r => { r with evqb := v &&& 0xFFFFFFFFC0000, evqSet := true }
  | 0x18 => k fun r => { r with evqh := v.setWidth 32 }
  | 0x20 => if v.getLsbD 63 && !p.kcmdBusy then s.command p v
    else k fun r => r.putKcmd v
  | 0x28 => k fun r => { r with karg := v }
  | _ => done s

/-- The debug registers at an offset (R230). A write of DBCTL counts strip records anew. -/
def State.putDebug (s : State) (p : Part) (o : Nat) (v : Word) : State :=
  let d : (Debug → Debug) → State := fun f => if p.debugOn then s.modPart p.idx fun x => { x with db := f x.db } else s
  match o with
  | 0x00 => d fun r => { r with dbctl := v &&& 0xE00000000000FFFF, strips := 0 }
  | 0x08 => d fun r => { r with dbstrb := v &&& 0xFFFFFFFFE0000 }
  | 0x10 => d fun r => { r with dbstop := v }
  | 0x18 => d fun r => { r with dbret := v }
  | 0x20 => d fun r => { r with dbcki := v.setWidth 32 }
  | 0x28 => d fun r => { r with dbcap := v &&& 0xFFFFFFFFFFFFF, full := false }
  | 0x30 => d fun r => { r with dbflag := r.dbflag && !v.getLsbD 0 }
  | _ => s

/-- A write of a doubleword of the package control space. -/
def State.putPackage (s : State) (a : Nat) (v : Word) : Res Unit :=
  let o := a % 64
  let at_ : Nat → (Part → Res Unit) → Res Unit := fun n f => match s.partAt n with
    | some p => f p
    | none => done s
  if 0x100000 ≤ a ∧ a < 0x100800 then done (s.modWindow ((a - 0x100000) / 64) fun w => w.put o v)
  else if 0x100800 ≤ a ∧ a < 0x100880 then at_ ((a - 0x100800) / 16) fun p => done (if a % 16 = 8 then s.writeTsdpre p v else s)
  else if 0x101000 ≤ a ∧ a < 0x101200 then at_ ((a - 0x101000) / 64) fun p => done (s.putTrans p o v)
  else if a = 0x102000 then done { s with colophon := { s.colophon with mbbuf := v } }
  else if a = 0x102008 then s.mailboxCmd v.toNat
  else if 0x103000 ≤ a ∧ a < 0x103200 then at_ ((a - 0x103000) / 64) fun p => s.putKernel p o v
  else if 0x103800 ≤ a ∧ a < 0x103A00 then at_ ((a - 0x103800) / 64) fun p => done (s.putDebug p o v)
  else done s

/-- A write of a doubleword of BAR0 by the host (R384). -/
def State.putBar0 (s : State) (a : Nat) (v : Word) : State :=
  match a with
  | 0x10 => s.doorbell v
  | 0x18 => { s.wake with host := { s.wake.host with heqh := v.setWidth 32, msi := false } }
  | 0x20 => { s.wake with host := { s.wake.host with hltr := v.setWidth 32 } }
  | _ => s.wake

/-- REGISTER_WRITE: RW fields take the value, W1C bits clear, reserved and read-only ones are ignored. A register with behaviour of its own
has it here too. -/
def execRegisterWrite (sp : Space) (a : Nat) (v : BitVec 64) (s : State) : Host.Outcome State Fault Refusal :=
  finish (match sp with
    | .package => s.putPackage a v
    | .bar0 => done (s.putBar0 a v)
    | .bar4 => done s.wake)

/-- What a read of the package control space gives. -/
def State.readPackage (s : State) (a : Nat) : Word :=
  let o := a % 64
  let at_ : Nat → (Part → Word) → Word := fun n f => match s.partAt n with
    | some p => f p
    | none => 0
  if 0x100000 ≤ a ∧ a < 0x100800 then
    let w := (s.windows[(a - 0x100000) / 64]?).getD Window.init
    match o with
    | 0x00 => w.pay
    | 0x08 => w.lim
    | 0x10 => w.scl
    | 0x18 => w.bnd
    | 0x20 => w.ctl
    | _ => 0
  else if 0x100800 ≤ a ∧ a < 0x100880 then at_ ((a - 0x100800) / 16) fun p =>
    if a % 16 = 8 then p.k.tsdpre.setWidth 64 else BitVec.ofNat 64 (s.tsmax p * 2 ^ 32 + p.rebases.toNat)
  else if 0x101000 ≤ a ∧ a < 0x101200 then at_ ((a - 0x101000) / 64) fun p => match o with
    | 0x00 => p.k.asrt
    | 0x08 => p.k.tinva
    | 0x10 => p.k.tinvc
    | 0x18 => p.k.pintmo.setWidth 64
    | _ => 0
  else if a = 0x102000 then s.colophon.mbbuf
  else if a = 0x102010 then s.colophon.mbstat.setWidth 64
  else if 0x103000 ≤ a ∧ a < 0x103200 then at_ ((a - 0x103000) / 64) fun p => match o with
    | 0x00 => p.k.ttbase
    | 0x08 => p.k.evqb
    | 0x10 => p.k.evqt.setWidth 64
    | 0x18 => p.k.evqh.setWidth 64
    | 0x20 => p.k.kcmd
    | 0x28 => p.k.karg
    | _ => 0
  else if 0x103800 ≤ a ∧ a < 0x103A00 then at_ ((a - 0x103800) / 64) fun p => if !p.debugOn then 0 else match o with
    | 0x00 => p.db.dbctl
    | 0x08 => p.db.dbstrb
    | 0x10 => p.db.dbstop
    | 0x18 => p.db.dbret
    | 0x20 => p.db.dbcki.setWidth 64
    | 0x28 => p.db.dbcap
    | 0x30 => if p.db.dbflag then 1 else 0
    | _ => 0
  else 0

/-- HPST.PWR: the average power over the latest millisecond that has passed, never above the package's maximum (R8, R393), and its reset value 0
before the first has (R384). -/
def State.power (s : State) : BitVec 16 :=
  if s.cycle < 800000 then 0 else BitVec.ofNat 16 (min Config.maxPower (Config.packagePower (s.cycle / 800000)).toNat)

/-- What a read of BAR0 gives the host (R384). -/
def State.readBar0 (s : State) (a : Nat) : Word :=
  match a with
  | 0x00 => if s.host.ready then 0x8000000000000001 else 1
  | 0x08 => s.host.hwin
  | 0x10 => s.host.hrqt.setWidth 64
  | 0x18 => s.host.heqh.setWidth 64
  | 0x20 => s.host.hltr.setWidth 64
  | 0x28 => s.power.setWidth 64 <<< 32 ||| s.host.pstate.setWidth 64
  | _ => 0

/-- The host reads a doubleword of BAR0, or of BAR4, which reads as zero (R383); the access wakes the module (R392). BAR2 has its own step. -/
def State.readBar (s : State) (bar o : Nat) : State :=
  let v := if bar = 0 then s.readBar0 o else 0
  if bar = 2 then s else { s.wake with host := { s.wake.host with readback := natBytes 8 v.toNat } }

end Sys2Proof.Machine
end

