-- ==== Sys2Proof/Machine/Locks.lean ====
section
/-!
DEFINITION. Locks: LOCK, TRYLOCK and UNLOCK (R156 to R158, R337).
-/
namespace Sys2Proof.Machine

/-- A waiter whose holder is descheduled is descheduled in turn, with its gang (R157). -/
def State.waitSaved (s : State) (h : Nat) : Res Unit :=
  match s.thread? h with
  | some t => if t.st = .running then done s else (vacateAll s.residentGang s fun s => s.passContext s.cur.id.place)
  | none => done s

/-- LOCK and TRYLOCK on a checked word: a result, or the wait for the handoff. DESIGN CHOICE (log entry 87): an answer that changes nothing,
1 of TRYLOCK and 3, performs as a failed CAS does, as a renewal of the line and no store. -/
def takeLock (s : State) (p : Where) (try_ : Bool) (f : Word → State → Res Unit) : Res Unit :=
  let k := s.placeKey p
  let w := s.rmwRead p 8
  let me := s.cur.id.ctxid
  let h := holderOf w
  if h = 0 then f 0 (s.rmwWrite false p 8 (lockWith w me (w.testBit 16))).inherit
  else if h = me then f 3 (s.rmwLoad p 8).2
  else if !s.live h then f 2 (s.rmwWrite false p 8 (lockWith w me (w.testBit 16))).inherit
  else if try_ then f 1 (s.rmwLoad p 8).2
  else
    let s := s.rmwWrite false p 8 (lockWith w h true)
    let s := (s.setLockQueue k (s.lockQueue k ++ [me])).inherit
    ({ s with cur := { s.cur with wait := some (.lock k none), stalled := true } } : State).waitSaved h

/-- LOCK. -/
def execLock (d a : BitVec 6) (s : State) : Host.Outcome State Fault Refusal :=
  finish (regs2 s d a fun x =>
    let fin : Word → State → Res Unit := fun r s => (s.note r).result d r
    match s.cur.wait with
    | some (.lock k (some r)) => fin r (s.rmwLoad (keyPlace k) 8).2
    | some (.lock k none) => .wait (.lock k none) s
    | _ => scalarAccess s needRw x .d fun p => takeLock s p false fin)

/-- TRYLOCK. -/
def execTrylock (d a : BitVec 6) (s : State) : Host.Outcome State Fault Refusal :=
  finish (regs2 s d a fun x => scalarAccess s needRw x .d fun p => takeLock s p true fun r s => (s.note r).result d r)

/-- UNLOCK. -/
def execUnlock (a : BitVec 6) (s : State) : Host.Outcome State Fault Refusal :=
  finish (readG s a 2 fun x => scalarAccess s needRw x .d fun p =>
    if holderOf (s.rmwRead p 8) ≠ s.cur.id.ctxid then s.trapHere 0x0A 0 s.free true
    else done ((s.handOver (s.placeKey p) 0).reinherit).retire)

end Sys2Proof.Machine
end

