-- ==== Sys2Proof/Machine/Dispatch.lean ====
section
/-!
DEFINITION. Dispatch: one meaning per constructor of Instr.
-/
namespace Sys2Proof.Machine

/-- The step of an instruction or of another agent. -/
def exec (i : Instr) (s : State) : Host.Outcome State Fault Refusal :=
  match i with
  | .add d a b => Sys2Proof.Machine.execAdd d a b s
  | .sub d a b => Sys2Proof.Machine.execSub d a b s
  | .and d a b => Sys2Proof.Machine.execAnd d a b s
  | .or d a b => Sys2Proof.Machine.execOr d a b s
  | .xor d a b => Sys2Proof.Machine.execXor d a b s
  | .andn d a b => Sys2Proof.Machine.execAndn d a b s
  | .sll d a b => Sys2Proof.Machine.execSll d a b s
  | .srl d a b => Sys2Proof.Machine.execSrl d a b s
  | .sra d a b => Sys2Proof.Machine.execSra d a b s
  | .mul d a b => Sys2Proof.Machine.execMul d a b s
  | .mulh d a b => Sys2Proof.Machine.execMulh d a b s
  | .mulhu d a b => Sys2Proof.Machine.execMulhu d a b s
  | .div d a b => Sys2Proof.Machine.execDiv d a b s
  | .divu d a b => Sys2Proof.Machine.execDivu d a b s
  | .rem d a b => Sys2Proof.Machine.execRem d a b s
  | .remu d a b => Sys2Proof.Machine.execRemu d a b s
  | .min d a b => Sys2Proof.Machine.execMin d a b s
  | .max d a b => Sys2Proof.Machine.execMax d a b s
  | .minu d a b => Sys2Proof.Machine.execMinu d a b s
  | .maxu d a b => Sys2Proof.Machine.execMaxu d a b s
  | .slt d a b => Sys2Proof.Machine.execSlt d a b s
  | .sltu d a b => Sys2Proof.Machine.execSltu d a b s
  | .clz d a => Sys2Proof.Machine.execClz d a s
  | .popc d a => Sys2Proof.Machine.execPopc d a s
  | .sext d a w => Sys2Proof.Machine.execSext d a w s
  | .zext d a w => Sys2Proof.Machine.execZext d a w s
  | .addi d a imm => Sys2Proof.Machine.execAddi d a imm s
  | .andi d a imm => Sys2Proof.Machine.execAndi d a imm s
  | .ori d a imm => Sys2Proof.Machine.execOri d a imm s
  | .xori d a imm => Sys2Proof.Machine.execXori d a imm s
  | .slli d a sh => Sys2Proof.Machine.execSlli d a sh s
  | .srli d a sh => Sys2Proof.Machine.execSrli d a sh s
  | .srai d a sh => Sys2Proof.Machine.execSrai d a sh s
  | .slti d a imm => Sys2Proof.Machine.execSlti d a imm s
  | .lih d imm => Sys2Proof.Machine.execLih d imm s
  | .addpc d imm => Sys2Proof.Machine.execAddpc d imm s
  | .lds d a w o => Sys2Proof.Machine.execLds d a w o s
  | .ldz d a w o => Sys2Proof.Machine.execLdz d a w o s
  | .st d a w o => Sys2Proof.Machine.execSt d a w o s
  | .jalr d a imm => Sys2Proof.Machine.execJalr d a imm s
  | .beq a b d => Sys2Proof.Machine.execBeq a b d s
  | .bne a b d => Sys2Proof.Machine.execBne a b d s
  | .blt a b d => Sys2Proof.Machine.execBlt a b d s
  | .bge a b d => Sys2Proof.Machine.execBge a b d s
  | .bltu a b d => Sys2Proof.Machine.execBltu a b d s
  | .bgeu a b d => Sys2Proof.Machine.execBgeu a b d s
  | .j d => Sys2Proof.Machine.execJ d s
  | .jal d => Sys2Proof.Machine.execJal d s
  | .trap a => Sys2Proof.Machine.execTrap a s
  | .alloc d a => Sys2Proof.Machine.execAlloc d a s
  | .free d a => Sys2Proof.Machine.execFree d a s
  | .launch d a => Sys2Proof.Machine.execLaunch d a s
  | .deal d a b => Sys2Proof.Machine.execDeal d a b s
  | .prio a => Sys2Proof.Machine.execPrio a s
  | .srd d n => Sys2Proof.Machine.execSrd d n s
  | .swr a n => Sys2Proof.Machine.execSwr a n s
  | .frame r n x y z => Sys2Proof.Machine.execFrame r n x y z s
  | .vconf n => Sys2Proof.Machine.execVconf n s
  | .vsetl d a b w => Sys2Proof.Machine.execVsetl d a b w s
  | .vld x => Sys2Proof.Machine.execVld x s
  | .vlds x => Sys2Proof.Machine.execVlds x s
  | .vldx x => Sys2Proof.Machine.execVldx x s
  | .vldseg x => Sys2Proof.Machine.execVldseg x s
  | .vldff x => Sys2Proof.Machine.execVldff x s
  | .vldsc d a => Sys2Proof.Machine.execVldsc d a s
  | .vst x => Sys2Proof.Machine.execVst x s
  | .vsts x => Sys2Proof.Machine.execVsts x s
  | .vstx x => Sys2Proof.Machine.execVstx x s
  | .vstseg x => Sys2Proof.Machine.execVstseg x s
  | .vstreamBind d a b => Sys2Proof.Machine.execVstreamBind d a b s
  | .vstreamUnbind d => Sys2Proof.Machine.execVstreamUnbind d s
  | .vstreamRewind d => Sys2Proof.Machine.execVstreamRewind d s
  | .vamoAdd x => Sys2Proof.Machine.execVamoAdd x s
  | .vamoMin x => Sys2Proof.Machine.execVamoMin x s
  | .vamoMax x => Sys2Proof.Machine.execVamoMax x s
  | .vamoFadd x => Sys2Proof.Machine.execVamoFadd x s
  | .amoAdd d a b => Sys2Proof.Machine.execAmoAdd d a b s
  | .amoAnd d a b => Sys2Proof.Machine.execAmoAnd d a b s
  | .amoOr d a b => Sys2Proof.Machine.execAmoOr d a b s
  | .amoXor d a b => Sys2Proof.Machine.execAmoXor d a b s
  | .amoMin d a b => Sys2Proof.Machine.execAmoMin d a b s
  | .amoMax d a b => Sys2Proof.Machine.execAmoMax d a b s
  | .amoMinu d a b => Sys2Proof.Machine.execAmoMinu d a b s
  | .amoMaxu d a b => Sys2Proof.Machine.execAmoMaxu d a b s
  | .amoSwap d a b => Sys2Proof.Machine.execAmoSwap d a b s
  | .cas d a b => Sys2Proof.Machine.execCas d a b s
  | .lock d a => Sys2Proof.Machine.execLock d a s
  | .trylock d a => Sys2Proof.Machine.execTrylock d a s
  | .unlock a => Sys2Proof.Machine.execUnlock a s
  | .waitwEq d a b => Sys2Proof.Machine.execWaitwEq d a b s
  | .waitwNe d a b => Sys2Proof.Machine.execWaitwNe d a b s
  | .waitwLt d a b => Sys2Proof.Machine.execWaitwLt d a b s
  | .waitwGe d a b => Sys2Proof.Machine.execWaitwGe d a b s
  | .waitwLtu d a b => Sys2Proof.Machine.execWaitwLtu d a b s
  | .waitwGeu d a b => Sys2Proof.Machine.execWaitwGeu d a b s
  | .fence f p v k e l => Sys2Proof.Machine.execFence f p v k e l s
  | .vfence l => Sys2Proof.Machine.execVfence l s
  | .barArrive n => Sys2Proof.Machine.execBarArrive n s
  | .barWait n => Sys2Proof.Machine.execBarWait n s
  | .barArrwait n => Sys2Proof.Machine.execBarArrwait n s
  | .post k a => Sys2Proof.Machine.execPost k a s
  | .waiti k a => Sys2Proof.Machine.execWaiti k a s
  | .waitv d k b => Sys2Proof.Machine.execWaitv d k b s
  | .cpy d a b => Sys2Proof.Machine.execCpy d a b s
  | .cpyf d a b => Sys2Proof.Machine.execCpyf d a b s
  | .cptile d a b => Sys2Proof.Machine.execCptile d a b s
  | .cprem d a b => Sys2Proof.Machine.execCprem d a b s
  | .coll d a b => Sys2Proof.Machine.execColl d a b s
  | .publish a => Sys2Proof.Machine.execPublish a s
  | .shadow d a => Sys2Proof.Machine.execShadow d a s
  | .shadowRelease d b => Sys2Proof.Machine.execShadowRelease d b s
  | .syncw a b => Sys2Proof.Machine.execSyncw a b s
  | .cleanr a b => Sys2Proof.Machine.execCleanr a b s
  | .invalr a b => Sys2Proof.Machine.execInvalr a b s
  | .bankcmd d a => Sys2Proof.Machine.execBankcmd d a s
  | .xfwait a b => Sys2Proof.Machine.execXfwait a b s
  | .syncwait d a b => Sys2Proof.Machine.execSyncwait d a b s
  | .bankwait d a => Sys2Proof.Machine.execBankwait d a s
  | .pattach z => Sys2Proof.Machine.execPattach z s
  | .pldaMem f a b k => Sys2Proof.Machine.execPldaMem f a b k s
  | .pldaReg f a k => Sys2Proof.Machine.execPldaReg f a k s
  | .pldbMem f a b k => Sys2Proof.Machine.execPldbMem f a b k s
  | .pldbReg f a k => Sys2Proof.Machine.execPldbReg f a k s
  | .pmma c a k => Sys2Proof.Machine.execPmma c a k s
  | .pmmas c a k => Sys2Proof.Machine.execPmmas c a k s
  | .pzero c => Sys2Proof.Machine.execPzero c s
  | .prdacc c d b => Sys2Proof.Machine.execPrdacc c d b s
  | .pwracc c a b => Sys2Proof.Machine.execPwracc c a b s
  | .ppub c l => Sys2Proof.Machine.execPpub c l s
  | .pfin c => Sys2Proof.Machine.execPfin c s
  | .settle l => Sys2Proof.Machine.execSettle l s
  | .lmark a d => Sys2Proof.Machine.execLmark a d s
  | .lend c d => Sys2Proof.Machine.execLend c d s
  | .tkarm d a b => Sys2Proof.Machine.execTkarm d a b s
  | .tkdisarm b => Sys2Proof.Machine.execTkdisarm b s
  | .tkemit a b => Sys2Proof.Machine.execTkemit a b s
  | .tkemitDraft a b => Sys2Proof.Machine.execTkemitDraft a b s
  | .tksync d => Sys2Proof.Machine.execTksync d s
  | .tkconf a b => Sys2Proof.Machine.execTkconf a b s
  | .ptsDrift c => Sys2Proof.Machine.execPtsDrift c s
  | .waitwRecheck c => Sys2Proof.Machine.execWaitwRecheck c s
  | .savedWaiterWake c => Sys2Proof.Machine.execSavedWaiterWake c s
  | .launchAdmit l => Sys2Proof.Machine.execLaunchAdmit l s
  | .threadCreate l p c => Sys2Proof.Machine.execThreadCreate l p c s
  | .timeSliceEnd c => Sys2Proof.Machine.execTimeSliceEnd c s
  | .preemption c => Sys2Proof.Machine.execPreemption c s
  | .restore c p => Sys2Proof.Machine.execRestore c p s
  | .laneSliceEnd c => Sys2Proof.Machine.execLaneSliceEnd c s
  | .laneHandover c => Sys2Proof.Machine.execLaneHandover c s
  | .laneGrantChange k n => Sys2Proof.Machine.execLaneGrantChange k n s
  | .trapDelivery c => Sys2Proof.Machine.execTrapDelivery c s
  | .eventRecordWrite p => Sys2Proof.Machine.execEventRecordWrite p s
  | .barMarkerFire c => Sys2Proof.Machine.execBarMarkerFire c s
  | .postMarkerFire c => Sys2Proof.Machine.execPostMarkerFire c s
  | .detEpochDrain l n => Sys2Proof.Machine.execDetEpochDrain l n s
  | .chase k n => Sys2Proof.Machine.execChase k n s
  | .replayIteration c e => Sys2Proof.Machine.execReplayIteration c e s
  | .catchwordVerdict u => Sys2Proof.Machine.execCatchwordVerdict u s
  | .catchwordDraft u => Sys2Proof.Machine.execCatchwordDraft u s
  | .catchwordArmWrite u => Sys2Proof.Machine.execCatchwordArmWrite u s
  | .catchwordRecordTransfer r u => Sys2Proof.Machine.execCatchwordRecordTransfer r u s
  | .syncCount n => Sys2Proof.Machine.execSyncCount n s
  | .engineCommandComplete n => Sys2Proof.Machine.execEngineCommandComplete n s
  | .engineFaultPause n => Sys2Proof.Machine.execEngineFaultPause n s
  | .remotePartReceive x => Sys2Proof.Machine.execRemotePartReceive x s
  | .collContributionReceive x => Sys2Proof.Machine.execCollContributionReceive x s
  | .flitReceive x => Sys2Proof.Machine.execFlitReceive x s
  | .linkRetrain p ok acks => Sys2Proof.Machine.execLinkRetrain p ok acks s
  | .bankCommandComplete n => Sys2Proof.Machine.execBankCommandComplete n s
  | .bankCommandPause n r => Sys2Proof.Machine.execBankCommandPause n r s
  | .bankCommandContinue n => Sys2Proof.Machine.execBankCommandContinue n s
  | .pinTimeoutAbort p => Sys2Proof.Machine.execPinTimeoutAbort p s
  | .pressErrorRerun c again => Sys2Proof.Machine.execPressErrorRerun c again s
  | .linePoison a => Sys2Proof.Machine.execLinePoison a s
  | .lineEviction a => Sys2Proof.Machine.execLineEviction a s
  | .streamReadahead c r => Sys2Proof.Machine.execStreamReadahead c r s
  | .checkpoint c => Sys2Proof.Machine.execCheckpoint c s
  | .retiredCountStop c => Sys2Proof.Machine.execRetiredCountStop c s
  | .kcmdResume p c => Sys2Proof.Machine.execKcmdResume p c s
  | .kcmdKill p c => Sys2Proof.Machine.execKcmdKill p c s
  | .kcmdSave p c => Sys2Proof.Machine.execKcmdSave p c s
  | .kcmdEngres p c ch => Sys2Proof.Machine.execKcmdEngres p c ch s
  | .kcmdEngabt p c ch => Sys2Proof.Machine.execKcmdEngabt p c ch s
  | .tlbInvalidate p v => Sys2Proof.Machine.execTlbInvalidate p v s
  | .tsdprePreset p v => Sys2Proof.Machine.execTsdprePreset p v s
  | .formatWindowEnable n v => Sys2Proof.Machine.execFormatWindowEnable n v s
  | .hostDoorbell v => Sys2Proof.Machine.execHostDoorbell v s
  | .hostLoad x => Sys2Proof.Machine.execHostLoad x s
  | .hostWindowWrite a n v => Sys2Proof.Machine.execHostWindowWrite a n v s
  | .hostWindowRead a n => Sys2Proof.Machine.execHostWindowRead a n s
  | .partitionReset p => Sys2Proof.Machine.execPartitionReset p s
  | .registerWrite sp a v => Sys2Proof.Machine.execRegisterWrite sp a v s
  | .vectorInstructionComplete c => Sys2Proof.Machine.execVectorInstructionComplete c s
  | .engineErrorRepair n => Sys2Proof.Machine.execEngineErrorRepair n s
  | .bankUnitError n => Sys2Proof.Machine.execBankUnitError n s
  | .spineError fatal => Sys2Proof.Machine.execSpineError fatal s
  | .contextStateError c => Sys2Proof.Machine.execContextStateError c s
  | .threadTableResSet p c => Sys2Proof.Machine.execThreadTableResSet p c s
  | .barrierArrivalDelivery x => Sys2Proof.Machine.execBarrierArrivalDelivery x s
  | .vadd x => Sys2Proof.Machine.execVadd x s
  | .vsub x => Sys2Proof.Machine.execVsub x s
  | .vmul x => Sys2Proof.Machine.execVmul x s
  | .vmulh x => Sys2Proof.Machine.execVmulh x s
  | .vmulhu x => Sys2Proof.Machine.execVmulhu x s
  | .vmacc x => Sys2Proof.Machine.execVmacc x s
  | .vdiv x => Sys2Proof.Machine.execVdiv x s
  | .vrem x => Sys2Proof.Machine.execVrem x s
  | .vmin x => Sys2Proof.Machine.execVmin x s
  | .vmax x => Sys2Proof.Machine.execVmax x s
  | .vminu x => Sys2Proof.Machine.execVminu x s
  | .vmaxu x => Sys2Proof.Machine.execVmaxu x s
  | .vand x => Sys2Proof.Machine.execVand x s
  | .vor x => Sys2Proof.Machine.execVor x s
  | .vxor x => Sys2Proof.Machine.execVxor x s
  | .vsll x => Sys2Proof.Machine.execVsll x s
  | .vsrl x => Sys2Proof.Machine.execVsrl x s
  | .vsra x => Sys2Proof.Machine.execVsra x s
  | .vsadd x => Sys2Proof.Machine.execVsadd x s
  | .vssub x => Sys2Proof.Machine.execVssub x s
  | .vaadd x => Sys2Proof.Machine.execVaadd x s
  | .vsmul x => Sys2Proof.Machine.execVsmul x s
  | .vwadd x => Sys2Proof.Machine.execVwadd x s
  | .vwaddu x => Sys2Proof.Machine.execVwaddu x s
  | .vwmul x => Sys2Proof.Machine.execVwmul x s
  | .vwmulu x => Sys2Proof.Machine.execVwmulu x s
  | .vwmacc x => Sys2Proof.Machine.execVwmacc x s
  | .vwmaccu x => Sys2Proof.Machine.execVwmaccu x s
  | .vnclip x => Sys2Proof.Machine.execVnclip x s
  | .vnclipu x => Sys2Proof.Machine.execVnclipu x s
  | .vfadd x => Sys2Proof.Machine.execVfadd x s
  | .vfsub x => Sys2Proof.Machine.execVfsub x s
  | .vfmul x => Sys2Proof.Machine.execVfmul x s
  | .vfdiv x => Sys2Proof.Machine.execVfdiv x s
  | .vfma x => Sys2Proof.Machine.execVfma x s
  | .vfnma x => Sys2Proof.Machine.execVfnma x s
  | .vfmin x => Sys2Proof.Machine.execVfmin x s
  | .vfmax x => Sys2Proof.Machine.execVfmax x s
  | .vfsgnj x => Sys2Proof.Machine.execVfsgnj x s
  | .vfsgnjn x => Sys2Proof.Machine.execVfsgnjn x s
  | .vcmpeq x => Sys2Proof.Machine.execVcmpeq x s
  | .vcmpne x => Sys2Proof.Machine.execVcmpne x s
  | .vcmplt x => Sys2Proof.Machine.execVcmplt x s
  | .vcmpltu x => Sys2Proof.Machine.execVcmpltu x s
  | .vcmple x => Sys2Proof.Machine.execVcmple x s
  | .vcmpleu x => Sys2Proof.Machine.execVcmpleu x s
  | .vfcmpeq x => Sys2Proof.Machine.execVfcmpeq x s
  | .vfcmplt x => Sys2Proof.Machine.execVfcmplt x s
  | .vfcmple x => Sys2Proof.Machine.execVfcmple x s
  | .vfcmpun x => Sys2Proof.Machine.execVfcmpun x s
  | .vsel x => Sys2Proof.Machine.execVsel x s
  | .vslideup d a b m t => Sys2Proof.Machine.execVslideup d a b m t s
  | .vslidedn d a b m t => Sys2Proof.Machine.execVslidedn d a b m t s
  | .vgatherr x => Sys2Proof.Machine.execVgatherr x s
  | .vmrgk d a b t => Sys2Proof.Machine.execVmrgk d a b t s
  | .vmand d a b => Sys2Proof.Machine.execVmand d a b s
  | .vmor d a b => Sys2Proof.Machine.execVmor d a b s
  | .vmxor d a b => Sys2Proof.Machine.execVmxor d a b s
  | .vmandn d a b => Sys2Proof.Machine.execVmandn d a b s
  | .vmv x => Sys2Proof.Machine.execVmv x s
  | .vsplat x => Sys2Proof.Machine.execVsplat x s
  | .vmvsx x => Sys2Proof.Machine.execVmvsx x s
  | .vmvxs d a t => Sys2Proof.Machine.execVmvxs d a t s
  | .vid d m t => Sys2Proof.Machine.execVid d m t s
  | .viota x => Sys2Proof.Machine.execViota x s
  | .vcompress x => Sys2Proof.Machine.execVcompress x s
  | .vneg x => Sys2Proof.Machine.execVneg x s
  | .vabs x => Sys2Proof.Machine.execVabs x s
  | .vnot x => Sys2Proof.Machine.execVnot x s
  | .vfneg x => Sys2Proof.Machine.execVfneg x s
  | .vfabs x => Sys2Proof.Machine.execVfabs x s
  | .vfsqrt x => Sys2Proof.Machine.execVfsqrt x s
  | .vfrecip x => Sys2Proof.Machine.execVfrecip x s
  | .vfexp2 x => Sys2Proof.Machine.execVfexp2 x s
  | .vfclass x => Sys2Proof.Machine.execVfclass x s
  | .vredsum x => Sys2Proof.Machine.execVredsum x s
  | .vredmin x => Sys2Proof.Machine.execVredmin x s
  | .vredmax x => Sys2Proof.Machine.execVredmax x s
  | .vredminu x => Sys2Proof.Machine.execVredminu x s
  | .vredmaxu x => Sys2Proof.Machine.execVredmaxu x s
  | .vredand x => Sys2Proof.Machine.execVredand x s
  | .vredor x => Sys2Proof.Machine.execVredor x s
  | .vredxor x => Sys2Proof.Machine.execVredxor x s
  | .vfredsum x => Sys2Proof.Machine.execVfredsum x s
  | .vfredmin x => Sys2Proof.Machine.execVfredmin x s
  | .vfredmax x => Sys2Proof.Machine.execVfredmax x s
  | .vmpop d a m => Sys2Proof.Machine.execVmpop d a m s
  | .vmfirst d a m => Sys2Proof.Machine.execVmfirst d a m s
  | .vmnot d a m => Sys2Proof.Machine.execVmnot d a m s
  | .vmbefore d a m => Sys2Proof.Machine.execVmbefore d a m s
  | .vmincl d a m => Sys2Proof.Machine.execVmincl d a m s
  | .vsortk x => Sys2Proof.Machine.execVsortk x s
  | .vuniq x => Sys2Proof.Machine.execVuniq x s
  | .vtosf x => Sys2Proof.Machine.execVtosf x s
  | .vtobf x => Sys2Proof.Machine.execVtobf x s
  | .vtohf x => Sys2Proof.Machine.execVtohf x s
  | .vtoe4 x => Sys2Proof.Machine.execVtoe4 x s
  | .vtoe4s x => Sys2Proof.Machine.execVtoe4s x s
  | .vtoe5 x => Sys2Proof.Machine.execVtoe5 x s
  | .vtoe5s x => Sys2Proof.Machine.execVtoe5s x s
  | .vtof4 x => Sys2Proof.Machine.execVtof4 x s
  | .vfromf4 x => Sys2Proof.Machine.execVfromf4 x s
  | .vtoinr x => Sys2Proof.Machine.execVtoinr x s
  | .vtoinz x => Sys2Proof.Machine.execVtoinz x s
  | .vintof x => Sys2Proof.Machine.execVintof x s
  | .vwiden x => Sys2Proof.Machine.execVwiden x s
  | .vwidenu x => Sys2Proof.Machine.execVwidenu x s
  | .nop => Sys2Proof.Machine.execNop s
  | .yield => Sys2Proof.Machine.execYield s
  | .exit => Sys2Proof.Machine.execExit s
  | .brk => Sys2Proof.Machine.execBrk s
  | .vrel => Sys2Proof.Machine.execVrel s
  | .pdetach => Sys2Proof.Machine.execPdetach s
  | .mailboxExtend => Sys2Proof.Machine.execMailboxExtend s
  | .mailboxQuote => Sys2Proof.Machine.execMailboxQuote s
  | .mailboxDevcert => Sys2Proof.Machine.execMailboxDevcert s
  | .hostSubmit => Sys2Proof.Machine.execHostSubmit s
  | .hostKill => Sys2Proof.Machine.execHostKill s
  | .hostQuote => Sys2Proof.Machine.execHostQuote s
  | .hostEventWrite => Sys2Proof.Machine.execHostEventWrite s
  | .powerStateEntry => Sys2Proof.Machine.execPowerStateEntry s
  | .powerWake => Sys2Proof.Machine.execPowerWake s
  | .packageBoot => Sys2Proof.Machine.execPackageBoot s

end Sys2Proof.Machine
end

