-- ==== Sys2Proof/Machine/Sched.lean ====
section
/-!
DEFINITION. Sched: which step comes next, and what the environment does besides steps (log entry 3).
-/
namespace Sys2Proof.Machine

/-- A step takes one cycle (log entry 4). -/
def State.tick (s : State) : State := { s with cycle := s.cycle + 1 }

/-- Of n cycles that have passed none counts for the slice of a resident thread in a waiting instruction (R153; log entry 64). -/
def State.noSlice (s : State) (n : Nat) : State :=
  s.modThreads fun t => if t.st = .running ∧ t.waiting = true then { t with sliceAt := t.sliceAt + n } else t

/-- Whether a thread can issue where the environment asks for it: resident, with no trap to deliver. A stalled one tries again. -/
def Thread.canIssue (t : Thread) : Bool := decide (t.st = .running) && t.trap.isNone

/-- Whether a thread can issue by itself: it is not stalled either. -/
def Thread.ready (t : Thread) : Bool := t.canIssue && !t.stalled

/-! ### Steps that are due -/

/-- The rises of PTS that a thread is due. -/
def State.driftsDue (s : State) (t : Thread) : Nat :=
  if t.st = .running ∧ 0 < t.sys.drift.toNat then (s.cycle - t.driftAt) / t.sys.drift.toNat else 0

/-- PTS of every resident context has risen as often as it is due: the per-context counters run by themselves (R97). -/
def State.drifts (s : State) : State :=
  s.threads.foldl (fun s t => match s.driftsDue t with
    | 0 => s
    | n => s.withThread t.id.ctxid fun s => Nat.repeat State.driftCur n s) s

/-- A module that is not idle is in M0 (R392). -/
def State.stayUp (s : State) : State := if s.host.pstate = 0 ∨ s.idle = true then s else s.wake

/-- A step begins: its cycle passes, and invalidations that nothing holds up any more are over (R202). -/
def State.begin_ (s : State) : State := (s.tick.drifts.noSlice 1).settleInvals.stayUp

/-- What comes between two instructions of the current thread: the stop at a retired count, a checkpoint, the return of the lanes, and the
pre-emption by a runnable thread of higher effective priority (R227, R228, R155, R153, R372). -/
def State.boundary (s : State) : Option Instr :=
  if s.retiredStop then some (.retiredCountStop s.cur.id.ctxid)
  else if s.checkpointDue then some (.checkpoint s.cur.id.ctxid)
  else match s.lanesDue with
    | some _ => some (.laneHandover s.cur.id.ctxid)
    | none => if !s.cur.waiting && s.givesWay then some (.preemption s.cur.id.ctxid) else none

/-! ### Steps of the other agents that can be taken -/

/-- Those that concern a resident thread. -/
def Thread.steps (t : Thread) : List Instr :=
  let c := t.id.ctxid
  (if t.trap.isSome then [.trapDelivery c] else [])
    ++ (match t.vec.queue with
      | [] => []
      | q :: _ => match q.op with
        | .bar _ => [.barMarkerFire c]
        | .post _ _ => [.postMarkerFire c]
        | _ => [.vectorInstructionComplete c])
    ++ (match t.wait with
      | some (.word _ _ _ _ _ _) => [.waitwRecheck c]
      | _ => [])
    ++ (t.vec.streams.map fun x => .streamReadahead c x.reg)
    ++ [.timeSliceEnd c, .laneSliceEnd c]

/-- Borrowers whose lanes are due to the context that lent them, also in a waiting instruction (R155). -/
def State.handovers (s : State) : List Instr :=
  (s.threads.filter fun t => decide (t.st = .running) && ((s.focus t.id.ctxid).bind fun u => u.lanesDue).isSome).map fun t => .laneHandover t.id.ctxid

/-- Whether a thread could be placed in the current thread's context, were that free, that has no place as things stand: no vacant context, or no
room within its stage's MAXCTX (R143). -/
def State.holdsUp (s : State) : Bool :=
  let p := s.cur.id.place
  let u := s.withoutGang
  ((u.candidates p).any fun t => !(((s.candidates p).any fun x => decide (x.id.ctxid = t.id.ctxid)) &&
      (s.roomOf (s.launchOf t.id.launch) t.id.lv).any fun q => s.vacant q && s.mayRestoreAt t q))
    || u.launches.any fun l => u.creatable p l && !(s.creatable p l && s.hasRoom l)

/-- Resident threads to save for one that waits, and those that wait for a lock of a descheduled holder (R157). -/
def State.preemptions (s : State) : List Instr :=
  (s.threads.filter fun t => decide (t.st = .running) && ((s.focus t.id.ctxid).map fun u => u.holdsUp || u.lockStuck).getD false).map fun t =>
    .preemption t.id.ctxid

/-- The replays under way, of resident threads and of saved ones (R172). -/
def State.replays (s : State) : List Instr :=
  (s.threads.filter fun t => decide (t.sys.lstate = 2 ∧ t.st ≠ .free)).map fun t => .replayIteration t.id.ctxid false

/-- The chases whose delta-C is there. -/
def State.chases (s : State) : List Instr :=
  s.cores.flatMap fun k => (k.2.lins.filter fun l => l.2.delta.isSome).map fun l => .chase k.1 l.1

/-- The steps of the engines. -/
def State.engineSteps (s : State) : List Instr :=
  (s.cmds.filter fun c => !c.ended && c.paused.isNone).filterMap fun c => match s.engNext c with
    | .part _ => some (.syncCount c.key)
    | .ended _ => some (.engineCommandComplete c.key)
    | .fault _ _ _ _ => some (.engineFaultPause c.key)
    | _ => none

/-- The steps of the bank units. -/
def State.bankSteps (s : State) : List Instr :=
  (s.banks.filter fun k => !k.ended && !k.paused).map fun k => .bankCommandComplete k.key

/-- The steps of the catchword units. -/
def State.unitSteps (s : State) : List Instr :=
  ((List.range 8).filterMap fun u => (s.unitHead u).map fun x => match x.op with
    | .token false _ => .catchwordVerdict u
    | .token true _ => .catchwordDraft u
    | .conf _ => .catchwordVerdict u
    | .arm _ _ => .catchwordArmWrite u
    | .disarm _ => .catchwordArmWrite u)
  ++ s.sends.filterMap fun x => match Tab.get s.holders x.pa with
    | some h => if h = x.sect then none else some (.catchwordRecordTransfer x.pa x.sect)
    | none => none

/-- The threads made so far: CTXIDs are given out in ascending order, so that one is taken again as late as may be. -/
def State.threadsMade (s : State) : Nat := s.launches.foldl (fun n l => l.made.foldl (· + ·) n) 0

/-- The creation of a launch's next thread, where it has a place. -/
def State.creation (s : State) (l : Launch) : Option Instr :=
  if !l.holds || l.killed then none
  else l.nextStage.bind fun g =>
    let lv := l.lrec.coords ((l.made[g]?).getD 0)
    match s.instOf l lv with
    | none => some (.threadCreate l.id ⟨0, 0, 0, 0⟩ 0)
    | some i => ((i.places (s.sectsOf l)).find? fun p => s.vacant p && s.mayStand l lv p).bind fun p =>
      (s.nextCtx (s.threadsMade % 65535 + 1)).map fun c => .threadCreate l.id p c

/-- The restore of a runnable thread, where it has a place. -/
def State.restoration (s : State) (t : Thread) : Option Instr :=
  if s.isRunnable t && !s.overtakes t then
    ((s.roomOf (s.launchOf t.id.launch) t.id.lv).find? fun p => s.vacant p && s.mayRestoreAt t p && !s.creationDue p t).map fun p =>
      .restore t.id.ctxid p
  else none

/-- The steps of the dispatchers. -/
def State.dispatcherSteps (s : State) : List Instr :=
  ((s.launches.filter fun l => !l.admitted && !l.finished && !l.killed).map fun l => .launchAdmit l.id)
    ++ s.launches.filterMap (fun l => s.creation l)
    ++ s.launches.flatMap (fun l => (l.arrived.filter fun a => s.allArrived l a.1).map fun a => .detEpochDrain l.id a.1)
    ++ ((s.threads.filter fun t => decide (t.st = .savedWaiting)).map fun t => .savedWaiterWake t.id.ctxid)
    ++ s.threads.filterMap fun t => s.restoration t

/-- The steps of partitions and of the host interface that need no choice from outside. -/
def State.systemSteps (s : State) : List Instr :=
  (if s.colophon.booted then [] else [.packageBoot])
    ++ (s.parts.flatMap fun p => (if p.pending.isEmpty then [] else [.eventRecordWrite p.idx])
      ++ (if p.inval.isSome then [.pinTimeoutAbort p.idx] else [])
      ++ (if !p.kcmdBusy then [] else match bitsOf p.k.kact 16 4 with
        | 1 => [.kcmdResume p.idx (bitsOf p.k.kact 0 16)]
        | _ => [.kcmdSave p.idx (bitsOf p.k.kact 0 16)]))
    ++ (if s.host.waiting.isEmpty then [] else [.hostEventWrite])
    ++ (match s.request with
      | none => []
      | some r => match leNat (r.take 1) with
        | 1 => []
        | 2 => [.hostSubmit]
        | 4 => [.hostQuote]
        | _ => [.hostKill])

/-- One of the steps that other agents can take, chosen by the cycle; the factor keeps the choice from falling into step with the turns of the
threads, so that none is passed over for ever. -/
def State.auto (s : State) : Option Instr :=
  let l := (((s.threads.filter fun t => decide (t.st = .running)).flatMap fun t => t.steps) ++ s.preemptions ++ s.handovers ++ s.replays ++ s.chases ++ s.engineSteps ++ s.bankSteps
    ++ s.unitSteps ++ s.dispatcherSteps ++ s.systemSteps)
  l[s.cycle * 40503 / 256 % max 1 l.length]?

/-- The step of another agent that comes next, or none where the current thread issues: now and then one of the steps that can be taken, and at
once where the thread cannot issue; else what is due at its boundary. -/
def State.event? (s : State) : Option Instr :=
  if !s.cur.ready then s.auto
  else if s.cycle % 8 ≠ 7 then s.boundary
  else s.auto.or s.boundary

/-- What watches the instruction stream takes note of an instruction that has completed: the demonstration of a loop (R168). -/
def State.afterIssue (s : State) (w : BitVec 32) (i : Instr) (t : State) : State :=
  if t.cur.id.ctxid = s.cur.id.ctxid ∧ s.cur.retired < t.cur.retired then s.traceInstr w i t else t

/-! ### What the environment does besides steps -/

/-- A line without poison. -/
def State.clean (s : State) (l : Nat) : Bool := !(s.line l).poison

/-- A gathered line made for the strided load at the head of the current thread's queue: those of n elements from `first` on that it still
loads, at most 128 bytes, which miss in the cluster L2 (R105); none is made where its policy allocates nothing in the L2 (R22). -/
def State.gatherFor (s : State) (first n : Nat) : State :=
  match s.queue, s.stridedTag with
  | q :: _, some (b, st, sz) =>
    match q.op with
    | .mem _ m _ _ _ =>
      let els := (List.range n).map (fun i => first + i) |>.filter fun i => s.acts q m i && decide (i < s.vl)
      let at_ := els.map fun i => s.spot needRd (b + BitVec.ofNat 64 i * st) sz 0
      let pas := at_.filterMap fun w => match w with
        | .phys pa => some pa
        | _ => none
      if decide (s.policy.setWidth 2 = (2 : BitVec 2)) || els.isEmpty || decide (128 < els.length * sz) || decide (pas.length ≠ els.length) || pas.any (fun pa => (s.copyHit true (pa / 128)).isSome) then s
      else
        let bytes := (pas.flatMap fun pa => (List.range sz).map fun i => pa + i).foldl (fun (m : Tab Byte) a => Tab.set m a (s.mem.read a)) []
        (s.regather ⟨s.cur.id.place.cluster, b, st, sz, bytes, 0, 0⟩).2
    | _ => s
  | _, _ => s

/-- The first n entries of a list that meet a condition, and the others: what a full structure drops stands last (log entry 82). -/
def keepFirst {α : Type} (p : α → Bool) : Nat → List α → List α
  | _, [] => []
  | n, x :: t => if p x then (match n with
      | 0 => keepFirst p 0 t
      | k + 1 => x :: keepFirst p k t)
    else x :: keepFirst p n t

/-- A translation of a thread's address brought into the L1 TLB of its core and the L2 TLB of its cluster (R201). -/
def State.fillTlb (s : State) (c : Nat) (va : Word) : State :=
  match s.thread? c with
  | none => s
  | some t =>
    let x := (s.launchOf t.id.launch).xctx t.id.place.cluster
    match s.part? x.part with
    | none => s
    | some p => match (if !p.k.asrt.getLsbD 63 || decide (Config.windowBase ≤ va.toNat) then none else (s.walk p x va.toNat).toOption) with
      | none => s
      | some (e, big) =>
        let put := fun (core : Option Nat) (n : Nat) (l : List Tlb) =>
          let y : Tlb := ⟨x.cluster, core, x.part, x.asid, va.toNat / (if big then Config.bigPageBytes else Config.pageBytes), big, e⟩
          keepFirst (fun z => decide (z.cluster = y.cluster ∧ z.core = core)) n (y :: l.filter fun z => z != y)
        { s with tlb := put (some t.id.place.coreKey) Config.l1Tlb (put none Config.l2Tlb s.tlb) }

/-- The table pointers on the way to a thread's address brought into the walk cache of its section (R201). -/
def State.fillWalk (s : State) (c : Nat) (va : Word) : State :=
  match s.thread? c with
  | none => s
  | some t =>
    let x := (s.launchOf t.id.launch).xctx t.id.place.cluster
    match s.part? x.part with
    | none => s
    | some p =>
      if !p.k.asrt.getLsbD 63 || decide (Config.windowBase ≤ va.toNat) then s
      else
        let put := fun (lv ix : Nat) (e : Word) (l : List WalkPtr) =>
          let y : WalkPtr := ⟨t.id.place.sect, x.part, x.asid, lv, ix, e⟩
          keepFirst (fun z => decide (z.sect = y.sect)) Config.walkCache (y :: l.filter fun z => z != y)
        let w := match s.topEntry p x.asid va.toNat with
          | .ok e => put 0 (va.toNat / 2 ^ 42) e s.walks
          | .error _ => s.walks
        let w := match s.midEntry p x va.toNat with
          | .ok e => if e.getLsbD 1 then w else put 1 (va.toNat / 2 ^ 29) e w
          | .error _ => w
        { s with walks := w }

/-- A line brought into a core's instruction cache; a full cache gives up its lowest line (log entry 82). -/
def State.fillFetch (s : State) (k l : Nat) : State :=
  if s.clean l then
    let c := (Tab.get s.cores k).getD (Core.init (isBaseKey k))
    let ls := Tab.set c.icache l (s.mem.line l)
    let ls := if Config.icacheLines < ls.length then (match ls.find? fun x => decide (x.1 ≠ l) with
        | some v => Tab.del ls v.1
        | none => ls) else ls
    { s with cores := Tab.set s.cores k { c with icache := ls } }
  else s

/-- A private copy of a line as its home holds it. -/
def State.fillCopy (s : State) (l1 : Bool) (home l : Nat) : State :=
  if s.clean l then
    let s := s.fillLine l
    let r := s.line l
    s.putCopy .normal ⟨l1, home, l, s.mem.line l, r.wts, r.rts, if l1 then none else s.copyScales home l r.wts⟩
  else s

/-- The resident kernel sets the resume address of a suspended thread in its save image (R213, R217). -/
def State.kernelResume (s : State) (c : Nat) (pc : Word) : State :=
  match s.thread? c with
  | none => s
  | some t => match s.part? (s.launchOf t.id.launch).part with
    | some p => if t.st = .suspended ∧ s.isMemory (s.imageBase p c) = true then s.sysStore (s.imageBase p c + 0x10) (natBytes 8 pc.toNat) else s
    | none => s

/-- The environment acts: it lets cycles pass, brings something into a cache or drops it, or is the resident kernel, which stores, changes the
resume address of a suspended thread, steps back, begins another profiling pass, writes the link tables, trains the ports or opens the host window;
or the host reads a register through a BAR; or a scale read goes wrong (R63). -/
def State.stimulate (s : State) (x : Stimulus) : State :=
  match x with
  | .event _ => s
  | .issue _ => s
  | .elapse n => ({ s with cycle := s.cycle + n } : State).noSlice n
  | .fillLine l => s.fillLine l
  | .fillCopy l1 home l => s.fillCopy l1 home l
  | .dropCopy l1 home l => { s with copies := s.copies.filter fun c => !((c.l1 == l1) && decide (c.home = home) && decide (c.line = l)) }
  | .gather c first n => s.withThread c fun s => s.gatherFor first n
  | .fillTlb c va => s.fillTlb c va
  | .dropTlb t => { s with tlb := s.tlb.filter fun x => x != t }
  | .fillWalk c va => s.fillWalk c va
  | .dropWalk w => { s with walks := s.walks.filter fun x => x != w }
  | .fillFetch k l => s.fillFetch k l
  | .kernelStore pa v => if s.isMemory pa then s.sysStore (pa / 8 * 8) (natBytes 8 v.toNat) else s
  | .kernelResume c pc => s.kernelResume c pc
  | .kernelRewind c => s.rewind_ c
  | .kernelPass p => match s.part? p with
    | some q => s.newPass q
    | none => s
  | .kernelRoutes r g => s.fillTables r g
  | .kernelWindow w => s.openWindow w
  | .kernelTrain ups ok => s.trainLinks ups ok
  | .barRead sp o => s.readBar sp o
  | .scaleError a => { s with badScales := a :: s.badScales }

end Sys2Proof.Machine
end

