-- ==== Sys2Proof/Machine/Turns.lean ====
section
/-!
DEFINITION. Turns: a thread issues, and whose turn comes next (R11, R235).
-/
namespace Sys2Proof.Machine

/-- A change of the next state of an outcome. -/
def mapNext (o : Host.Outcome State Fault Refusal) (f : State → State) : Host.Outcome State Fault Refusal :=
  match o with
  | .next s => .next (f s)
  | .fault e => .fault e
  | .refused r => .refused r

/-- The current thread issues: its word is fetched and decoded, the instruction has its effect, and what watches the stream takes note.
A reserved word traps (R235). -/
noncomputable def issue (s : State) : Host.Outcome State Fault Refusal :=
  match s.fetch with
  | .trap t => finish (.trap t s)
  | .word w =>
    match decode w with
    | none => reservedWord w (s.setIr w)
    | some i => mapNext (exec i (s.setIr w)) (State.afterIssue s w i)

/-- The environment asks a thread to issue: what is due at its boundary comes first. -/
noncomputable def issueOf (s : State) (c : Nat) : Host.Outcome State Fault Refusal :=
  match s.focus c with
  | none => .next s
  | some t =>
    if t.cur.canIssue then
      match t.boundary with
      | some i => exec i t
      | none => issue t
    else .next t

/-- A module held in reset does nothing that the environment asks for but boot (R205). -/
def State.takes (s : State) (x : Stimulus) : Bool :=
  s.colophon.kernelUp || match x with
    | .event .packageBoot => true
    | .elapse _ => true
    | .barRead _ _ => true
    | _ => false

/-- Whether a thread is ready to issue (R11): it is resident, and where it stalled or waits, its instruction would go through now. -/
noncomputable def State.wouldGo (s : State) (t : Thread) : Bool :=
  t.canIssue && (!t.stalled || match s.focus t.id.ctxid with
    | none => false
    | some u => match issue u with
      | .next v => !(decide (v.cur.id.ctxid = t.id.ctxid) && v.cur.stalled && v.cur.trap.isNone)
      | _ => true)

/-- The turn passes to the next thread that is ready, in round-robin order, or else to the next one. -/
noncomputable def State.rotate (s : State) : State :=
  let l := (s.others ++ [s.cur]).filter fun t => decide (t.st ≠ .free)
  match l.dropWhile fun t => !s.wouldGo t with
  | t :: b => { s with cur := { t with stalled := false }, others := b ++ l.takeWhile fun t => !s.wouldGo t }
  | [] => match l with
    | t :: b => { s with cur := t, others := b }
    | [] => s

/-- The turn stays where it was while another agent steps. -/
noncomputable def State.afterEvent (s t : State) : State := if s.cur.ready then (t.focus s.cur.id.ctxid).getD t else t.rotate

end Sys2Proof.Machine
end

