-- ==== Sys2Proof/Machine/Step.lean ====
section
/-!
DEFINITION. Step: one step of the machine, and where a word stands for the next fetch.
-/
namespace Sys2Proof.Machine

/-- One step (log entry 3): what the environment has chosen; else the step of another agent that comes next; else the current thread issues,
and the turn passes. -/
noncomputable def step (s : State) : Host.Outcome State Fault Refusal :=
  match s.agenda with
  | .issue c :: rest => issueOf { s.begin_ with agenda := rest } c
  | .event i :: rest =>
    if !i.isEvent then .refused .notAnEvent
    else if s.takes (.event i) then exec i { s.begin_ with agenda := rest } else .next { s.begin_ with agenda := rest }
  | x :: rest =>
    let t : State := { s.begin_ with agenda := rest }
    .next (if s.takes x then t.stimulate x else t)
  | [] =>
    match s.event? with
    | some i => mapNext (exec i s.begin_) s.afterEvent
    | none => if s.cur.ready then mapNext (issue s.begin_) State.rotate else .next s.begin_.rotate

/-- The state with an instruction of `nbits` bits, its other bits 0, where the next step fetches it: the word in memory, and the current
thread's turn. -/
def State.withFetchWord (s : State) (_ w : Nat) : State :=
  let p := s.codeAt
  { p.1.putCode p.2 (natBytes 4 w) with agenda := [.issue p.1.cur.id.ctxid] }

end Sys2Proof.Machine
end

