-- ==== Sys2Proof/Safety.lean ====
section
/-!
DEFINITION. Safety: the terms in which statements say when an instruction completes, and what every machine state is to satisfy.
-/
namespace Sys2Proof.Machine

/-! ### When an instruction can go on -/

/-- A scalar register that an instruction can use at once: numbered below 32 (R236), and no vector work in the queue writes it (R30). -/
def State.usable (s : State) (n : BitVec 6) : Prop := n.toNat < 32 ∧ s.notReady n.toNat = false

/-- The current thread holds the lanes of its core, and an entry of its queue is free (R11, R29). -/
def State.canPush (s : State) : Prop :=
  (s.core s.cur.id.place).holder = some s.cur.id.ctxid ∧ s.queue.length < queueSize

/-- The thread table and the save image of the current thread have their place in memory (R220): a trap of it can be delivered. -/
def State.canSave (s : State) : Prop :=
  ∃ p, s.curPart = some p ∧ s.isMemory (p.tableEntry s.cur.id.ctxid) = true ∧ s.isMemory (s.imageBase p s.cur.id.ctxid) = true

/-- An access of the scalar stream goes to a byte of physical memory, and no older vector memory instruction holds it back (R104, R211). -/
def State.reaches (s : State) (n : Need) (ea : Word) (w : Wid) (pa : Nat) : Prop :=
  s.spot n ea w.bytes (BitVec.ofNat 8 w.num) = .phys pa ∧ s.memBusy = false

/-- The current thread is resident, holds the lanes, and an entry stands at the head of its queue. -/
def State.heads (s : State) (c : Nat) (q : QEntry) : Prop :=
  s.cur.id.ctxid = c ∧ s.cur.st = .running ∧ (s.core s.cur.id.place).holder = some c ∧ s.queue.head? = some q

/-- The current thread has no bound stream, no unsettled lineage and no provisional register (R72, R287). -/
def State.settled (s : State) : Prop :=
  s.cur.vec.streams = [] ∧ s.ownLins = [] ∧ ∀ n, s.tag n = 0

/-- A scalar operand that a push captures, if any, is not written by vector work in the queue (R20, R30). -/
def State.captures (s : State) (want : Bool) (n : Nat) : Prop := want = true → n < 32 → s.notReady n = false

/-- What a push captures of a scalar operand: a number above 31 captures nothing, and is a violation at the commit pointer (R297). -/
def State.captured (s : State) (want : Bool) (n : Nat) : Word := if want = true ∧ n < 32 then s.x n else 0

/-- An instruction that is over at issue once its entry, with the operands it captures, stands at the end of the queue (R20, R29). -/
def State.pushes (s : State) (i : Instr) (p : Push) : Prop :=
  exec i s = .next (s.enqueue (s.entry s.cur.pc s.cur.ir p (s.captured p.ca p.a) (s.captured p.cb p.b))).retire

/-- No other member of the current thread's gang is resident, and nothing stands in its queue: it can be saved at once (R149, R216). -/
def State.alone (s : State) : Prop := s.residentGang = [s.cur.id.ctxid] ∧ s.queue = [] ∧ s.cur.trap = none

/-- Nothing comes before the current thread's next instruction, and it can issue (log entry 3). -/
def State.issues (s : State) : Prop := s.agenda = [] ∧ s.event? = none ∧ s.cur.ready = true

/-- The last-level cache has room for `n` more lines: a fill evicts nothing (R34). -/
def State.roomFor (s : State) (n : Nat) : Prop := s.lines.length + n ≤ Config.llcLines

/-- No fill of `n` lines evicts one, and no debug capture takes the lines a store writes (R34, R228, R229). -/
def State.undisturbed (s : State) (n : Nat) : Prop := s.roomFor n ∧ ∀ p ∈ s.parts, p.db.dbctl.getLsbD 62 = false

/-! ### What every step keeps -/

/-- Coherent memory keeps its canonical form. -/
def State.memWf (s : State) : Prop := s.mem.wf

end Sys2Proof.Machine
end

