-- ==== Sys2Proof/Certificates/Slice0/Obligations.lean ====
section
/-!
DEFINITION. Obligations: the statements for the provers. Where one cites a rule as stated, its docstring names it; the premises are the terms
of Safety.
-/
open Sys2Proof Sys2Proof.Machine

/-! ### The step and the decoder -/

/-- Where nothing comes before it, a step is the instruction that the word at the program counter decodes to (R231), then the trace of a
demonstration (R168) and the turn of the next thread (log entry 3). The same where the environment chooses which thread issues, and an event
of the agenda is its own step (log entry 3); a module held in reset takes none but boot (R205). -/
def Obligations.StepRunsTheDecodedInstruction : Prop :=
  (∀ (s : State) (w : BitVec 32) (i : Instr), s.issues → s.begin_.fetch = .word w → decode w = some i →
    step s = mapNext (mapNext (exec i (s.begin_.setIr w)) (State.afterIssue s.begin_ w i)) State.rotate) ∧
  (∀ (s t : State) (c : Nat) (rest : List Stimulus) (w : BitVec 32) (i : Instr), s.agenda = .issue c :: rest →
    ({ s.begin_ with agenda := rest } : State).focus c = some t → t.cur.canIssue = true → t.boundary = none →
    t.fetch = .word w → decode w = some i → step s = mapNext (exec i (t.setIr w)) (State.afterIssue t w i)) ∧
  (∀ (s : State) (i : Instr) (rest : List Stimulus), s.agenda = .event i :: rest → i.isEvent = true →
    (s.colophon.kernelUp = true ∨ i = .packageBoot → step s = exec i { s.begin_ with agenda := rest }) ∧
    (s.colophon.kernelUp = false → i ≠ .packageBoot → step s = .next { s.begin_ with agenda := rest }))

/-- Words written out from the encodings of R234, R240, R241 and R309 decode to what they stand for: DIV g5, g6, g7 and SEXT g5, g6, 32
(R261), the word 0, and three more. -/
def Obligations.WrittenWordsDecode : Prop :=
  decode 0x0228C38C = some (.div 5 6 7) ∧ decode 0x0228C118 = some (.sext 5 6 2) ∧ decode 0 = none ∧
    decode (1#7 ++ 5#6 ++ 6#6 ++ 7#6 ++ 0#7) = some (.add 5 6 7) ∧
    decode (0x40#7 ++ 1#6 ++ 2#6 ++ 3#6 ++ 0#3 ++ 0#1 ++ 2#3) = some (.vadd ⟨1, 2, 3, 0, false, .w⟩) ∧
    decode (0x7B#7 ++ 1#6 ++ 2#6 ++ 12#6 ++ 4#3 ++ 0#1 ++ 7#3) = some (.vfsqrt ⟨1, 2, 4, .sf⟩)

/-- Decoding the word of a well-formed instruction gives it back, with every operand at every value the encoding admits. -/
def Obligations.DecodeEncode : Prop :=
  ∀ (i : Instr) (w : BitVec 32), i.wf = true → encode i = some w → decode w = some i

/-- Each word that decodes is the word of the one well-formed instruction that it decodes to: no two encodings overlap. -/
def Obligations.EncodeDecode : Prop :=
  ∀ (w : BitVec 32) (i : Instr), decode w = some i → i.wf = true ∧ encode i = some w

/-- A reserved word raises the illegal-instruction trap with BADVA 0, and nothing else of the program's state changes (R235): at once, or, in a
family whose instructions stand in the queue, once its entry is the oldest (R297; which families is log entry 83). -/
def Obligations.ReservedWordTraps : Prop :=
  (∀ (s : State) (w : BitVec 32), s.fetch = .word w → decode w = none →
    (queuedFamily w = false → s.queue = [] → s.canSave → ∃ t, issue s = .next t ∧ t.cur.sys.cause = 0x01 ∧
      t.cur.sys.epc = s.cur.pc &&& 0x00FFFFFFFFFFFFFF ∧ t.cur.sys.badva = 0 ∧ t.cur.st = .suspended ∧ t.cur.resume = s.cur.pc ∧
      t.cur.g = s.cur.g ∧ t.cur.vec.masks = s.cur.vec.masks ∧ t.cur.vec.vrf = s.cur.vec.vrf) ∧
    (queuedFamily w = true → s.canPush →
      issue s = .next (((s.setIr w).enqueue ((s.setIr w).entry s.cur.pc w ⟨.reserved, 0, 0, 0, false, false⟩ 0 0)).retire))) ∧
  ∀ (s : State) (c : Nat) (q : QEntry), s.heads c q → s.queue = [q] → q.op = .reserved → s.canSave →
    ∃ t, exec (.vectorInstructionComplete c) s = .next t ∧ t.cur.sys.cause = 0x8000000000000001 ∧
      t.cur.sys.epc = q.pc &&& 0x00FFFFFFFFFFFFFF ∧ t.cur.sys.badva = 0 ∧ t.cur.st = .suspended ∧ t.cur.resume = s.cur.pc ∧
      t.cur.g = s.cur.g ∧ t.cur.vec.masks = s.cur.vec.masks ∧ t.cur.vec.vrf = s.cur.vec.vrf

/-! ### Reset and what every step keeps -/

/-- After package reset every measurement register, format window and host register is zero, no partition exists and no format window is
enabled (R59, R205, R207, R384); memory has its canonical form. -/
def Obligations.ResetLeavesTheStatedValues : Prop :=
  (∀ n, State.reset.colophon.meas.getD n 0 = 0) ∧ State.reset.parts = [] ∧
    State.reset.windows = List.replicate 32 ⟨0, 0, 0, 0, 0⟩ ∧ State.reset.host.ready = false ∧ State.reset.host.hwin = 0 ∧
    State.reset.host.hrqt = 0 ∧ State.reset.host.heqh = 0 ∧ State.reset.host.hltr = 0 ∧ State.reset.host.pstate = 0 ∧
    State.reset.cycle = 0 ∧ State.reset.memWf

/-- Every step keeps the canonical form of memory. -/
def Obligations.StepKeepsMemoryCanonical : Prop :=
  ∀ s t : State, s.memWf → step s = .next t → t.memWf

/-- No instruction of a program changes the measurements, the identity, the flash, the format windows or the host registers: only the
resident kernel, the Colophon and the host reach them (R59, R202, R209, R384). -/
def Obligations.ProgramsLeaveTheTrustedStateAlone : Prop :=
  ∀ (i : Instr) (s t : State), i.isEvent = false → exec i s = .next t →
    t.colophon = s.colophon ∧ t.flash = s.flash ∧ t.windows = s.windows ∧ t.hbm = s.hbm ∧ t.link.routes = s.link.routes ∧
      t.host.hwin = s.host.hwin ∧ t.host.hrqt = s.host.hrqt ∧ t.host.heqh = s.host.heqh ∧ t.host.hltr = s.host.hltr ∧
      t.host.ready = s.host.ready

/-! ### Scalar arithmetic (R259 to R263) -/

/-- Each function of the ALU family writes the result of its row (R261, R42) to X[D], and the next word follows; nothing else changes. -/
def Obligations.ScalarAluResults : Prop :=
  ∀ (s : State) (d a b : BitVec 6), s.usable d → s.usable a → s.usable b →
    let x := s.x a.toNat
    let y := s.x b.toNat
    let n := y.toNat % 64
    let gives := fun (i : Instr) (r : Word) => exec i s = .next ((s.setX d.toNat r).retire)
    gives (.add d a b) (x + y) ∧ gives (.sub d a b) (x - y) ∧ gives (.and d a b) (x &&& y) ∧ gives (.or d a b) (x ||| y) ∧
    gives (.xor d a b) (x ^^^ y) ∧ gives (.andn d a b) (x &&& ~~~y) ∧
    gives (.sll d a b) (BitVec.ofNat 64 (x.toNat * 2 ^ n)) ∧ gives (.srl d a b) (BitVec.ofNat 64 (x.toNat / 2 ^ n)) ∧
    gives (.sra d a b) (BitVec.ofInt 64 (x.toInt / 2 ^ n)) ∧ gives (.mul d a b) (x * y) ∧
    gives (.mulh d a b) (BitVec.ofInt 64 (x.toInt * y.toInt / 2 ^ 64)) ∧ gives (.mulhu d a b) (BitVec.ofNat 64 (x.toNat * y.toNat / 2 ^ 64)) ∧
    gives (.div d a b) (if y = 0 then -1 else BitVec.ofInt 64 (x.toInt.tdiv y.toInt)) ∧
    gives (.divu d a b) (if y = 0 then -1 else BitVec.ofNat 64 (x.toNat / y.toNat)) ∧
    gives (.rem d a b) (if y = 0 then x else BitVec.ofInt 64 (x.toInt.tmod y.toInt)) ∧
    gives (.remu d a b) (if y = 0 then x else BitVec.ofNat 64 (x.toNat % y.toNat)) ∧
    gives (.min d a b) (if x.toInt ≤ y.toInt then x else y) ∧ gives (.max d a b) (if x.toInt ≤ y.toInt then y else x) ∧
    gives (.minu d a b) (if x.toNat ≤ y.toNat then x else y) ∧ gives (.maxu d a b) (if x.toNat ≤ y.toNat then y else x) ∧
    gives (.slt d a b) (if x.toInt < y.toInt then 1 else 0) ∧ gives (.sltu d a b) (if x.toNat < y.toNat then 1 else 0) ∧
    gives (.clz d a) (BitVec.ofNat 64 (64 - Nat.size x.toNat)) ∧ gives (.popc d a) (BitVec.ofNat 64 ((List.range 64).countP fun k => x.getLsbD k)) ∧
    gives (.sext d a 0) ((x.setWidth 8).signExtend 64) ∧ gives (.sext d a 1) ((x.setWidth 16).signExtend 64) ∧
    gives (.sext d a 2) ((x.setWidth 32).signExtend 64) ∧ gives (.zext d a 0) ((x.setWidth 8).setWidth 64) ∧
    gives (.zext d a 1) ((x.setWidth 16).setWidth 64) ∧ gives (.zext d a 2) ((x.setWidth 32).setWidth 64)

/-- Each immediate form writes the result of its row (R262), and LIH and ADDPC theirs (R263). -/
def Obligations.ScalarImmediateResults : Prop :=
  ∀ (s : State) (d a k : BitVec 6) (i : BitVec 13) (l : BitVec 19), s.usable d → s.usable a →
    let x := s.x a.toNat
    let m := i.signExtend 64
    let gives := fun (i : Instr) (r : Word) => exec i s = .next ((s.setX d.toNat r).retire)
    gives (.addi d a i) (x + m) ∧ gives (.andi d a i) (x &&& m) ∧ gives (.ori d a i) (x ||| m) ∧ gives (.xori d a i) (x ^^^ m) ∧
    gives (.slti d a i) (if x.toInt < i.toInt then 1 else 0) ∧
    gives (.slli d a k) (BitVec.ofNat 64 (x.toNat * 2 ^ k.toNat)) ∧ gives (.srli d a k) (BitVec.ofNat 64 (x.toNat / 2 ^ k.toNat)) ∧
    gives (.srai d a k) (BitVec.ofInt 64 (x.toInt / 2 ^ k.toNat)) ∧
    gives (.lih d l) (BitVec.ofInt 64 (l.toInt * 2 ^ 13)) ∧ gives (.addpc d l) (s.cur.pc + BitVec.ofInt 64 (l.toInt * 2 ^ 13))

/-- The frame of the scalar forms that write one register: every other register, every other thread, the system registers, the vector state,
the caches and every byte of memory stay as they were; with D = g0 no register changes (R13, R259). -/
def Obligations.ScalarFormsFrame : Prop :=
  ∀ (s t : State) (d a b k : BitVec 6) (i : BitVec 13) (l : BitVec 19) (x : Instr), s.usable d → s.usable a → s.usable b →
    x ∈ [Instr.add d a b, .sub d a b, .and d a b, .or d a b, .xor d a b, .andn d a b, .sll d a b, .srl d a b, .sra d a b, .mul d a b,
      .mulh d a b, .mulhu d a b, .div d a b, .divu d a b, .rem d a b, .remu d a b, .min d a b, .max d a b, .minu d a b, .maxu d a b,
      .slt d a b, .sltu d a b, .clz d a, .popc d a, .sext d a 0, .sext d a 1, .sext d a 2, .zext d a 0, .zext d a 1, .zext d a 2,
      .addi d a i, .andi d a i, .ori d a i, .xori d a i, .slti d a i, .slli d a k, .srli d a k, .srai d a k, .lih d l, .addpc d l] →
    exec x s = .next t →
    (∀ n, n ≠ d.toNat → t.x n = s.x n) ∧ t.x 0 = 0 ∧ t.cur.sys = s.cur.sys ∧ t.cur.vec = s.cur.vec ∧ t.cur.share = s.cur.share ∧
      t.others = s.others ∧ (∀ y, t.mem.read y = s.mem.read y) ∧ t.lines = s.lines ∧ t.copies = s.copies ∧ t.cores = s.cores ∧
      t.launches = s.launches ∧ t.parts = s.parts

/-- A scalar register field of 32 or more raises the register-number violation, with DETAIL the first offending field in the order D, A, B
(R236, R210): 1, 2 or 3, on every scalar form, on the branches and JALR, on SRD and SWR of a register that is listed, and on the atomics. An address that is no multiple of the access width raises the misaligned-access trap, with the width's code as
DETAIL and the address in BADVA (R266, R210). No register is written either way. -/
def Obligations.ScalarFormsTrap : Prop :=
  ∀ (s : State) (d a b k : BitVec 6) (i : BitVec 13) (l : BitVec 19) (n : BitVec 12) (v : Wid) (j : BitVec 11), s.queue = [] → s.canSave →
    let traps := fun (f : BitVec 64) (x : Instr) =>
      ∃ t, exec x s = .next t ∧ t.cur.sys.cause = f <<< 8 ||| 0x0B ∧ t.cur.sys.epc = s.cur.pc &&& 0x00FFFFFFFFFFFFFF ∧
        t.cur.st = .suspended ∧ t.cur.resume = s.cur.pc ∧ t.cur.g = s.cur.g
    (∀ f : BitVec 64, (32 ≤ d.toNat ∧ f = 1 ∨ d.toNat < 32 ∧ 32 ≤ a.toNat ∧ f = 2 ∨ d.toNat < 32 ∧ a.toNat < 32 ∧ 32 ≤ b.toNat ∧ f = 3) →
      ∀ x ∈ [Instr.add d a b, .sub d a b, .and d a b, .or d a b, .xor d a b, .andn d a b, .sll d a b, .srl d a b, .sra d a b, .mul d a b,
        .mulh d a b, .mulhu d a b, .div d a b, .divu d a b, .rem d a b, .remu d a b, .min d a b, .max d a b, .minu d a b, .maxu d a b,
        .slt d a b, .sltu d a b, .amoAdd d a b, .amoAnd d a b, .amoOr d a b, .amoXor d a b, .amoMin d a b, .amoMax d a b, .amoMinu d a b,
        .amoMaxu d a b, .amoSwap d a b, .cas d a b], traps f x) ∧
    (∀ f : BitVec 64, (32 ≤ d.toNat ∧ f = 1 ∨ d.toNat < 32 ∧ 32 ≤ a.toNat ∧ f = 2) →
      ∀ x ∈ [Instr.clz d a, .popc d a, .sext d a 0, .sext d a 1, .sext d a 2, .zext d a 0, .zext d a 1, .zext d a 2, .addi d a i, .andi d a i,
        .ori d a i, .xori d a i, .slti d a i, .slli d a k, .srli d a k, .srai d a k, .jalr d a i, .lds d a v j, .ldz d a v j, .st d a v j],
        traps f x) ∧
    (32 ≤ d.toNat → traps 1 (.lih d l) ∧ traps 1 (.addpc d l) ∧ (s.sysRead n.toNat ≠ none → traps 1 (.srd d n))) ∧
    (32 ≤ a.toNat → s.sysRead n.toNat ≠ none → traps 2 (.swr a n)) ∧
    (∀ f : BitVec 64, (32 ≤ a.toNat ∧ f = 2 ∨ a.toNat < 32 ∧ 32 ≤ b.toNat ∧ f = 3) →
      ∀ x ∈ [Instr.beq a b i, .bne a b i, .blt a b i, .bge a b i, .bltu a b i, .bgeu a b i], traps f x) ∧
    (∀ (w : Wid) (o : BitVec 11), s.usable d → s.usable a →
      let ea := s.x a.toNat + BitVec.ofInt 64 (o.toInt * w.bytes)
      ea.toNat % w.bytes ≠ 0 →
      ∀ i ∈ [Instr.lds d a w o, .ldz d a w o, .st d a w o],
        ∃ t, exec i s = .next t ∧ t.cur.sys.cause = BitVec.ofNat 64 (w.num * 256 + 2) ∧ t.cur.sys.badva = ea ∧
          t.cur.sys.epc = s.cur.pc &&& 0x00FFFFFFFFFFFFFF ∧ t.cur.st = .suspended ∧ t.cur.resume = s.cur.pc ∧ t.cur.g = s.cur.g)

/-! ### Scalar loads and stores (R264 to R267) -/

/-- LDS and LDZ of coherent memory: the bytes that LeaseRead gives, under the iteration's own stores (R171), or in a DET launch what the
thread's snapshot and its own stores give, with nothing else changed (R110; that PTS stays is log entry 86), sign-extended or zero-extended
(R265). -/
def Obligations.ScalarLoadResults : Prop :=
  ∀ (s : State) (d a : BitVec 6) (w : Wid) (o : BitVec 11) (pa : Nat), s.usable d → s.usable a →
    s.reaches needRd (s.x a.toNat + BitVec.ofInt 64 (o.toInt * w.bytes)) w pa →
    let r := if s.isDet then (s.detRun false pa w.bytes, s) else
      let z := s.leaseRead false pa w.bytes
      (s.own false pa z.1, z.2)
    exec (.lds d a w o) s = .next ((r.2.setX d.toNat (BitVec.ofInt 64 ((leNat r.1 : Int).bmod (2 ^ (8 * w.bytes))))).retire) ∧
    exec (.ldz d a w o) s = .next ((r.2.setX d.toNat (BitVec.ofNat 64 (leNat r.1))).retire)

/-- ST to coherent memory outside a DET launch: the low bytes of X[D] go to memory by LeaseWrite (R265, R96), and, where no line is evicted
and no checkpoint captures, no other byte of memory and no register changes. In a DET launch the store joins the thread's buffer once no older
vector store is queued (R85), or traps where it has no place, as a buffer overflow (R110, R218), or as a contained memory error where
its overflow slot is poisoned (R204). -/
def Obligations.ScalarStoreResult : Prop :=
  ∀ (s : State) (d a : BitVec 6) (w : Wid) (o : BitVec 11) (pa : Nat), s.usable d → s.usable a →
    let ea := s.x a.toNat + BitVec.ofInt 64 (o.toInt * w.bytes)
    let bs := natBytes w.bytes (s.x d.toNat).toNat
    let held := s.buffer ⟨ea, pa, false, s.pageTag s.xctx ea, false, 0, bs⟩
    s.reaches needWr ea w pa →
    (s.isDet = false → ∃ t, exec (.st d a w o) s = .next t ∧ t = (s.leaseWrite false pa bs).retire ∧
      (s.undisturbed 1 → (∀ k < w.bytes, t.mem.read (pa + k) = BitVec.ofNat 8 ((s.x d.toNat).toNat / 256 ^ k)) ∧
        ∀ y, y < pa ∨ pa + w.bytes ≤ y → t.mem.read y = s.mem.read y) ∧
      t.cur.g = s.cur.g ∧ t.cur.vec = s.cur.vec ∧ t.others.length = s.others.length) ∧
    (s.isDet = true → s.storesQueued = false → (∀ t, held = some t → exec (.st d a w o) s = .next t.retire ∧ t.cur.det.map (fun x => (x.pa, x.data)) =
        s.cur.det.map (fun x => (x.pa, x.data)) ++ [(pa, bs)]) ∧
      (held = none → s.queue = [] → s.canSave → ∃ t, exec (.st d a w o) s = .next t ∧ t.cur.sys.badva = ea ∧
        t.cur.sys.cause = (if s.slotPoisoned (s.cur.det.length - Config.wcbEntries) = true then 0x08 else 0x0D) ∧
        t.cur.st = .suspended ∧ t.cur.resume = s.cur.pc ∧ t.cur.g = s.cur.g))

/-- Loads and stores of the launch's local store read and write its bytes on the thread's cluster (R37, R265): what was stored is there, every other
byte of it stays, and so does coherent memory where no checkpoint captures (R228). In a DET launch they go by the thread's snapshot of it and by
the thread's buffer instead (R110). -/
def Obligations.LocalStoreAccesses : Prop :=
  ∀ (s : State) (d a : BitVec 6) (w : Wid) (o : BitVec 11) (off : Nat), s.usable d → s.usable a → s.memBusy = false →
    let ea := s.x a.toNat + BitVec.ofInt 64 (o.toInt * w.bytes)
    let bs := natBytes w.bytes (s.x d.toNat).toNat
    (s.spot needRd ea w.bytes (BitVec.ofNat 8 w.num) = .loc off →
      let n := leNat (if s.isDet = true then s.detRun true off w.bytes else s.own true off (s.locRun off w.bytes))
      let t := if s.isDet = true then s else s.seeLoc off w.bytes
      exec (.ldz d a w o) s = .next ((t.setX d.toNat (BitVec.ofNat 64 n)).retire) ∧
      exec (.lds d a w o) s = .next ((t.setX d.toNat (BitVec.ofInt 64 ((n : Int).bmod (2 ^ (8 * w.bytes))))).retire)) ∧
    (s.spot needWr ea w.bytes (BitVec.ofNat 8 w.num) = .loc off →
      (s.isDet = false → exec (.st d a w o) s = .next ((s.locWrite off bs).retire) ∧
        (s.undisturbed 0 → s.launch ∈ s.launches → (s.launch.store s.cur.id.place.cluster).wf →
          let t := s.locWrite off bs
          t.mem = s.mem ∧ t.cur = s.cur ∧ t.locRun off w.bytes = bs ∧
            (∀ k n, k + n ≤ off ∨ off + w.bytes ≤ k → t.locRun k n = s.locRun k n) ∧
            ∀ c, c ≠ s.cur.id.place.cluster → t.launch.store c = s.launch.store c)) ∧
      (s.isDet = true → s.storesQueued = false → ∀ t, s.buffer ⟨ea, off, true, ⟨false, false⟩, false, 0, bs⟩ = some t → exec (.st d a w o) s = .next t.retire ∧
        t.cur.det.map (fun x => (x.loc, x.pa, x.data)) = s.cur.det.map (fun x => (x.loc, x.pa, x.data)) ++ [(true, off, bs)]))

/-- LeaseRead (R95): where a private copy with rts not below PTS serves the context, the copy's bytes and PTS raised to the copy's wts; else
the latest bytes, PTS raised to the line's wts, and a lease that reaches at least LEASE beyond the PTS of the read. LeaseWrite (R96): the
store takes the larger of PTS and rts + 1, and the line's wts and rts and the context's PTS become it. Both where nothing is rebased or
evicted (R99, R34). Drift (R97): PTS of a resident context rises by 1 once DRIFT cycles have passed. -/
def Obligations.LeaseReadsAndWrites : Prop :=
  (∀ (s : State) (pa n : Nat) (bs : List Byte),
    let l := pa / 128
    (∀ c, s.copyHit false l = some c →
      s.leaseRead false pa n = (lineBytes c.data (pa % 128) n, s.setPts (max s.cur.sys.pts c.wts)) ∧ s.cur.sys.pts ≤ c.rts) ∧
    (s.copyHit false l = none → max (s.line l).rts (s.cur.sys.pts + s.cur.sys.lease.toNat) < 0xC0000 → s.roomFor 1 →
      let r := s.leaseRead false pa n
      r.1 = s.mem.run pa n ∧ r.2.cur.sys.pts = max s.cur.sys.pts (s.line l).wts ∧ r.2.mem = s.mem ∧
        (r.2.line l).rts = max (s.line l).rts (s.cur.sys.pts + s.cur.sys.lease.toNat) ∧ (r.2.line l).wts = (s.line l).wts) ∧
    (max s.cur.sys.pts ((s.line l).rts + 1) < 0xC0000 → s.undisturbed 1 →
      let ts := max s.cur.sys.pts ((s.line l).rts + 1)
      let t := s.leaseWrite false pa bs
      t.cur.sys.pts = ts ∧ (t.line l).wts = ts ∧ (t.line l).rts = ts ∧ (t.line l).owner = some s.cur.id.place.cluster ∧
        t.mem = s.mem.write pa bs)) ∧
  ∀ (s : State) (c : Nat), s.cur.id.ctxid = c → s.cur.st = .running → s.cur.driftAt + s.cur.sys.drift.toNat ≤ s.cycle →
    s.cur.sys.pts + 1 < 0xC0000 →
    exec (.ptsDrift c) s = .next { s with cur := { s.cur with
      sys := { s.cur.sys with pts := s.cur.sys.pts + 1 }, driftAt := s.cur.driftAt + s.cur.sys.drift.toNat } }

/-! ### Control (R268 to R271) -/

/-- Each branch goes to pc + 4 × offset where its condition holds, else to the next word, and notes its outcome in the path digest (R269,
R229); no register changes. One that is taken to an address that is no multiple of 4, or to 2^56 or above, traps with BADVA the target instead,
and one that is not taken goes on whatever its target is (R232, R268). -/
def Obligations.BranchesGoWhereTheyTell : Prop :=
  ∀ (s : State) (a b : BitVec 6) (d : BitVec 13), s.usable a → s.usable b →
    let x := s.x a.toNat
    let y := s.x b.toNat
    let tgt := s.cur.pc + BitVec.ofInt 64 (d.toInt * 4)
    let goes := fun (i : Instr) (p : Prop) =>
      (p → tgt.toNat % 4 = 0 → tgt.toNat < 0x100000000000000 → exec i s = .next ((s.note 1).goto tgt)) ∧
      (¬ p → exec i s = .next ((s.note 0).goto (s.cur.pc + 4))) ∧
      (p → s.queue = [] → s.canSave → ∀ c : Word, (tgt.toNat % 4 ≠ 0 ∧ c = 0x202 ∨ tgt.toNat % 4 = 0 ∧ 0x100000000000000 ≤ tgt.toNat ∧ c = 0x203) →
        ∃ t, exec i s = .next t ∧ t.cur.sys.cause = c ∧ t.cur.sys.badva = tgt ∧ t.cur.sys.epc = s.cur.pc &&& 0x00FFFFFFFFFFFFFF ∧
          t.cur.st = .suspended ∧ t.cur.g = s.cur.g)
    goes (.beq a b d) (x = y) ∧ goes (.bne a b d) (x ≠ y) ∧ goes (.blt a b d) (x.toInt < y.toInt) ∧
      goes (.bge a b d) (y.toInt ≤ x.toInt) ∧ goes (.bltu a b d) (x.toNat < y.toNat) ∧ goes (.bgeu a b d) (y.toNat ≤ x.toNat)

/-- J, JAL and JALR (R270, R271): control goes to the target; JAL writes g31 and JALR X[D] with the address of the next word, the target formed
first. A jump to an address that is no multiple of 4 traps as a misaligned access, and one to 2^56 or above as a non-canonical one, both with
BADVA the target, and neither links (R232, R268). -/
def Obligations.JumpsLinkAndGo : Prop :=
  ∀ (s : State) (d a : BitVec 6) (i : BitVec 13) (l : BitVec 25),
    let near := s.cur.pc + BitVec.ofInt 64 (l.toInt * 4)
    let far := s.x a.toNat + BitVec.ofInt 64 (i.toInt * 4)
    (near.toNat % 4 = 0 → near.toNat < 0x100000000000000 → exec (.j l) s = .next (s.goto near)) ∧
    (near.toNat % 4 = 0 → near.toNat < 0x100000000000000 → s.notReady 31 = false →
      exec (.jal l) s = .next ((s.setX 31 (s.cur.pc + 4)).goto near)) ∧
    (far.toNat % 4 = 0 → far.toNat < 0x100000000000000 → s.usable d → s.usable a →
      exec (.jalr d a i) s = .next ((s.setX d.toNat (s.cur.pc + 4)).goto far)) ∧
    (s.queue = [] → s.canSave →
      let traps := fun (x : Instr) (tgt : Word) =>
        ∀ c : Word, (tgt.toNat % 4 ≠ 0 ∧ c = 0x202 ∨ tgt.toNat % 4 = 0 ∧ 0x100000000000000 ≤ tgt.toNat ∧ c = 0x203) →
          ∃ t, exec x s = .next t ∧ t.cur.sys.cause = c ∧ t.cur.sys.badva = tgt ∧ t.cur.sys.epc = s.cur.pc &&& 0x00FFFFFFFFFFFFFF ∧
            t.cur.st = .suspended ∧ t.cur.g = s.cur.g
      traps (.j l) near ∧ traps (.jal l) near ∧ (s.usable d → s.usable a → traps (.jalr d a i) far))

/-! ### System registers (R18 to R28, R272 to R274) -/

/-- SRD reads the register that its number names into X[D] once no older vector work stands in the queue (R273, R274); the numbers name what
R19 lists, with the maps of R21 to R28, and on a base core the press and token registers read 0 (R274). A number that R19 does not list raises
the illegal-instruction trap, on SRD and on SWR. -/
def Obligations.SystemRegisterReads : Prop :=
  ∀ (s : State) (d : BitVec 6), s.usable d → s.queue = [] →
    (∀ (n : BitVec 12) (v : Word), s.sysRead n.toNat = some v → exec (.srd d n) s = .next ((s.setX d.toNat v).retire)) ∧
    (let y := s.cur.sys
     let i := s.cur.id
     let reads := fun (n : Nat) (v : Word) => s.sysRead n = some v
     reads 0x001 (y.vlg.setWidth 64) ∧ reads 0x002 (y.nvreg.setWidth 64) ∧ reads 0x003 (y.sewc.setWidth 64) ∧ reads 0x004 (y.rmode.setWidth 64) ∧
     reads 0x005 (y.vstat.setWidth 64) ∧ reads 0x006 (y.fstat.setWidth 64) ∧ reads 0x007 (BitVec.ofNat 64 y.pts) ∧
     reads 0x008 (y.lease.setWidth 64) ∧ reads 0x009 (y.vmpol.setWidth 64) ∧ reads 0x020 (y.lwhy.setWidth 64 <<< 8 ||| y.lstate.setWidth 64) ∧
     reads 0x021 (y.lhand.setWidth 64) ∧ (∀ k : Fin 8, reads (0x028 + k.val) y.xfd[k]) ∧ reads 0x040 y.cause ∧ reads 0x041 y.epc ∧
     reads 0x042 y.badva ∧ (i.lthr < 2 ^ 32 → i.stage < 8 → i.ctxid < 2 ^ 16 → i.place.sect < 8 → i.place.unit < 32 → i.place.core < 8 → i.place.ctx < 4 →
       reads 0x043 (BitVec.ofNat 64 (i.lthr * 2 ^ 32 + i.stage * 2 ^ 29 + i.ctxid * 2 ^ 13 + i.place.sect * 2 ^ 10 + i.place.unit * 2 ^ 5 + i.place.core * 2 ^ 2
         + i.place.ctx))) ∧
     (∀ k : Fin 8, reads (0x044 + k.val) (y.lv[k].setWidth 64)) ∧ reads 0x050 y.stripc ∧ reads 0x051 (BitVec.ofNat 64 s.cycle) ∧
     reads 0x052 (y.eprio.setWidth 64 <<< 4 ||| y.bprio.setWidth 64) ∧ reads 0x060 (y.drift.setWidth 64) ∧
     (i.place.isBase = false → reads 0x010 (y.pgrant.setWidth 64) ∧ reads 0x011 y.pnan ∧ reads 0x012 (if y.nanz = true then 1 else 0) ∧
       reads 0x013 (y.lnact.setWidth 64) ∧ reads 0x030 y.tknote ∧ reads 0x031 y.tkseqb) ∧
     (i.place.isBase = true → ∀ n ∈ [0x010, 0x011, 0x012, 0x013, 0x030, 0x031], reads n 0)) ∧
    (∀ n : Nat, s.sysRead n = none ↔ n ∉ [0x001, 0x002, 0x003, 0x004, 0x005, 0x006, 0x007, 0x008, 0x009, 0x010, 0x011, 0x012, 0x013, 0x020, 0x021,
      0x028, 0x029, 0x02A, 0x02B, 0x02C, 0x02D, 0x02E, 0x02F, 0x030, 0x031, 0x040, 0x041, 0x042, 0x043, 0x044, 0x045, 0x046, 0x047, 0x048, 0x049,
      0x04A, 0x04B, 0x050, 0x051, 0x052, 0x060]) ∧
    (∀ n : BitVec 12, s.canSave → s.sysRead n.toNat = none →
      ∀ i ∈ [Instr.srd d n, .swr d n], ∃ t, exec i s = .next t ∧ t.cur.sys.cause = 0x01 ∧ t.cur.st = .suspended ∧ t.cur.g = s.cur.g)

/-- SWR writes the fields that R19 makes writable and clears the bits it makes W1C, among them VALID of TKNOTE (R25); DRIFT takes at least 64, and its
period begins anew (log entry 103). A write to a read-only register, and on a base core to a press or token register, changes nothing but
the program counter (R273, R274). -/
def Obligations.SystemRegisterWrites : Prop :=
  ∀ (s : State) (a : BitVec 6), s.usable a → s.queue = [] → s.tokenQuiet = true →
    let v := s.x a.toNat
    let gives := fun (n : BitVec 12) (f : Sys → Sys) =>
      exec (.swr a n) s = .next (({ s with cur := { s.cur with sys := f s.cur.sys } } : State).retire)
    gives 0x004 (fun y => { y with rmode := v.setWidth 2 }) ∧ gives 0x005 (fun y => { y with vstat := y.vstat &&& ~~~(v.setWidth 8) }) ∧
    gives 0x006 (fun y => { y with fstat := v.setWidth 16 }) ∧
    gives 0x008 (fun y => { y with lease := if v.setWidth 8 = (0 : BitVec 8) then 1 else v.setWidth 8 }) ∧
    gives 0x009 (fun y => { y with vmpol := v.setWidth 3 }) ∧
    exec (.swr a 0x060) s = .next (({ s with cur := { s.cur with driftAt := s.cycle, sys := { s.cur.sys with
      drift := BitVec.ofNat 16 (max 64 (v.toNat % 65536)) } } } : State).retire) ∧
    (s.cur.id.place.isBase = false → gives 0x011 (fun y => { y with pnan := v }) ∧ gives 0x012 (fun y => { y with nanz := v.getLsbD 0 }) ∧
      gives 0x030 (fun y => { y with tknote := if v.getLsbD 63 = true then y.tknote &&& 0x7FFFFFFFFFFFFFFF else y.tknote }) ∧
      gives 0x031 (fun y => { y with tkseqb := v &&& 0x00FFFFFFFFFF0000 })) ∧
    (s.cur.id.place.isBase = true → ∀ n ∈ ([0x011, 0x012, 0x030, 0x031] : List (BitVec 12)), gives n id) ∧
    ∀ n ∈ ([0x001, 0x002, 0x003, 0x007, 0x010, 0x013, 0x020, 0x021, 0x028, 0x029, 0x02A, 0x02B, 0x02C, 0x02D, 0x02E, 0x02F, 0x040, 0x041, 0x042,
      0x043, 0x044, 0x045, 0x046, 0x047, 0x048, 0x049, 0x04A, 0x04B, 0x050, 0x051, 0x052] : List (BitVec 12)), gives n id

/-! ### Vector configuration (R275 to R278) -/

/-- VCONF sets NV to 8 × 2^n, VL to 0 and every vector register to zero; an unchanged NV changes nothing (R275). VREL releases the lanes at once
and leaves every vector register at zero, once the queue and the lineages are settled (R277). -/
def Obligations.VconfAndVrelClearTheRegisters : Prop :=
  (∀ (s : State) (n : BitVec 2), (s.core s.cur.id.place).holder = some s.cur.id.ctxid → s.vecDone = true → s.cur.vec.streams = [] →
      (s.cur.sys.nvreg.toNat = 8 * 2 ^ n.toNat → exec (.vconf n) s = .next s.retire) ∧
      (s.cur.sys.nvreg.toNat ≠ 8 * 2 ^ n.toNat → ∃ t, exec (.vconf n) s = .next t ∧ t.cur.sys.nvreg.toNat = 8 * 2 ^ n.toNat ∧
        t.cur.sys.vlg = 0 ∧ (∀ a, t.cur.vec.vrf.read a = 0) ∧ (∀ r, t.tag r = 0) ∧ t.cur.vec.masks = s.cur.vec.masks ∧ t.cur.g = s.cur.g ∧
        t.cur.pc = s.cur.pc + 4 ∧ t.mem = s.mem)) ∧
  ∀ (s : State), s.vecDone = true →
    ∃ t, exec .vrel s = .next t ∧ (t.core s.cur.id.place).holder ≠ some s.cur.id.ctxid ∧ (∀ a, t.cur.vec.vrf.read a = 0) ∧
      t.cur.vec.streams = [] ∧ t.cur.g = s.cur.g ∧ t.cur.vec.masks = s.cur.vec.masks ∧ t.cur.pc = s.cur.pc + 4 ∧ t.mem = s.mem

/-- VSETL grants min(AVL, cap, VLMAX × L / lanes), in a DET launch min(AVL, cap, VLMAX), writes it to X[D], pushes the marker that puts it
into VL, closes the open strip record and opens the next strip (R276, R86, R164). A B of g0 is no cap. The record goes to the strip ring where the
partition's debug asks for it of this thread, with the fields of R226, of which the busy cycles are free values; nothing is written where it does
not. At the head of the queue the marker puts its length into VL and its element width into SEW. -/
def Obligations.VsetlGrantsTheLength : Prop :=
  (∀ (s : State) (d a b : BitVec 6) (w : Wid), s.usable d → s.usable a → s.usable b → s.canPush → s.stripStop = false →
    let m := s.vlmax w.bytes
    let top := if s.isDet then m else m * (s.core s.cur.id.place).grant / s.cur.lanesMax
    let g := min (s.x a.toNat).toNat (min (if b = 0 then 2 ^ 64 - 1 else (s.x b.toNat).toNat) top)
    let grants := fun (p : State → Prop) => ∃ t, exec (.vsetl d a b w) s = .next t ∧ (d ≠ 0 → t.x d.toNat = BitVec.ofNat 64 g) ∧
      (∀ n, n ≠ d.toNat → t.x n = s.x n) ∧
      (t.queue.map fun q => q.op) = (s.queue.map fun q => q.op) ++ [.setvl g (BitVec.ofNat 2 w.num)] ∧
      t.cur.strip = some ⟨false, s.cur.pc, s.cur.sys.stripc, g, s.cycle⟩ ∧ t.cur.sys.stripc = s.cur.sys.stripc + 1 ∧ t.cur.pc = s.cur.pc + 4 ∧ p t
    ((∀ p, s.curPart = some p → s.cur.strip ≠ none → (p.selects s.cur.id.ctxid && p.db.dbctl.getLsbD 63) = false) → grants fun t => t.mem = s.mem) ∧
    ∀ p z, s.curPart = some p → s.cur.strip = some z → p.selects s.cur.id.ctxid = true → p.db.dbctl.getLsbD 63 = true →
      let y := bitsOf p.db.dbstrb 17 35 * 131072 + 32 * (p.db.strips % 4096)
      s.isMemory y = true → s.memWf → s.roomFor 1 → grants fun t => (t.part? p.idx).map (fun q => q.db.strips) = some (p.db.strips + 1) ∧
        t.mem.nat y 8 = z.va.toNat % 2 ^ 56 + (if z.rp = true then 2 ^ 63 else 0) ∧ t.mem.nat (y + 8) 8 = z.ord.toNat ∧
        t.mem.nat (y + 16) 4 = z.gl % 2 ^ 32 ∧ t.mem.nat (y + 20) 4 = min (s.cycle - z.at_) (2 ^ 32 - 1) ∧
        ∀ k, k < y ∨ y + 32 ≤ k → t.mem.read k = s.mem.read k) ∧
  ∀ (s : State) (c : Nat) (q : QEntry) (g : Nat) (w : BitVec 2), s.heads c q → q.op = .setvl g w → g < 2 ^ 14 →
    ∃ t, exec (.vectorInstructionComplete c) s = .next t ∧ t.vl = g ∧ t.cur.sys.sewc = w ∧ t.queue = s.queue.tail ∧ t.cur.g = s.cur.g ∧
      t.cur.vec.vrf = s.cur.vec.vrf ∧ t.mem = s.mem

/-- FRAME pushes every copy of its words, copy by copy, with their registers stepped, but for a scalar B, which is captured; control goes past
the words (R278). A copy with a register number out of range traps once it is the oldest, with its address in EPC and its place in the frame
buffer (R278, R297). The model's choice are the address at which the thread then resumes, the FRAME's (log entry 39), and that VS is set, as of
any trap at the commit pointer (log entry 26). -/
def Obligations.FramePushesEveryCopy : Prop :=
  ∀ (s : State) (r n : BitVec 6) (x y z : BitVec 4) (ps : List (BitVec 32 × Push)), frameWords s (List.range (n.toNat + 1)) = .ok ps →
    let copy := fun (i : Nat) (p : BitVec 32 × Push) => (frameCopy p i x.toNat y.toNat z.toNat).2
    ((s.core s.cur.id.place).holder = some s.cur.id.ctxid → s.cur.vec.frame = none →
      s.queue.length + (r.toNat + 1) * (n.toNat + 1) ≤ 64 →
      (∀ p ∈ ps, ∀ i ≤ r.toNat, (vWord (stepWord p.1 p.2 i x.toNat y.toNat z.toNat)).isSome ∧ s.frameBad (s.entry s.cur.pc 0 (copy i p) 0 0) = none ∧
        s.captures (copy i p).ca (copy i p).a ∧ s.captures (copy i p).cb (copy i p).b) →
      ((∀ p ∈ ps, (s.entry s.cur.pc 0 p.2 0 0).scalarDest = none) ∨ ∀ p ∈ ps, p.2.ca = false ∧ p.2.cb = false) →
      ∃ t, exec (.frame r n x y z) s = .next t ∧ t.cur.pc = s.cur.pc + BitVec.ofNat 64 (8 + 4 * n.toNat) ∧ t.cur.g = s.cur.g ∧ t.mem = s.mem ∧
        t.cur.vec.frame = none ∧
        (t.queue.map fun q => (q.op, q.d, q.a, q.b, q.xa, q.xb)) = (s.queue.map fun q => (q.op, q.d, q.a, q.b, q.xa, q.xb)) ++
          (List.range (r.toNat + 1)).flatMap fun i => ps.map fun p =>
            (p.2.op, p.2.d + i * x.toNat, p.2.a + i * y.toNat, (if p.2.cb = true ∨ fld p.1 25 7 = 0x7B then p.2.b else p.2.b + i * z.toNat),
              s.captured p.2.ca (copy i p).a, s.captured p.2.cb p.2.b)) ∧
    ∀ (i j : Nat) (p : BitVec 32 × Push) (f : BitVec 8), s.cur.vec.frame = some ⟨s.cur.pc, i, j⟩ → i ≤ r.toNat → j ≤ n.toNat → ps[j]? = some p →
      s.queue = [] → s.canSave →
      let pc := s.cur.pc + BitVec.ofNat 64 (4 + 4 * j)
      s.frameBad (s.entry pc 0 (copy i p) 0 0) = some f →
      ∃ t, exec (.frame r n x y z) s = .next t ∧ t.cur.sys.cause = 0x8000000000000000 ||| f.setWidth 64 <<< 8 ||| 0x0B ∧
        t.cur.sys.epc = pc &&& 0x00FFFFFFFFFFFFFF ∧ t.cur.st = .suspended ∧ t.cur.resume = s.cur.pc ∧
        t.cur.vec.frame = some ⟨s.cur.pc, i, j⟩ ∧ t.queue = [] ∧ t.cur.g = s.cur.g

/-! ### The SYS family (R366 to R372) -/

/-- NOP changes nothing; YIELD with an empty queue and no peer that waits changes nothing; where one of the same EPRIO waits it ends the slice: the
thread is saved behind its instruction and has its next slice in a later round (R153, R367; that a thread still to be made is such a peer is log entry 64). DEAL gives the
thread its block of strips (R371). PRIO sets the base priority, at most the launch's, and EPRIO becomes the larger of it and the inherited one,
which it raises for no one (R157, R372). -/
def Obligations.NopYieldDealPrio : Prop :=
  ∀ (s : State) (d a b : BitVec 6), s.usable d → s.usable a → s.usable b →
    exec .nop s = .next s.retire ∧ (s.queue = [] → s.peerWaits = false → exec .yield s = .next s.retire) ∧
    (s.queue = [] → s.peerWaits = true → s.alone → exec .yield s = finish s.retire.endSlice) ∧
    (∀ l ∈ s.launches, s.cur.st = .running → s.alone → s.canSave → s.withoutGang.creatable s.cur.id.place l = true →
      l.lrec.prio = s.cur.sys.eprio.toNat → (∀ t ∈ s.threads, t.sys.eprio.toNat ≤ l.lrec.prio) → ∃ t, exec .yield s = .next t ∧
        t.cur.id = s.cur.id ∧ t.cur.st = .saved ∧ t.cur.resume = s.cur.pc + 4 ∧ t.cur.g = s.cur.g ∧ s.cur.turn < t.cur.turn) ∧
    (let r := s.launch.lrec
     let n := min (s.x b.toNat).toNat r.leaf
     let strips := (s.x a.toNat).toNat % 2 ^ 32
     let k := ((List.range r.levels.length).filter fun l => decide (n < l)).foldl (fun k l => k * r.count l + s.cur.id.coord l) 0
     exec (.deal d a b) s = .next ((s.setX d.toNat
       (BitVec.ofNat 64 ((k + 1) * strips / r.below n * 2 ^ 32 + k * strips / r.below n))).retire)) ∧
    (∃ t, exec (.prio a) s = .next t ∧ t.cur.sys.bprio = BitVec.ofNat 4 (min (s.x a.toNat).toNat s.launch.lrec.prio) ∧
      t.cur.sys.eprio = BitVec.ofNat 4 (max t.cur.sys.bprio.toNat t.cur.raised.toNat) ∧ s.cur.raised ≤ t.cur.raised ∧
      (s.locks = [] → t.cur.raised = s.cur.raised) ∧ t.cur.pc = s.cur.pc + 4 ∧ t.cur.g = s.cur.g ∧ t.mem = s.mem)

/-- BRK and TRAP take their traps: code 0x06, and 0x05 with the low byte of X[A] as DETAIL; the thread is SUSPENDED, resumes after the
instruction, and a TRAP event waits for the partition's queue (R367, R210, R212, R214). RESUME makes a SUSPENDED thread runnable, to go on at the
address its image holds, and changes nothing else of it but its turn in the rotation (R213; log entry 64), once the event record is written (log entry 96). -/
def Obligations.TrapsAreTakenAndReturnedFrom : Prop :=
  (∀ (s : State) (a : BitVec 6) (p : Part), s.usable a → s.queue = [] → s.canSave → s.curPart = some p →
      ∀ i c, (i = Instr.brk ∧ c = 0x06 ∨ i = Instr.trap a ∧ c = ((s.x a.toNat).setWidth 8).setWidth 64 <<< 8 ||| 0x05) →
        ∃ t e, exec i s = .next t ∧ t.cur.sys.cause = c ∧ t.cur.sys.epc = s.cur.pc &&& 0x00FFFFFFFFFFFFFF ∧ t.cur.st = .suspended ∧
          t.cur.resume = s.cur.pc + 4 ∧ t.cur.g = s.cur.g ∧ t.cur.vec.vrf = s.cur.vec.vrf ∧
          (t.part? p.idx).map (fun x => x.pending) = some (p.pending ++ [e]) ∧ e.type = 1 ∧ e.ctxid = s.cur.id.ctxid ∧ e.cause = c) ∧
  ∀ (s : State) (p : Part) (c : Nat), s.part? p.idx = some p → s.cur.id.ctxid = c → s.cur.st = .suspended → s.launch.part = p.idx →
    c < 65536 → s.isMemory (p.tableEntry c) = true → p.kcmdBusy = false → p.recordWaits c = false →
    ∃ t, exec (.kcmdResume p.idx c) s = .next t ∧ t.cur = { s.cur with st := .saved, turn := t.cur.turn, turnAt := t.cur.turnAt } ∧
      s.cur.turn ≤ t.cur.turn

/-- EXIT of a thread with nothing outstanding: the thread is gone and no longer holds the lanes, and its launch counts it (R368). -/
def Obligations.ExitEndsTheThread : Prop :=
  ∀ (s : State) (p : Part), s.queue = [] → s.ownLins = [] → s.cmdsEnded s.cur.id.ctxid = true → s.banksEnded s.cur.id.ctxid = true →
    s.cur.share = none → s.curPart = some p → s.isMemory (p.tableEntry s.cur.id.ctxid) = true →
    ∃ t, exec .exit s = .next t ∧ t.cur.st = .free ∧ (t.core s.cur.id.place).holder ≠ some s.cur.id.ctxid ∧ t.cur.vec.streams = [] ∧
      ∀ n, (s.launch.ended[s.cur.id.stage]?) = some n → s.launch.id = s.cur.id.launch → (t.launchOf s.cur.id.launch).ended[s.cur.id.stage]? = some (n + 1)

/-- ALLOC gives the lowest run of the thread's part of the heap that is free, in units of 128 bytes, or 0 where there is none; FREE gives a run
back and answers 0, or 1 for an address that starts none; an address of 0 does nothing (R369). In a DET launch the part is the thread's
slice, and only the thread that allocated a run frees it (R87). Nothing else changes, and both complete in every state. -/
def Obligations.AllocAndFree : Prop :=
  ∀ (s : State) (d a : BitVec 6), s.usable d → s.usable a →
    let x := (s.x a.toNat).toNat
    let n := (x + 127) / 128 * 128
    let r := s.launch.lrec
    let h := r.heapb.toNat
    let z := 128 * (r.heapsz / (128 * max 1 (r.base r.stages.length)))
    let lo := if r.det = true then h + s.threadNo * z else h
    let hi := if r.det = true then h + (s.threadNo + 1) * z else h + r.heapsz
    let free := fun (k : Nat) => lo ≤ k ∧ k + n ≤ hi ∧ ∀ y ∈ s.launch.allocs, y.addr + y.size ≤ k ∨ k + n ≤ y.addr
    let answers := fun (i : Instr) (f : List Alloc → List Alloc) (v : Word) =>
      exec i s = .next (((s.modLaunch s.cur.id.launch fun l => { l with allocs := f l.allocs }).setX d.toNat v).retire)
    let refuses := fun (i : Instr) (v : Word) => exec i s = .next ((s.setX d.toNat v).retire)
    (n = 0 ∨ r.heapsz = 0 → refuses (.alloc d a) 0) ∧
    (n ≠ 0 → r.heapsz ≠ 0 →
      (∀ k, lowestFit s.launch.allocs lo hi n = some k →
        answers (.alloc d a) (fun l => l ++ [⟨k, n, s.threadNo⟩]) (BitVec.ofNat 64 k) ∧ free k ∧
          ∀ j, (lo + 127) / 128 * 128 ≤ j → free j → k ≤ j) ∧
      (lowestFit s.launch.allocs lo hi n = none → refuses (.alloc d a) 0 ∧ ∀ j, (lo + 127) / 128 * 128 ≤ j → ¬ free j)) ∧
    (x = 0 → refuses (.free d a) 0) ∧
    (x ≠ 0 → (∀ y ∈ s.launch.allocs, y.addr ≠ x) → refuses (.free d a) 1) ∧
    (∀ y, x ≠ 0 → (s.launch.allocs.find? fun y => decide (y.addr = x)) = some y →
      (r.det = true → y.owner ≠ s.threadNo → refuses (.free d a) 1) ∧
      (r.det = false ∨ y.owner = s.threadNo → answers (.free d a) (fun l => l.filter fun w => decide (w.addr ≠ x)) 0)) ∧
    (∃ t, exec (.alloc d a) s = .next t) ∧ ∃ t, exec (.free d a) s = .next t

/-- LAUNCH of a record that no check of R147 refuses: the launch joins the dispatcher's queues at no more than the issuer's base priority,
with the issuer's PTS as its timestamp, under the next
identifier of the model's counter (log entry 8), and X[D] is 0; of one that is refused, X[D] holds bit 63 and the status (R370, R147, R152). -/
def Obligations.LaunchQueuesARecord : Prop :=
  ∀ (s : State) (d a : BitVec 6) (ps : List Where) (p : Part), s.usable d → s.usable a → (s.x a.toNat).toNat % 128 = 0 → s.memBusy = false →
    recordLines s (s.x a.toNat) (List.range 12) = .ok ps → (loadLinesAt s ps).2.curPart = some p →
    let r := loadLinesAt s ps
    let l := launchRecOf r.1
    (r.2.refuseRecord p r.1 l true = none → ∃ t o, exec (.launch d a) s = .next t ∧ t.launches = r.2.launches ++ [o] ∧ o.id = r.2.nextLaunch ∧
      o.part = p.idx ∧ o.asid = r.2.launch.asid ∧ o.ts = r.2.cur.sys.pts ∧ o.admitted = false ∧ o.lrec.prio = min l.prio r.2.cur.sys.bprio.toNat ∧
      o.lrec.stages = l.stages ∧ (d ≠ 0 → t.x d.toNat = 0) ∧ t.cur.pc = s.cur.pc + 4 ∧ t.mem = r.2.mem) ∧
    (∀ n, r.2.refuseRecord p r.1 l true = some n →
      exec (.launch d a) s = .next ((r.2.setX d.toNat (BitVec.ofNat 64 (2 ^ 63 + n))).retire))

/-! ### Atomics and locks (R156 to R158, R334 to R337) -/

/-- Each AMO writes the value of its row to the word, at the timestamp of a store, and X[D] takes the old value (R335, R96). CAS writes X[B]
where the word equals X[D], else writes nothing and renews the lease; X[D] takes the old value either way (R336). -/
def Obligations.AmoResults : Prop :=
  ∀ (s : State) (d a b : BitVec 6) (pa : Nat), s.usable d → s.usable a → s.usable b → s.reaches needRw (s.x a.toNat) .d pa →
    let y := s.x b.toNat
    let old := s.mem.word pa
    let gives := fun (i : Instr) (v : Word) =>
      exec i s = .next ((((s.leaseWrite false pa (natBytes 8 v.toNat)).note old).setX d.toNat old).retire)
    gives (.amoAdd d a b) (old + y) ∧ gives (.amoAnd d a b) (old &&& y) ∧ gives (.amoOr d a b) (old ||| y) ∧ gives (.amoXor d a b) (old ^^^ y) ∧
    gives (.amoMin d a b) (if old.toInt ≤ y.toInt then old else y) ∧ gives (.amoMax d a b) (if old.toInt ≤ y.toInt then y else old) ∧
    gives (.amoMinu d a b) (if old.toNat ≤ y.toNat then old else y) ∧ gives (.amoMaxu d a b) (if old.toNat ≤ y.toNat then y else old) ∧
    gives (.amoSwap d a b) y ∧
    (old = s.x d.toNat → gives (.cas d a b) y) ∧
    (old ≠ s.x d.toNat → exec (.cas d a b) s = .next ((((s.leaseRenew false (pa / 128)).note old).setX d.toNat old).retire) ∧
      (s.roomFor 1 → (s.leaseRenew false (pa / 128)).mem = s.mem))

/-- LOCK and TRYLOCK of a free word write the CTXID into HOLDER, leave bits 63:17 alone and answer 0; TRYLOCK of a word that another live thread
holds answers 1 and writes nothing; UNLOCK by the holder with no waiter leaves HOLDER 0 (R156, R337). -/
def Obligations.LocksChangeHolder : Prop :=
  ∀ (s : State) (d a : BitVec 6) (pa : Nat), s.usable d → s.usable a → s.reaches needRw (s.x a.toNat) .d pa → s.memWf → pa < 2 ^ 60 →
    s.cur.wait = none → 0 < s.cur.id.ctxid → s.cur.id.ctxid < 65536 → s.undisturbed 1 →
    let w := s.mem.nat pa 8
    (w % 65536 = 0 → ∀ i ∈ [Instr.lock d a, .trylock d a], ∃ t, exec i s = .next t ∧ (d ≠ 0 → t.x d.toNat = 0) ∧
      t.mem.nat pa 8 % 65536 = s.cur.id.ctxid ∧ t.mem.nat pa 8 / 2 ^ 17 = w / 2 ^ 17 ∧ t.cur.pc = s.cur.pc + 4) ∧
    (w % 65536 ≠ 0 → w % 65536 ≠ s.cur.id.ctxid → s.live (w % 65536) = true →
      ∃ t, exec (.trylock d a) s = .next t ∧ (d ≠ 0 → t.x d.toNat = 1) ∧ t.mem = s.mem) ∧
    (w % 65536 = s.cur.id.ctxid → s.lockQueue pa = [] →
      ∃ t, exec (.unlock a) s = .next t ∧ t.mem.nat pa 8 % 131072 = 0 ∧ t.mem.nat pa 8 / 2 ^ 17 = w / 2 ^ 17 ∧ t.cur.g = s.cur.g)

/-! ### Waits and fences (R97, R98, R107 to R111, R338 to R340) -/

/-- A WAITW whose condition holds of the word it reads ends with the word in X[D]; one whose condition does not hold waits (R338, R98). It
checks again once a store has performed to the line, or once the address has come to lie elsewhere (the model's choice, log entry 50), and ends
where the condition then holds; in the body of a demonstration it is then an instruction outside the subset (R168). -/
def Obligations.WaitwChecksItsCondition : Prop :=
  (∀ (s : State) (d a b : BitVec 6) (pa : Nat), s.usable d → s.usable a → s.usable b → s.reaches needRd (s.x a.toNat) .d pa → s.cur.wait = none →
    let y := s.x b.toNat
    let r := s.waitRead pa 8
    let v := BitVec.ofNat 64 (leNat r.1)
    let goes := fun (i : Instr) (p : Prop) => (p → exec i s = .next (((r.2.note v).setX d.toNat v).retire)) ∧
      (¬ p → ∃ t, exec i s = .next t ∧ t.cur.pc = s.cur.pc ∧ t.cur.wait ≠ none ∧ t.cur.stalled = true ∧ t.cur.g = s.cur.g ∧
        (s.roomFor 1 → t.mem = s.mem))
    goes (.waitwEq d a b) (v = y) ∧ goes (.waitwNe d a b) (v ≠ y) ∧ goes (.waitwLt d a b) (v.toInt < y.toInt) ∧
      goes (.waitwGe d a b) (y.toInt ≤ v.toInt) ∧ goes (.waitwLtu d a b) (v.toNat < y.toNat) ∧ goes (.waitwGeu d a b) (y.toNat ≤ v.toNat)) ∧
  ∀ (s : State) (c d k pa : Nat) (va : Word) (w : WCond) (y : Word) (ver : Nat), s.cur.id.ctxid = c → s.cur.st = .running → k < 2 ^ 60 → w ≠ .gen →
    s.cur.wait = some (.word d va k w y ver) → s.spot needRd va 8 3 = .phys pa → (pa ≠ k ∨ (s.line (k / 128)).ver ≠ ver) →
    let r := s.waitRead pa 8
    let v := BitVec.ofNat 64 (leNat r.1)
    w.holds v y = true → exec (.waitwRecheck c) s = .next ((((r.2.note v).setX d v).retire).outside)

/-- FENCE with nothing older outstanding completes, and with the fetch kind the instruction cache of every core in its scope then holds nothing (R108,
R233, R339; that in a DET launch it does not wait for the stores that stand buffered is log entry 101); VFENCE outside a DET launch with an empty queue
completes (R109, R340). In a DET launch the thread joins its node's collective fence and waits, or traps where one of its buffered stores meets a
poisoned line (R204; log entry 19 where the line is one of its overflow area); once the node has drained, it goes on (R110, R111). -/
def Obligations.FencesComplete : Prop :=
  (∀ (s : State) (f p v k e : Bool) (l : BitVec 3), s.queue = [] → (e = true → s.cmdsEnded s.cur.id.ctxid = true) →
      (k = true → s.banksEnded s.cur.id.ctxid = true) →
      (∃ t, exec (.fence f p v k e l) s = .next t ∧ t.cur.pc = s.cur.pc + 4 ∧ t.cur.g = s.cur.g ∧ t.mem = s.mem ∧ t.lines = s.lines ∧
        (f = true → (t.core s.cur.id.place).icache = [] ∧
          ∀ j, s.inScope (s.launch.lrec.clampLevel l.toNat) j = true → ∀ x, Tab.get t.cores j = some x → x.icache = [])) ∧
      (s.isDet = false → exec (.vfence l) s = .next s.retire)) ∧
  ∀ (s : State) (l : BitVec 3), s.isDet = true → s.queue = [] →
    (s.cur.wait = none → s.detPoison = none → ∃ t, exec (.vfence l) s = .next t ∧ t.cur.pc = s.cur.pc ∧ t.cur.stalled = true ∧ t.mem = s.mem ∧
      t.cur.wait = some (.epoch (min l.toNat s.launch.lrec.leaf) false)) ∧
    (∀ va, s.cur.wait = none → s.arrivedAt (s.launch.lrec.clampLevel l.toNat) = false → s.detPoison = some va → s.canSave →
      ∃ t, exec (.vfence l) s = .next t ∧ t.cur.sys.cause = 0x08 ∧ t.cur.sys.badva = va ∧ t.cur.st = .suspended ∧ t.cur.resume = s.cur.pc ∧
        t.cur.det = s.cur.det ∧ t.cur.g = s.cur.g) ∧
    (∀ n, s.cur.wait = some (.epoch n true) → exec (.vfence l) s = .next s.retire)

/-! ### Barriers and the iteration ring (R160 to R163, R341 to R343) -/

/-- BAR of a context without lanes or queued work fires its arrival at issue; BAR.WAIT returns at once with no arrival outstanding, and with PTS
raised to the firing timestamp once the generation has completed; BAR.ARRWAIT ends the same way (R160, R341). A context that holds the lanes
pushes a marker, which fires at the head of the queue, counting one arrival in the current generation; the arrival that makes the count reach
the barrier's, or that of the node's threads where that is 0, advances the generation, clears the count and records the largest PTS of the
arrivals (R160). -/
def Obligations.BarriersArriveAndWait : Prop :=
  (∀ (s : State) (n : BitVec 7) (e : BarEntry), s.launch.lrec.bars[n.toNat]? = some e → e.stg = s.cur.id.stage →
      ((s.core s.cur.id.place).holder ≠ some s.cur.id.ctxid → s.queue = [] → s.mayArrive n.toNat = true →
        exec (.barArrive n) s = .next (s.fireBar n.toNat).retire) ∧
      (s.canPush → ∃ t, exec (.barArrive n) s = .next t ∧ (t.queue.map fun q => q.op) = (s.queue.map fun q => q.op) ++ [.bar n.toNat] ∧
        t.cur.pc = s.cur.pc + 4) ∧
      (s.barQueued n.toNat = false → s.cur.arrival n.toNat = none → exec (.barWait n) s = .next s.retire) ∧
      (∀ (a : Arrival) (ts : Nat), s.barQueued n.toNat = false → s.cur.arrival n.toNat = some a → a.fired = some ts →
        exec (.barWait n) s = .next (s.setPts (max s.cur.sys.pts ts)).retire ∧
        (s.cur.wait = some (.bar n.toNat) → exec (.barArrwait n) s = .next (s.setPts (max s.cur.sys.pts ts)).retire))) ∧
  ∀ (s : State) (c : Nat) (q : QEntry) (b : Nat) (e : BarEntry), s.heads c q → q.op = .bar b → s.mayArrive b = true →
    s.launch.lrec.bars[b]? = some e → s.launch.id = s.cur.id.launch → s.heldElsewhere s.launch.lrec e.lvl = false →
    let need := if e.pcnt = 0 then s.launch.lrec.below e.lvl else e.pcnt
    let key := barKey b (s.cur.id.node s.launch.lrec e.lvl)
    let i := (Tab.get s.launch.bars key).getD ⟨0, 0, 0, 0⟩
    ∃ t, exec (.barMarkerFire c) s = .next t ∧ t.queue = s.queue.tail ∧
      (i.count + 1 < need → Tab.get t.launch.bars key = some ⟨i.count + 1, i.gen, i.ts, max i.maxPts s.cur.sys.pts⟩) ∧
      (need ≤ i.count + 1 → Tab.get t.launch.bars key = some ⟨0, i.gen + 1, max i.maxPts s.cur.sys.pts, 0⟩)

/-- POST of a context without lanes or queued work posts its iteration; WAITI of an iteration below the frontier ends with PTS raised to the
channel's timestamp; WAITV of no elements writes 0; one whose iterations are posted writes how many it armed, and one that has to wait writes it
as it arms them and ends once they are posted, each with that PTS (R162, R163, R342, R343). -/
def Obligations.RingPostsAndWaits : Prop :=
  ∀ (s : State) (d k a b : BitVec 6), s.usable d → s.usable a → k.toNat < 16 → s.launch.lrec.ring = true → b.toNat < s.nv →
    let x := (s.x a.toNat).toNat
    ((s.core s.cur.id.place).holder ≠ some s.cur.id.ctxid → s.queue = [] → x < (s.ring k.toNat).frontier + 1024 →
      exec (.post k a) s = .next (s.firePost k.toNat x).retire) ∧
    (s.cur.wait = none → x < (s.ring k.toNat).frontier →
      exec (.waiti k a) s = .next (s.setPts (max s.cur.sys.pts (s.ring k.toNat).ts)).retire) ∧
    (s.cur.wait = none → s.queue = [] → s.vl = 0 →
      exec (.waitv d k b) s = .next (((s.setPts (max s.cur.sys.pts (s.ring k.toNat).ts)).setX d.toNat 0).retire)) ∧
    (∀ m n its, s.cur.wait = some (.ring m n its) → (∀ i ∈ its, i < (s.ring k.toNat).frontier) →
      exec (.waitv d k b) s = .next (s.setPts (max s.cur.sys.pts (s.ring k.toNat).ts)).retire) ∧
    (s.cur.wait = none → s.queue = [] → s.vl ≠ 0 → s.settled → s.ringUsed < 32 →
      let n := min s.vl (32 - s.ringUsed)
      let its := s.elems b.toNat (2 ^ s.cur.sys.sewc.toNat) n
      let r := s.ring k.toNat
      ((∀ i ∈ its, i < r.frontier) →
        exec (.waitv d k b) s = .next (((s.setX d.toNat (BitVec.ofNat 64 n)).setPts (max s.cur.sys.pts r.ts)).retire)) ∧
      (¬ (∀ i ∈ its, i < r.frontier) → ∃ t, exec (.waitv d k b) s = .next t ∧ (d ≠ 0 → t.x d.toNat = BitVec.ofNat 64 n) ∧
        (∀ j, j ≠ d.toNat → t.x j = s.x j) ∧ t.cur.wait = some (.ring k.toNat n its) ∧ t.cur.stalled = true ∧ t.cur.pc = s.cur.pc ∧
        t.mem = s.mem))

/-- Each form-V and form-VF instruction is over at issue once its entry stands at the end of the queue, with its register numbers, RMODE, VMPOL
and NANZ, and the scalar operand it captures (R20, R29, R234, R295); control goes to the next word and nothing else changes. -/
def Obligations.VectorWordsArePushed : Prop :=
  ∀ (s : State) (d a b : BitVec 6) (m : BitVec 3) (c : Bool) (t : ElTy), s.canPush →
    (s.captures c b.toNat → ∀ p ∈ ([
      (.vadd ⟨d, a, b, m, c, t⟩, .int .add m c t), (.vsub ⟨d, a, b, m, c, t⟩, .int .sub m c t),
      (.vmul ⟨d, a, b, m, c, t⟩, .int .mul m c t), (.vmulh ⟨d, a, b, m, c, t⟩, .int .mulh m c t),
      (.vmulhu ⟨d, a, b, m, c, t⟩, .int .mulhu m c t), (.vmacc ⟨d, a, b, m, c, t⟩, .int .macc m c t),
      (.vdiv ⟨d, a, b, m, c, t⟩, .int .div m c t), (.vrem ⟨d, a, b, m, c, t⟩, .int .rem m c t),
      (.vmin ⟨d, a, b, m, c, t⟩, .int .min m c t), (.vmax ⟨d, a, b, m, c, t⟩, .int .max m c t),
      (.vminu ⟨d, a, b, m, c, t⟩, .int .minu m c t), (.vmaxu ⟨d, a, b, m, c, t⟩, .int .maxu m c t),
      (.vand ⟨d, a, b, m, c, t⟩, .int .and m c t), (.vor ⟨d, a, b, m, c, t⟩, .int .or m c t), (.vxor ⟨d, a, b, m, c, t⟩, .int .xor m c t),
      (.vsll ⟨d, a, b, m, c, t⟩, .int .sll m c t), (.vsrl ⟨d, a, b, m, c, t⟩, .int .srl m c t),
      (.vsra ⟨d, a, b, m, c, t⟩, .int .sra m c t), (.vsadd ⟨d, a, b, m, c, t⟩, .int .sadd m c t),
      (.vssub ⟨d, a, b, m, c, t⟩, .int .ssub m c t), (.vaadd ⟨d, a, b, m, c, t⟩, .int .aadd m c t),
      (.vsmul ⟨d, a, b, m, c, t⟩, .int .smul m c t), (.vwadd ⟨d, a, b, m, c, t⟩, .wide .add m c t),
      (.vwaddu ⟨d, a, b, m, c, t⟩, .wide .addu m c t), (.vwmul ⟨d, a, b, m, c, t⟩, .wide .mul m c t),
      (.vwmulu ⟨d, a, b, m, c, t⟩, .wide .mulu m c t), (.vwmacc ⟨d, a, b, m, c, t⟩, .wide .macc m c t),
      (.vwmaccu ⟨d, a, b, m, c, t⟩, .wide .maccu m c t), (.vnclip ⟨d, a, b, m, c, t⟩, .nclip true m c t),
      (.vnclipu ⟨d, a, b, m, c, t⟩, .nclip false m c t), (.vfadd ⟨d, a, b, m, c, t⟩, .fp .add m c t),
      (.vfsub ⟨d, a, b, m, c, t⟩, .fp .sub m c t), (.vfmul ⟨d, a, b, m, c, t⟩, .fp .mul m c t),
      (.vfdiv ⟨d, a, b, m, c, t⟩, .fp .div m c t), (.vfma ⟨d, a, b, m, c, t⟩, .fp .ma m c t), (.vfnma ⟨d, a, b, m, c, t⟩, .fp .nma m c t),
      (.vfmin ⟨d, a, b, m, c, t⟩, .fp .min m c t), (.vfmax ⟨d, a, b, m, c, t⟩, .fp .max m c t),
      (.vfsgnj ⟨d, a, b, m, c, t⟩, .fp .sgnj m c t), (.vfsgnjn ⟨d, a, b, m, c, t⟩, .fp .sgnjn m c t),
      (.vcmpeq ⟨d, a, b, m, c, t⟩, .cmp .eq m c t), (.vcmpne ⟨d, a, b, m, c, t⟩, .cmp .ne m c t),
      (.vcmplt ⟨d, a, b, m, c, t⟩, .cmp .lt m c t), (.vcmpltu ⟨d, a, b, m, c, t⟩, .cmp .ltu m c t),
      (.vcmple ⟨d, a, b, m, c, t⟩, .cmp .le m c t), (.vcmpleu ⟨d, a, b, m, c, t⟩, .cmp .leu m c t),
      (.vfcmpeq ⟨d, a, b, m, c, t⟩, .cmp .feq m c t), (.vfcmplt ⟨d, a, b, m, c, t⟩, .cmp .flt m c t),
      (.vfcmple ⟨d, a, b, m, c, t⟩, .cmp .fle m c t), (.vfcmpun ⟨d, a, b, m, c, t⟩, .cmp .fun_ m c t),
      (.vsel ⟨d, a, b, m, c, t⟩, .sel m c t), (.vgatherr ⟨d, a, b, m, c, t⟩, .gather m c t)] : List (Instr × QOp)),
      s.pushes p.1 ⟨p.2, d.toNat, a.toNat, b.toNat, false, c⟩) ∧
    (∀ p ∈ ([
      (.vmv ⟨d, a, m, t⟩, .one .mv m t), (.viota ⟨d, a, m, t⟩, .iota m t), (.vcompress ⟨d, a, m, t⟩, .compress m t),
      (.vneg ⟨d, a, m, t⟩, .one .neg m t), (.vabs ⟨d, a, m, t⟩, .one .abs m t), (.vnot ⟨d, a, m, t⟩, .one .not m t),
      (.vfneg ⟨d, a, m, t⟩, .one .fneg m t), (.vfabs ⟨d, a, m, t⟩, .one .fabs m t), (.vfsqrt ⟨d, a, m, t⟩, .one .fsqrt m t),
      (.vfrecip ⟨d, a, m, t⟩, .one .frecip m t), (.vfexp2 ⟨d, a, m, t⟩, .one .fexp2 m t), (.vfclass ⟨d, a, m, t⟩, .one .fclass m t),
      (.vredsum ⟨d, a, m, t⟩, .red .sum m t), (.vredmin ⟨d, a, m, t⟩, .red .min m t), (.vredmax ⟨d, a, m, t⟩, .red .max m t),
      (.vredminu ⟨d, a, m, t⟩, .red .minu m t), (.vredmaxu ⟨d, a, m, t⟩, .red .maxu m t), (.vredand ⟨d, a, m, t⟩, .red .and m t),
      (.vredor ⟨d, a, m, t⟩, .red .or m t), (.vredxor ⟨d, a, m, t⟩, .red .xor m t), (.vfredsum ⟨d, a, m, t⟩, .red .fsum m t),
      (.vfredmin ⟨d, a, m, t⟩, .red .fmin m t), (.vfredmax ⟨d, a, m, t⟩, .red .fmax m t), (.vsortk ⟨d, a, m, t⟩, .sortk m t),
      (.vuniq ⟨d, a, m, t⟩, .uniq m t), (.vtosf ⟨d, a, m, t⟩, .cvt .sf m t), (.vtobf ⟨d, a, m, t⟩, .cvt .bf m t),
      (.vtohf ⟨d, a, m, t⟩, .cvt .hf m t), (.vtoe4 ⟨d, a, m, t⟩, .cvt .e4 m t), (.vtoe4s ⟨d, a, m, t⟩, .cvt .e4s m t),
      (.vtoe5 ⟨d, a, m, t⟩, .cvt .e5 m t), (.vtoe5s ⟨d, a, m, t⟩, .cvt .e5s m t), (.vtof4 ⟨d, a, m, t⟩, .cvt .f4 m t),
      (.vfromf4 ⟨d, a, m, t⟩, .cvt .fromf4 m t), (.vtoinr ⟨d, a, m, t⟩, .cvt .inr m t), (.vtoinz ⟨d, a, m, t⟩, .cvt .inz m t),
      (.vintof ⟨d, a, m, t⟩, .cvt .intof m t), (.vwiden ⟨d, a, m, t⟩, .cvt .widen m t), (.vwidenu ⟨d, a, m, t⟩, .cvt .widenu m t)] : List (Instr × QOp)),
      s.pushes p.1 ⟨p.2, d.toNat, a.toNat, 0, false, false⟩) ∧
    (s.captures true a.toNat → ∀ p ∈ ([
      (.vsplat ⟨d, a, m, t⟩, .splat m t), (.vmvsx ⟨d, a, m, t⟩, .mvsx m t)] : List (Instr × QOp)),
      s.pushes p.1 ⟨p.2, d.toNat, a.toNat, 0, true, false⟩) ∧
    (s.captures true b.toNat → ∀ p ∈ ([
      (.vslideup d a b m t, .slide true m t), (.vslidedn d a b m t, .slide false m t)] : List (Instr × QOp)),
      s.pushes p.1 ⟨p.2, d.toNat, a.toNat, b.toNat, false, true⟩) ∧
    (∀ p ∈ ([
      (.vmrgk d a b t, ⟨.merge t, d.toNat, a.toNat, b.toNat, false, false⟩),
      (.vmand d a b, ⟨.mlog .and, d.toNat, a.toNat, b.toNat, false, false⟩),
      (.vmor d a b, ⟨.mlog .or, d.toNat, a.toNat, b.toNat, false, false⟩),
      (.vmxor d a b, ⟨.mlog .xor, d.toNat, a.toNat, b.toNat, false, false⟩),
      (.vmandn d a b, ⟨.mlog .andn, d.toNat, a.toNat, b.toNat, false, false⟩),
      (.vmvxs d a t, ⟨.mvxs t, d.toNat, a.toNat, 0, false, false⟩), (.vid d m t, ⟨.vid m t, d.toNat, 0, 0, false, false⟩),
      (.vmpop d a m, ⟨.mpop m, d.toNat, a.toNat, 0, false, false⟩), (.vmfirst d a m, ⟨.mfirst m, d.toNat, a.toNat, 0, false, false⟩),
      (.vmnot d a m, ⟨.mnot m, d.toNat, a.toNat, 0, false, false⟩),
      (.vmbefore d a m, ⟨.mpart .before m, d.toNat, a.toNat, 0, false, false⟩),
      (.vmincl d a m, ⟨.mpart .incl m, d.toNat, a.toNat, 0, false, false⟩)] : List (Instr × Push)),
      s.pushes p.1 p.2)

/-- The vector memory instructions, VAMO, the press instructions and the token instructions are over at issue in the same way, with the
scalars of their rows captured (R20, R29, R279, R318, R361). PATTACH stays at its place until the attachment has completed (R320). -/
def Obligations.QueuedInstructionsArePushed : Prop :=
  ∀ (s : State) (d a b : BitVec 6) (m : BitVec 3) (o k : Bool) (w : Wid) (f c : BitVec 2) (n : BitVec 4), s.canPush →
    s.captures true a.toNat →
    (∀ p ∈ ([
      (.vld ⟨d, a, m, o, k, w⟩, ⟨.mem .ld m o k w, d.toNat, a.toNat, 0, true, false⟩),
      (.vldx ⟨d, a, b, m, o, k, w⟩, ⟨.mem .ldx m o k w, d.toNat, a.toNat, b.toNat, true, false⟩),
      (.vldseg ⟨d, a, b, m, o, k, w⟩, ⟨.mem .ldseg m o k w, d.toNat, a.toNat, b.toNat, true, false⟩),
      (.vldff ⟨d, a, m, o, k, w⟩, ⟨.mem .ldff m o k w, d.toNat, a.toNat, 0, true, false⟩),
      (.vldsc d a, ⟨.mem .ldsc 0 false false .b, d.toNat, a.toNat, 0, true, false⟩),
      (.vst ⟨d, a, m, o, k, w⟩, ⟨.mem .st m o k w, d.toNat, a.toNat, 0, true, false⟩),
      (.vstx ⟨d, a, b, m, o, k, w⟩, ⟨.mem .stx m o k w, d.toNat, a.toNat, b.toNat, true, false⟩),
      (.vstseg ⟨d, a, b, m, o, k, w⟩, ⟨.mem .stseg m o k w, d.toNat, a.toNat, b.toNat, true, false⟩),
      (.vamoAdd ⟨d, a, b, m, w⟩, ⟨.amo .add m w, d.toNat, a.toNat, b.toNat, true, false⟩),
      (.vamoMin ⟨d, a, b, m, w⟩, ⟨.amo .min m w, d.toNat, a.toNat, b.toNat, true, false⟩),
      (.vamoMax ⟨d, a, b, m, w⟩, ⟨.amo .max m w, d.toNat, a.toNat, b.toNat, true, false⟩),
      (.vamoFadd ⟨d, a, b, m, w⟩, ⟨.amo .fadd m w, d.toNat, a.toNat, b.toNat, true, false⟩),
      (.pdetach, ⟨.detach, 0, 0, 0, false, false⟩),
      (.pldaReg f a n, ⟨.pload false true f.toNat (32 * (n.toNat + 1)), 0, a.toNat, 0, false, false⟩),
      (.pldbReg f a n, ⟨.pload true true f.toNat (32 * (n.toNat + 1)), 0, a.toNat, 0, false, false⟩),
      (.pmma c a n, ⟨.pmma false c.toNat (32 * a.toNat) (32 * (n.toNat + 1)), 0, 0, 0, false, false⟩),
      (.pmmas c a n, ⟨.pmma true c.toNat (32 * a.toNat) (32 * (n.toNat + 1)), 0, 0, 0, false, false⟩),
      (.pzero c, ⟨.pzero c.toNat, 0, 0, 0, false, false⟩), (.ppub c a, ⟨.ppub c.toNat a.toNat, 0, 0, 0, false, false⟩),
      (.pfin c, ⟨.pfin c.toNat, 0, 0, 0, false, false⟩),
      (.tkemit a b, ⟨.tkemit false, 0, a.toNat, b.toNat, false, false⟩), (.tkemitDraft a b, ⟨.tkemit true, 0, a.toNat, b.toNat, false, false⟩),
      (.tkconf a b, ⟨.tkconf, 0, a.toNat, b.toNat, false, false⟩)] : List (Instr × Push)), s.pushes p.1 p.2) ∧
    (s.captures true b.toNat → ∀ p ∈ ([
      (.vlds ⟨d, a, b, m, o, k, w⟩, ⟨.mem .lds m o k w, d.toNat, a.toNat, b.toNat, true, true⟩),
      (.vsts ⟨d, a, b, m, o, k, w⟩, ⟨.mem .sts m o k w, d.toNat, a.toNat, b.toNat, true, true⟩),
      (.pldaMem f a b n, ⟨.pload false false f.toNat (32 * (n.toNat + 1)), 0, a.toNat, b.toNat, true, true⟩),
      (.pldbMem f a b n, ⟨.pload true false f.toNat (32 * (n.toNat + 1)), 0, a.toNat, b.toNat, true, true⟩),
      (.prdacc c d b, ⟨.prdacc c.toNat, d.toNat, 0, b.toNat, false, true⟩),
      (.pwracc c a b, ⟨.pwracc c.toNat, 0, a.toNat, b.toNat, false, true⟩),
      (.tkarm d a b, ⟨.tkarm, d.toNat, a.toNat, b.toNat, true, true⟩),
      (.tkdisarm b, ⟨.tkdisarm, 0, 0, b.toNat, false, true⟩)] : List (Instr × Push)), s.pushes p.1 p.2) ∧
    (s.cur.wait ≠ some .attach → ∃ t, exec (.pattach a) s = .next t ∧ t.cur.pc = s.cur.pc ∧ t.cur.stalled = true ∧ t.cur.wait = some .attach ∧
      (t.queue.map fun q => q.op) = (s.queue.map fun q => q.op) ++ [.attach (32 * a.toNat)]) ∧
    (s.cur.wait = some .attach → (∀ q ∈ s.queue, q.op.isAttach = false) → exec (.pattach a) s = .next s.retire)

/-- The integer, saturating and fixed-point functions on elements of every width (R299, R300, R42, R49): the codes as bit vectors of the
width, in each of the four modes of RMODE, and SAT where a saturating result is clamped. The widening functions and the two conversions that widen give
the exact result in twice the width, the narrowing ones that of a shift rounded and saturated (R301, R51, R315); and the integer compares (R303), VNEG,
VABS and VNOT (R309) and the nodes of the integer reductions (R312) are those of the codes. -/
def Obligations.VectorIntegerFunctions : Prop :=
  ∀ (w : Nat) (x y z : BitVec w) (rm : BitVec 2), w ∈ [8, 16, 32, 64] →
    let gives := fun (f : VInt) (v : BitVec w) => intOp f rm w x.toNat y.toNat z.toNat = ⟨v.toNat, 0⟩
    let clamps := fun (f : VInt) (i : Int) => intOp f rm w x.toNat y.toNat z.toNat =
      if i < -(2 ^ (w - 1)) then ⟨2 ^ (w - 1), fSAT⟩ else if 2 ^ (w - 1) ≤ i then ⟨2 ^ (w - 1) - 1, fSAT⟩ else ⟨(BitVec.ofInt w i).toNat, 0⟩
    gives .add (x + y) ∧ gives .sub (x - y) ∧ gives .mul (x * y) ∧ gives .macc (z + x * y) ∧
    gives .mulh (BitVec.ofInt w (x.toInt * y.toInt / 2 ^ w)) ∧ gives .mulhu (BitVec.ofNat w (x.toNat * y.toNat / 2 ^ w)) ∧
    gives .div (if y = 0 then BitVec.allOnes w else BitVec.ofInt w (x.toInt.tdiv y.toInt)) ∧
    gives .rem (if y = 0 then x else BitVec.ofInt w (x.toInt.tmod y.toInt)) ∧
    gives .min (if x.toInt ≤ y.toInt then x else y) ∧ gives .max (if x.toInt ≤ y.toInt then y else x) ∧
    gives .minu (if x.toNat ≤ y.toNat then x else y) ∧ gives .maxu (if x.toNat ≤ y.toNat then y else x) ∧
    gives .and (x &&& y) ∧ gives .or (x ||| y) ∧ gives .xor (x ^^^ y) ∧
    gives .sll (x <<< (y.toNat % w)) ∧ gives .srl (x >>> (y.toNat % w)) ∧ gives .sra (x.sshiftRight (y.toNat % w)) ∧
    clamps .sadd (x.toInt + y.toInt) ∧ clamps .ssub (x.toInt - y.toInt) ∧
    (let up := fun (i : Int) (k : Nat) => if i % 2 ^ k * 2 = 2 ^ k then i / 2 ^ k + i / 2 ^ k % 2 else (i + 2 ^ (k - 1)) / 2 ^ k
     rm = 1 → gives .aadd (BitVec.ofInt w (up (x.toInt + y.toInt) 1)) ∧ clamps .smul (up (x.toInt * y.toInt) (w - 1))) ∧
    (let odd := fun (i : Int) (k : Nat) => if i % 2 ^ k = 0 ∨ i / 2 ^ k % 2 = 1 then i / 2 ^ k else i / 2 ^ k + 1
     rm = 3 → gives .aadd (BitVec.ofInt w (odd (x.toInt + y.toInt) 1)) ∧ clamps .smul (odd (x.toInt * y.toInt) (w - 1))) ∧
    (rm = 0 → gives .aadd (BitVec.ofInt w ((x.toInt + y.toInt + 1) / 2)) ∧ clamps .smul ((x.toInt * y.toInt + 2 ^ (w - 2)) / 2 ^ (w - 1))) ∧
    (rm = 2 → gives .aadd (BitVec.ofInt w ((x.toInt + y.toInt) / 2)) ∧ clamps .smul (x.toInt * y.toInt / 2 ^ (w - 1))) ∧
    (w ≠ 64 → ∀ d : BitVec (2 * w),
      let widens := fun (f : VWide) (v : BitVec (2 * w)) => wideOp f w x.toNat y.toNat d.toNat = v.toNat
      let sx := x.signExtend (2 * w)
      let sy := y.signExtend (2 * w)
      let zx := x.setWidth (2 * w)
      let zy := y.setWidth (2 * w)
      widens .add (sx + sy) ∧ widens .addu (zx + zy) ∧ widens .mul (sx * sy) ∧ widens .mulu (zx * zy) ∧ widens .macc (d + sx * sy) ∧
      widens .maccu (d + zx * zy) ∧
      (∀ t : ElTy, 8 * t.bytes = w → cvtOp .widen t x.toNat = ⟨sx.toNat, 0⟩ ∧ cvtOp .widenu t x.toNat = ⟨zx.toNat, 0⟩) ∧
      let k := y.toNat % (2 * w)
      let rounded := fun (i : Int) => match rm.toNat with
        | 0 => (i + 2 ^ k / 2) / 2 ^ k
        | 1 => if i % 2 ^ k * 2 = 2 ^ k then i / 2 ^ k + i / 2 ^ k % 2 else (i + 2 ^ k / 2) / 2 ^ k
        | 2 => i / 2 ^ k
        | _ => if i % 2 ^ k = 0 ∨ i / 2 ^ k % 2 = 1 then i / 2 ^ k else i / 2 ^ k + 1
      let i := rounded d.toInt
      let n := rounded d.toNat
      nclipOp true rm w d.toNat y.toNat = (if i < -(2 ^ (w - 1)) then ⟨2 ^ (w - 1), fSAT⟩ else if 2 ^ (w - 1) ≤ i then ⟨2 ^ (w - 1) - 1, fSAT⟩
        else ⟨(BitVec.ofInt w i).toNat, 0⟩) ∧
      nclipOp false rm w d.toNat y.toNat = (if 2 ^ w ≤ n then ⟨2 ^ w - 1, fSAT⟩ else ⟨n.toNat, 0⟩)) ∧
    (let holds := fun (f : VCmp) (p : Bool) => intCmp f w x.toNat y.toNat = p
     holds .eq (x == y) ∧ holds .ne (x != y) ∧ holds .lt (x.slt y) ∧ holds .ltu (x.ult y) ∧ holds .le (x.sle y) ∧ holds .leu (x.ule y)) ∧
    (∀ t : ElTy, 8 * t.bytes = w → oneOp .neg t x.toNat = ⟨(-x).toNat, 0⟩ ∧ oneOp .abs t x.toNat = ⟨(if x.toInt < 0 then -x else x).toNat, 0⟩ ∧
      oneOp .not t x.toNat = ⟨(~~~x).toNat, 0⟩) ∧
    let node := fun (f : VRed) (v : BitVec w) => ∀ t : ElTy, 8 * t.bytes = w → redOp f t x.toNat y.toNat = ⟨v.toNat, 0⟩
    node .sum (x + y) ∧ node .min (if x.toInt ≤ y.toInt then x else y) ∧ node .max (if x.toInt ≤ y.toInt then y else x) ∧
    node .minu (if x.toNat ≤ y.toNat then x else y) ∧ node .maxu (if x.toNat ≤ y.toNat then y else x) ∧ node .and (x &&& y) ∧ node .or (x ||| y) ∧
    node .xor (x ^^^ y)

/-- Floating point (R43, R44, R46, R47, R48, R51, R302, R303, R309, R311, R315): in BF16, FP16 and FP32 a NaN operand gives the canonical NaN; infinity
less infinity, zero times infinity and the root of a negative number are invalid and give it with NV; a finite number over zero is infinite with DZ; an
exact zero sum of opposite signs is +0; and a number that the format holds converts to itself with no flag. A code has the value of its fields. In
the four element types sums, products, quotients, roots and the fused forms of finite numbers are the exact number rounded once: below the threshold
the nearest finite code, of two the even one, at or above it what overflow delivers, with NX where the two differ, and with UF where the number rounds,
with an unbounded exponent, to below the smallest normal. Compares, VFMIN and VFMAX follow the order of the values, with a NaN as R47 and R303 say; VFSGNJ, VFSGNJN, VFNEG and VFABS set the sign; VFCLASS names the class; and
conversions, from integers too, round once, saturate or clamp, and take NaNs and infinities as R51 says. -/
def Obligations.FloatingPointSpecialCases : Prop :=
  (∀ (f : Fmt), f ∈ [Fmt.bf, .hf, .sf] → ∀ (a b d : Nat) (op : VFp),
    let x := f.decode a
    let y := f.decode b
    ((x.isNaN = true ∨ y.isNaN = true) → op ∈ [VFp.add, .sub, .mul, .div, .ma, .nma] → (fpOp op f a b d).code = f.nan) ∧
    (∀ n, x = .inf n → y = .inf n → fpOp .sub f a b d = ⟨f.nan, fNV⟩) ∧
    (∀ n k e, x = .inf n → y = .fin k 0 e → fpOp .mul f a b d = ⟨f.nan, fNV⟩) ∧
    (∀ m e, x = .fin true m e → m ≠ 0 → f.sqrtV x = ⟨f.nan, fNV⟩) ∧
    (∀ n m e k g, x = .fin n m e → m ≠ 0 → y = .fin k 0 g →
      fpOp .div f a b d = ⟨(if n = k then 0 else 2 ^ (f.bits - 1)) + f.inf.getD 0, fDZ⟩) ∧
    (∀ n m e, x = .fin n m e → fpOp .sub f a a d = ⟨0, 0⟩) ∧
    (a < 2 ^ f.bits → ∀ n m e, x = .fin n m e → f.convert false x = ⟨a, 0⟩)) ∧
  (∀ p ∈ ([(.sf, 8, 23, 127), (.hf, 5, 10, 15), (.bf, 8, 7, 127), (.e4, 4, 3, 7), (.e5, 5, 2, 15), (.e2, 2, 1, 1)] : List (Fmt × Nat × Nat × Nat)),
    let (f, eb, fb, bias) := p
    ∀ a : Nat,
      let sign := a.testBit (eb + fb)
      let ex := a / 2 ^ fb % 2 ^ eb
      let fr := a % 2 ^ fb
      (ex = 0 → ∃ m e, f.decode a = .fin sign m e ∧ (m : ℝ) * 2 ^ e = fr / 2 ^ fb * 2 ^ (1 - bias : ℤ)) ∧
      (0 < ex → (ex < 2 ^ eb - 1 ∨ f = .e2 ∨ (f = .e4 ∧ fr < 7)) →
        ∃ m e, f.decode a = .fin sign m e ∧ (m : ℝ) * 2 ^ e = (1 + fr / 2 ^ fb) * 2 ^ (ex - bias : ℤ)) ∧
      (ex = 2 ^ eb - 1 → f ∉ [Fmt.e2, .e4] → f.decode a = if fr = 0 then .inf sign else .nan (decide (fr < 2 ^ (fb - 1)))) ∧
      (f = .e4 → ex = 15 → fr = 7 → f.decode a = .nan false)) ∧
  let value := fun (v : Fv) => match v with
    | .nan _ => (0 : ℝ)
    | .inf n => if n then -2 ^ 129 else 2 ^ 129
    | .fin n m e => (if n then -1 else 1) * m * 2 ^ e
  let minus := fun (f : Fmt) (n : Bool) => if n then 2 ^ (f.bits - 1) else 0
  let limit := fun (f : Fmt) => match f with
    | .sf => (2 : ℝ) ^ 128 - 2 ^ 103
    | .hf => 65520
    | .bf => 2 ^ 128 - 2 ^ 119
    | .e4 => 464
    | .e5 => 61440
    | .e2 => 7
  let least := fun (f : Fmt) => match f with
    | .sf => (1 - 2 ^ (-25 : ℤ) : ℝ) * 2 ^ (-126 : ℤ)
    | .hf => (1 - 2 ^ (-12 : ℤ)) * 2 ^ (-14 : ℤ)
    | .bf => (1 - 2 ^ (-9 : ℤ)) * 2 ^ (-126 : ℤ)
    | .e4 => (1 - 2 ^ (-5 : ℤ)) * 2 ^ (-6 : ℤ)
    | .e5 => (1 - 2 ^ (-4 : ℤ)) * 2 ^ (-14 : ℤ)
    | .e2 => 0
  let most := fun (f : Fmt) (sat n : Bool) => match f, sat with
    | .sf, _ => 0x7F800000 + minus f n
    | .hf, _ => 0x7C00 + minus f n
    | .bf, _ => 0x7F80 + minus f n
    | .e4, false => 0x7F
    | .e4, true => 0x7E + minus f n
    | .e5, false => 0x7C + minus f n
    | .e5, true => 0x7B + minus f n
    | .e2, _ => 7 + minus f n
  let rounds := fun (f : Fmt) (sat : Bool) (v : ℝ) (r : FRes) =>
    (v ≠ 0 → |v| < limit f → ∃ n m e, f.decode r.code = .fin n m e ∧ (n = true ↔ v < 0) ∧ r.code < 2 ^ f.bits ∧
      let w := value (.fin n m e)
      (w = v → r.flags = 0) ∧ (w ≠ v → (|v| < least f → r.flags = fNX ||| fUF) ∧ (least f ≤ |v| → r.flags = fNX)) ∧
      ∀ c k g h, c < 2 ^ f.bits → f.decode c = .fin k g h →
        let u := value (.fin k g h)
        |v - w| ≤ |v - u| ∧ (|v - w| = |v - u| → u ≠ w → r.code % 2 = 0)) ∧
    (limit f ≤ |v| → ∀ n, (n = true ↔ v < 0) → r = ⟨most f sat n, fOF ||| fNX ||| if sat then fSAT else 0⟩)
  let signals := fun (l : List Fv) => if Fv.nan true ∈ l then fNV else 0
  (∀ t ∈ [ElTy.e4, .bf, .hf, .sf], ∀ a b d : Nat,
    let f := t.fmt
    let x := f.decode a
    let y := f.decode b
    let z := f.decode d
    let half := 2 ^ (f.bits - 1)
    let sb := b / half % 2
    a < 2 ^ f.bits → b < 2 ^ f.bits → d < 2 ^ f.bits →
    (∀ n m e, x = .fin n m e →
      (0 < value x → rounds f false (Real.sqrt (value x)) (oneOp .fsqrt t a)) ∧ (m = 0 → oneOp .fsqrt t a = ⟨a, 0⟩) ∧
      (m ≠ 0 → rounds f false (1 / value x) (oneOp .frecip t a)) ∧
      (m = 0 → oneOp .frecip t a = if t = .e4 then ⟨0x7F, fNV ||| fDZ⟩ else ⟨most f false n, fDZ⟩)) ∧
    (∀ n m e k g h, x = .fin n m e → y = .fin k g h →
      rounds f false (value x + value y) (fpOp .add f a b d) ∧ rounds f false (value x - value y) (fpOp .sub f a b d) ∧
      rounds f false (value x * value y) (fpOp .mul f a b d) ∧ (g ≠ 0 → rounds f false (value x / value y) (fpOp .div f a b d)) ∧
      (value x + value y = 0 → fpOp .add f a b d = ⟨minus f (n && k), 0⟩) ∧ (value x = value y → fpOp .sub f a b d = ⟨minus f (n && !k), 0⟩) ∧
      (value x * value y = 0 → fpOp .mul f a b d = ⟨minus f (n != k), 0⟩) ∧
      (∀ l i j, z = .fin l i j → rounds f false (value x * value y + value z) (fpOp .ma f a b d) ∧
        rounds f false (value z - value x * value y) (fpOp .nma f a b d) ∧
        (value x * value y + value z = 0 → fpOp .ma f a b d = ⟨minus f (n != k && l), 0⟩))) ∧
    (x.isNaN = false → y.isNaN = false →
      (∀ r, fpCmp .feq f a b = (r, 0) ↔ (r = true ↔ value x = value y)) ∧ (∀ r, fpCmp .flt f a b = (r, 0) ↔ (r = true ↔ value x < value y)) ∧
      (∀ r, fpCmp .fle f a b = (r, 0) ↔ (r = true ↔ value x ≤ value y)) ∧ fpCmp .fun_ f a b = (false, 0) ∧
      (value x < value y ∨ a = b ∨ (∃ e g, x = .fin true 0 e ∧ y = .fin false 0 g) → fpOp .min f a b d = ⟨a, 0⟩ ∧ fpOp .max f a b d = ⟨b, 0⟩) ∧
      (value y < value x ∨ (∃ e g, x = .fin false 0 e ∧ y = .fin true 0 g) → fpOp .min f a b d = ⟨b, 0⟩ ∧ fpOp .max f a b d = ⟨a, 0⟩)) ∧
    ((x.isNaN = true ∨ y.isNaN = true) → fpCmp .feq f a b = (false, signals [x, y]) ∧ fpCmp .flt f a b = (false, fNV) ∧
      fpCmp .fle f a b = (false, fNV) ∧ fpCmp .fun_ f a b = (true, signals [x, y]) ∧ ∀ op ∈ [VFp.min, .max], fpOp op f a b d =
        ⟨if x.isNaN = false then a else if y.isNaN = false then b else f.nan, signals [x, y]⟩) ∧
    fpOp .sgnj f a b d = ⟨if x.isNaN = true then f.nan else sb * half + a % half, signals [x, y]⟩ ∧
    fpOp .sgnjn f a b d = ⟨if x.isNaN = true then f.nan else (1 - sb) * half + a % half, signals [x, y]⟩ ∧
    oneOp .fneg t a = ⟨if x.isNaN = true then f.nan else (1 - a / half % 2) * half + a % half, signals [x]⟩ ∧
    oneOp .fabs t a = ⟨if x.isNaN = true then f.nan else a % half, signals [x]⟩ ∧
    (∃ c, oneOp .fclass t a = ⟨c, 0⟩ ∧ (c = 0 ↔ x = .inf true) ∧ (c = 7 ↔ x = .inf false) ∧ (c = 8 ↔ x = .nan true) ∧ (c = 9 ↔ x = .nan false) ∧
      ∀ n m e, x = .fin n m e → let normal := (2 : ℝ) ^ (1 - f.bias : ℤ)
        (c = 3 ↔ m = 0 ∧ n = true) ∧ (c = 4 ↔ m = 0 ∧ n = false) ∧ (c = 1 ↔ value x ≤ -normal) ∧ (c = 6 ↔ normal ≤ value x) ∧
        (c = 2 ↔ -normal < value x ∧ value x < 0) ∧ (c = 5 ↔ 0 < value x ∧ value x < normal)) ∧
    redOp .fsum t a b = fpOp .add f a b d ∧ redOp .fmin t a b = fpOp .min f a b d ∧ redOp .fmax t a b = fpOp .max f a b d) ∧
  (∀ p ∈ ([(.sf, .sf, false, 0x7FC00000), (.bf, .bf, false, 0x7FC0), (.hf, .hf, false, 0x7E00), (.e4, .e4, false, 0x7F), (.e4s, .e4, true, 0x7F),
      (.e5, .e5, false, 0x7E), (.e5s, .e5, true, 0x7E)] : List (VCvt × Fmt × Bool × Nat)),
    let (op, f, sat, nan) := p
    ∀ t ∈ [ElTy.b, .e4, .bf, .hf, .sf], ∀ a : Nat,
      let x := (if t = .b then Fmt.e5 else t.fmt).decode a
      (∀ q, x = .nan q → cvtOp op t a = ⟨nan, signals [x]⟩) ∧
      (∀ n, x = .inf n → cvtOp op t a = ⟨most f sat n, if sat then fSAT else if f = .e4 then fNV else 0⟩) ∧
      (∀ n m e, x = .fin n m e → rounds f sat (value x) (cvtOp op t a) ∧ (m = 0 → cvtOp op t a = ⟨minus f n, 0⟩))) ∧
  (∀ t ∈ [ElTy.h, .w, .d], ∀ a : Nat, let i := (BitVec.ofNat (8 * t.bytes) a).toInt
    rounds .sf false i (cvtOp .sf t a) ∧ (i = 0 → cvtOp .sf t a = ⟨0, 0⟩)) ∧
  (∀ t ∈ [ElTy.bf, .hf, .sf], ∀ a : Nat, let i := (BitVec.ofNat 32 a).toInt
    rounds t.fmt false i (cvtOp .intof t a) ∧ (i = 0 → cvtOp .intof t a = ⟨0, 0⟩)) ∧
  ∀ t ∈ [ElTy.e4, .bf, .hf, .sf], ∀ a : Nat,
    let x := t.fmt.decode a
    let clamps := fun (i : ℤ) (r : FRes) => (i < -2 ^ 31 → r = ⟨2 ^ 31, fSAT ||| fNV⟩) ∧ (2 ^ 31 ≤ i → r = ⟨2 ^ 31 - 1, fSAT ||| fNV⟩) ∧
      (-2 ^ 31 ≤ i → i < 2 ^ 31 → r.code = (BitVec.ofInt 32 i).toNat ∧ (r.flags = 0 ∧ i = value x ∨ r.flags = fNX ∧ i ≠ value x))
    (∀ q, x = .nan q → cvtOp .inr t a = ⟨0, fNV⟩ ∧ cvtOp .inz t a = ⟨0, fNV⟩) ∧
    (∀ n, x = .inf n → ∀ op ∈ [VCvt.inr, .inz], cvtOp op t a = ⟨if n then 2 ^ 31 else 2 ^ 31 - 1, fSAT ||| fNV⟩) ∧
    (∀ n m e, x = .fin n m e → ∀ i : ℤ,
      (|value x - i| < 1 / 2 ∨ (|value x - i| = 1 / 2 ∧ i % 2 = 0) → clamps i (cvtOp .inr t a)) ∧
      (|(i : ℝ)| ≤ |value x| → |value x| < |(i : ℝ)| + 1 → 0 ≤ value x * i → clamps i (cvtOp .inz t a)))

/-- What the oldest entry of the queue leaves where its checks pass and nothing is provisional (R29, R72, R281, R297): each active element of
the destination from the entry's progress index on takes its result, every other one and all that lies beyond keep what they held (R15, R33),
the flags of the same elements accrue (R21), and the entry leaves the queue. The clauses are the integer, widening, narrowing and floating-point majors (R299 to R302). -/
def Obligations.ElementsCompleteAtTheHead : Prop :=
  ∀ (s : State) (c : Nat) (q : QEntry) (m : BitVec 3) (sc : Bool) (t : ElTy), s.heads c q → s.settled → s.cur.vec.vrf.wf →
    let e := t.bytes
    let k := s.vl
    let at_ := fun (n g i : Nat) => (s.elems n g k).getD i 0
    let y := fun (i : Nat) => if sc then q.xb.toNat % 2 ^ (8 * e) else at_ q.b e i
    let leaves := fun (g : Nat) (uses : List RegUse) (r : Nat → FRes) =>
      s.checkRegs (s.vlmax e) uses true = none →
      ∃ u, exec (.vectorInstructionComplete c) s = .next u ∧ (q.upto = none → u.queue = s.queue.tail) ∧
        (∀ i < k, (u.elems q.d g k).getD i 0 = if s.acts q m i then (r i).code % 2 ^ (8 * g) else at_ q.d g i) ∧
        (∀ x, x < q.d * s.rb ∨ q.d * s.rb + k * g ≤ x → u.cur.vec.vrf.read x = s.cur.vec.vrf.read x) ∧
        (∀ b, u.cur.sys.vstat.getLsbD b = (s.cur.sys.vstat.getLsbD b || (List.range k).any fun i => s.acts q m i && (r i).flags.getLsbD b)) ∧
        u.cur.g = s.cur.g ∧ u.cur.vec.masks = s.cur.vec.masks ∧ u.mem = s.mem ∧ u.cur.pc = s.cur.pc
    (∀ f, q.op = .int f m sc t → leaves e ([.dst q.d e k 1, .src q.a e k 2, useB q sc e k] ++ if f = .macc then [.src q.d e k 1] else [])
      fun i => intOp f q.rmode (8 * e) (at_ q.a e i) (y i) (at_ q.d e i)) ∧
    (∀ f, q.op = .wide f m sc t → leaves (2 * e) ([.dst q.d (2 * e) k 1, .src q.a e k 2, useB q sc e k] ++
        if f = .macc ∨ f = .maccu then [.src q.d (2 * e) k 1] else [])
      fun i => ⟨wideOp f (8 * e) (at_ q.a e i) (y i) (at_ q.d (2 * e) i), 0⟩) ∧
    (∀ g, q.op = .nclip g m sc t → leaves e [.dst q.d e k 1, .src q.a (2 * e) k 2, useB q sc e k]
      fun i => nclipOp g q.rmode (8 * e) (at_ q.a (2 * e) i) (y i)) ∧
    (∀ f, q.op = .fp f m sc t → leaves e ([.dst q.d e k 1, .src q.a e k 2, useB q sc e k] ++ if f = .ma ∨ f = .nma then [.src q.d e k 1] else [])
      fun i => fpOp f t.fmt (at_ q.a e i) (y i) (at_ q.d e i))

/-- What the oldest entry leaves in the same way where it is a compare, a select, a move of elements, a merge, a mask instruction, a reduction, a
sort or a conversion (R303 to R315): the elements of its destination, the bits of its mask, or its scalar register, as the rule of each
gives them, everything else as it was, and the flags of what it computed. The tree of a reduction is R57's. -/
def Obligations.MovesMasksAndConversionsAtTheHead : Prop :=
  ∀ (s : State) (c : Nat) (q : QEntry), s.heads c q → s.settled → s.cur.vec.vrf.wf → q.upto = none → s.checkFrame q = none →
    let k := s.vl
    let leaves := fun (p : State → Prop) => ∃ u, exec (.vectorInstructionComplete c) s = .next u ∧ u.queue = s.queue.tail ∧ u.mem = s.mem ∧
      u.cur.pc = s.cur.pc ∧ p u
    let flags := fun (u : State) (r : Nat → Option FRes) => ∀ b, u.cur.sys.vstat.getLsbD b =
      (s.cur.sys.vstat.getLsbD b || (List.range k).any fun i => ((r i).map fun x => x.flags.getLsbD b).getD false)
    let elements := fun (g : Nat) (r : Nat → Option FRes) => leaves fun u => flags u r ∧ u.cur.g = s.cur.g ∧ u.cur.vec.masks = s.cur.vec.masks ∧
      (∀ i < k, (u.elems q.d g k).getD i 0 = ((r i).map fun x => x.code % 2 ^ (8 * g)).getD ((s.elems q.d g k).getD i 0)) ∧
      ∀ x, x < q.d * s.rb ∨ q.d * s.rb + k * g ≤ x → u.cur.vec.vrf.read x = s.cur.vec.vrf.read x
    let mask := fun (r : Nat → Option (Bool × BitVec 8)) => leaves fun u => flags u (fun i => (r i).map fun x => ⟨0, x.2⟩) ∧ u.cur.g = s.cur.g ∧
      u.cur.vec.vrf = s.cur.vec.vrf ∧ (∀ n, n ≠ q.d → ∀ i, u.maskBit n i = s.maskBit n i) ∧
      (q.d ≠ 0 → k ≤ 8192 → ∀ i, u.maskBit q.d i = if i < k then ((r i).map fun x => x.1).getD (s.maskBit q.d i) else s.maskBit q.d i)
    let scalar := fun (v : Word) => leaves fun u => (q.d ≠ 0 → u.x q.d = v) ∧ (∀ n, n ≠ q.d → u.x n = s.x n) ∧ u.cur.vec.vrf = s.cur.vec.vrf ∧
      u.cur.vec.masks = s.cur.vec.masks ∧ u.cur.sys.vstat = s.cur.sys.vstat
    let a := fun (t : ElTy) (i : Nat) => (s.elems q.a t.bytes k).getD i 0
    let y := fun (sc : Bool) (t : ElTy) (i : Nat) => if sc = true then q.xb.toNat % 2 ^ (8 * t.bytes) else (s.elems q.b t.bytes k).getD i 0
    let when_ := fun (b : Bool) (v : Nat) => if b = true then some (⟨v, 0⟩ : FRes) else none
    let on := fun (m : BitVec 3) => s.actives m
    let low := fun (m : BitVec 3) => ((s.actives m).find? fun i => s.maskBit q.a i)
    (∀ f m sc t, q.op = .cmp f m sc t → mask fun i => if s.acts q m i = true then some (cmpOp f t (a t i) (y sc t i)) else none) ∧
    (∀ m sc t, q.op = .sel m sc t → elements t.bytes fun i => when_ (s.acts q 0 i) (if s.active m i = true then a t i else y sc t i)) ∧
    (∀ m sc t, q.op = .gather m sc t → elements t.bytes fun i =>
      let j := if sc = true then q.xb.toNat else (s.elems q.b t.bytes k).getD i 0
      when_ (s.active m i) (if j < k then a t j else 0)) ∧
    (∀ m t, q.op = .slide true m t → elements t.bytes fun i => when_ (s.active m i && decide (q.xb.toNat ≤ i)) (a t (i - q.xb.toNat))) ∧
    (∀ m t, q.op = .slide false m t → elements t.bytes fun i => when_ (s.active m i) (if i + q.xb.toNat < k then a t (i + q.xb.toNat) else 0)) ∧
    (∀ m t, q.op = .compress m t → elements t.bytes fun i => ((on m)[i]?).map fun j => ⟨a t j, 0⟩) ∧
    (∀ f m t, q.op = .one f m t → elements t.bytes fun i => if s.acts q m i = true then some (oneOp f t (a t i)) else none) ∧
    (∀ m t, q.op = .splat m t → elements t.bytes fun i => when_ (s.acts q m i) q.xa.toNat) ∧
    (∀ m t, q.op = .mvsx m t → elements t.bytes fun i => when_ (s.acts q m i && decide (i = 0)) q.xa.toNat) ∧
    (∀ m t, q.op = .vid m t → elements t.bytes fun i => when_ (s.acts q m i) i) ∧
    (∀ m t, q.op = .iota m t → elements t.bytes fun i => when_ (s.acts q m i) ((on m).countP fun j => s.maskBit q.a j && decide (j < i))) ∧
    (∀ t, q.op = .mvxs t → let v := (s.elems q.a t.bytes 1).getD 0 0
      scalar (if t ∈ [ElTy.b, .h, .w, .d] then BitVec.ofInt 64 ((v : Int).bmod (2 ^ (8 * t.bytes))) else BitVec.ofNat 64 v)) ∧
    (∀ m, q.op = .mpop m → scalar (BitVec.ofNat 64 ((on m).countP fun i => s.maskBit q.a i))) ∧
    (∀ m, q.op = .mfirst m → scalar (((low m).map fun i => BitVec.ofNat 64 i).getD (-1))) ∧
    (∀ f, q.op = .mlog f → mask fun i =>
      let x := s.maskBit q.a i
      let z := s.maskBit q.b i
      some (match f with | .and => x && z | .or => x || z | .xor => x != z | .andn => x && !z, 0)) ∧
    (∀ m, q.op = .mnot m → mask fun i => if s.active m i = true then some (!s.maskBit q.a i, 0) else none) ∧
    (∀ f m, q.op = .mpart f m → mask fun i => if s.active m i = true then
      some (decide (∀ j ∈ on m, s.maskBit q.a j = true → i < j ∨ f = .incl ∧ i = j), 0) else none) ∧
    (∀ m t, q.op = .uniq m t → mask fun i => if s.active m i = true then
      some (decide (((on m).filter fun j => decide (j < i)).getLast?.map (a t) ≠ some (a t i)), 0) else none) ∧
    (∀ m t, q.op = .sortk m t → let l := ((on m).map (a t)).mergeSort
      elements t.bytes fun i => (l[i]?).map fun v => ⟨v, 0⟩) ∧
    (∀ f m t, q.op = .red f m t → let r := tree (redOp f t) 16 ((List.range k).map fun i => if s.active m i = true then some (a t i) else none)
      elements t.bytes fun i => if i = 0 then r.1.map fun v => let z := redOp f t v ((s.elems q.d t.bytes 1).getD 0 0); ⟨z.code, z.flags ||| r.2⟩ else none) ∧
    (∀ f m t, q.op = .cvt f m t → f ≠ .f4 → f ≠ .fromf4 → elements (f.sizes t).2 fun i => if s.acts q m i = true then
      some (cvtOp f t ((s.elems q.a (f.sizes t).1 k).getD i 0)) else none) ∧
    (∀ m t, q.op = .cvt .fromf4 m t → elements t.bytes fun i => if s.acts q m i = true then
      let z := (s.elems (q.a + 1) 1 ((k + 7) / 8)).getD (i / 8) 0
      let x := (s.elems q.a 1 ((k + 1) / 2)).getD (i / 2) 0 / 16 ^ (i % 2) % 16
      some (if z = 0xFF then ⟨t.fmt.nan, fPOISON⟩ else t.fmt.mulF (Fmt.e2.decode x) (scaleV z)) else none) ∧
    (∀ m t, q.op = .cvt .f4 m t → k ≤ s.rb →
      let x := fun (i : Nat) => (s.active m i, t.fmt.decode (a t i))
      let scale := fun (j : Nat) => f4Scale ((List.range (min 8 (k - 8 * j))).map fun n => x (8 * j + n))
      let r := fun (i : Nat) => f4Elem (scale (i / 8)) (x i)
      let nibble := fun (v : State) (i : Nat) => (v.elems q.d 1 ((k + 1) / 2)).getD (i / 2) 0 / 16 ^ (i % 2) % 16
      let code := fun (v : State) (j : Nat) => (v.elems (q.d + 1) 1 ((k + 7) / 8)).getD j 0
      leaves fun u => (∀ i < k, nibble u i = if q.prog ≤ i then (r i).code else nibble s i) ∧
        (∀ j < (k + 7) / 8, code u j = if q.prog < min k (8 * j + 8) then scale j else code s j) ∧
        flags u (fun i => if q.prog ≤ i then some (r i) else none) ∧ u.cur.g = s.cur.g) ∧
    (∀ t, q.op = .merge t → let as := s.elems q.a t.bytes k
      let bs := s.elems q.b t.bytes k
      leaves fun u => let out := u.elems q.d t.bytes k ++ u.elems (q.d + 1) t.bytes k
        (as.Pairwise (· ≤ ·) → bs.Pairwise (· ≤ ·) → out = (as ++ bs).mergeSort) ∧ out.Perm (as ++ bs) ∧
        (u.cur.sys.vstat = s.cur.sys.vstat ||| if as.Pairwise (· ≤ ·) ∧ bs.Pairwise (· ≤ ·) then 0 else fORD) ∧ u.cur.g = s.cur.g ∧
        ∀ x, x < q.d * s.rb ∨ (q.d + 2) * s.rb ≤ x → u.cur.vec.vrf.read x = s.cur.vec.vrf.read x)

/-- What a vector load, store or atomic leaves once its entry is the oldest and each of its elements can be reached (R200, R279 to R286, R294): a load
writes each active element from the progress index on with the bytes at its address, little-endian, and VLDFF the length into FSTAT; a store
writes each such element to memory, where of several at one address the highest counts (R83), or into the buffer of a DET thread (R110); a
vector atomic applies the operands of each address at once, and each element takes the value before that (R84). No other byte of a register
or of memory changes. Where an element cannot be reached the entry traps at the lowest one, whose index is the progress it keeps; VLDFF
trims there instead, but for element 0 (R215). -/
def Obligations.VectorMemoryAtTheHead : Prop :=
  ∀ (s : State) (c : Nat) (q : QEntry) (m : BitVec 3) (o kk : Bool) (w : Wid), s.heads c q → s.settled → s.cur.vec.vrf.wf →
    let k := s.vl
    let e := w.bytes
    let done_ := fun (p : State → Prop) => ∃ u, exec (.vectorInstructionComplete c) s = .next u ∧ u.queue = s.queue.tail ∧ u.cur.pc = s.cur.pc ∧
      u.cur.vec.masks = s.cur.vec.masks ∧ u.cur.g = s.cur.g ∧ p u
    let els := (s.actives m).filter fun i => decide (q.prog ≤ i)
    let current := (∀ x ∈ s.copies, x.data = s.mem.line x.line) ∧ s.gathered = [] ∧ (s.isDet = false → s.cur.det = [])
    (∀ (f : VMemOp) (ps : List (Nat × List (Word × Where))), q.op = .mem f m o kk w → s.checkRegs (s.vlmax e) (memUses s q f w) false = none →
      let n := f.fields q
      let offs := s.offsets q
      let pas := ps.flatMap fun p => p.2.map fun x => x.2
      (∀ x ∈ pas, ∃ pa, x = .phys pa ∧ pa % e = 0) →
      (f.isStore = false → checked s needRd f q w (if f.isIndexed then offs else []) els = (ps, none) → current → s.roomFor (n * k) →
        (f = .ldsc → q.xa.toNat % 32 = 0) → done_ fun u =>
          (∀ j < n, ∀ i < k, (u.elems (q.d + j) e k).getD i 0 = match (ps.find? fun p => p.1 == i).bind fun p => p.2[j]? with
            | some (_, .phys pa) => leNat (if s.isDet = true then s.detRun false pa e else s.mem.run pa e)
            | _ => (s.elems (q.d + j) e k).getD i 0) ∧
          (∀ x, (∀ j < n, x < (q.d + j) * s.rb ∨ (q.d + j) * s.rb + k * e ≤ x) → (f = .ldsc → x < (q.d + 1) * s.rb ∨ (q.d + 2) * s.rb ≤ x) →
            u.cur.vec.vrf.read x = s.cur.vec.vrf.read x) ∧
          u.cur.sys.fstat = (if f = .ldff then BitVec.ofNat 16 k else s.cur.sys.fstat) ∧ u.mem = s.mem) ∧
      (f.isStore = true → checked s needWr f q w (if f.isIndexed then offs else []) els = (ps, none) → s.memWf →
        let kept := ps.filter fun p => !losesTo f q e (if f.isIndexed then offs else []) els p.1
        let vals := kept.flatMap fun p => (p.2.zip (List.range n)).filterMap fun x => match x.1.2 with
          | .phys pa => some (pa, natBytes e ((s.elems (q.d + x.2) e k).getD p.1 0))
          | _ => none
        (vals.map fun x => x.1).Nodup →
        (s.isDet = false → s.undisturbed (n * k) → done_ fun u => u.cur.vec.vrf = s.cur.vec.vrf ∧ (∀ x ∈ vals, u.mem.run x.1 e = x.2) ∧
          ∀ a, (∀ x ∈ vals, a < x.1 ∨ x.1 + e ≤ a) → u.mem.read a = s.mem.read a) ∧
        (s.isDet = true → s.cur.det.length + vals.length ≤ Config.wcbEntries → done_ fun u => u.cur.vec.vrf = s.cur.vec.vrf ∧ u.mem = s.mem ∧
          u.cur.det.map (fun x => (x.pa, x.data)) = s.cur.det.map (fun x => (x.pa, x.data)) ++ vals))) ∧
    (∀ (f : VMemOp) (ps : List (Nat × List (Word × Where))) (i : Nat) (b : ElemFault), q.op = .mem f m o kk w → f ≠ .ldsc →
      s.checkRegs (s.vlmax e) (memUses s q f w) false = none →
      checked s (if f.isStore then needWr else needRd) f q w (if f.isIndexed then s.offsets q else []) els = (ps, some (i, b)) →
      (f = .ldff → 0 < i → b.code ∈ [3, 4, 8] → done_ fun u => u.cur.sys.fstat = BitVec.ofNat 16 i) ∧
      ((f ≠ .ldff ∨ i = 0 ∨ b.code ∉ [3, 4, 8]) → ps = [] → s.queue = [q] → s.canSave → ∃ u, exec (.vectorInstructionComplete c) s = .next u ∧
        u.cur.sys.cause = 0x8000000000000000 ||| b.detail.setWidth 64 <<< 8 ||| b.code.setWidth 64 ∧ u.cur.sys.badva = b.ea ∧
        u.cur.sys.epc = q.pc &&& 0x00FFFFFFFFFFFFFF ∧ u.cur.st = .suspended ∧ u.cur.vec.vrf = s.cur.vec.vrf ∧ u.cur.g = s.cur.g ∧
        (u.queue.map fun z => (z.op, z.prog)) = [(q.op, i)])) ∧
    ∀ (f : VAmoOp) (ps : List (Nat × List (Word × Where))) (pa : Nat → Nat), q.op = .amo f m w →
      s.checkRegs (s.vlmax e) [.dst q.d e k 1, .scalar q.a 2, .src q.b 4 k 3, .src q.d e k 1] false = none →
      checked s needRw .ldx q w (s.elems q.b 4 k) (s.actives m) = (ps, none) →
      (∀ p ∈ ps, p.2.map (fun x => x.2) = [.phys (pa p.1)] ∧ pa p.1 % e = 0) →
      (∀ p ∈ ps, ∀ r ∈ ps, pa p.1 = pa r.1 → (s.elems q.b 4 k).getD p.1 0 = (s.elems q.b 4 k).getD r.1 0) → s.memWf → s.undisturbed k →
      done_ fun u =>
        (∀ i < k, (u.elems q.d e k).getD i 0 = if s.active m i = true then s.mem.nat (pa i) e else (s.elems q.d e k).getD i 0) ∧
        (∀ i ∈ s.actives m, u.mem.nat (pa i) e = (amoVec f w (s.mem.nat (pa i) e)
          (mergeOps f w (((s.actives m).filter fun j => decide (pa j = pa i)).map fun j => (s.elems q.d e k).getD j 0)).1).code % 2 ^ (8 * e)) ∧
        (∀ x, x < q.d * s.rb ∨ q.d * s.rb + k * e ≤ x → u.cur.vec.vrf.read x = s.cur.vec.vrf.read x) ∧
        ∀ a, (∀ i ∈ s.actives m, a < pa i ∨ pa i + e ≤ a) → u.mem.read a = s.mem.read a

/-- What the press instructions leave once their entry is the oldest and no lineage holds them up (R320 to R331): PATTACH grants what is left in rows of
32, PDETACH gives the share back, PLDA and PLDB fill their buffer from registers or memory with its depth and format, PZERO, PWRACC and PRDACC
write and read an accumulator, PMMA and PMMAS enter their K-groups into one (R64 to R69), PPUB opens it under a lineage, and PFIN closes it
with its final value and hands delta-C to the chase. A multiply whose A buffer does not reach its depth traps at once (R319, R326), and one whose B
buffer does not, or whose formats do not pair, once it is accepted (R379). -/
def Obligations.PressInstructionsAtTheHead : Prop :=
  ∀ (s : State) (c : Nat) (q : QEntry), s.heads c q → s.cur.id.place.isBase = false →
    let k := s.vl
    let cl := s.cluster s.cur.id.place.cluster
    let done_ := fun (p : State → Prop) => ∃ u, exec (.vectorInstructionComplete c) s = .next u ∧ u.queue = s.queue.tail ∧ u.cur.pc = s.cur.pc ∧
      u.cur.vec.masks = s.cur.vec.masks ∧ u.cur.g = s.cur.g ∧ u.mem = s.mem ∧ p u
    (∀ r, q.op = .attach r → s.cur.share = none → s.coreAttached = false →
      let g := 32 * (min r (128 - s.pressRows) / 32)
      done_ fun u => u.cur.sys.pgrant = BitVec.ofNat 8 g ∧ (g = 0 → u.cur.share = none) ∧
        (g ≠ 0 → ∃ h, u.cur.share = some h ∧ h.rows = g ∧ h.aBuf = [] ∧ (∀ n, h.get n = Acc.init) ∧ u.cur.sys.pnan = 0)) ∧
    ∀ h, s.cur.share = some h →
      let share := fun (p : Share → State → Prop) => done_ fun u => ∃ z, u.cur.share = some z ∧ z.rows = h.rows ∧ p z u
      let acc := fun (n : Nat) (p : Acc → State → Prop) => share fun z u => p (z.get n) u ∧ (∀ j, j ≠ n → z.get j = h.get j) ∧ z.aBuf = h.aBuf ∧
        u.cluster s.cur.id.place.cluster = cl
      let group := fun (l : List PElem) (d koff n row g : Nat) => ((l.drop (row * d + koff + 32 * g)).take (min 32 (n - 32 * g)))
      (q.op = .detach → s.settled → done_ fun u => u.cur.share = none ∧ u.cur.sys.pgrant = 0 ∧ u.cur.vec.vrf = s.cur.vec.vrf) ∧
      (∀ f n, q.op = .pload false true f n → s.settled → s.checkNums k [.src q.a (regElemBytes f) (h.rows * n) 2] false = none → h.aLin = 0 → s.cur.vec.src = [] →
        share fun z _ => z.ka = n ∧ z.ta = f ∧ z.aMem = false ∧ z.acc = h.acc ∧
          z.aBuf.map (fun x => x.code) = (s.elems q.a (regElemBytes f) (h.rows * n)).map fun x => BitVec.ofNat 32 x) ∧
      (∀ f n, q.op = .pload true true f n → s.settled → s.checkNums k [.src q.a (regElemBytes f) (128 * n) 2] false = none → s.bBusy = false → s.cur.vec.src = [] →
        done_ fun u => let z := u.cluster s.cur.id.place.cluster
          u.cur.share = some h ∧ z.kb = n ∧ z.tb = f ∧ z.bMem = false ∧
          z.bBuf.map (fun x => x.code) = (s.elems q.a (regElemBytes f) (128 * n)).map fun x => BitVec.ofNat 32 x) ∧
      (∀ (b : Bool) (f n : Nat) (pa : Nat → Nat → Nat), q.op = .pload b false f n → q.a < 32 → q.b < 32 → q.prog = 0 → n % 32 = 0 →
        q.xa.toNat % groupBytes f = 0 → q.xb.toNat % groupBytes f = 0 → (b = false → h.aLin = 0) → (b = true → s.bBusy = false) →
        let rows := if b = true then 128 else h.rows
        (∀ i < rows, ∀ j < n / 32, s.spot needRd (q.xa + BitVec.ofNat 64 i * q.xb + BitVec.ofNat 64 (j * groupBytes f)) (groupBytes f) 0 = .phys (pa i j) ∧
          pa i j % groupBytes f = 0) →
        (∀ x ∈ s.copies, x.data = s.mem.line x.line) → s.gathered = [] → s.isDet = false → s.cur.det = [] → s.roomFor (rows * (n / 32)) →
        let codes := ((List.range rows).flatMap fun i => (List.range (n / 32)).flatMap fun j => groupCodes f (s.mem.run (pa i j) (groupBytes f))).map
          fun x => BitVec.ofNat 32 x
        (b = false → share fun z _ => z.ka = n ∧ z.ta = f ∧ z.aMem = true ∧ z.acc = h.acc ∧ z.aBuf.map (fun x => x.code) = codes) ∧
        (b = true → done_ fun u => let z := u.cluster s.cur.id.place.cluster
          u.cur.share = some h ∧ z.kb = n ∧ z.tb = f ∧ z.bMem = true ∧ z.bBuf.map (fun x => x.code) = codes)) ∧
      (∀ n, q.op = .pzero n → n < 4 → (h.get n).isOpen = false → (h.get n).lin = 0 → acc n fun a u => a = Acc.init ∧
        bitsOf u.cur.sys.pnan (16 * n) 16 = 0 ∧ u.cur.vec.vrf = s.cur.vec.vrf) ∧
      (∀ n, q.op = .pwracc n → n < 4 → s.settled → (h.get n).isOpen = false → (h.get n).lin = 0 → s.checkNums k [.src q.a 4 k 2, .scalar q.b 3] false = none →
        q.xb.toNat + (k + 127) / 128 ≤ h.rows → k ≤ s.vlmax 4 → acc n fun a u => u.cur.vec.vrf = s.cur.vec.vrf ∧ ∀ i < h.rows * 128,
          accElem a.vals i = if 128 * q.xb.toNat ≤ i ∧ i < 128 * q.xb.toNat + k then BitVec.ofNat 32 ((s.elems q.a 4 k).getD (i - 128 * q.xb.toNat) 0)
            else accElem (h.get n).vals i) ∧
      (∀ n, q.op = .prdacc n → s.settled → (h.get n).isOpen = false → (h.get n).lin = 0 → s.checkNums k [.dst q.d 4 k 1, .scalar q.b 3] false = none →
        q.xb.toNat + (k + 127) / 128 ≤ h.rows → k ≤ s.vlmax 4 → s.cur.vec.vrf.wf → done_ fun u => u.cur.share = some h ∧
          (∀ i < k, (u.elems q.d 4 k).getD i 0 =
            if q.prog ≤ i then (accElem (h.get n).vals (128 * q.xb.toNat + i)).toNat else (s.elems q.d 4 k).getD i 0) ∧
          ∀ x, x < q.d * s.rb ∨ q.d * s.rb + k * 4 ≤ x → u.cur.vec.vrf.read x = s.cur.vec.vrf.read x) ∧
      (∀ sc n koff d, q.op = .pmma sc n koff d → h.ka < koff + d → s.queue = [q] → s.canSave → ∃ u, exec (.vectorInstructionComplete c) s = .next u ∧
        u.cur.sys.cause = 0x8000000000000001 ∧ u.cur.sys.epc = q.pc &&& 0x00FFFFFFFFFFFFFF ∧ u.cur.st = .suspended ∧ u.cur.share = some h ∧
        u.cur.g = s.cur.g) ∧
      (∀ sc n koff d, q.op = .pmma sc n koff d → n < 4 → d % 32 = 0 → s.bBusy = false → h.aLin = 0 → ((h.get n).isOpen = true ∨ (h.get n).lin = 0) →
        let old := if (h.get n).isOpen = true then (h.get n).corr else (h.get n).vals
        let fits := koff + d ≤ h.ka ∧ koff + d ≤ cl.kb ∧ pairs sc h.aMem cl.bMem h.ta cl.tb = true
        (fits → acc n fun a _ => ∀ r < h.rows, ∀ j < 128, accElem (if (h.get n).isOpen = true then a.corr else a.vals) (128 * r + j) =
          BitVec.ofNat 32 (contract q.nanz (accElem old (128 * r + j)).toNat
            ((List.range (d / 32)).map fun g => (group h.aBuf h.ka koff d r g).map (factor sc (pressFmt h.aMem h.ta)))
            ((List.range (d / 32)).map fun g => (group cl.bBuf cl.kb koff d j g).map (factor sc (pressFmt cl.bMem cl.tb)))).1) ∧
        (¬ fits → s.queue = [q] → s.canSave → ∃ u, exec (.vectorInstructionComplete c) s = .next u ∧ u.cur.sys.cause = 0x8000000000000001 ∧
          u.cur.sys.epc = q.pc &&& 0x00FFFFFFFFFFFFFF ∧ u.cur.st = .suspended ∧ u.cur.share = some h ∧ u.cur.g = s.cur.g)) ∧
      (∀ n ln, q.op = .ppub n ln → n < 4 → 1 ≤ ln → ln < 16 → (h.get n).isOpen = false → (h.get n).lin = 0 →
        Tab.get (s.core s.cur.id.place).lins ln = none → acc n fun a u => a = { h.get n with isOpen := true, lin := ln, corr := [], src := [] } ∧
          u.cur.sys.lnact = s.cur.sys.lnact ||| (1 <<< ln) ∧ Tab.get (u.core s.cur.id.place).lins ln = some ⟨c, n, [], none⟩) ∧
      ∀ n, q.op = .pfin n → n < 4 → ((h.get n).isOpen = false → share fun z _ => z = h) ∧
        ((h.get n).isOpen = true → acc n fun a u => a.isOpen = false ∧ a.corr = [] ∧
          (∀ l, Tab.get (s.core s.cur.id.place).lins (h.get n).lin = some l → Tab.get (u.core s.cur.id.place).lins (h.get n).lin =
            some { l with delta := some ((List.range (h.rows * 128)).map (accElem (h.get n).corr)) }) ∧
          ∀ i < h.rows * 128, accElem a.vals i =
            BitVec.ofNat 32 (Fmt.sf.addV (Fmt.sf.decode (accElem (h.get n).vals i).toNat) (Fmt.sf.decode (accElem (h.get n).corr i).toNat)).code)

/-! ### Streams and loops (R166 to R173, R287 to R293, R359, R360) -/

/-- VSTREAM.BIND of a well-formed descriptor binds a stream with no strip read (R287, R288); UNBIND and REWIND of a stream of no gang remove it,
its registers at zero, or begin it anew (R291), with the copies that the cluster L2 holds now stale for it (R129); a strip read ahead (how
far is log entry 41) lands behind those that are there (R289). Nothing else changes but the control. A gang reads nothing before every core of its
mask has bound; UNBIND and REWIND wait until every member has issued them, and then act for all (R130, R292). -/
def Obligations.StreamsAreBoundReadAndUnbound : Prop :=
  ∀ (s : State) (d a b : BitVec 6),
    (∀ p, d.toNat < s.nv → s.usable a → s.usable b → s.gangOk (s.x b.toNat) = true → s.cur.vec.streams.length < 4 → s.vecQuiet = true →
      s.spot needRd (s.x a.toNat) 64 3 = p → (∀ c e, p ≠ .bad c e) → s.memBusy = false →
      let r := s.load false p 64
      let bs := natBytes 64 r.1
      let z := streamOf d.toNat (s.x a.toNat) ((s.x b.toNat).setWidth 4) bs
      s.streamOk z bs = true → (∀ n ∈ z.regs, s.isBuffer n = false ∧ s.isHeld n = false) → (∀ y ∈ s.cur.vec.streams, z.gangOf y = false) →
      ∃ t, exec (.vstreamBind d a b) s = .next t ∧ t.cur.vec.streams = s.cur.vec.streams ++ [{ z with stale := r.2.l2Held }] ∧
        z.popped = 0 ∧ z.ready = [] ∧ (∀ n ∈ z.regs, t.tag n = 0) ∧ t.cur.pc = s.cur.pc + 4 ∧ t.cur.g = s.cur.g ∧
        t.cur.vec.vrf = s.cur.vec.vrf ∧ (s.roomFor 1 → t.mem = s.mem)) ∧
    (∀ x, d.toNat < s.nv → s.cur.wait = none → s.vecQuiet = true → (s.cur.vec.streams.find? fun y => y.reg == d.toNat) = some x → x.mask = 0 →
      ((∀ n ∈ x.regs, s.isHeld n = false) → ∃ t, exec (.vstreamUnbind d) s = .next t ∧ t.cur.vec.streams = (s.cur.vec.streams.filter fun y => decide (y.reg ≠ d.toNat)) ∧
        (∀ n, x.reg * s.rb ≤ n → n < (x.reg + x.nb) * s.rb → t.cur.vec.vrf.read n = 0) ∧
        (∀ n, n < x.reg * s.rb ∨ (x.reg + x.nb) * s.rb ≤ n → t.cur.vec.vrf.read n = s.cur.vec.vrf.read n) ∧
        t.cur.pc = s.cur.pc + 4 ∧ t.cur.g = s.cur.g ∧ t.mem = s.mem) ∧
      ∃ t, exec (.vstreamRewind d) s = .next t ∧ t.cur.pc = s.cur.pc + 4 ∧ t.cur.g = s.cur.g ∧ t.cur.vec.vrf = s.cur.vec.vrf ∧ t.mem = s.mem ∧
        t.cur.vec.streams =
          s.cur.vec.streams.map fun y => if y.reg = d.toNat then { y with popped := 0, ready := [], err := none, stale := s.l2Held } else y) ∧
    (∀ x y, s.cur.st = .running → s.cur.vec.streams = [x] → x.mask = 0 → x.err = none → x.popped + x.ready.length < x.strips →
      x.ready.length + (if x.popped = 0 then 0 else 1) < x.nb → readStrip s x (x.strip (x.popped + x.ready.length)) = .ok y →
      ∃ t, exec (.streamReadahead s.cur.id.ctxid x.reg) s = .next t ∧
        (t.cur.vec.streams.map fun z => { z with stale := [] }) = [{ x with ready := x.ready ++ [y.1], stale := [] }] ∧
        t.cur.pc = s.cur.pc ∧ t.cur.g = s.cur.g ∧ t.cur.vec.vrf = s.cur.vec.vrf) ∧
    ∀ x, (s.cur.vec.streams.find? fun y => y.reg == d.toNat) = some x → x.mask ≠ 0 →
      (s.gangAll x (fun _ => true) = false → exec (.streamReadahead s.cur.id.ctxid d.toNat) s = .next s) ∧
      (d.toNat < s.nv → s.vecQuiet = true → (∀ n ∈ x.regs, s.isHeld n = false) →
        let acts := fun (i : Instr) (rw : Bool) (l : State → List Stream → Stream → List Stream) =>
          (s.cur.wait = none → (s.gangAll x fun t => decide (t.id.ctxid = s.cur.id.ctxid) || decide (t.wait = some (.gang rw x.desc x.mask false))) = false →
            ∃ t, exec i s = .next t ∧ t.cur.wait = some (.gang rw x.desc x.mask false) ∧ t.cur.stalled = true ∧ t.cur.vec = s.cur.vec ∧
              t.cur.pc = s.cur.pc ∧ t.cur.g = s.cur.g ∧ t.mem = s.mem) ∧
          (s.cur.wait = some (.gang rw x.desc x.mask true) → exec i s = .next s.retire) ∧
          ∀ u y, s.cur.wait = none → s.others = [u] → u.st ≠ .free → s.cur.st ≠ .free → u.id.ctxid ≠ s.cur.id.ctxid → s.gang x = [s.cur, u] →
            u.wait = some (.gang rw x.desc x.mask false) → (s.gangAll x fun _ => true) = true → s.cur.vec.streams.find? x.gangOf = some x →
            u.vec.streams.find? x.gangOf = some y →
            ∃ t v, exec i s = .next t ∧ t.others = [v] ∧ t.cur.vec.streams = l s s.cur.vec.streams x ∧ v.vec.streams = l s u.vec.streams y ∧
              v.wait = some (.gang rw x.desc x.mask true) ∧ v.stalled = false ∧ t.cur.pc = s.cur.pc + 4 ∧ t.cur.g = s.cur.g ∧ v.g = u.g ∧
              t.mem = s.mem
        acts (.vstreamUnbind d) false (fun _ l y => l.filter fun w => decide (w.reg ≠ y.reg)) ∧
        acts (.vstreamRewind d) true (fun s l y => l.map fun w =>
          if w.reg = y.reg then { w with popped := 0, ready := [], err := none, stale := s.l2Held } else w))

/-- LMARK of a loop that can be captured opens a demonstration and takes a slot; of another, LSTAT says why not (R166, R174). LEND counts down and
goes back while iterations are left; after the demonstration it waits for the replay, and the lanes are free (R168, R170, R155). An iteration
of the replay advances the collator's copies alone; the last one gives the thread its outcome, and an error of the replay engine a departure at the next iteration (R171 to R173, R221; the order of
reasons is log entry 59). -/
def Obligations.LoopsAreMarkedAndReplayed : Prop :=
  ∀ (s : State) (a : BitVec 6) (d : BitVec 3) (e : BitVec 13),
    (s.usable a → s.cur.loop = none →
      (s.notCaptured (s.x a.toNat).toNat d.toNat = none → ∃ t l, exec (.lmark a d) s = .next t ∧ t.cur.sys.lstate = 1 ∧ t.cur.sys.lwhy = 0 ∧
        t.cur.loop = some l ∧ l.reg = a.toNat ∧ l.pc = s.cur.pc ∧ l.d = d.toNat ∧ l.n = (s.x a.toNat).toNat ∧ l.it = 0 ∧
        (Tab.get t.slots l.slot).getD 0 = (Tab.get s.slots l.slot).getD 0 + 1 ∧ t.cur.pc = s.cur.pc + 4 ∧ t.cur.g = s.cur.g ∧ t.mem = s.mem) ∧
      (∀ w, s.notCaptured (s.x a.toNat).toNat d.toNat = some w → ∃ t, exec (.lmark a d) s = .next t ∧ t.cur.sys.lstate = 6 ∧
        t.cur.sys.lwhy = w ∧ t.cur.loop = none ∧ t.slots = s.slots ∧ t.cur.pc = s.cur.pc + 4 ∧ t.cur.g = s.cur.g ∧ t.mem = s.mem)) ∧
    (let x := s.x a.toNat - 1
     let back := s.cur.pc + BitVec.ofInt 64 (e.toInt * 4)
     s.usable a → s.cur.wait = none → s.cur.sys.lstate ≠ 2 →
     (s.cur.loop = none → back.toNat % 4 = 0 → back.toNat < 0x100000000000000 →
       (x ≠ 0 → exec (.lend a e) s = .next ((s.setX a.toNat x).goto back)) ∧ (x = 0 → exec (.lend a e) s = .next ((s.setX a.toNat x).retire))) ∧
     (∀ l, s.cur.loop = some l → s.cur.sys.lstate = 1 → a.toNat = l.reg → back = l.pc + 4 → endWhy l = none → l.d ≤ l.it + 1 → s.queue = [] →
       ∃ t, exec (.lend a e) s = .next t ∧ t.cur.sys.lstate = 2 ∧ t.cur.wait = some .replay ∧ t.cur.stalled = true ∧ t.cur.pc = s.cur.pc ∧
         (a ≠ 0 → t.x a.toNat = x) ∧ (t.core s.cur.id.place).holder ≠ some s.cur.id.ctxid ∧ t.mem = s.mem)) ∧
    (∀ l, s.cur.loop = some l → s.cur.sys.lstate = 2 → s.cur.st = .running →
      (∃ t, exec (.replayIteration s.cur.id.ctxid true) s = .next t ∧ t.cur.sys.lstate = 5 ∧ t.cur.sys.lwhy = 0x24 ∧
        t.cur.sys.lhand = BitVec.ofNat 32 l.next ∧ t.cur.pc = l.pc + 4 ∧ t.cur.loop = none ∧ t.cur.wait = none ∧ t.mem = s.mem) ∧
      (∀ v, replayBody l l.first (s.asReplay l l.next) = .ok () v →
        (l.next + 1 ≠ l.n → ∃ t m, exec (.replayIteration s.cur.id.ctxid false) s = .next t ∧ t.cur.loop = some m ∧ m.next = l.next + 1 ∧
          t.cur.pc = s.cur.pc ∧ t.cur.g = s.cur.g ∧ t.cur.vec = s.cur.vec) ∧
        (l.next + 1 = l.n → ∃ t, exec (.replayIteration s.cur.id.ctxid false) s = .next t ∧ t.cur.sys.lstate = 3 ∧ t.cur.sys.lwhy = 0 ∧
          t.cur.pc = s.cur.pc + 4 ∧ t.cur.loop = none ∧ t.cur.wait = none)))

/-! ### Lineages and tokens (R72 to R76, R179 to R192, R361 to R365) -/

/-- SETTLE of lineages that are settled goes on (R332). A chase gives every provisional element that carries the lineage its final value, the
provisional one plus its correction rounded once, and frees the lineage (R73, R75); memory and every other element keep what they held. -/
def Obligations.LineagesSettle : Prop :=
  ∀ (s : State),
    (∀ l : BitVec 15, s.cur.id.place.isBase = false → (∀ q ∈ s.queue, ∀ c n, q.op ≠ .ppub c n) →
      s.cur.sys.lnact &&& (l.setWidth 16 <<< 1) = 0 → exec (.settle l) s = .next s.retire) ∧
    (∀ (n : Nat) (l : Lineage) (root : List (BitVec 32)), Tab.get (s.core s.cur.id.place).lins n = some l →
      (Tab.get s.cores s.cur.id.place.coreKey).isSome = true → l.owner = s.cur.id.ctxid → l.delta = some root → s.cur.st = .running → n ≠ 0 →
      s.cur.vec.vrf.wf → ((s.cur.vec.src.filter fun x => decide (s.tag x.1 = n)).map fun x => x.2.1).Nodup →
      ∃ t, exec (.chase s.cur.id.place.coreKey n) s = .next t ∧ Tab.get (t.core s.cur.id.place).lins n = none ∧
        (∀ r, t.tag r ≠ n) ∧ t.cur.sys.lnact.getLsbD n = false ∧
        (∀ x ∈ s.cur.vec.src, s.tag x.1 = n → t.cur.vec.vrf.nat (4 * x.2.1) 4 =
          (correct (s.cur.vec.vrf.nat (4 * x.2.1) 4) (deltaOf root (deltas root l.log).1 x.2.2)).code % 2 ^ 32) ∧
        (∀ b, (∀ x ∈ s.cur.vec.src, s.tag x.1 = n → b < 4 * x.2.1 ∨ 4 * x.2.1 + 4 ≤ b) → t.cur.vec.vrf.read b = s.cur.vec.vrf.read b) ∧
        t.cur.pc = s.cur.pc ∧ t.cur.g = s.cur.g ∧ t.mem = s.mem)

/-- TKSYNC once the verdicts are there, with none that stops: bit i of the mask says whether an action applied to the record of element i, and
PTS is at least the largest timestamp of the verdicts (R189, R365). With stops it raises the catchword trap, with their number, at most 255, as
DETAIL and the record of the lowest-numbered stopped sequence in BADVA, the mask and PTS written before (R190). The bit of an element that came
after a stop of its sequence is log entry 85's. -/
def Obligations.TksyncCollectsTheVerdicts : Prop :=
  ∀ (s : State) (d : BitVec 6), s.cur.id.place.isBase = false → s.seqBase ≠ 0 → d.toNat < 8 → s.queue = [] → s.tokenQuiet = true →
    (s.cur.tok.stopped = [] → s.cur.tok.last.length ≤ 8192 → ∃ t, exec (.tksync d) s = .next t ∧
      (∀ i q, d ≠ 0 → s.cur.tok.last[i]? = some q → t.maskBit d.toNat i = s.cur.tok.acted.contains q) ∧
      t.cur.sys.pts = max s.cur.sys.pts s.cur.tok.ts ∧ t.cur.tok.acted = [] ∧ t.cur.pc = s.cur.pc + 4 ∧ t.cur.g = s.cur.g ∧ t.mem = s.mem) ∧
    (s.cur.tok.stopped ≠ [] → s.canSave → ∃ t q v, exec (.tksync d) s = .next t ∧
      t.cur.sys.cause = BitVec.ofNat 64 (min 255 s.cur.tok.stopped.dedup.length) <<< 8 ||| 7 ∧
      (q, v) ∈ s.cur.tok.stopped ∧ (∀ p ∈ s.cur.tok.stopped, q ≤ p.1) ∧ t.cur.sys.badva = v ∧ t.cur.st = .suspended ∧
      t.cur.resume = s.cur.pc + 4 ∧ t.cur.tok.stopped = [] ∧ t.cur.sys.pts = max s.cur.sys.pts s.cur.tok.ts ∧ t.cur.g = s.cur.g ∧
      (s.cur.tok.last.length ≤ 8192 → ∀ i r, d ≠ 0 → s.cur.tok.last[i]? = some r → t.maskBit d.toNat i = s.cur.tok.acted.contains r))

/-- The token instructions at the head of the queue (R362 to R364): TKEMIT and TKCONF send one token or confirmation for each element from the progress
index on, at the context's PTS, TKARM sends its image and waits for the unit, or answers 1 for an image that is refused, and TKDISARM sends.
The catchword units (R185 to R188, R363): a token for a running sequence with nothing armed is appended at its position, with no hit and no
copy; a draft joins those that the record's draft area holds (R179), and no other byte of memory changes; TKARM's image reaches the record,
its deadline moved to package time (R180), and TKDISARM does. A send processed leaves the unit. A record that one unit holds goes to the unit whose send
of it comes first. Poison is log entry 106. -/
def Obligations.CatchwordUnitsServeTheirSends : Prop :=
  (∀ (s : State) (c : Nat) (q : QEntry), s.heads c q → s.settled → s.cur.id.place.isBase = false → s.seqBase ≠ 0 →
    let k := s.vl
    let sent := fun (n pa : Nat) (op : TwOp) => (⟨s.cur.id.place.sect, c, true, s.cur.id.launch, s.seqBase, n, pa,
      s.pageTag s.xctx (recordVa s.seqBase n), s.cur.sys.pts, op⟩ : TwSend)
    let leaves := fun (l : List TwSend) (p : State → Prop) => ∃ t, exec (.vectorInstructionComplete c) s = .next t ∧ t.sends = s.sends ++ l ∧ p t ∧
      t.mem = s.mem ∧ t.cur.pc = s.cur.pc ∧ t.cur.vec.vrf = s.cur.vec.vrf
    let seq := fun (i : Nat) => (s.elems q.a 4 k).getD i 0 % 65536
    let val := fun (i : Nat) => (s.elems q.b 4 k).getD i 0
    (∀ (op : Nat → TwOp) (pa : Nat → Nat), k ≤ s.vlmax 4 → s.checkNums k [.src q.a 4 k 2, .src q.b 4 k 3] false = none →
      (∀ i < k, q.prog ≤ i → s.recordAt (seq i) (op (val i)) = .ok (pa i)) →
      let l := ((List.range k).drop q.prog).map fun i => sent (seq i) (pa i) (op (val i))
      (∀ d, q.op = .tkemit d → op = (fun x => .token d (BitVec.ofNat 24 x)) → leaves l fun t => t.queue = s.queue.tail ∧ t.cur.g = s.cur.g ∧
        t.cur.tok.last = (List.range k).map fun i => recordVa s.seqBase (seq i)) ∧
      (q.op = .tkconf → op = TwOp.conf → leaves l fun t => t.queue = s.queue.tail ∧ t.cur.g = s.cur.g ∧ t.cur.tok = s.cur.tok)) ∧
    (∀ n w pa, n = selSeq q.xb → w = selEnt q.xb → q.b < 32 →
      (q.op = .tkarm → q.a < 32 → q.d < 32 → q.xa.toNat % 64 = 0 → s.recordAt n (.arm w []) = .ok pa → s.isDet = false → ∀ y, s.spot needRd q.xa 64 3 = .phys y →
        (∀ x ∈ s.copies, x.line = y / 128 → x.data = s.mem.line x.line) → s.gathered = [] → s.cur.det = [] → s.roomFor 1 →
        let img := s.mem.run y 64
        (q.prog = 0 → imageRefused img = true → leaves [] fun t => t.queue = s.queue.tail ∧ (q.d ≠ 0 → t.x q.d = 1)) ∧
        (q.prog = 0 → imageRefused img = false → ∃ t z, exec (.vectorInstructionComplete c) s = .next t ∧ t.sends = s.sends ++ [z] ∧ z.pa = pa ∧ z.op = .arm w img ∧
          z.pts = t.cur.sys.pts ∧ t.queue.head? = some { q with prog := 1 } ∧ t.cur.g = s.cur.g ∧ t.mem = s.mem)) ∧
      (q.op = .tkarm → q.prog ≠ 0 → s.sends = [] → leaves [] fun t => t.queue = s.queue.tail ∧ (q.d ≠ 0 → t.x q.d = 0)) ∧
      (q.op = .tkdisarm → s.recordAt n (.disarm w) = .ok pa → leaves [sent n pa (.disarm w)] fun t => t.queue = s.queue.tail ∧ t.cur.g = s.cur.g))) ∧
  (∀ (s : State) (u : Nat) (x : TwSend), s.unitHead u = some x → s.recordPoison x.pa x.op = false →
    let r := s.seqAt x.pa
    let gone := fun (t : State) => t.sends.length + 1 = s.sends.length
    (∀ k, x.op = .token false k → r.state = 1 → r.arm = 0 → ∃ t v, exec (.catchwordVerdict u) s = .next t ∧ gone t ∧
      t = (s.verdict x r v []).sent u x ∧ v.seq = r.append k.toNat ∧ v.acted = false ∧ v.note = none ∧ v.hits = 0 ∧ v.forkTo = none ∧
      v.stopped = false) ∧
    (∀ k, x.op = .token true k → r.state = 1 → (s.heldDrafts x.pa).length < 8 → s.memWf → x.pa % 128 = 0 → s.undisturbed 1 →
      ∃ t m, exec (.catchwordDraft u) s = .next t ∧ gone t ∧ t.heldDrafts x.pa = s.heldDrafts x.pa ++ [⟨k, m⟩] ∧
        ∀ b, b < x.pa + 0x80 ∨ x.pa + 0x100 ≤ b → t.mem.read b = s.mem.read b) ∧
    (∀ w img, x.op = .arm w img → s.memWf → x.pa % 128 = 0 → w < 16 → img.length = 64 → s.undisturbed 3 → ∃ t, exec (.catchwordArmWrite u) s = .next t ∧ gone t ∧
      t.mem.run (x.pa + 0x400 + 64 * w) 12 = img.take 12 ∧
      t.mem.run (x.pa + 0x400 + 64 * w + 12) 4 = natBytes 4 ((s.cycle / 800 + leNat ((img.drop 12).take 4)) % 2 ^ 32) ∧
      t.mem.run (x.pa + 0x400 + 64 * w + 16) 48 = img.drop 16 ∧ (t.seqAt x.pa).armed w = true) ∧
    (∀ w, x.op = .disarm w → s.memWf → x.pa % 128 = 0 → w < 16 → s.undisturbed 2 → ∃ t, exec (.catchwordArmWrite u) s = .next t ∧ gone t ∧
      (t.seqAt x.pa).armed w = false)) ∧
  ∀ (s : State) (y h : Nat) (z : TwSend), Tab.get s.holders y = some h → (s.sends.find? fun o => o.pa == y) = some z → h ≠ z.sect →
    ∃ t, exec (.catchwordRecordTransfer y z.sect) s = .next t ∧ Tab.get t.holders y = some z.sect ∧
      (∀ k, k ≠ y → Tab.get t.holders k = Tab.get s.holders k) ∧ t.cur.pc = s.cur.pc ∧ t.cur.g = s.cur.g

/-! ### Engines, shadowed buffers and lines (R113 to R127, R134 to R138, R344 to R358) -/

/-- A copy function reads its 128-byte descriptor, queues a command with the channel's next ID and the thread's PTS, and X[D] takes the ID; XFD
does not move (R125, R344). XFWAIT of an ID below XFD ends with PTS raised to the publish timestamps of the channel's commands below
XFD; of another it waits (R126). -/
def Obligations.CopyCommandsIssue : Prop :=
  ∀ (s : State) (d a b : BitVec 6),
    (∀ (i : Instr) (fn : EngFn) (p : Where),
      (i, fn) ∈ [(Instr.cpy d a b, EngFn.cpy), (.cpyf d a b, .cpyf), (.cptile d a b, .cptile), (.cprem d a b, .cprem), (.coll d a b, .coll)] →
      s.usable d → s.usable a → b.toNat < 8 → s.spot needRd (s.x a.toNat) 128 3 = p → (∀ c e, p ≠ .bad c e) → s.memBusy = false →
      (s.cmds.filter fun c => decide (c.owner = s.cur.id.ctxid) && !c.ended).length < 256 →
      let r := s.load false p 128
      let id := s.cur.nextId.toList.getD b.toNat 0
      ∃ t c, exec i s = .next t ∧ t.cmds = r.2.cmds ++ [c] ∧ c.fn = fn ∧ c.desc = copyDescOf fn (natBytes 128 r.1) ∧ c.id = id ∧
        c.ch = b.toNat ∧ c.owner = s.cur.id.ctxid ∧ c.pts = t.cur.sys.pts ∧ c.parts = 0 ∧ c.status = 0 ∧ c.ended = false ∧ c.paused = none ∧
        (d ≠ 0 → t.x d.toNat = BitVec.ofNat 64 id) ∧ t.cur.nextId.toList.getD b.toNat 0 = id + 1 ∧ t.cur.sys.xfd = s.cur.sys.xfd ∧
        t.cur.pc = s.cur.pc + 4 ∧ (s.roomFor 1 → t.mem = s.mem)) ∧
    (let x := s.cur.sys.xfd.toList.getD a.toNat 0
     a.toNat < 8 → s.usable b →
      ((s.x b.toNat).toNat < x.toNat → exec (.xfwait a b) s = .next (s.raisePts (s.cmds.foldl (fun m c =>
          if c.owner = s.cur.id.ctxid ∧ c.ch = a.toNat ∧ c.id < x.toNat then max m c.pubTs else m) 0)).retire) ∧
      (x.toNat ≤ (s.x b.toNat).toNat → ∃ t, exec (.xfwait a b) s = .next t ∧ t.cur.wait = some (.xfer a.toNat (s.x b.toNat)) ∧
        t.cur.stalled = true ∧ t.cur.pc = s.cur.pc ∧ t.cur.g = s.cur.g ∧ t.mem = s.mem))

/-- SYNCW sets TARGET, SHID and PUB, clears COUNT, ERR and OVF and leaves GEN (R354). SYNCWAIT ends with ERR and GEN in X[D] once GEN has reached
the operand or ERR is set, else it waits (R124, R358). PUBLISH swaps a written line of the two copies, and does nothing for an undeclared
handle (R116, R353), with the poison that either carries (R204); a line whose visible copy no table maps stays (R202, log entry 108). SHADOW declares a buffer under a free handle (log entry 8), or answers status 1
for a range that is not whole lines; SHADOW.RELEASE takes one away (R352). -/
def Obligations.SyncWordsAndShadows : Prop :=
  ∀ (s : State) (d a b : BitVec 6),
    (∀ pa, s.usable a → s.usable b → s.memBusy = false → s.memWf → s.spot needRw (s.x a.toNat) 16 3 = .phys pa →
      s.undisturbed 1 →
      let y := s.x b.toNat
      let w := SyncWord.ofNat (s.mem.nat pa 16)
      ∃ t, exec (.syncw a b) s = .next t ∧
        SyncWord.ofNat (t.mem.nat pa 16) = ⟨y.toNat % 2 ^ 32, 0, w.gen, y.getLsbD 48, false, false, bitsOf y 32 16⟩ ∧
        (∀ k, k < pa ∨ pa + 16 ≤ k → t.mem.read k = s.mem.read k) ∧ t.cur.pc = s.cur.pc + 4 ∧ t.cur.g = s.cur.g) ∧
    (∀ pa, s.usable d → s.usable a → s.usable b → s.memBusy = false → s.cur.wait = none → s.spot needRd (s.x a.toNat) 16 3 = .phys pa →
      s.roomFor 1 →
      let w := SyncWord.ofNat (s.mem.nat pa 16)
      (w.err = true ∨ (w.gen + 2 ^ 32 - (s.x b.toNat).toNat % 2 ^ 32) % 2 ^ 32 < 2 ^ 31 → ∃ t, exec (.syncwait d a b) s = .next t ∧
        (d ≠ 0 → t.x d.toNat = BitVec.ofNat 64 (w.gen + if w.err = true then 2 ^ 32 else 0)) ∧ t.cur.pc = s.cur.pc + 4 ∧ t.mem = s.mem) ∧
      (w.err = false → 2 ^ 31 ≤ (w.gen + 2 ^ 32 - (s.x b.toNat).toNat % 2 ^ 32) % 2 ^ 32 → ∃ t, exec (.syncwait d a b) s = .next t ∧
        t.cur.wait ≠ none ∧ t.cur.pc = s.cur.pc ∧ t.cur.g = s.cur.g ∧ t.mem = s.mem)) ∧
    (s.usable a →
     let h := (s.x a.toNat).toNat
     (s.shadow? s.launch.part h = none → exec (.publish a) s = .next s.retire) ∧
     (∀ z n dat w o, s.shadow? s.launch.part h = some z → z.lines = [(n, ⟨dat, true, w, o⟩)] → s.memWf → s.undisturbed 1 →
      (s.visible z (128 * n) = none → exec (.publish a) s = .next s.retire) ∧ ∀ v, s.visible z (128 * n) = some v → v % 128 = 0 →
      ∃ t y, exec (.publish a) s = .next t ∧ t.mem.run v 128 = natBytes 128 dat.toNat ∧
        (∀ k, k < v ∨ v + 128 ≤ k → t.mem.read k = s.mem.read k) ∧ t.shadow? s.launch.part h = some y ∧
        y.lines = [(n, ⟨s.mem.line (v / 128), false, w, (s.line (v / 128)).poison⟩)] ∧ (t.line (v / 128)).poison = o ∧
        (t.line (v / 128)).wts = t.cur.sys.pts ∧ t.cur.pc = s.cur.pc + 4 ∧
        t.cur.g = s.cur.g)) ∧
    (∀ p, s.usable d → s.usable a → s.memBusy = false → s.spot needRd (s.x a.toNat) 32 3 = p → (∀ c e, p ≠ .bad c e) →
      let r := s.load false p 32
      let bs := natBytes 32 r.1
      let v := (wordAt bs 0).toNat
      let k := (wordAt bs 1).toNat
      let n := (wordAt bs 2).toNat
      (v % 128 ≠ 0 ∨ k % 128 ≠ 0 ∨ n % 128 ≠ 0 ∨ n < 128 ∨ 2 ^ 30 < n →
        exec (.shadow d a) s = .next ((r.2.setX d.toNat 0x8000000000000001).retire)) ∧
      (∀ vp sp, v % 128 = 0 → k % 128 = 0 → n % 128 = 0 → 128 ≤ n → n ≤ 2 ^ 30 → r.2.shadowPages v n = .ok vp → r.2.shadowPages k n = .ok sp →
        (v + n ≤ k ∨ k + n ≤ v) → (s.shadows.filter fun z => decide (z.part = s.launch.part)).length < 65536 →
        (∀ z ∈ s.shadows, z.part = s.launch.part → z.asid = s.launch.asid →
          ∀ q ∈ [v, k], overlaps q n z.vbase z.size = false ∧ overlaps q n z.sbase z.size = false) →
        ∃ t h, exec (.shadow d a) s = .next t ∧
          t.shadows = s.shadows ++ [⟨h, s.launch.part, s.launch.asid, v, k, n, wordAt bs 3 &&& ~~~15, (wordAt bs 3).getLsbD 0, vp, sp, []⟩] ∧
          h < 65536 ∧ s.shadow? s.launch.part h = none ∧ (d ≠ 0 → t.x d.toNat = BitVec.ofNat 64 h) ∧ t.cur.pc = s.cur.pc + 4 ∧ (s.roomFor 1 → t.mem = s.mem))) ∧
    (s.usable d → s.usable b →
      let h := (s.x b.toNat).toNat
      (s.shadow? s.launch.part h = none → exec (.shadowRelease d b) s = .next ((s.setX d.toNat 0x8000000000000004).retire)) ∧
      (∀ z, s.shadow? s.launch.part h = some z → s.writesTo s.launch.part h = false → ∃ t, exec (.shadowRelease d b) s = .next t ∧
        t.shadow? s.launch.part h = none ∧ (d ≠ 0 → t.x d.toNat = 0) ∧ t.cur.pc = s.cur.pc + 4 ∧ t.mem = s.mem))

/-- CLEANR writes the dirty lines of its range to DRAM and leaves coherent memory as it was; INVALR gives each line of its range what DRAM holds, at
one timestamp, and discards every private copy (R135, R355). A line evicted is written back whole if dirty, otherwise dropped (R62, R134);
a line poisoned keeps its bytes (R204). -/
def Obligations.LinesAreMaintained : Prop :=
  ∀ (s : State), s.memWf →
    (∀ (a b : BitVec 6) (ps : List PageAt), s.usable a → s.usable b → s.memBusy = false →
      let lo := (s.x a.toNat).toNat / 128 * 128
      let n := if s.x b.toNat = 0 then 0 else ((s.x a.toNat).toNat + (s.x b.toNat).toNat + 127) / 128 * 128 - lo
      (s.range sysRd lo n = .ok ps → ∃ t, exec (.cleanr a b) s = .next t ∧ t.mem = s.mem ∧
        (∀ l ∈ linesBehind ps, (t.line l).dirty = false ∧ ((s.line l).dirty = true → t.dramLine l = s.mem.line l)) ∧
        (∀ l, l ∉ linesBehind ps → t.line l = s.line l) ∧ t.cur.pc = s.cur.pc + 4 ∧ t.cur.g = s.cur.g) ∧
      (s.range sysWr lo n = .ok ps → ∃ t, exec (.invalr a b) s = .next t ∧
        (∀ l ∈ linesBehind ps, t.mem.line l = s.dramLine l ∧ (t.line l).wts = t.cur.sys.pts ∧ (t.line l).rts = t.cur.sys.pts ∧
          (t.line l).cached = false ∧ ∀ c ∈ t.copies, c.line ≠ l) ∧
        (∀ k, k / 128 ∉ linesBehind ps → t.mem.read k = s.mem.read k) ∧ t.cur.pc = s.cur.pc + 4 ∧ t.cur.g = s.cur.g)) ∧
    (∀ k, s.isMemory k = true → ∃ t, exec (.linePoison k) s = .next t ∧ (t.line (k / 128)).poison = true ∧ t.mem = s.mem ∧ t.cur = s.cur ∧
      ∀ l, l ≠ k / 128 → t.line l = s.line l) ∧
    (∀ k, (s.line (k / 128)).cached = true → ∃ t, exec (.lineEviction k) s = .next t ∧ (t.line (k / 128)).cached = false ∧
      (t.line (k / 128)).scales = none ∧ t.mem.line (k / 128) = (if (s.line (k / 128)).dirty = true then s.mem.line (k / 128)
        else s.dramLine (k / 128)) ∧ t.dramLine (k / 128) = t.mem.line (k / 128) ∧
      (∀ j, j / 128 ≠ k / 128 → t.mem.read j = s.mem.read j) ∧ t.cur = s.cur)

/-- SyncCount (R122). A part is written to its destination, then counted in the sync word (R345); a command with nothing left writes its record
and ends, XFD moving on (R125, R346); one that is refused ends with its status (R347); one at a fault pauses with an ENGFLT record, and keeps
what it has written and counted (R222). A repair counts nothing again. A message of another module acts once the link has accepted it (R223):
a part of a push lands in the shadow and is counted once, one of a push that goes beyond its buffer or that has failed writes nothing there, a
failure at the sender sets ERR (R123), a fault of the sync word or of the buffer's address pauses the push where its parts arrive (R113, R196), and its parts wait
until the kernel has answered, and a contribution is kept once (R114, R221,
R350, R351). The model's choices are that a push is judged by its whole range (log entry 53), how the receiver learns that one failed at its
sender (log entry 110), and how one pauses at the receiver (log entry 109). -/
def Obligations.EnginesRunCommands : Prop :=
  (∀ (w : SyncWord) (n : Nat), w.target < 2 ^ 32 →
    (w.target = 0 → w.count + n < 2 ^ 32 → w.counted n = ({ w with count := w.count + n }, false)) ∧
    (w.target = 0 → 2 ^ 32 ≤ w.count + n → w.counted n = ({ w with count := 2 ^ 32 - 1, ovf := true }, false)) ∧
    (w.target ≠ 0 → w.count + n < w.target → w.counted n = ({ w with count := w.count + n }, false)) ∧
    (w.target ≠ 0 → w.count + n = w.target → w.counted n = ({ w with count := 0, gen := (w.gen + 1) % 2 ^ 32 }, true)) ∧
    (w.target ≠ 0 → w.target < w.count + n → w.count + n - w.target < 2 ^ 32 →
      w.counted n = ({ w with count := w.count + n - w.target, gen := (w.gen + 1) % 2 ^ 32, ovf := true }, true))) ∧
  (∀ (s : State) (n : Nat) (c : Cmd), s.runs n = some c → c.ended = false →
    let m := s.members c
    let now := fun (t : State) => t.cmds.find? fun x => decide (x.key = n)
    let runsOn := c.status = 0 ∧ c.settled = false ∧ c.fn ≠ .cprem ∧ (c.fn = .coll → c.result ≠ none) ∧ c.parts < c.partCount m
    exec (.engineErrorRepair n) s = .next s ∧
    (∀ (ws : List (Int × List Byte)) (o z : Cmd × State) (t : State), runsOn → c.wrote = false → (c.parts = 0 → s.refusal c = 0) →
      partData (c, s) (c.toWrite (s.destOf c) m) = .ok (ws, o) →
      ws.foldl (fun (e : Eng Run) w => e.andThen fun y => engWrite y (s.destOf c) w.1 w.2) (.ok o) = .ok z →
      countPart ({ z.1 with wrote := true, bytes := z.1.bytes + (c.toWrite (s.destOf c) m).length * c.dsz }, z.2) = .part t → exec (.syncCount n) s = .next t) ∧
    (∀ pa, runsOn → c.wrote = true → c.desc.sync ≠ 0 → s.xlate (s.cmdCtx c) sysRw c.desc.sync = .phys pa → pa % 16 = 0 →
      s.poisoned pa = false → s.memWf → s.undisturbed 1 →
      let k := (c.partElems m).length * c.dsz
      let u := (SyncWord.ofNat (s.mem.nat pa 16)).counted k
      u.1.pub = false → ∃ t x, exec (.syncCount n) s = .next t ∧ SyncWord.ofNat (t.mem.nat pa 16) = u.1 ∧
        now t = some x ∧ x.parts = c.parts + 1 ∧ x.bytes = c.bytes ∧ x.wrote = false ∧ x.ended = false ∧
        ∀ j, j < pa ∨ pa + 16 ≤ j → t.mem.read j = s.mem.read j) ∧
    (∀ pa, c.status = 0 → c.settled = false → c.parts ≠ 0 → c.partCount m ≤ c.parts → c.fn ≠ .cprem → c.desc.pubc = false →
      c.desc.crec ≠ 0 → c.desc.crec.toNat % 32 = 0 → pa % 32 = 0 → s.xlate (s.cmdCtx c) sysWr c.desc.crec = .phys pa →
      s.poisoned pa = false → s.memWf → s.undisturbed 1 →
      ∃ t x, exec (.engineCommandComplete n) s = .next t ∧ now t = some x ∧ x.ended = true ∧ x.status = 0 ∧
        t.mem.run pa 32 = recordBytes (if c.fn = .coll then c.dev else 0) c.flags 0 c.id c.bytes ∧
        (s.cur.id.ctxid = c.owner → c.ch < 8 → (∀ y ∈ s.cmds, y.owner = c.owner → y.ch = c.ch → y.ended = false → y.key = n) →
          t.cur.sys.xfd.toList.getD c.ch 0 = BitVec.ofNat 64 (s.cur.nextId.toList.getD c.ch 0))) ∧
    (∀ k, c.status = 0 → c.settled = false → c.wrote = false → c.parts = 0 → s.refusal c = k → k ≠ 0 → s.syncOf c = none → c.desc.crec = 0 →
      ∃ t x, exec (.engineCommandComplete n) s = .next t ∧ now t = some x ∧ x.ended = true ∧ x.status = k ∧ t.mem = s.mem) ∧
    (∀ r k e v p, s.engNext c = .fault r k e v → r.1.key = n → (∃ y ∈ r.2.cmds, y.key = n) → r.2.part? (s.cmdPart r.1) = some p →
      ∃ t x y, exec (.engineFaultPause n) s = .next t ∧ now t = some x ∧ x.paused = some (k, e, v) ∧ x.parts = r.1.parts ∧
        x.bytes = r.1.bytes ∧ x.ended = r.1.ended ∧ t.mem = r.2.mem ∧ t.shadows = r.2.shadows ∧
        (t.part? p.idx).map (fun q => q.pending) = some (p.pending ++ [y]) ∧ y.type = 3 ∧ y.ctxid = r.1.owner ∧ y.id = r.1.id ∧ y.ch = r.1.ch ∧
        y.badva = v)) ∧
  (∀ (s : State) (x : RemotePart),
    let mark := (x.src, x.ch, x.id, x.part)
    let u : State := { s with link := { s.link with inbox := s.link.inbox.erase (.part x) } }
    let reached := ∀ z, s.pushBuffer x.dom x.handle = some z → ∃ pa, s.xlate ⟨z.part, z.asid, 0xFFFFFFFF, none, 0⟩ sysRw z.sync = .phys pa
    (.part x ∉ s.link.inbox → exec (.remotePartReceive x) s = .next s) ∧
    (.part x ∈ s.link.inbox → mark ∈ s.link.seen → exec (.remotePartReceive x) s = .next u) ∧
    (.part x ∈ s.link.inbox → mark ∉ s.link.seen → s.link.failed x = none → x.ends = none → s.link.held.any (samePush x) = false →
      s.pushTarget x.dom x.handle (x.lo, x.hi) = none → reached → ∃ t, exec (.remotePartReceive x) s = .next t ∧ t.shadows = (s.cancelLines (pushWriter x)).shadows ∧ mark ∈ t.link.seen ∧
        (t.link.failed x).isSome = true ∧ (s.pushBuffer x.dom x.handle = none → t.mem = s.mem) ∧ t.cur.g = s.cur.g) ∧
    (.part x ∈ s.link.inbox → mark ∉ s.link.seen → (s.link.failed x).isSome = true → ∃ t, exec (.remotePartReceive x) s = .next t ∧
      t.shadows = s.shadows ∧ t.mem = s.mem ∧ mark ∈ t.link.seen) ∧
    (∀ z k d p, .part x ∈ s.link.inbox → mark ∉ s.link.seen → s.link.failed x = none → x.ends ≠ some false → s.pushBuffer x.dom x.handle = some z →
      s.xlate ⟨z.part, z.asid, 0xFFFFFFFF, none, 0⟩ sysRw z.sync = .bad k d → s.part? x.dom = some p → s.link.held = [] → x.runs = [] →
      ∃ t y, exec (.remotePartReceive x) s = .next t ∧ t.link.held = [x] ∧ .part x ∈ t.link.inbox ∧ mark ∉ t.link.seen ∧
        (t.part? p.idx).map (fun q => q.pending) = some (p.pending ++ [y]) ∧ y.type = 3 ∧ y.ctxid = x.src ∧ y.id = x.id ∧ y.ch = x.ch ∧
        y.badva = z.sync ∧ t.mem = s.mem ∧ exec (.remotePartReceive x) t = .next t) ∧
    (∀ z pa, .part x ∈ s.link.inbox → mark ∉ s.link.seen → s.link.failed x = none → x.ends = some true → s.pushBuffer x.dom x.handle = some z →
      s.xlate ⟨z.part, z.asid, 0xFFFFFFFF, none, 0⟩ sysRw z.sync = .phys pa → pa % 16 = 0 → s.poisoned pa = false → s.memWf → s.undisturbed 1 →
      ∃ t, exec (.remotePartReceive x) s = .next t ∧ (t.link.failed x).isSome = true ∧
        SyncWord.ofNat (t.mem.nat pa 16) = { SyncWord.ofNat (s.mem.nat pa 16) with err := true } ∧
        ∀ j, j < pa ∨ pa + 16 ≤ j → t.mem.read j = s.mem.read j) ∧
    (.part x ∈ s.link.inbox → mark ∉ s.link.seen → s.link.failed x = none → x.ends = none → s.link.held.any (samePush x) = true →
      exec (.remotePartReceive x) s = .next s) ∧
    (∀ z k d v p, .part x ∈ s.link.inbox → mark ∉ s.link.seen → s.link.failed x = none → x.ends = none → s.pushTarget x.dom x.handle (x.lo, x.hi) = some z →
      s.pushFault z x.runs = some (k, d, v) → s.part? x.dom = some p → s.link.held = [] →
      ∃ t y, exec (.remotePartReceive x) s = .next t ∧ t.link.held = [x] ∧ t.shadows = s.shadows ∧ t.mem = s.mem ∧
        (t.part? p.idx).map (fun q => q.pending) = some (p.pending ++ [y]) ∧ y.type = 3 ∧ y.ctxid = x.src ∧ y.id = x.id ∧ y.badva = v) ∧
    (∀ z o bs pa, .part x ∈ s.link.inbox → mark ∉ s.link.seen → s.link.failed x = none → x.ends = none → s.link.held.any (samePush x) = false →
      s.pushTarget x.dom x.handle (x.lo, x.hi) = some z → s.pushFault z x.runs = none → x.pubc = false →
      x.runs = [(o, bs)] → bs ≠ [] → o % 128 + bs.length ≤ 128 →
      s.xlate ⟨z.part, z.asid, 0xFFFFFFFF, none, 0⟩ sysRw z.sync = .phys pa → pa % 16 = 0 → s.poisoned pa = false → s.memWf →
      s.undisturbed 1 →
      let w := (SyncWord.ofNat (s.mem.nat pa 16)).counted bs.length
      w.1.pub = false → ∃ t y l, exec (.remotePartReceive x) s = .next t ∧ SyncWord.ofNat (t.mem.nat pa 16) = w.1 ∧
        t.shadow? x.dom x.handle = some y ∧ Tab.get y.lines (o / 128) = some l ∧ l.written = true ∧
        lineBytes l.data (o % 128) bs.length = bs ∧ mark ∈ t.link.seen ∧ t.cur.g = s.cur.g)) ∧
  ∀ (s : State) (x : CollPart),
    let had := s.link.contribs.any fun y => decide (y.grp = x.grp ∧ y.seq = x.seq ∧ y.dev = x.dev)
    let u : State := { s with link := { s.link with inbox := s.link.inbox.erase (.contribution x) } }
    (.contribution x ∉ s.link.inbox → exec (.collContributionReceive x) s = .next s) ∧
    (.contribution x ∈ s.link.inbox → had = true → exec (.collContributionReceive x) s = .next u) ∧
    (.contribution x ∈ s.link.inbox → had = false → ∃ t, exec (.collContributionReceive x) s = .next t ∧
      t.link.contribs = s.link.contribs ++ [x] ∧ t.link.inbox = u.link.inbox ∧ t.mem = s.mem ∧ t.cur = s.cur)

/-! ### Banks (R136 to R138, R202, R203, R356 to R358) -/

/-- BANKCMD of a descriptor that its fields make invalid, or whose ranges are translated, queues a command with the thread's next tag, pinning its
pages, and X[D] takes the tag (R137, R356). BANKWAIT gives the status of its tag once every command up to it has ended, or 7 for a tag not
given out (R358). A command completes by producing its rows, pauses at a resume index and continues, or reruns (R138, R221); one that pins
too long aborts (R203), and an invalidation that nothing holds up any more is over as the next step begins (R202). That a bad descriptor is queued with
status 7, and that only its record's page is translated then, are the model's choice (log entries 57, 58). -/
def Obligations.BankCommandsRun : Prop :=
  ∀ (s : State),
    (∀ (d a : BitVec 6) (p : Where), s.usable d → s.usable a → s.spot needRd (s.x a.toNat) 128 3 = p → (∀ c e, p ≠ .bad c e) →
      s.memBusy = false →
      let r := s.load false p 128
      let z := bankDescOf (natBytes 128 r.1)
      let rec_ := fun (e : List PageAt) =>
        (if z.crec = 0 ∨ z.crec.toNat % 32 ≠ 0 then .ok [] else rangesOf r.2 bankWr [(z.crec.toNat, 32)]) = .ok e
      let queues := fun (p : BankCmd → Prop) => ∃ t k, exec (.bankcmd d a) s = .next t ∧ t.banks = r.2.banks ++ [k] ∧ k.desc = z ∧
        k.tag = s.cur.nextTag ∧ k.owner = s.cur.id.ctxid ∧ k.resume = z.rstart ∧ k.ended = false ∧ k.paused = false ∧ p k ∧
        (d ≠ 0 → t.x d.toNat = BitVec.ofNat 64 s.cur.nextTag) ∧ t.cur.nextTag = s.cur.nextTag + 1 ∧ t.cur.pc = s.cur.pc + 4 ∧
        (s.roomFor 1 → t.mem = s.mem)
      (∀ e, z.bad = true → rec_ e → queues fun k => k.status = 7 ∧ k.pins = pinsOf e) ∧
      (∀ w c v y e, z.bad = false → rangesOf r.2 bankRd z.weights = .ok w → rangesOf r.2 bankRd z.scales = .ok c →
        rangesOf r.2 bankRd z.seconds = .ok v → rangesOf r.2 bankWr [z.output] = .ok y →
        rec_ e → (∀ p ∈ w ++ v ++ c ++ y ++ e, r.2.bankPage p = true) →
        (z.mode = 3 → r.2.oneStack (w ++ v) = true) → (z.mode = 4 → r.2.oneStack (w ++ v ++ y) = true) →
        queues fun k => k.status = 0 ∧ k.pins = pinsOf (w ++ v ++ c ++ y ++ e))) ∧
    (∀ (d a : BitVec 6), s.usable d → s.usable a →
      let x := (s.x a.toNat).toNat
      let over_ := ∀ k ∈ s.banks, k.owner = s.cur.id.ctxid → k.tag ≤ x → k.ended = true
      (s.cur.nextTag ≤ x → exec (.bankwait d a) s = .next ((s.setX d.toNat 7).retire)) ∧
      (∀ k, x < s.cur.nextTag → over_ → (s.banks.find? fun k => decide (k.owner = s.cur.id.ctxid ∧ k.tag = x)) = some k →
        exec (.bankwait d a) s = .next ((s.setX d.toNat (BitVec.ofNat 64 k.status)).retire)) ∧
      (x < s.cur.nextTag → ¬ over_ → ∃ t, exec (.bankwait d a) s = .next t ∧ t.cur.wait = some (.banks (s.x a.toNat)) ∧ t.cur.pc = s.cur.pc ∧
        t.cur.g = s.cur.g ∧ t.mem = s.mem)) ∧
    (∀ (n : Nat) (k : BankCmd), s.bankRuns n = some k →
      let now := fun (t : State) => t.banks.find? fun x => decide (x.key = n)
      exec (.bankUnitError n) s = .next s ∧
      (k.paused = true → ∃ t x, exec (.bankCommandContinue n) s = .next t ∧ now t = some x ∧ x.paused = false ∧ x.resume = k.resume ∧
        t.mem = s.mem ∧ t.cur = s.cur) ∧
      (∀ r, k.paused = false → k.status = 0 → k.resume ≤ r → r < k.desc.total → (produceRows (r - k.resume) k s).1.status = 0 →
        ∃ t x, exec (.bankCommandPause n r) s = .next t ∧ now t = some x ∧ x.paused = true ∧ x.resume = r ∧ x.ended = false ∧ t.cur = s.cur) ∧
      (∀ m, k.paused = false → k.status = m → m ≠ 0 → ∃ t x, exec (.bankCommandComplete n) s = .next t ∧ now t = some x ∧ x.ended = true ∧
        x.status = m ∧ x.pins = [] ∧ (k.desc.crec = 0 → t.mem = s.mem) ∧
        ∀ pa, k.desc.crec ≠ 0 → k.desc.crec.toNat % 32 = 0 → k.at_ k.desc.crec.toNat = some pa → pa % 32 = 0 → s.poisoned pa = false → s.memWf →
          s.undisturbed 1 → t.mem.run pa 32 = recordBytes 0 k.flags m k.tag k.resume) ∧
      (∀ z pa, k.paused = false → k.status = 0 → k.desc.crec = 0 → k.desc.mode ≠ 4 → k.resume + 1 = k.desc.total → k.row s k.resume = some z →
        (k.desc.y.toNat + 4 * k.resume) % 4 = 0 → k.at_ (k.desc.y.toNat + 4 * k.resume) = some pa → pa % 4 = 0 → s.memWf →
        ((s.line (pa / 128)).cached = true ∨ (s.line (pa / 128)).under = none) →
        ∃ t x, exec (.bankCommandComplete n) s = .next t ∧ now t = some x ∧ x.ended = true ∧ x.status = 0 ∧ x.resume = k.desc.total ∧
          x.pins = [] ∧ t.dramBytes pa 4 = natBytes 4 z.code ∧ t.cur = s.cur)) ∧
    (∀ (p : Part) (v : Inval) (k : BankCmd), s.part? p.idx = some p → p.inval = some v → p.k.pintmo ≠ 0 →
      v.start + 800 * p.k.pintmo.toNat ≤ s.cycle → s.pinners p.idx v = [k] → k.desc.crec = 0 →
      ∃ t x q e, exec (.pinTimeoutAbort p.idx) s = .next t ∧ (t.banks.find? fun x => decide (x.key = k.key)) = some x ∧ x.ended = true ∧
        x.status = 6 ∧ x.resume = k.resume ∧ x.pins = [] ∧ t.part? p.idx = some q ∧ t.pinners p.idx v = [] ∧ q.inval = p.inval ∧
        q.k.tinvc.getLsbD 61 = true ∧ q.pending = p.pending ++ [e] ∧ e.type = 4 ∧ e.ctxid = k.owner ∧ e.epc = k.pc ∧ e.id = k.resume ∧
        t.mem = s.mem ∧ t.cur = s.cur) ∧
    (∀ (p : Part) (v : Inval), s.part? p.idx = some p → p.inval = some v → s.pinners p.idx v = [] → s.unperformed p.idx v = false →
      ∃ q, s.settleInvals.part? p.idx = some q ∧ q.inval = none ∧ q.k.tinvc.getLsbD 62 = false ∧
        q.k.tinvc.getLsbD 61 = p.k.tinvc.getLsbD 61)

/-! ### The dispatcher (R148 to R155, R159, R216 to R220) -/

/-- The head of a priority's queue that can be admitted, with none such of a higher priority, is admitted, and its queues' control blocks are cleared
(R148, R144), and in a launch of the host written back (R377). Its next thread takes a vacant context with ARGP in g1, the top of
its stack in g30 and the launch timestamp in PTS (R13, R140, R149, R370; when a launch can be admitted and who waits are log entries 63, 64 and 93); a runnable thread takes one with the resume address and
the registers of its image (R216, R217, R219; where the control area holds the address is log entry 14), or is killed where the image is poisoned
(R204). A slice that ends, or a thread that gives way, leaves the context saved (R153, R216); one that could run keeps its place and what is left of
its slice (log entry 64); a saved waiter that is satisfied
becomes runnable, or the kernel is told (R159, R220). -/
def Obligations.TheDispatcherPlacesThreads : Prop :=
  ∀ (s : State),
    (∀ (l : Nat) (x : Launch), s.launchOf l = x → x ∈ s.launches → x.id = l → x.queuedIn x.part = true → s.admissible x = true →
      (∀ o ∈ s.launches, o.queuedIn x.part = true → x.lrec.prio < o.lrec.prio → s.admissible o = false) →
      (let u := x.lrec.queues.foldl (fun (s : State) q => s.clearQueue (s.launchOf l) q) (s.wake.modLaunch l fun o => { o with admitted := true })
       exec (.launchAdmit l) s = .next (if x.host.isSome = true then u.cleanImages x.part x.asid else u)) ∧
      (x.lrec.queues = [] → ∃ t, exec (.launchAdmit l) s = .next t ∧ t.launchOf l = { x with admitted := true } ∧
        (∀ m, m ≠ l → t.launchOf m = s.launchOf m) ∧ t.mem = s.mem ∧ t.cur = s.cur)) ∧
    (∀ (l : Launch) (p : Place) (c g q : Nat) (z : Part), s.launchOf l.id = l → l.holds = true → l.killed = false → l.nextStage = some g →
      l.made[g]? = some q → (s.instOf l (l.lrec.coords q)).isSome = true → l.lrec.gangLevel g = none → 0 < c → c < 65536 → s.live c = false →
      s.vacant p = true → s.mayStand l (l.lrec.coords q) p = true → s.stageRoom l g 1 = true →
      (s.threads.filter fun t => decide (t.st ≠ .free)).length < 65535 → (∀ t ∈ s.candidates p, t.sys.eprio.toNat ≤ l.lrec.prio) →
      s.part? l.part = some z → s.isMemory (z.tableEntry c) = true →
      ∃ t, exec (.threadCreate l.id p c) s = .next t ∧ t.cur.st = .running ∧ t.cur.id.ctxid = c ∧ t.cur.id.place = p ∧ t.cur.id.launch = l.id ∧
        t.cur.id.stage = g ∧ t.cur.id.lthr = q ∧ some t.cur.pc = ((l.lrec.stages[g]?).map fun y => y.entry) ∧ t.x 1 = l.lrec.argp ∧
        (l.lrec.stksz ≠ 0 → t.x 30 = l.lrec.stkb + BitVec.ofNat 64 ((l.lrec.base g + q + 1) * l.lrec.stksz)) ∧
        (∀ n, n ≠ 1 → n ≠ 30 → t.x n = 0) ∧ t.cur.sys.pts = l.ts ∧ t.cur.sys.nvreg = 32 ∧
        (∀ n : Fin 8, t.cur.sys.lv[n] = ((l.lrec.coords q)[n.val]?).getD 0) ∧ t.cur.vec = Vec.init ∧
        (t.launchOf l.id).made[g]? = some (q + 1)) ∧
    (∀ (c : Nat) (p : Place) (z : Part), s.cur.id.ctxid = c → s.vacant p = true → s.cur ∈ s.candidates p →
      (∀ u ∈ s.candidates p, s.rank s.cur ≤ s.rank u) → s.savedGang s.cur = [] → s.curPart = some z → s.isMemory (z.tableEntry c) = true →
      s.isMemory (s.imageBase z c) = true → s.overtakes s.cur = false → s.creationDue p s.cur = false →
      (s.imagePoisoned (s.imageBase z c) = true → ∀ t, exec (.restore c p) s = .next t → t.cur.st = .free) ∧
      (s.imagePoisoned (s.imageBase z c) = false → ∃ t, exec (.restore c p) s = .next t ∧ t.cur.st = .running ∧ t.cur.id = { s.cur.id with place := p } ∧
        t.cur.pc = s.mem.word (s.imageBase z c + 0x10) ∧
        (∀ n, 0 < n → n < 32 → t.x n = s.mem.word (s.imageBase z c + 0x100 + 8 * n)) ∧ t.cur.sliceAt = s.cycle - s.cur.sliceUsed ∧
        ∀ n : Fin 8, n.val < s.cur.id.lv.length → t.cur.sys.lv[n] = (s.mem.word (s.imageBase z c + 0x2E8 + 8 * n.val)).setWidth 32)) ∧
    (∀ c, s.cur.id.ctxid = c → s.cur.st = .running → s.alone → s.canSave →
      let leaves := fun (i : Instr) (more : State → Prop) => ∃ t, exec i s = .next t ∧ t.cur.id = s.cur.id ∧
        t.cur.st = (if s.cur.waiting = true then TState.savedWaiting else .saved) ∧ t.cur.resume = s.cur.pc ∧ t.cur.g = s.cur.g ∧ more t
      (s.givesWay = true → leaves (.preemption c) fun t => (s.cur.waiting = false → s.cycle < s.cur.sliceAt + Config.sliceCycles →
          t.cur.turn = s.cur.turn ∧ t.cur.sliceUsed = s.cycle - s.cur.sliceAt) ∧
        (s.cur.waiting = true ∨ s.cur.sliceAt + Config.sliceCycles ≤ s.cycle → s.cur.turn < t.cur.turn)) ∧
      (∀ l ∈ s.launches, s.cur.waiting = false → s.cur.sliceAt + Config.sliceCycles ≤ s.cycle →
        s.withoutGang.creatable s.cur.id.place l = true → l.lrec.prio = s.cur.sys.eprio.toNat → (∀ t ∈ s.threads, t.sys.eprio.toNat ≤ l.lrec.prio) →
        leaves (.timeSliceEnd c) fun t => s.cur.turn < t.cur.turn)) ∧
    (∀ (c : Nat) (z : Part), s.cur.id.ctxid = c → s.cur.st = .savedWaiting → s.wakes = true → s.curPart = some z →
      s.isMemory (z.tableEntry c) = true → s.memWf →
      let e := z.tableEntry c
      ((s.mem.word e).getLsbD 63 = true → ∃ t, exec (.savedWaiterWake c) s = .next t ∧ t.cur.st = .saved ∧ bitsOf (t.mem.word e) 60 3 = 2 ∧
        t.cur.g = s.cur.g) ∧
      ((s.mem.word e).getLsbD 63 = false → (s.mem.word (e + 8)).getLsbD 63 = false → ∃ t r, exec (.savedWaiterWake c) s = .next t ∧
        t.cur = s.cur ∧ (t.mem.word (e + 8)).getLsbD 63 = true ∧ (t.part? z.idx).map (fun q => q.pending) = some (z.pending ++ [r]) ∧
        r.type = 2 ∧ r.ctxid = c))

/-- The lanes (R154, R155): a holder at the end of its slice queues behind the waiters of its own priority, and the waiter of the highest priority takes
them; the borrower returns them once the lender has its replay's outcome; a grant of a quarter, a half, three quarters or all of the lanes changes nothing but the grant. -/
def Obligations.LanesChangeHands : Prop :=
  ∀ (s : State) (c : Nat), s.cur.id.ctxid = c →
    (let k := s.core s.cur.id.place
     s.cur.st = .running → s.queue = [] → k.holder = some c →
      (∀ w ∈ k.waiters, w ≠ c → k.since + Config.sliceCycles ≤ s.cycle →
        ∃ t h, exec (.laneSliceEnd c) s = .next t ∧ (t.core s.cur.id.place).holder = some h ∧ t.cur = s.cur ∧ t.mem = s.mem ∧
          (s.lenderBack k = none → (h ∈ k.waiters ∨ h = c) ∧ (∀ w ∈ k.waiters, s.eprioOf w ≤ s.eprioOf h) ∧
            (h = c → ∀ w ∈ k.waiters, w ≠ c → s.eprioOf w < s.eprioOf c) ∧ (h ≠ c → c ∈ (t.core s.cur.id.place).waiters))) ∧
      (∀ l u rest, k.lenders = l :: rest → l ≠ c → s.thread? l = some u → u.sys.lstate ≠ 2 → ∃ t, exec (.laneHandover c) s = .next t ∧
        (t.core s.cur.id.place).holder = some l ∧ l ∉ (t.core s.cur.id.place).lenders ∧ t.cur = s.cur ∧ t.mem = s.mem)) ∧
    (∀ k n, (isBaseKey k = false ∧ n ∈ [16, 32, 48, 64] ∨ isBaseKey k = true ∧ n ∈ [4, 8, 12, 16]) →
      ∃ t, exec (.laneGrantChange k n) s = .next t ∧
        Tab.get t.cores k = some { (Tab.get s.cores k).getD (Core.init (isBaseKey k)) with grant := n } ∧
        (∀ j, j ≠ k → Tab.get t.cores j = Tab.get s.cores j) ∧ t.cur = s.cur ∧ t.mem = s.mem)

/-! ### The resident kernel's registers and commands (R101, R202, R212 to R214, R220, R225, R230) -/

/-- KCMD (R213): KILL, as an error in a context's state does, ends the thread, its commands and its lanes (R204, R225); SAVE leaves it saved; ENGRES lets
a paused engine command go on and ENGABT ends it with FAULT; a command that names none is refused
(log entry 61). -/
def Obligations.TheKernelCommands : Prop :=
  ∀ (s : State) (p : Part) (c : Nat), s.part? p.idx = some p → p.kcmdBusy = false → c < 65536 →
    (s.cur.id.ctxid = c → s.cur.st ≠ .free → s.launch.part = p.idx → s.isMemory (p.tableEntry c) = true →
      ∀ i ∈ [Instr.kcmdKill p.idx c, .contextStateError c], ∃ t, exec i s = .next t ∧ t.cur.st = .free ∧ t.cur.vec.queue = [] ∧
        (t.core s.cur.id.place).holder ≠ some c ∧ (∀ x ∈ t.cmds, x.owner ≠ c) ∧ ∀ x ∈ t.banks, x.owner ≠ c) ∧
    (s.cur.id.ctxid = c → s.cur.st = .running → s.launch.part = p.idx → s.alone → s.canSave →
      ∃ t, exec (.kcmdSave p.idx c) s = .next t ∧ t.cur.st = (if s.cur.waiting = true then TState.savedWaiting else .saved) ∧
        t.cur.resume = s.cur.pc ∧ t.cur.g = s.cur.g ∧ (t.core s.cur.id.place).holder ≠ some c) ∧
    (∀ ch x, ch < 8 → s.pausedCmd p.idx c ch p.k.karg = some x →
      let now := fun (t : State) => t.cmds.find? fun y => decide (y.key = x.key)
      (∃ t y, exec (.kcmdEngres p.idx c ch) s = .next t ∧ now t = some y ∧ y.paused = none ∧ y.parts = x.parts ∧ y.ended = false ∧ t.mem = s.mem ∧
        t.cur = s.cur) ∧
      (s.syncOf x = none → x.desc.crec = 0 → ∃ t y, exec (.kcmdEngabt p.idx c ch) s = .next t ∧ now t = some y ∧ y.ended = true ∧ y.status = 4 ∧
        t.mem = s.mem)) ∧
    (s.thread? c = none → (∀ x ∈ s.cmds, x.owner ≠ c) → s.link.held = [] → ∀ ch, ∀ i ∈ [Instr.kcmdResume p.idx c, .kcmdKill p.idx c, .kcmdSave p.idx c,
        .kcmdEngres p.idx c ch, .kcmdEngabt p.idx c ch], ∃ t q, exec i s = .next t ∧ t.part? p.idx = some q ∧ q.k.kcmd.getLsbD 61 = true ∧
      q.k.kcmd.getLsbD 63 = false ∧ t.cur = s.cur ∧ t.mem = s.mem)

/-- The registers of a partition and of the package: an event record goes to the queue (R214); RES makes a waiter whose WAKE is set runnable (R220); an
invalidation drops translations (R202), a preset moves the timestamps of the domain (R101, R374), a window is enabled only where FWCTL
makes sense of it (R59), a write reaches RW fields alone (R3), and a partition's reset clears its domain (R204, R387). That a preset moves the
timestamps of lines that nothing has touched (tsBase) is log entry 31, and that the reset drops translations, walk pointers and launches log
entry 78: the model's choices. -/
def Obligations.ControlRegistersAct : Prop :=
  ∀ (s : State) (p : Part), s.part? p.idx = some p →
    (∀ e rest, p.pending = e :: rest → (p.k.evqt - p.k.evqh).toNat < 4096 → s.memWf →
      let a := bitsOf p.k.evqb 18 34 * 2 ^ 18 + 64 * (p.k.evqt.toNat % 4096)
      s.isMemory a = true → ∃ t q, exec (.eventRecordWrite p.idx) s = .next t ∧ t.mem.run a 64 = e.bytes ∧ t.part? p.idx = some q ∧
        q.pending = rest ∧ q.k.evqt = p.k.evqt + 1 ∧ t.host.irq = true ∧ t.cur = s.cur) ∧
    (∀ c, s.memWf → s.isMemory (p.tableEntry c) = true →
      (∀ u ∈ s.threads, u.id.ctxid = c → u.ptsOwed ≠ 0 → overlaps (p.tableEntry c) 16 (s.imageBase p c + 0x230) 8 = false) →
      ∃ t, exec (.threadTableResSet p.idx c) s = .next t ∧
      (t.mem.word (p.tableEntry c)).getLsbD 63 = true ∧
      (s.cur.id.ctxid = c → s.launch.part = p.idx → s.cur.st = .savedWaiting → (s.mem.word (p.tableEntry c + 8)).getLsbD 63 = true →
        t.cur.st = .saved ∧ (t.mem.word (p.tableEntry c + 8)).getLsbD 63 = false)) ∧
    (∀ v, p.inval = none → v.getLsbD 63 = true → ∃ t q, exec (.tlbInvalidate p.idx v) s = .next t ∧
      t.part? p.idx = some q ∧ q.inval.isSome = true ∧ q.k.tinvc.getLsbD 62 = true ∧
      (2 ≤ bitsOf v 16 2 → (∀ x ∈ t.tlb, x.part ≠ p.idx) ∧ ∀ w ∈ t.walks, w.part ≠ p.idx) ∧
      (bitsOf v 16 2 = 1 → (∀ x ∈ t.tlb, x.part = p.idx → x.asid ≠ bitsOf v 0 12 ∧ x.entry.getLsbD 7 = false) ∧
        ∀ w ∈ t.walks, w.part = p.idx → w.asid ≠ bitsOf v 0 12) ∧
      (bitsOf v 16 2 = 0 →
        (∀ x ∈ t.tlb, x.part = p.idx → x.asid = bitsOf v 0 12 ∨ x.entry.getLsbD 7 = true →
          x.vpage ≠ if x.big = true then bitsOf p.k.tinva 16 40 / 8192 else bitsOf p.k.tinva 16 40) ∧
        ∀ w ∈ t.walks, w.part = p.idx → w.asid = bitsOf v 0 12 →
          w.index ≠ bitsOf p.k.tinva 16 40 / (if w.level = 0 then 2 ^ 26 else 2 ^ 13)) ∧
      (∀ x ∈ s.tlb, x.part ≠ p.idx → x ∈ t.tlb) ∧ t.cur = s.cur ∧ t.mem = s.mem) ∧
    (∀ v, v.getLsbD 63 = true → (p.debugOn = false → exec (.tsdprePreset p.idx v) s = .next s) ∧
      (p.debugOn = true → s.tsmax p + bitsOf v 0 20 < 0xC0000 → ∃ t q, exec (.tsdprePreset p.idx v) s = .next t ∧
        t.part? p.idx = some q ∧ q.tsBase = p.tsBase + bitsOf v 0 20 ∧
        (s.cur.st = .running → s.launch.part = p.idx → t.cur.sys.pts = s.cur.sys.pts + bitsOf v 0 20) ∧
        (∀ l r, Tab.get s.lines l = some r → s.owns p (128 * l) = true →
          (t.line l).wts = r.wts + bitsOf v 0 20 ∧ (t.line l).rts = r.rts + bitsOf v 0 20) ∧ t.cur.g = s.cur.g ∧
        ((∀ u ∈ s.threads, u.st = .running ∨ u.st = .free) → t.mem = s.mem) ∧
        (s.threads = [s.cur] → s.cur.st = .saved → s.launch.part = p.idx → s.imageThere p s.cur.id.ctxid = true →
          s.isMemory (s.imageBase p s.cur.id.ctxid) = true → s.memWf → bitsOf v 0 20 ≠ 0 →
          let a := s.imageBase p s.cur.id.ctxid + 0x230
          t.mem.word a = BitVec.ofNat 64 (bitsOf (s.mem.word a) 0 32 + s.cur.ptsOwed + bitsOf v 0 20)) ∧
        (s.threads = [s.cur] → s.cur.st = .saved → s.launch.part = p.idx → s.imageThere p s.cur.id.ctxid = false →
          t.cur.ptsOwed = s.cur.ptsOwed + bitsOf v 0 20 ∧ t.mem = s.mem))) ∧
    (∀ (n : Nat) (v : BitVec 64) (w : Window), n < 32 → s.windows[n]? = some w → ∃ t x, exec (.formatWindowEnable n v) s = .next t ∧
      t.windows[n]? = some x ∧ x.pay = w.pay ∧ x.lim = w.lim ∧ bitsOf x.ctl 0 4 = bitsOf v 0 4 ∧ bitsOf x.ctl 20 16 = bitsOf v 20 16 ∧
      (x.ctl.getLsbD 63 = true ↔ v.getLsbD 63 = true ∧ bitsOf v 20 16 ≠ 0 ∧ 1 ≤ bitsOf v 0 4 ∧ bitsOf v 0 4 ≤ 3 ∧ w.pay.toNat < w.lim.toNat) ∧
      (∀ m, m ≠ n → t.windows[m]? = s.windows[m]?) ∧ t.cur = s.cur ∧ t.mem = s.mem) ∧
    (∀ v : BitVec 64, s.partAt p.lowest = some p → p.lowest < 8 →
      (∃ t q, exec (.registerWrite .package (0x103000 + 64 * p.lowest) v) s = .next t ∧ t.part? p.idx = some q ∧
        q.k.ttbase = v &&& 0x000FFFFFFFF00000 ∧ q.k.evqb = p.k.evqb ∧ t.cur = s.cur ∧ t.mem = s.mem) ∧
      exec (.registerWrite .package (0x103010 + 64 * p.lowest) v) s = .next s ∧
      ∃ t, exec (.registerWrite .bar0 0x20 v) s = .next t ∧ t.host.hltr = v.setWidth 32 ∧ t.host.pstate = 0 ∧ t.cur = s.cur ∧ t.mem = s.mem) ∧
    ((∀ l ∈ s.launches, l.part = p.idx → l.finished = true) → (∀ x ∈ s.sends, (s.launchOf x.launch).part ≠ p.idx) → ∃ t e, exec (.partitionReset p.idx) s = .next t ∧ (∀ x ∈ t.tlb, x.part ≠ p.idx) ∧
      (∀ b ∈ t.shadows, b.part ≠ p.idx) ∧ (∀ l r, (l, r) ∈ t.lines → s.owns p (128 * l) = true → r.wts = 0 ∧ r.rts = 0) ∧
      (∀ w ∈ t.walks, w.part ≠ p.idx) ∧ (∀ q, t.part? p.idx = some q → q.tsBase = 0) ∧ (∀ l ∈ t.launches, l.part ≠ p.idx) ∧ t.host.waiting = s.host.waiting ++ [e] ∧ e.type = 4 ∧ e.part = p.idx ∧ t.mem = s.mem)

/-! ### The host and the Colophon (R205 to R209, R383 to R389) -/

/-- The host's accesses (R384 to R386): a doorbell moves TAIL, BAR2 reads and writes memory behind the window, and an event goes to its ring. Its
requests (R388): LOAD adds an image under the plan of the event, where it is sound (R193, R253; log entries 8, 74), SUBMIT a launch, KILL kills one,
QUOTE has the quote of the Colophon written into its area, wherever in the window that lies, or ends with status 1 where there is no identity key (R209; log
entry 116); each is answered with a
DONE event. -/
def Obligations.TheHostIsServed : Prop :=
  ∀ (s : State),
    (∀ v, ∃ t, exec (.hostDoorbell v) s = .next t ∧ t.host.hrqt = v.setWidth 32 ∧ t.host.irq = true ∧ t.host.pstate = 0 ∧ t.cur = s.cur ∧
      t.mem = s.mem) ∧
    (∀ a n, s.host.ready = true → a + n ≤ s.winSize → s.poisonedRun (s.winBase + a) n = false → ∃ t, exec (.hostWindowRead a n) s = .next t ∧
      t.host.readback = s.mem.run (s.winBase + a) n ∧ t.mem = s.mem ∧ t.lines = s.lines ∧ t.cur = s.cur) ∧
    (∀ a n (v : BitVec 64) p, s.host.ready = true → n ≤ 8 → a + n ≤ s.winSize → s.winPart = some p → s.memWf → s.undisturbed 2 →
      ∃ t, exec (.hostWindowWrite a n v) s = .next t ∧ t.mem.run (s.winBase + a) n = natBytes n v.toNat ∧ t.cur.g = s.cur.g ∧
        ∀ k, k < s.winBase + a ∨ s.winBase + a + n ≤ k → t.mem.read k = s.mem.read k) ∧
    (∀ e rest p, s.host.waiting = e :: rest → s.winPart = some p → s.host.ready = true → (s.host.tail - s.host.heqh).toNat < 4096 → s.memWf →
      s.undisturbed 2 → ∃ t, exec .hostEventWrite s = .next t ∧ t.host.waiting = rest ∧ t.host.tail = s.host.tail + 1 ∧
        (s.host.tail = s.host.heqh → t.host.msi = true) ∧ t.mem.run (s.winBase + 0x40000 + 64 * (s.host.tail.toNat % 4096)) 64 = e.bytes ∧
        t.cur.g = s.cur.g) ∧
    (∀ (r : List Byte) (p : Part) (w : Part), s.request = some r → s.part? (leNat ((r.drop 1).take 1)) = some p → s.winPart = some w →
      let arg := (wordAt r 1).toNat
      let answers := fun (i : Instr) (note : Nat) (more : State → Prop) => ∃ t e l, exec i s = .next t ∧ t.host.waiting = l ++ [e] ∧ e.type = 1 ∧
        e.status = 0 ∧ e.tag = leNat ((r.drop 4).take 4) ∧ e.note = BitVec.ofNat 64 note ∧ t.host.consumed = s.host.consumed + 1 ∧ more t
      (∀ (x : LoadPlan), leNat (r.take 1) = 1 →
        let bs := s.mem.run (s.winBase + arg) (min (s.winSize - arg) (leNat (s.mem.run (s.winBase + arg + 0x18) 8)))
        let m := imgOf bs
        let ps := (m.textPages ++ m.dataPages ++ vpages (m.wins.flatMap ImgWin.ranges)).eraseDups.filterMap fun v => Tab.get x.pages v
        arg + 0x40 ≤ s.winSize → m.size ≤ s.winSize - arg → s.poisonedRun (s.winBase + arg) (max 0x40 m.size) = false → m.accepted = true → x.windows.length = m.wins.length → x.windows.Nodup →
        (∀ n ∈ x.windows, n < 32 ∧ ∃ w, s.windows[n]? = some w ∧ w.ctl.getLsbD 63 = false) → (∀ w ∈ m.wins, w.window x ≠ none) →
        s.soundPlan p x ps = true → (s.putTables x).mapsImage p m x ps = true →
        answers (.hostLoad x) s.nextImage fun t => ∃ i, t.host.images = s.host.images ++ [i] ∧ i.id = s.nextImage ∧ i.part = p.idx ∧
          i.asid = x.asid ∧ i.entry = BitVec.ofNat 64 m.entry ∧ t.nextImage = s.nextImage + 1) ∧
      (∀ i bs, leNat (r.take 1) = 2 → (s.host.images.find? fun i => decide (i.id = arg ∧ i.part = p.idx)) = some i → s.entryRecord i = some bs →
        s.refuseRecord p bs (launchRecOf bs) false = none →
        answers .hostSubmit s.nextLaunch fun t => ∃ o, t.launches.getLast? = some o ∧ o.id = s.nextLaunch ∧ o.part = p.idx ∧ o.asid = i.asid ∧
          o.host.isSome = true ∧ o.lrec = launchRecOf bs ∧ o.admitted = false ∧ t.nextLaunch = s.nextLaunch + 1) ∧
      (∀ l, leNat (r.take 1) = 3 → s.launchOf arg = l → l ∈ s.launches → l.id = arg → l.part = p.idx → l.finished = false → l.host.isSome = true →
        (∀ o ∈ s.launches, o.id = arg → o = l) → (∀ t ∈ s.threads, t.id.launch = arg → t.st = .free) →
        answers .hostKill 0 fun t => (t.launchOf arg).killed = true ∧ t.cur.g = s.cur.g) ∧
      (leNat (r.take 1) = 4 → p.idx ≤ 7 → arg + 4096 ≤ s.winSize → (arg + 4096 ≤ 0x80000 ∨ 0x80010 ≤ arg) →
        s.poisonedRun (s.winBase + arg) 4096 = false → s.memWf → s.undisturbed 16 →
        (∀ q, s.quote (s.mem.run (s.winBase + arg) 64) p.idx = some q → answers .hostQuote 0 fun t =>
          t.mem.run (s.winBase + arg) q.length = q ∧ t.colophon.mbstat = 1) ∧
        (s.colophon.seed = none → ∃ t e l, exec .hostQuote s = .next t ∧ t.host.waiting = l ++ [e] ∧ e.type = 1 ∧ e.status = 1 ∧
          t.colophon.mbstat = 3)))

/-- The Colophon: EXTEND hashes 64 bytes into a measurement from 3 to 7, QUOTE signs the measurements, or answers NOID without a key, and DEVCERT
gives the certificate (R207 to R209). Boot runs once; a root signature that fails leaves the module in reset, and where every step
succeeds (the training of the CXL ports among them, R390; log entry 111) the partitions of the record are laid out and the kernel is released (R205, R206). -/
def Obligations.TheColophonMeasuresAndBoots : Prop :=
  ∀ (s : State),
    (let b := s.mailbox
     let bytes := s.mem.run b 128
     s.isMemory b = true → s.memWf →
      (∀ n, s.poisonedRun b 128 = false → leNat (bytes.take 1) = n → 3 ≤ n → n ≤ 7 → ∃ t, exec .mailboxExtend s = .next t ∧ t.colophon.mbstat = 1 ∧
        t.colophon.meas.getD n 0 = Config.sha512 (natBytes 64 (s.colophon.meas.getD n 0).toNat ++ bytes.drop 64) ∧
        (∀ m, m ≠ n → t.colophon.meas.getD m 0 = s.colophon.meas.getD m 0) ∧ t.cur = s.cur ∧ t.mem = s.mem) ∧
      (∀ p, s.poisonedRun b 128 = false → leNat ((bytes.drop 64).take 1) = p → p ≤ 7 →
        (s.colophon.seed = none → ∃ t, exec .mailboxQuote s = .next t ∧ t.colophon.mbstat = 3 ∧ t.mem = s.mem) ∧
        (∀ q, s.quote (bytes.take 64) p = some q → ∃ t, exec .mailboxQuote s = .next t ∧ t.colophon.mbstat = 1 ∧ t.mem.run b q.length = q ∧
          t.cur = s.cur)) ∧
      (s.flash.devCert.length ≤ 4092 → ∃ t, exec .mailboxDevcert s = .next t ∧ t.colophon.mbstat = 1 ∧
        t.mem.run b (4 + s.flash.devCert.length) = natBytes 4 s.flash.devCert.length ++ s.flash.devCert ∧ t.cur = s.cur)) ∧
    (s.colophon.booted = true → exec .packageBoot s = .next s) ∧
    (s.colophon.booted = false →
      let f := s.flash
      let root := Config.ed25519Verify Config.rootKey f.colophon f.colophonSig
      let owner := Config.ed25519Verify Config.rootKey f.ownerCert f.ownerSig && Config.ed25519Verify (Config.ownerKeyOf f.ownerCert)
        (f.config.take 0xD8) ((f.config.drop 0xD8).take 64) && cfgOk f.config && (s.cxl.train f.config).serves
      ∃ t, exec .packageBoot s = .next t ∧ t.colophon.booted = true ∧ t.mem = s.mem ∧
        (root = false → t.parts = s.parts ∧ t.colophon.kernelUp = s.colophon.kernelUp ∧ t.colophon.meas = s.colophon.meas) ∧
        (root = true → t.colophon.meas.getD 0 0 =
          Config.sha512 (natBytes 64 (s.colophon.meas.getD 0 0).toNat ++ natBytes 64 (Config.sha512 f.colophon).toNat)) ∧
        (root = true → owner = true → t.parts = cfgParts f.config ∧ t.colophon.seed = Config.pufSeed f.helper ∧
          (cfgField f.config 0x98 64 = 0 ∨ cfgField f.config 0x98 64 = (Config.sha512 f.kernel).toNat → t.colophon.kernelUp = true)))

/-! ### Crenor Link, power and resets (R204, R221, R223, R391, R392) -/

/-- A port accepts the flit it expects and reports what it says of a push, asks for a replay of a bad one, and drops the others (R391; that it asks
for no replay of a good flit ahead of the expected one is log entry 75), and the message that it completes is there to act on (log entry 98); after eight replays it retrains, or is marked down, the commands with flits unacknowledged on it end with LINK, and
the host learns of it (R223). An idle module rests as deep as the host tolerates and the time without a flit allows, and wakes
(R392). A fatal spine error is a package reset; a corrected one changes nothing (R204, R221). -/
def Obligations.LinksAndPower : Prop :=
  ∀ (s : State),
    (∀ (x : Flit) (p : Port), s.link.ports[x.port]? = some p → p.up = true →
      (x.crcOk = false → ∃ t q, exec (.flitReceive x) s = .next t ∧ t.link.ports[x.port]? = some q ∧ q.replay = true ∧ q.expect = p.expect ∧
        t.cmds = s.cmds ∧ t.mem = s.mem) ∧
      (x.crcOk = true → x.seq ≠ p.expect → ∃ t, exec (.flitReceive x) s = .next t ∧ t.link.ports = s.link.ports ∧ t.cmds = s.cmds ∧
        t.host.pstate = 0) ∧
      (x.crcOk = true → x.seq = p.expect → ∃ t q, exec (.flitReceive x) s = .next t ∧ t.link.ports[x.port]? = some q ∧
        q.expect = p.expect + 1 ∧ q.replay = false ∧ t.link.inbox = s.link.inbox ++ x.msg.toList ∧ t.host.pstate = 0 ∧ t.mem = s.mem ∧ t.cur = s.cur ∧
        ∀ k st n c, x.report = some (k, st, n) → (s.cmds.find? fun c => decide (c.key = k)) = some c → c.fn = .cprem → c.ended = false →
          ∃ y, (t.cmds.find? fun c => decide (c.key = k)) = some y ∧ y.acked = true ∧ y.status = max c.status st ∧ y.bytes = n)) ∧
    (∀ (n : Nat) (p : Port) (acks : List (BitVec 24)), s.link.ports[n]? = some p → p.up = true → 8 ≤ p.replays →
      (∃ t q, exec (.linkRetrain n true acks) s = .next t ∧ t.link.ports[n]? = some q ∧ q.up = true ∧ q.replays = 0 ∧ t.cmds = s.cmds) ∧
      ∃ t e, exec (.linkRetrain n false acks) s = .next t ∧ (t.link.ports[n]?).map (fun q => q.up) = some false ∧
        (∀ r ∈ t.link.routes, r.port ≠ n) ∧ t.host.waiting = s.host.waiting ++ [e] ∧ e.type = 3 ∧ e.status = n ∧
        ((p.ackedAll acks).unsent = [] → t.cmds = s.cmds) ∧
        ∀ k n c, (p.ackedAll acks).unsent = [(k, n)] → (s.cmds.find? fun c => decide (c.key = k) && !c.ended && decide (c.fn = .cprem ∨ c.fn = .coll)) = some c →
          s.syncOf c = none → c.desc.crec = 0 → ∃ y, y ∈ t.cmds ∧ y.key = k ∧ y.ended = true ∧ y.status = 5) ∧
    (s.idle = true → s.host.pstate = 0 →
      (s.host.hltr.toNat < 2 → exec .powerStateEntry s = .next s) ∧
      (2 ≤ s.host.hltr.toNat → s.host.hltr.toNat < 150 ∨ s.cycle - s.link.lastFlit < 800000 →
        exec .powerStateEntry s = .next { s with host := { s.host with pstate := 1 } }) ∧
      (150 ≤ s.host.hltr.toNat → 800000 ≤ s.cycle - s.link.lastFlit → s.host.hltr.toNat < 5000 ∨ s.cycle - s.link.lastFlit < 80000000 →
        exec .powerStateEntry s = .next { s with host := { s.host with pstate := 2 } }) ∧
      (5000 ≤ s.host.hltr.toNat → 80000000 ≤ s.cycle - s.link.lastFlit →
        exec .powerStateEntry s = .next { s with host := { s.host with pstate := 3 } })) ∧
    exec .powerWake s = .next { s with host := { s.host with pstate := 0 } } ∧
    exec (.spineError false) s = .next s ∧
    ∃ t, exec (.spineError true) s = .next t ∧ t.colophon.booted = false ∧ t.launches = [] ∧ t.others = [] ∧ t.parts = [] ∧ t.flash = s.flash

/-! ### What comes between instructions (R31, R110, R111, R160 to R162, R211, R221, R224, R227, R228) -/

/-- A retired-count stop is the breakpoint trap with DETAIL 2 before the instruction (R227; its BADVA is a free value, log entry 19), and a scalar trap that has waited for the queue is delivered
as it was raised (R31, R212); a checkpoint keeps the thread as it stands, its register directory as the interlock sees it (R33, R228; what it captures
is log entry 60). A press that reruns changes no value, and one that fails
again traps (R224). A POST marker posts, an arrival of another module is counted, at a barrier and at a
collective fence (log entry 130), and the collective fence of a node of one thread drains its stores (R110, R161, R162), unless one meets a poisoned line,
where the thread is sent back to its VFENCE (log entry 129). -/
def Obligations.EventsBetweenInstructions : Prop :=
  ∀ (s : State) (c : Nat), s.cur.id.ctxid = c →
    (s.cur.st = .running → s.queue = [] → s.canSave →
      let suspends := fun (i : Instr) (cause badva resume : Word) => ∃ t, exec i s = .next t ∧ t.cur.sys.cause = cause ∧ t.cur.sys.badva = badva ∧
        t.cur.st = .suspended ∧ t.cur.resume = resume ∧ t.cur.trap = none ∧ t.cur.g = s.cur.g
      (s.cur.trap = none → s.retiredStop = true → suspends (.retiredCountStop c) 0x206 s.free s.cur.pc) ∧
      (∀ k, s.cur.trap = some k → k.vs = false →
        suspends (.trapDelivery c) (k.detail.setWidth 64 <<< 8 ||| k.code.setWidth 64) k.badva k.resume)) ∧
    (∀ p, s.cur.st = .running → s.checkpointDue = true → s.curPart = some p → ∃ t q k, exec (.checkpoint c) s = .next t ∧ t.part? p.idx = some q ∧
      q.db.ckpts = k :: p.db.ckpts ∧ k.thread = { s.flight.cur with saveRebases := p.rebases.toNat, share := none } ∧ k.lins = s.ownLins ∧ k.lines = [] ∧ k.locs = [] ∧ k.shads = [] ∧ t.cur = s.cur ∧ t.mem = s.mem) ∧
    (∀ q a, s.cur.st = .running → s.queue.head? = some q → q.op.accOf = some a → exec (.pressErrorRerun c false) s = .next s ∧
      (∀ h, s.canSave → s.cur.share = some h → a < 4 → ∃ t, exec (.pressErrorRerun c true) s = .next t ∧ t.cur.st = .suspended ∧
        t.cur.sys.cause = 0x8000000000000009 ||| (BitVec.ofNat 8 a).setWidth 64 <<< 8 ∧ t.queue = s.queue.tail ∧ t.cur.resume = s.cur.pc ∧
        (t.cur.share.map fun y => (y.get a).vals) = some (List.replicate (h.rows * 128) (BitVec.ofNat 32 Fmt.sf.nan)) ∧ t.cur.g = s.cur.g)) ∧
    (∀ q k i, s.cur.st = .running → s.queue.head? = some q → q.op = .post k i → s.mayPost k i = true → s.launch ∈ s.launches →
        s.launch.id = s.cur.id.launch →
      ∃ t, exec (.postMarkerFire c) s = .next t ∧ t.queue = s.queue.tail ∧ t.ring k = (s.ring k).post i s.cur.sys.pts ∧ t.cur.g = s.cur.g ∧
        t.mem = s.mem) ∧
    (∀ l b e node pts, .barrier (.arrival l b node pts) ∈ s.link.inbox → (s.launchOf l).lrec.bars[b]? = some e → s.launchOf l ∈ s.launches →
      let need := if e.pcnt = 0 then (s.launchOf l).lrec.below e.lvl else e.pcnt
      let i := (Tab.get (s.launchOf l).bars (barKey b node)).getD ⟨0, 0, 0, 0⟩
      ∃ t, exec (.barrierArrivalDelivery (.arrival l b node pts)) s = .next t ∧ t.cur.pc = s.cur.pc ∧ t.mem = s.mem ∧
        Tab.get (t.launchOf l).bars (barKey b node) = some (if i.count + 1 < need then ⟨i.count + 1, i.gen, i.ts, max i.maxPts pts⟩
          else ⟨0, i.gen + 1, max i.maxPts pts, 0⟩)) ∧
    (∀ l b node gen ts, .barrier (.complete l b node gen ts) ∈ s.link.inbox → s.launchOf l ∈ s.launches → (s.launchOf l).id = l → ∃ t, exec (.barrierArrivalDelivery (.complete l b node gen ts)) s = .next t ∧
      t.cur.pc = s.cur.pc ∧ t.mem = s.mem ∧ Tab.get (t.launchOf l).bars (barKey b node) = some ⟨0, gen, ts, 0⟩ ∧
      (∀ a, s.cur.id.launch = l → s.cur.arrival b = some a → a.node = node → a.fired = none →
        t.cur.arrival b = some { a with fired := some ts })) ∧
    (∀ l key n, .barrier (.epoch l key n) ∈ s.link.inbox → s.launchOf l ∈ s.launches → (s.launchOf l).id = l →
      ∃ t, exec (.barrierArrivalDelivery (.epoch l key n)) s = .next t ∧ t.cur.pc = s.cur.pc ∧ t.mem = s.mem ∧
        Tab.get (t.launchOf l).away key = some ((Tab.get (s.launchOf l).away key).getD 0 + n)) ∧
    (∀ key, s.cur.st = .running → s.allArrived s.launch key = true → Tab.get s.launch.arrived key = some [c] →
      (s.threads.filter fun t => decide (t.id.launch = s.cur.id.launch) && [c].contains t.id.ctxid) = [s.cur] →
      (∀ va, s.detPoison = some va → ∃ t, exec (.detEpochDrain s.cur.id.launch key) s = .next t ∧ t.cur.det = s.cur.det ∧ t.mem = s.mem ∧
        t.cur.stalled = false ∧ Tab.get t.launch.arrived key = some []) ∧
      (s.detPoison = none → ∃ t, exec (.detEpochDrain s.cur.id.launch key) s = .next t ∧ t.cur.det = [] ∧ t.mem = s.drainMember.mem ∧ t.cur.snap = t.mem ∧
        t.cur.wait = some (.epoch (key / 2 ^ 64 % 8) true) ∧ t.cur.g = s.cur.g ∧ (∀ d, s.cur.det = [d] → d.loc = false →
          s.undisturbed 1 → d.pa % 128 + d.data.length ≤ 128 → t.mem = s.mem.write d.pa d.data)))
end

