-- ==== Sys2Proof/Laws/Float.lean ====
section
/-!
SUPPORT. Laws of the floating-point formats: a finite code and its fields, and the one rounding to nearest, ties to even, of a number that is
known exactly or by a sticky last bit (R43, R46, R48).
-/
namespace Sys2Proof.Machine

/-- A positive real number, exact or known by a sticky last bit. -/
def Sticks (v : ℝ) (M : ℕ) (E : ℤ) (fb : ℕ) : Prop :=
  v = M * 2 ^ E ∨ (M % 2 = 1 ∧ 2 ^ (fb + 4) ≤ M ∧ ((M : ℝ) - 1) * 2 ^ E < v ∧ v < ((M : ℝ) + 1) * 2 ^ E)

/-- An integer divided by a power of two, to nearest, ties to even. -/
theorem rne_nearest (M n : ℕ) (hn : 1 ≤ n) (y : ℝ)
    (h : y = M / 2 ^ n ∨ (M % 2 = 1 ∧ 2 ≤ n ∧ ((M : ℝ) - 1) / 2 ^ n < y ∧ y < ((M : ℝ) + 1) / 2 ^ n)) :
    |y - rne M n| ≤ 1 / 2 ∧ (|y - rne M n| = 1 / 2 → rne M n % 2 = 0) := by
  obtain ⟨k, rfl⟩ : ∃ k, n = k + 1 := ⟨n - 1, by omega⟩
  set q := M / 2 ^ (k + 1) with hq
  set r := M % 2 ^ (k + 1) with hr
  have hM : M = q * 2 ^ (k + 1) + r := by rw [hq, hr]; exact (Nat.div_add_mod' M _).symm
  have hlt : r < 2 * 2 ^ k := by rw [hr, ← pow_succ']; exact Nat.mod_lt _ (by positivity)
  have hp : (0 : ℝ) < 2 ^ k := by positivity
  have hMr : (M : ℝ) = q * (2 * 2 ^ k) + r := by rw [hM]; push_cast; ring
  have hrr : (r : ℝ) < 2 * 2 ^ k := by exact_mod_cast hlt
  have hr0 : (0 : ℝ) ≤ r := by positivity
  have e1 : rne M (k + 1) = if 2 ^ k < r ∨ (r = 2 ^ k ∧ q % 2 = 1) then q + 1 else q := by
    simp [rne, hq, hr]
  have key : (r < 2 ^ k → y - q < 1 / 2) ∧ (2 ^ k < r → 1 / 2 < y - q) ∧ (r = 2 ^ k → y - q = 1 / 2) ∧ 0 ≤ y - q ∧ y - q ≤ 1 := by
    rcases h with rfl | ⟨hodd, h2, hlo, hhi⟩
    · have hy : (M : ℝ) / 2 ^ (k + 1) - q = r / (2 * 2 ^ k) := by rw [hMr]; field_simp; ring
      rw [hy]
      refine ⟨fun h => ?_, fun h => ?_, fun h => ?_, by positivity, ?_⟩
      · rw [div_lt_div_iff₀ (by positivity) (by positivity)]
        have : (r : ℝ) < 2 ^ k := by exact_mod_cast h
        linarith
      · rw [div_lt_div_iff₀ (by positivity) (by positivity)]
        have : (2 : ℝ) ^ k < r := by exact_mod_cast h
        linarith
      · rw [h]; push_cast; field_simp
      · rw [div_le_one (by positivity)]; linarith
    · obtain ⟨j, rfl⟩ : ∃ j, k = j + 1 := ⟨k - 1, by omega⟩
      have hrodd : r % 2 = 1 := by
        rw [hr, Nat.mod_mod_of_dvd _ (dvd_pow_self 2 (by omega))]; exact hodd
      have heven : 2 ^ (j + 1) % 2 = 0 := by rw [pow_succ]; omega
      have hlo' : ((r : ℝ) - 1) < (y - q) * (2 * 2 ^ (j + 1)) := by
        rw [div_lt_iff₀ (by positivity)] at hlo; rw [hMr, pow_succ _ (j + 1)] at hlo; linarith
      have hhi' : (y - q) * (2 * 2 ^ (j + 1)) < ((r : ℝ) + 1) := by
        rw [lt_div_iff₀ (by positivity)] at hhi; rw [hMr, pow_succ _ (j + 1)] at hhi; linarith
      refine ⟨fun h => ?_, fun h => ?_, fun h => by omega, ?_, ?_⟩
      · have : (r : ℝ) + 1 ≤ 2 ^ (j + 1) := by exact_mod_cast h
        nlinarith
      · have : (2 : ℝ) ^ (j + 1) + 1 ≤ r := by exact_mod_cast h
        nlinarith
      · have : (1 : ℝ) ≤ r := by exact_mod_cast (by omega : 1 ≤ r)
        nlinarith
      · have : (r : ℝ) + 1 ≤ 2 * 2 ^ (j + 1) := by exact_mod_cast hlt
        nlinarith
  obtain ⟨k1, k2, k3, k4, k5⟩ := key
  rw [e1]
  rcases lt_trichotomy r (2 ^ k) with h | h | h
  · rw [if_neg (by omega), abs_of_nonneg k4]
    exact ⟨(k1 h).le, fun h' => absurd h' (k1 h).ne⟩
  · by_cases ho : q % 2 = 1
    · rw [if_pos (.inr ⟨h, ho⟩)]; push_cast
      have : y - (q + 1) = -(1 / 2) := by linarith [k3 h]
      rw [this]; refine ⟨by norm_num [abs_of_neg], fun _ => by omega⟩
    · rw [if_neg (by omega), k3 h]
      refine ⟨by norm_num [abs_of_pos], fun _ => by omega⟩
  · rw [if_pos (.inl h)]; push_cast
    have : y - (q + 1) = -(1 - (y - q)) := by ring
    rw [this, abs_neg, abs_of_nonneg (by linarith)]
    exact ⟨by linarith [k2 h], fun h' => by linarith [k2 h]⟩

/-- A finite code by its fields. -/
theorem Fmt.decode_fin (f : Fmt) (c : ℕ) (ok : c / 2 ^ f.fbits % 2 ^ f.ebits ≠ 2 ^ f.ebits - 1 ∨ f = .e2 ∨ (f = .e4 ∧ c % 2 ^ f.fbits ≠ 7)) :
    f.decode c = .fin (decide (c / 2 ^ (f.bits - 1) % 2 = 1))
      (if c / 2 ^ f.fbits % 2 ^ f.ebits = 0 then c % 2 ^ f.fbits else 2 ^ f.fbits + c % 2 ^ f.fbits)
      (if c / 2 ^ f.fbits % 2 ^ f.ebits = 0 then 1 - (f.bias : ℤ) - f.fbits
        else 1 - (f.bias : ℤ) - f.fbits + (c / 2 ^ f.fbits % 2 ^ f.ebits : ℕ) - 1) := by
  unfold Fmt.decode
  generalize c / 2 ^ f.fbits % 2 ^ f.ebits = ex at ok ⊢
  generalize c % 2 ^ f.fbits = fr at ok ⊢
  by_cases h : ex = 2 ^ f.ebits - 1
  · subst h
    cases f <;> simp_all [Fmt.ebits, Fmt.fbits, Fmt.bias]
  · dsimp only
    rw [decide_eq_false h]
    cases f <;> split_ifs <;> rfl

/-- The code of a magnitude, and the value of a code. -/
theorem Fmt.decode_mag (f : Fmt) (neg : Bool) (qe : ℤ) (q : ℕ) (h1 : 1 - (f.bias : ℤ) - f.fbits ≤ qe) (h2 : q ≤ 2 ^ (f.fbits + 1))
    (h3 : 1 - (f.bias : ℤ) - f.fbits < qe → 2 ^ f.fbits ≤ q) :
    let c := (qe + f.fbits + f.bias).toNat * 2 ^ f.fbits + q - 2 ^ f.fbits
    c ≤ f.maxCode → f.signBit neg + c < 2 ^ f.bits ∧ (f.signBit neg + c) % 2 = q % 2 ∧
      ∃ m h, f.decode (f.signBit neg + c) = .fin neg m h ∧ (m : ℝ) * 2 ^ h = q * 2 ^ qe := by
  intro c hc
  obtain ⟨n, hn⟩ : ∃ n : ℕ, qe = n + (1 - (f.bias : ℤ) - f.fbits) := ⟨(qe - (1 - (f.bias : ℤ) - f.fbits)).toNat, by omega⟩
  have hc' : c = (n + 1) * 2 ^ f.fbits + q - 2 ^ f.fbits := by
    have : (qe + f.fbits + f.bias).toNat = n + 1 := by omega
    simp only [c, this]
  have h3' : 0 < n → 2 ^ f.fbits ≤ q := fun h => h3 (by omega)
  have val : ∀ m h, (∃ d : ℕ, (h = n + (1 - (f.bias : ℤ) - f.fbits) + d ∧ m * 2 ^ d = q)) → (m : ℝ) * 2 ^ h = q * 2 ^ qe := by
    rintro m h ⟨d, rfl, rfl⟩
    rw [hn, zpow_add₀ (by norm_num)]; push_cast; rw [zpow_natCast]; ring
  clear_value c
  subst hc'
  clear h1 h3 hn
  have hh : q < 2 ^ f.fbits ∨ (2 ^ f.fbits ≤ q ∧ q < 2 ^ (f.fbits + 1)) ∨ q = 2 ^ (f.fbits + 1) := by omega
  have hsb : ∀ k, k < 2 ^ (f.bits - 1) → f.signBit neg + k < 2 ^ f.bits ∧ (f.signBit neg + k) % 2 = k % 2 ∧
      (f.signBit neg + k) / 2 ^ (f.bits - 1) % 2 = (if neg then 1 else 0) ∧
      (f.signBit neg + k) / 2 ^ f.fbits % 2 ^ f.ebits = k / 2 ^ f.fbits ∧ (f.signBit neg + k) % 2 ^ f.fbits = k % 2 ^ f.fbits := by
    intro k; cases f <;> cases neg <;> simp [Fmt.signBit, Fmt.bits, Fmt.fbits, Fmt.ebits] <;> omega
  have hmax : f.maxCode < 2 ^ (f.bits - 1) := by cases f <;> decide
  obtain ⟨s1, s2, s3, s4, s5⟩ := hsb _ (lt_of_le_of_lt hc hmax)
  refine ⟨s1, ?_, ?_⟩
  · rw [s2]; cases f <;> simp only [Fmt.fbits] at * <;> omega
  · set z := (n + 1) * 2 ^ f.fbits + q - 2 ^ f.fbits with hz
    have fin : z / 2 ^ f.fbits ≠ 2 ^ f.ebits - 1 ∨ f = .e2 ∨ (f = .e4 ∧ z % 2 ^ f.fbits ≠ 7) := by
      clear_value z
      clear s1 s2 s3 s4 s5 hsb val hh h3' h2 hz
      cases f <;> simp [Fmt.ebits, Fmt.fbits, Fmt.maxCode] at * <;> omega
    rw [Fmt.decode_fin f _ (by rw [s4, s5]; exact fin), s3, s4, s5]
    have hneg : decide ((if neg then 1 else 0) = 1) = neg := by cases neg <;> rfl
    rw [hneg]
    have base : z = (q - 2 ^ f.fbits) + 2 ^ f.fbits * (n + 1) ∨ (n = 0 ∧ z = q ∧ q < 2 ^ f.fbits) := by
      rcases hh with h | h | h
      · have hn0 : n = 0 := by by_contra h0; have := h3' (by omega); omega
        subst hn0; right; refine ⟨rfl, by omega, h⟩
      · left; rw [hz, Nat.mul_comm]; omega
      · left; rw [hz, Nat.mul_comm]; have := Nat.pow_le_pow_right (n := 2) (by omega) (show f.fbits ≤ f.fbits + 1 by omega); omega
    rcases base with hb | ⟨rfl, hb, hlt⟩
    · have hge : 2 ^ f.fbits ≤ q := by
        rcases hh with h | h | h
        · by_contra hlt
          have hn0 : n = 0 := by by_contra h0; have := h3' (by omega); omega
          subst hn0; omega
        · exact h.1
        · rw [h]; exact Nat.pow_le_pow_right (by omega) (by omega)
      rcases eq_or_lt_of_le h2 with h | h
      · have e1 : z / 2 ^ f.fbits = n + 2 := by
          rw [hb, h, pow_succ, show 2 ^ f.fbits * 2 - 2 ^ f.fbits + 2 ^ f.fbits * (n + 1) = 2 ^ f.fbits * (n + 2) by rw [Nat.mul_add, Nat.mul_add]; omega,
            Nat.mul_div_cancel_left _ (by positivity)]
        have e2 : z % 2 ^ f.fbits = 0 := by
          rw [hb, h, pow_succ, show 2 ^ f.fbits * 2 - 2 ^ f.fbits + 2 ^ f.fbits * (n + 1) = 2 ^ f.fbits * (n + 2) by rw [Nat.mul_add, Nat.mul_add]; omega]; simp
        rw [e1, e2]
        exact ⟨_, _, rfl, val _ _ ⟨1, by simp; ring, by simp [h]; ring⟩⟩
      · rw [pow_succ] at h
        have e1 : z / 2 ^ f.fbits = n + 1 := by
          rw [hb, Nat.add_mul_div_left _ _ (by positivity), Nat.div_eq_of_lt (by omega)]; omega
        have e2 : z % 2 ^ f.fbits = q - 2 ^ f.fbits := by
          rw [hb, Nat.add_mul_mod_self_left, Nat.mod_eq_of_lt (by omega)]
        rw [e1, e2]
        exact ⟨_, _, rfl, val _ _ ⟨0, by simp; ring, by simp; omega⟩⟩
    · rw [hb, Nat.div_eq_of_lt hlt, Nat.mod_eq_of_lt hlt]
      exact ⟨_, _, rfl, val _ _ ⟨0, by simp, by simp⟩⟩

/-- The significand and the exponent of a finite code. -/
theorem Fmt.decode_bounds (f : Fmt) (c : ℕ) {k : Bool} {m : ℕ} {h : ℤ} (hd : f.decode c = .fin k m h) :
    m < 2 ^ (f.fbits + 1) ∧ 1 - (f.bias : ℤ) - f.fbits ≤ h := by
  unfold Fmt.decode at hd
  cases f <;> simp only [Fmt.ebits, Fmt.fbits, Fmt.bias, Fmt.bits] at * <;> split at hd <;> (try split_ifs at hd) <;>
    simp_all <;> omega

/-- The threshold of a format and its largest finite code, by the largest significand (R43). -/
theorem Fmt.limits (f : Fmt) : ∃ j mx : ℕ, f.threshold = (2 * mx + 1) * 2 ^ j ∧ mx < 2 ^ (f.fbits + 1) ∧ 2 ^ f.fbits ≤ mx ∧
    f.maxCode = (j + 1 + f.fbits + f.bias) * 2 ^ f.fbits + mx - 2 ^ f.fbits := by
  cases f
  · exact ⟨103, 2 ^ 24 - 1, by decide, by decide, by decide, by decide⟩
  · exact ⟨4, 2047, by decide, by decide, by decide, by decide⟩
  · exact ⟨119, 255, by decide, by decide, by decide, by decide⟩
  · exact ⟨4, 14, by decide, by decide, by decide, by decide⟩
  · exact ⟨12, 7, by decide, by decide, by decide, by decide⟩
  · exact ⟨0, 3, by decide, by decide, by decide, by decide⟩

/-- The comparison of the threshold, in numbers. -/
theorem geInt_iff (m : ℕ) (e : ℤ) (t : ℕ) : geInt m e t = true ↔ (t : ℝ) ≤ m * 2 ^ e := by
  unfold geInt
  split_ifs with h
  · obtain ⟨n, rfl⟩ := Int.eq_ofNat_of_zero_le h
    rw [decide_eq_true_iff, zpow_natCast, Int.toNat_natCast]; exact_mod_cast Iff.rfl
  · obtain ⟨n, hn⟩ := Int.eq_ofNat_of_zero_le (show 0 ≤ -e by omega)
    rw [decide_eq_true_iff, show e = -(n : ℤ) by omega, neg_neg, Int.toNat_natCast, zpow_neg, zpow_natCast, ← div_eq_mul_inv,
      le_div_iff₀ (by positivity)]
    exact_mod_cast Iff.rfl

/-- A power of two by a smaller one. -/
theorem two_zpow_split (a b : ℤ) (h : b ≤ a) : (2 : ℝ) ^ a = 2 ^ (a - b).toNat * 2 ^ b := by
  rw [← zpow_natCast, ← zpow_add₀ (by norm_num)]; congr 1; omega

/-- Where a number lies about the threshold, its sticky form does. -/
theorem Sticks.threshold {f : Fmt} {v : ℝ} {M : ℕ} {E : ℤ} (hs : Sticks v M E f.fbits) :
    (f.threshold : ℝ) ≤ M * 2 ^ E ↔ (f.threshold : ℝ) ≤ v := by
  rcases hs with rfl | ⟨hodd, hbig, hlo, hhi⟩
  · rfl
  obtain ⟨j, mx, ht, h1, -, -⟩ := f.limits
  have hE : (0 : ℝ) < 2 ^ E := by positivity
  have hb : (2 : ℝ) ^ (f.fbits + 4) ≤ M := by exact_mod_cast hbig
  have htj : (f.threshold : ℝ) = (2 * mx + 1) * 2 ^ j := by rw [ht]; push_cast; rfl
  have hmx : (mx : ℝ) + 1 ≤ 2 ^ (f.fbits + 1) := by exact_mod_cast h1
  by_cases hEj : E + 1 ≤ j
  · have e1 : (f.threshold : ℝ) = ((2 * ((2 * mx + 1) * 2 ^ (j - (E + 1)).toNat) : ℕ) : ℝ) * 2 ^ E := by
      rw [htj, ← zpow_natCast, two_zpow_split j (E + 1) hEj, zpow_add₀ (by norm_num)]; push_cast; ring
    generalize (2 * mx + 1) * 2 ^ (j - (E + 1)).toNat = K at e1
    rw [e1] at *
    constructor <;> intro h
    · have : 2 * K ≤ M := by
        have := le_of_mul_le_mul_right h hE; exact_mod_cast this
      have : 2 * K + 1 ≤ M := by omega
      have : ((2 * K : ℕ) : ℝ) ≤ M - 1 := by
        have : ((2 * K + 1 : ℕ) : ℝ) ≤ M := by exact_mod_cast this
        push_cast at this ⊢; linarith
      nlinarith
    · have : ((2 * K : ℕ) : ℝ) * 2 ^ E < (M + 1) * 2 ^ E := lt_of_le_of_lt h hhi
      have := lt_of_mul_lt_mul_right this hE.le
      have : 2 * K < M + 1 := by exact_mod_cast this
      have : ((2 * K : ℕ) : ℝ) ≤ M := by exact_mod_cast (by omega : 2 * K ≤ M)
      exact mul_le_mul_of_nonneg_right this hE.le
  · have e2 : (2 : ℝ) ^ j ≤ 2 ^ E := by
      rw [← zpow_natCast]; exact zpow_le_zpow_right₀ (by norm_num) (by omega)
    have e3 : (f.threshold : ℝ) ≤ (M - 1) * 2 ^ E := by
      rw [htj]
      have p1 : (1 : ℝ) ≤ 2 ^ f.fbits := one_le_pow₀ (by norm_num)
      have p2 : (2 : ℝ) ^ (f.fbits + 1) = 2 * 2 ^ f.fbits := by ring
      have p3 : (2 : ℝ) ^ (f.fbits + 4) = 16 * 2 ^ f.fbits := by ring
      have a : (2 * mx + 1 : ℝ) ≤ M - 1 := by linarith
      have : (0 : ℝ) < 2 ^ j := by positivity
      calc (2 * mx + 1 : ℝ) * 2 ^ j ≤ (2 * mx + 1) * 2 ^ E := mul_le_mul_of_nonneg_left e2 (by positivity)
        _ ≤ _ := mul_le_mul_of_nonneg_right a hE.le
    exact ⟨fun _ => by linarith, fun _ => by linarith⟩

/-- Between which powers of two a number lies. -/
theorem Sticks.lead {v : ℝ} {M : ℕ} {E : ℤ} {fb : ℕ} (hs : Sticks v M E fb) (hM : M ≠ 0) :
    (2 : ℝ) ^ (E + M.log2) ≤ v ∧ v < 2 ^ (E + M.log2 + 1) := by
  have l1 := Nat.log2_self_le hM
  have l2 := Nat.lt_log2_self (n := M)
  have hE : (0 : ℝ) < 2 ^ E := by positivity
  have e1 : (2 : ℝ) ^ (E + M.log2) = (2 ^ M.log2 : ℕ) * 2 ^ E := by
    rw [zpow_add₀ (by norm_num), zpow_natCast]; push_cast; ring
  have e2 : (2 : ℝ) ^ (E + M.log2 + 1) = (2 ^ (M.log2 + 1) : ℕ) * 2 ^ E := by
    rw [zpow_add₀ (by norm_num), e1, pow_succ]; push_cast; ring
  rw [e1, e2]
  rcases hs with rfl | ⟨hodd, hbig, hlo, hhi⟩
  · exact ⟨mul_le_mul_of_nonneg_right (by exact_mod_cast l1) hE.le, mul_lt_mul_of_pos_right (by exact_mod_cast l2) hE⟩
  · have h4 : 2 ^ 4 ≤ M := le_trans (Nat.pow_le_pow_right (by omega) (by omega)) hbig
    have : 1 ≤ M.log2 := by
      by_contra h0
      have : M.log2 = 0 := by omega
      rw [this] at l2; omega
    obtain ⟨L, hL⟩ : ∃ L, M.log2 = L + 1 := ⟨M.log2 - 1, by omega⟩
    rw [hL] at l1 l2 ⊢
    rw [pow_succ] at l1
    rw [pow_succ, pow_succ] at l2
    have a1 : ((2 ^ (L + 1) : ℕ) : ℝ) ≤ (M : ℝ) - 1 := by
      have : 2 ^ (L + 1) + 1 ≤ M := by rw [pow_succ]; omega
      have : ((2 ^ (L + 1) + 1 : ℕ) : ℝ) ≤ M := by exact_mod_cast this
      push_cast at this ⊢; linarith
    have a2 : (M : ℝ) + 1 ≤ ((2 ^ (L + 1 + 1) : ℕ) : ℝ) := by
      have : M + 1 ≤ 2 ^ (L + 1 + 1) := by rw [pow_succ, pow_succ]; omega
      exact_mod_cast this
    exact ⟨le_trans (mul_le_mul_of_nonneg_right a1 hE.le) hlo.le, lt_of_lt_of_le hhi (mul_le_mul_of_nonneg_right a2 hE.le)⟩

/-- A number shifted to the nearest integer. -/
theorem Sticks.shift {v : ℝ} {M : ℕ} {E qe : ℤ} {fb : ℕ} (hs : Sticks v M E fb) (hq : 2 ^ (fb + 4) ≤ M → E + 4 ≤ qe) :
    |v / 2 ^ qe - rneShift M (E - qe)| ≤ 1 / 2 ∧ (|v / 2 ^ qe - rneShift M (E - qe)| = 1 / 2 → rneShift M (E - qe) % 2 = 0) ∧
      ((if 0 ≤ E - qe then true else decide (M % 2 ^ (qe - E).toNat = 0)) = true ↔ rneShift M (E - qe) * (2 : ℝ) ^ qe = v) := by
  have hP : (0 : ℝ) < 2 ^ qe := by positivity
  have hE : (0 : ℝ) < 2 ^ E := by positivity
  unfold rneShift
  split_ifs with h
  · have hv : v = ((M * 2 ^ (E - qe).toNat : ℕ) : ℝ) * 2 ^ qe := by
      rcases hs with rfl | ⟨-, hbig, -, -⟩
      · rw [two_zpow_split E qe (by omega)]; push_cast; ring
      · have := hq hbig; omega
    rw [hv, mul_div_cancel_right₀ _ hP.ne']
    simp
  · obtain ⟨n, hn⟩ : ∃ n : ℕ, qe = E + n := ⟨(qe - E).toNat, by omega⟩
    have hn1 : 1 ≤ n := by omega
    have e0 : (-(E - qe)).toNat = n ∧ (qe - E).toNat = n := by omega
    rw [e0.1, e0.2]
    have e1 : (2 : ℝ) ^ qe = 2 ^ n * 2 ^ E := by rw [hn, zpow_add₀ (by norm_num), zpow_natCast]; ring
    have hs' : v / 2 ^ qe = M / 2 ^ n ∨ (M % 2 = 1 ∧ 2 ≤ n ∧ ((M : ℝ) - 1) / 2 ^ n < v / 2 ^ qe ∧ v / 2 ^ qe < ((M : ℝ) + 1) / 2 ^ n) := by
      rcases hs with rfl | ⟨hodd, hbig, hlo, hhi⟩
      · left; rw [e1]; field_simp
      · have := hq hbig
        refine .inr ⟨hodd, by omega, ?_, ?_⟩
        · rw [e1, div_lt_div_iff₀ (by positivity) (by positivity)]; nlinarith [show (0 : ℝ) < 2 ^ n by positivity]
        · rw [e1, div_lt_div_iff₀ (by positivity) (by positivity)]; nlinarith [show (0 : ℝ) < 2 ^ n by positivity]
    obtain ⟨h1, h2⟩ := rne_nearest M n hn1 _ hs'
    refine ⟨h1, h2, ?_⟩
    rw [decide_eq_true_iff]
    have hdvd : ∀ q : ℕ, (q : ℝ) * 2 ^ qe = v → M = q * 2 ^ n := by
      intro q hqv
      rw [e1, ← mul_assoc] at hqv
      rcases hs with hv | ⟨hodd, -, hlo, hhi⟩
      · rw [hv] at hqv
        have := mul_right_cancel₀ hE.ne' hqv
        exact_mod_cast this.symm
      · rw [← hqv] at hlo hhi
        have a := lt_of_mul_lt_mul_right hlo hE.le
        have b := lt_of_mul_lt_mul_right hhi hE.le
        have a' : M < q * 2 ^ n + 1 := by
          have : (M : ℝ) < ((q * 2 ^ n + 1 : ℕ) : ℝ) := by push_cast; linarith
          exact_mod_cast this
        have b' : q * 2 ^ n < M + 1 := by
          have : ((q * 2 ^ n : ℕ) : ℝ) < ((M + 1 : ℕ) : ℝ) := by push_cast; linarith
          exact_mod_cast this
        omega
    constructor
    · intro hm
      have hMq : M = M / 2 ^ n * 2 ^ n := by have := Nat.div_add_mod' M (2 ^ n); omega
      have hr : rne M n = M / 2 ^ n := by
        have hp : (0 : ℕ) < 2 ^ (n - 1) := by positivity
        simp only [rne, hm, show n ≠ 0 by omega, if_false]
        rw [if_neg (by omega)]
      rw [hr]
      rcases hs with rfl | ⟨hodd, hbig, -, -⟩
      · rw [e1, ← mul_assoc]; congr 1
        exact_mod_cast hMq.symm
      · exfalso
        obtain ⟨k, rfl⟩ : ∃ k, n = k + 1 := ⟨n - 1, by omega⟩
        have : M = M / 2 ^ (k + 1) * 2 ^ k * 2 := by rw [mul_assoc, ← pow_succ]; exact hMq
        omega
    · intro h
      rw [hdvd _ h]; simp

/-- Whether a number rounds, with an unbounded exponent, to below the smallest normal (R48). -/
theorem Sticks.tiny {f : Fmt} {v : ℝ} {M : ℕ} {E : ℤ} (hs : Sticks v M E f.fbits) (hM : M ≠ 0) :
    (decide (E + M.log2 < 1 - (f.bias : ℤ)) && !(decide (E + M.log2 = 1 - (f.bias : ℤ) - 1) &&
      decide (rneShift M (E - (E + M.log2 - f.fbits)) = 2 ^ (f.fbits + 1)))) = true ↔
    v < (1 - 1 / 2 ^ (f.fbits + 2)) * 2 ^ (1 - f.bias : ℤ) := by
  obtain ⟨b1, b2⟩ := hs.lead hM
  have hq4 : 2 ^ (f.fbits + 4) ≤ M → E + 4 ≤ E + M.log2 - f.fbits := by
    intro h
    have : f.fbits + 4 ≤ M.log2 := by
      by_contra hc
      have l2 := Nat.lt_log2_self (n := M)
      have := Nat.pow_le_pow_right (n := 2) (by omega) (show M.log2 + 1 ≤ f.fbits + 4 by omega)
      omega
    omega
  obtain ⟨n1, n2, -⟩ := hs.shift hq4
  generalize rneShift M (E - (E + M.log2 - f.fbits)) = q at *
  obtain ⟨n1a, n1b⟩ := abs_le.1 n1
  have hB : (0 : ℝ) < 2 ^ (1 - f.bias : ℤ) := by positivity
  have hp : (1 : ℝ) / 2 ^ (f.fbits + 2) ≤ 1 / 4 := by
    rw [div_le_div_iff₀ (by positivity) (by norm_num), pow_add]
    nlinarith [show (1 : ℝ) ≤ 2 ^ f.fbits from one_le_pow₀ (by norm_num)]
  have hp0 : (0 : ℝ) < 1 / 2 ^ (f.fbits + 2) := by positivity
  rcases lt_trichotomy (E + M.log2) (1 - (f.bias : ℤ) - 1) with h | h | h
  · have h1 : E + (M.log2 : ℤ) < 1 - (f.bias : ℤ) := by omega
    have h2 : ¬ E + (M.log2 : ℤ) = 1 - (f.bias : ℤ) - 1 := by omega
    simp only [h1, h2, decide_true, decide_false, Bool.false_and, Bool.not_false, Bool.and_self, true_iff]
    have : (2 : ℝ) ^ (E + M.log2 + 1) ≤ 2 ^ (1 - (f.bias : ℤ) - 1) := zpow_le_zpow_right₀ (by norm_num) (by omega)
    rw [zpow_sub_one₀ (by norm_num)] at this
    nlinarith
  · have h1 : E + (M.log2 : ℤ) < 1 - (f.bias : ℤ) := by omega
    rw [decide_eq_true h1, decide_eq_true h, Bool.true_and, Bool.true_and, Bool.not_eq_true', decide_eq_false_iff_not]
    have hP : (0 : ℝ) < 2 ^ (E + M.log2 - f.fbits) := by positivity
    have e1 : (2 : ℝ) ^ (1 - f.bias : ℤ) = 2 ^ (f.fbits + 1) * 2 ^ (E + M.log2 - f.fbits) := by
      rw [← zpow_natCast, ← zpow_add₀ (by norm_num)]; congr 1; push_cast; omega
    have e2 : (1 - 1 / 2 ^ (f.fbits + 2) : ℝ) * 2 ^ (1 - f.bias : ℤ) = (2 ^ (f.fbits + 1) - 1 / 2) * 2 ^ (E + M.log2 - f.fbits) := by
      rw [e1]; field_simp; ring
    have hy : v / 2 ^ (E + M.log2 - f.fbits) < 2 ^ (f.fbits + 1) := by
      rw [div_lt_iff₀ hP, ← e1]; exact lt_of_lt_of_le b2 (zpow_le_zpow_right₀ (by norm_num) (by omega))
    rw [e2, ← div_lt_iff₀ hP]
    set y := v / 2 ^ (E + M.log2 - f.fbits) with hyd
    have hq1 : q ≤ 2 ^ (f.fbits + 1) := by
      have : (q : ℝ) < ((2 ^ (f.fbits + 1) + 1 : ℕ) : ℝ) := by push_cast; linarith
      have : q < 2 ^ (f.fbits + 1) + 1 := by exact_mod_cast this
      omega
    constructor
    · intro hne
      have hq : ((q + 1 : ℕ) : ℝ) ≤ ((2 ^ (f.fbits + 1) : ℕ) : ℝ) := by exact_mod_cast (by omega : q + 1 ≤ 2 ^ (f.fbits + 1))
      push_cast at hq
      rcases lt_or_eq_of_le n1b with hl | he
      · linarith
      · have : q % 2 = 0 := n2 (by rw [he]; norm_num)
        have hne2 : q + 1 ≠ 2 ^ (f.fbits + 1) := by rw [pow_succ]; omega
        have hq : ((q + 2 : ℕ) : ℝ) ≤ ((2 ^ (f.fbits + 1) : ℕ) : ℝ) := by exact_mod_cast (by omega : q + 2 ≤ 2 ^ (f.fbits + 1))
        push_cast at hq; linarith
    · intro hlt he
      rw [he] at n1a; push_cast at n1a; linarith
  · have h2 : ¬ E + (M.log2 : ℤ) < 1 - (f.bias : ℤ) := by omega
    simp only [h2, decide_false, Bool.false_and, Bool.false_eq_true, false_iff, not_lt]
    have : (2 : ℝ) ^ (1 - f.bias : ℤ) ≤ 2 ^ (E + M.log2) := zpow_le_zpow_right₀ (by norm_num) (by omega)
    nlinarith

/-- One rounding to nearest, ties to even (R46): below the threshold the code is finite, no finite code lies nearer, of two as near it is the even one,
and NX tells whether the number is the code's own. -/
theorem Fmt.round_nearest (f : Fmt) (sat neg : Bool) (v : ℝ) (M : ℕ) (E : ℤ) (hM : M ≠ 0) (hs : Sticks v M E f.fbits) :
    ((f.threshold : ℝ) ≤ v → f.round sat neg M E = f.overflow sat neg) ∧
    (v < f.threshold → ∃ m h, f.decode (f.round sat neg M E).code = .fin neg m h ∧ (f.round sat neg M E).code < 2 ^ f.bits ∧
      ((m : ℝ) * 2 ^ h = v → f ≠ .e2 → (f.round sat neg M E).flags = 0) ∧
      ((m : ℝ) * 2 ^ h ≠ v → f ≠ .e2 → (v < (1 - 1 / 2 ^ (f.fbits + 2)) * 2 ^ (1 - f.bias : ℤ) → (f.round sat neg M E).flags = fNX ||| fUF) ∧
        ((1 - 1 / 2 ^ (f.fbits + 2)) * 2 ^ (1 - f.bias : ℤ) ≤ v → (f.round sat neg M E).flags = fNX)) ∧
      ∀ c k g l, f.decode c = .fin k g l → ∀ u : ℝ, u = (if k = neg then 1 else -1) * g * 2 ^ l →
        |v - m * 2 ^ h| ≤ |v - u| ∧ (|v - m * 2 ^ h| = |v - u| → u ≠ m * 2 ^ h → (f.round sat neg M E).code % 2 = 0)) := by
  have hg : geInt M E f.threshold = true ↔ (f.threshold : ℝ) ≤ v := by rw [geInt_iff, hs.threshold]
  constructor
  · intro h; simp [Fmt.round, hM, hg.2 h]
  intro hv
  have hg' : geInt M E f.threshold = false := by
    by_contra h; rw [Bool.not_eq_false, hg] at h; linarith
  obtain ⟨b1, b2⟩ := hs.lead hM
  set lead : ℤ := E + M.log2 with hlead
  set qe : ℤ := max lead (1 - (f.bias : ℤ)) - f.fbits with hqe
  set q := rneShift M (E - qe) with hq
  have hq4 : 2 ^ (f.fbits + 4) ≤ M → E + 4 ≤ qe := by
    intro h
    have : f.fbits + 4 ≤ M.log2 := by
      by_contra hc
      have l2 := Nat.lt_log2_self (n := M)
      have := Nat.pow_le_pow_right (n := 2) (by omega) (show M.log2 + 1 ≤ f.fbits + 4 by omega)
      omega
    have := le_max_left lead (1 - (f.bias : ℤ)); omega
  obtain ⟨n1, n2, n3⟩ := hs.shift (qe := qe) hq4
  rw [← hq] at n1 n2 n3
  have hP : (0 : ℝ) < 2 ^ qe := by positivity
  have hy : v = v / 2 ^ qe * 2 ^ qe := by field_simp
  set y := v / 2 ^ qe with hydef
  obtain ⟨n1a, n1b⟩ := abs_le.1 n1
  have hv0 : 0 < v := lt_of_lt_of_le (by positivity) b1
  have hqmin : 1 - (f.bias : ℤ) - f.fbits ≤ qe := by have := le_max_right lead (1 - (f.bias : ℤ)); omega
  have hlow : 1 - (f.bias : ℤ) - f.fbits < qe → qe = lead - f.fbits := by
    intro h; rcases max_choice lead (1 - (f.bias : ℤ)) with e | e <;> (rw [hqe, e]; try omega)
  have hylow : qe = lead - f.fbits → (2 : ℝ) ^ f.fbits ≤ y := by
    intro h; rw [hydef, le_div_iff₀ hP, ← zpow_natCast, ← zpow_add₀ (by norm_num)]
    rwa [show (f.fbits : ℤ) + qe = lead by omega]
  have hyup : y < 2 ^ (f.fbits + 1) := by
    rw [hydef, div_lt_iff₀ hP, ← zpow_natCast, ← zpow_add₀ (by norm_num)]
    refine lt_of_lt_of_le b2 (zpow_le_zpow_right₀ (by norm_num) ?_)
    have := le_max_left lead (1 - (f.bias : ℤ)); push_cast; omega
  have hq1 : q ≤ 2 ^ (f.fbits + 1) := by
    have : (q : ℝ) < ((2 ^ (f.fbits + 1) + 1 : ℕ) : ℝ) := by push_cast; linarith
    have : q < 2 ^ (f.fbits + 1) + 1 := by exact_mod_cast this
    omega
  have hq2 : 1 - (f.bias : ℤ) - f.fbits < qe → 2 ^ f.fbits ≤ q := by
    intro h
    have := hylow (hlow h)
    have : ((2 ^ f.fbits : ℕ) : ℝ) < ((q + 1 : ℕ) : ℝ) := by push_cast; linarith
    have : 2 ^ f.fbits < q + 1 := by exact_mod_cast this
    omega
  have hcode : (qe + f.fbits + f.bias).toNat * 2 ^ f.fbits + q - 2 ^ f.fbits ≤ f.maxCode := by
    obtain ⟨j, mx, ht, x1, x2, hmax⟩ := f.limits
    have htj : (f.threshold : ℝ) = (2 * mx + 1) * 2 ^ j := by rw [ht]; push_cast; rfl
    have hx1 : (mx : ℝ) + 1 ≤ 2 ^ (f.fbits + 1) := by exact_mod_cast x1
    rw [hmax]
    rcases lt_trichotomy qe (j + 1) with c | c | c
    · have : (qe + f.fbits + f.bias).toNat ≤ j + f.fbits + f.bias := by omega
      have := Nat.mul_le_mul_right (2 ^ f.fbits) this
      rw [pow_succ] at hq1
      have e : (j + 1 + f.fbits + f.bias) * 2 ^ f.fbits = (j + f.fbits + f.bias) * 2 ^ f.fbits + 2 ^ f.fbits := by ring
      omega
    · have e : (qe + f.fbits + f.bias).toNat = j + 1 + f.fbits + f.bias := by omega
      rw [e]
      have hyT : y < mx + 1 / 2 := by
        rw [hydef, div_lt_iff₀ hP]
        refine lt_of_lt_of_le hv (le_of_eq ?_)
        rw [htj, c, zpow_add₀ (by norm_num), zpow_natCast]; ring
      have : (q : ℝ) < ((mx + 1 : ℕ) : ℝ) := by push_cast; linarith
      have : q < mx + 1 := by exact_mod_cast this
      omega
    · exfalso
      have hql : qe = lead - f.fbits := hlow (by omega)
      have a := hylow hql
      have : (2 : ℝ) ^ (j + 2 : ℕ) ≤ 2 ^ qe := by
        rw [← zpow_natCast]; exact zpow_le_zpow_right₀ (by norm_num) (by push_cast; omega)
      have hj : (0 : ℝ) < 2 ^ j := by positivity
      have p2 : (2 : ℝ) ^ (f.fbits + 1) = 2 * 2 ^ f.fbits := by ring
      have p3 : (2 : ℝ) ^ (j + 2) = 4 * 2 ^ j := by ring
      have : (2 : ℝ) ^ f.fbits * 2 ^ (j + 2) ≤ v := by
        rw [hy]; exact mul_le_mul a this (by positivity) (le_trans (by positivity) a)
      rw [p3] at this
      rw [p2] at hx1
      nlinarith
  have hround : f.round sat neg M E = ⟨f.signBit neg + ((qe + f.fbits + f.bias).toNat * 2 ^ f.fbits + q - 2 ^ f.fbits),
      (f.round sat neg M E).flags⟩ := by
    simp only [Fmt.round, hM, hg', if_false, Bool.false_eq_true, ← hlead, ← hqe, ← hq, min_eq_left hcode]
  obtain ⟨d1, d2, m, h, d3, d4⟩ := Fmt.decode_mag f neg qe q hqmin hq1 hq2 hcode
  have hflags : ∃ t, (f ≠ .e2 → (t = true ↔ (if 0 ≤ E - qe then true else decide (M % 2 ^ (qe - E).toNat = 0)) = false ∧
        v < (1 - 1 / 2 ^ (f.fbits + 2)) * 2 ^ (1 - f.bias : ℤ))) ∧
      (f.round sat neg M E).flags = flagIf t fUF ||| flagIf (!(if 0 ≤ E - qe then true else decide (M % 2 ^ (qe - E).toNat = 0))) fNX := by
    simp only [Fmt.round, hM, hg', if_false, Bool.false_eq_true, ← hlead, ← hqe]
    refine ⟨_, ?_, rfl⟩
    intro h2; rw [if_neg h2, Bool.and_eq_true, Bool.not_eq_true', and_comm, hs.tiny hM]
  obtain ⟨t, t1, t2⟩ := hflags
  have hcodeEq : (f.round sat neg M E).code = f.signBit neg + ((qe + f.fbits + f.bias).toNat * 2 ^ f.fbits + q - 2 ^ f.fbits) := by rw [hround]
  refine ⟨m, h, by rw [hcodeEq]; exact d3, by rw [hcodeEq]; exact d1, ?_, ?_, ?_⟩
  · intro he h2
    rw [d4, ← n3] at he
    have : t = false := by
      by_contra hc; rw [Bool.not_eq_false, t1 h2, he] at hc; exact absurd hc.1 (by decide)
    rw [t2, this, he]; rfl
  · intro he h2
    rw [d4, ne_eq, ← n3, Bool.not_eq_true] at he
    rw [t2, he]
    refine ⟨fun h => ?_, fun h => ?_⟩
    · rw [(t1 h2).2 ⟨he, h⟩]; decide
    · have : t = false := by
        by_contra hc; rw [Bool.not_eq_false, t1 h2] at hc; linarith [hc.2]
      rw [this]; decide
  · have grid : ∀ K : ℤ, |y - q| ≤ |y - K| ∧ (|y - q| = |y - K| → K ≠ q → q % 2 = 0) := by
      intro K
      by_cases hK : K = q
      · subst hK; simp
      · have : (1 : ℝ) ≤ |(K : ℝ) - q| := by exact_mod_cast Int.one_le_abs (sub_ne_zero.2 hK)
        have tri : |(K : ℝ) - q| ≤ |y - q| + |y - K| := by
          have := abs_sub_le (K : ℝ) y q; rw [abs_sub_comm (K : ℝ) y] at this; linarith
        exact ⟨by linarith, fun e _ => n2 (by linarith)⟩
    have scale : ∀ z : ℝ, |v - z * 2 ^ qe| = |y - z| * 2 ^ qe := by
      intro z
      rw [← abs_of_pos hP, ← abs_mul, abs_of_pos hP, sub_mul, ← hy]
    have onGrid : ∀ K : ℤ, ∀ u : ℝ, u = K * 2 ^ qe → |v - m * 2 ^ h| ≤ |v - u| ∧ (|v - m * 2 ^ h| = |v - u| → u ≠ m * 2 ^ h → q % 2 = 0) := by
      rintro K u rfl
      obtain ⟨g1, g2⟩ := grid K
      rw [d4, scale, scale]
      refine ⟨mul_le_mul_of_nonneg_right g1 hP.le, fun e ne => g2 (mul_right_cancel₀ hP.ne' e) ?_⟩
      rintro rfl; exact ne (by push_cast; rfl)
    intro c k g l hd u hu
    rw [hcodeEq, d2]
    obtain ⟨w1, w2⟩ := Fmt.decode_bounds f c hd
    have hu0 : (0 : ℝ) ≤ g * 2 ^ l := by positivity
    by_cases hk : k = neg
    · rw [if_pos hk, one_mul] at hu
      by_cases hl : qe ≤ l
      · exact onGrid (g * 2 ^ (l - qe).toNat : ℕ) u (by rw [hu, two_zpow_split l qe hl]; push_cast; ring)
      · have hql := hlow (by omega)
        have hub : u < 2 ^ lead := by
          have hl' : (0 : ℝ) < 2 ^ l := by positivity
          have : (g : ℝ) < 2 ^ (f.fbits + 1) := by exact_mod_cast w1
          rw [hu]
          refine lt_of_lt_of_le (mul_lt_mul_of_pos_right this hl') ?_
          rw [← zpow_natCast, ← zpow_add₀ (by norm_num)]
          exact zpow_le_zpow_right₀ (by norm_num) (by push_cast; omega)
        obtain ⟨o1, -⟩ := onGrid (2 ^ f.fbits : ℕ) (2 ^ lead) (by
          push_cast; rw [← zpow_natCast, ← zpow_add₀ (by norm_num)]; congr 1; omega)
        rw [abs_of_nonneg (by linarith : 0 ≤ v - 2 ^ lead)] at o1
        rw [abs_of_nonneg (by linarith : 0 ≤ v - u)]
        exact ⟨by linarith, fun e => by linarith⟩
    · rw [if_neg hk] at hu
      have hle : u ≤ 0 := by rw [hu]; linarith
      obtain ⟨o1, o2⟩ := onGrid 0 0 (by simp)
      rw [sub_zero, abs_of_pos hv0] at o1 o2
      rw [abs_of_pos (by linarith : 0 < v - u)]
      refine ⟨by linarith, fun e ne => ?_⟩
      have : u = 0 := by linarith
      subst this
      exact o2 (by linarith) ne

/-- The quotient as division rounds it. -/
theorem div_sticks (m n : ℕ) (e g : ℤ) (fb : ℕ) (hm : m ≠ 0) (hn : n ≠ 0) (hn2 : n < 2 ^ 64) (hfb : fb ≤ 23) :
    Sticks ((m * 2 ^ e) / (n * 2 ^ g)) (2 * (m * 2 ^ 128 / n) + if m * 2 ^ 128 % n = 0 then 0 else 1) (e - g - (128 : ℕ) - 1) fb := by
  have hn0 : (0 : ℝ) < n := by exact_mod_cast Nat.pos_of_ne_zero hn
  set E : ℤ := e - g - (128 : ℕ) - 1 with hE
  have hEp : (0 : ℝ) < 2 ^ E := by positivity
  have hv : ((m : ℝ) * 2 ^ e) / (n * 2 ^ g) = ((m * 2 ^ 128 : ℕ) : ℝ) / n * 2 * 2 ^ E := by
    have h1 : (2 : ℝ) ^ e = 2 ^ 128 * 2 * 2 ^ E * 2 ^ g := by
      rw [show e = ((128 : ℕ) : ℤ) + 1 + E + g by omega, zpow_add₀ (by norm_num), zpow_add₀ (by norm_num), zpow_add₀ (by norm_num), zpow_natCast, zpow_one]
    rw [h1]; push_cast; field_simp; norm_num
  have hdm := Nat.div_add_mod (m * 2 ^ 128) n
  have hlt := Nat.mod_lt (m * 2 ^ 128) (Nat.pos_of_ne_zero hn)
  set Q := m * 2 ^ 128 / n with hQ
  rw [hv]
  have hr : ((m * 2 ^ 128 : ℕ) : ℝ) = n * Q + (m * 2 ^ 128 % n : ℕ) := by exact_mod_cast hdm.symm
  split_ifs with h
  · left
    rw [hr, h]; push_cast; field_simp; ring
  · right
    have hr1 : (1 : ℝ) ≤ (m * 2 ^ 128 % n : ℕ) := by exact_mod_cast Nat.one_le_iff_ne_zero.2 h
    have hr2 : ((m * 2 ^ 128 % n : ℕ) : ℝ) < n := by exact_mod_cast hlt
    have q1 : (Q : ℝ) < ((m * 2 ^ 128 : ℕ) : ℝ) / n := by rw [lt_div_iff₀ hn0]; nlinarith
    have q2 : ((m * 2 ^ 128 : ℕ) : ℝ) / n < Q + 1 := by rw [div_lt_iff₀ hn0]; nlinarith
    refine ⟨by omega, ?_, ?_, ?_⟩
    · have hbig : 2 ^ 64 ≤ Q := by
        rw [hQ, Nat.le_div_iff_mul_le (Nat.pos_of_ne_zero hn)]
        have := Nat.pos_of_ne_zero hm
        nlinarith
      have := Nat.pow_le_pow_right (n := 2) (by omega) (show fb + 4 ≤ 64 by omega)
      omega
    · push_cast at q1 ⊢; exact mul_lt_mul_of_pos_right (by linarith) hEp
    · push_cast at q2 ⊢; exact mul_lt_mul_of_pos_right (by linarith) hEp

/-- The square root as it is rounded. -/
theorem sqrt_sticks (m : ℕ) (e : ℤ) (fb : ℕ) (hm : m ≠ 0) (hfb : fb ≤ 23) :
    let mm := m * 2 ^ ((e % 2).toNat + 128)
    Sticks (Real.sqrt (m * 2 ^ e)) (2 * mm.sqrt + if mm.sqrt * mm.sqrt = mm then 0 else 1) ((e - (e % 2).toNat - (128 : ℕ)) / 2 - 1) fb := by
  intro mm
  obtain ⟨d, hd⟩ : ∃ d, e = (e % 2).toNat + (128 : ℕ) + 2 * d := ⟨(e - (e % 2).toNat - (128 : ℕ)) / 2, by omega⟩
  rw [show (e - (e % 2).toNat - (128 : ℕ)) / 2 - 1 = d - 1 by omega]
  have hp : (0 : ℝ) < 2 ^ (d - 1) := by positivity
  have hv : Real.sqrt (m * 2 ^ e) = Real.sqrt mm * 2 * 2 ^ (d - 1) := by
    have h1 : (m : ℝ) * 2 ^ e = mm * (2 * 2 ^ (d - 1)) ^ 2 := by
      have : (2 : ℝ) * 2 ^ (d - 1) = 2 ^ d := by rw [← zpow_one_add₀ (by norm_num)]; congr 1; omega
      rw [this, ← zpow_natCast, ← zpow_mul]
      conv_lhs => rw [hd]
      rw [zpow_add₀ (by norm_num), ← Nat.cast_add, zpow_natCast, mul_comm d]; push_cast [mm]; ring
    rw [h1, Real.sqrt_mul (by positivity), Real.sqrt_sq (by positivity), mul_assoc]
  rw [hv]
  set r := mm.sqrt with hr
  have r1 : r * r ≤ mm := Nat.sqrt_le mm
  have r2 : mm < (r + 1) * (r + 1) := Nat.lt_succ_sqrt mm
  split_ifs with h
  · left
    rw [← h]; push_cast
    rw [Real.sqrt_mul_self (by positivity)]; ring
  · right
    have q1 : (r : ℝ) < Real.sqrt mm := by
      rw [Real.lt_sqrt (by positivity)]; exact_mod_cast (by rw [pow_two]; omega : r ^ 2 < mm)
    have q2 : Real.sqrt mm < r + 1 := by
      rw [Real.sqrt_lt' (by positivity)]; exact_mod_cast (by rw [pow_two]; omega : mm < (r + 1) ^ 2)
    refine ⟨by omega, ?_, ?_, ?_⟩
    · have hbig : 2 ^ 64 ≤ r := by
        rw [hr, Nat.le_sqrt]
        have h1 : 1 ≤ m := Nat.pos_of_ne_zero hm
        have h2 : 2 ^ 128 ≤ 2 ^ ((e % 2).toNat + 128) := Nat.pow_le_pow_right (by omega) (by omega)
        calc 2 ^ 64 * 2 ^ 64 = 1 * 2 ^ 128 := by norm_num
          _ ≤ mm := Nat.mul_le_mul h1 h2
      have := Nat.pow_le_pow_right (n := 2) (by omega) (show fb + 4 ≤ 64 by omega)
      omega
    · push_cast; exact mul_lt_mul_of_pos_right (by linarith) hp
    · push_cast; exact mul_lt_mul_of_pos_right (by linarith) hp
end Sys2Proof.Machine
end

