-- ==== Sys2Proof/Laws/Mem.lean ====
section
/-!
SUPPORT. Laws of memory: what a read finds after a write, and that every operation keeps the canonical form.
-/
namespace Sys2Proof.Machine

/-! ### Bytes and numbers -/

@[simp] theorem natBytes_length (n v : Nat) : (natBytes n v).length = n := by
  induction n generalizing v with
  | zero => rfl
  | succ n ih => simp [natBytes, ih]

theorem leNat_natBytes (n v : Nat) : leNat (natBytes n v) = v % 256 ^ n := by
  induction n generalizing v with
  | zero => simp [natBytes, leNat, Nat.mod_one]
  | succ n ih =>
    simp only [natBytes, leNat, ih, BitVec.toNat_ofNat]
    rw [show (2 : Nat) ^ 8 = 256 from rfl, pow_succ, Nat.mul_comm (256 ^ n) 256, Nat.mod_mul]

theorem leNat_lt (l : List Byte) : leNat l < 256 ^ l.length := by
  induction l with
  | nil => simp [leNat]
  | cons b t ih =>
    have hb : b.toNat < 256 := b.isLt
    simp only [leNat, List.length_cons, pow_succ]
    omega

/-! ### The entries of a run -/

theorem listed_mem {a : Nat} {bs : List Byte} {c : Host.Cell} (h : c ∈ listed a bs) :
    a ≤ c.1 ∧ c.1 < a + bs.length ∧ c.2 ≠ unlistedByte := by
  induction bs generalizing a with
  | nil => simp [listed] at h
  | cons b t ih =>
    simp only [listed] at h
    split at h
    · obtain ⟨h1, h2, h3⟩ := ih h
      exact ⟨by omega, by simp only [List.length_cons]; omega, h3⟩
    · rcases List.mem_cons.1 h with rfl | h
      · exact ⟨le_refl _, by simp, by assumption⟩
      · obtain ⟨h1, h2, h3⟩ := ih h
        exact ⟨by omega, by simp only [List.length_cons]; omega, h3⟩

theorem listed_sorted (a : Nat) (bs : List Byte) : (listed a bs).Pairwise fun p q => p.1 < q.1 := by
  induction bs generalizing a with
  | nil => exact List.Pairwise.nil
  | cons b t ih =>
    simp only [listed]
    split
    · exact ih _
    · exact List.Pairwise.cons (fun c hc => (listed_mem hc).1) (ih _)

/-! ### The canonical form -/

/-- A write keeps the canonical form. -/
theorem write_wf {m : Mem} (h : m.wf) (a : Nat) (bs : List Byte) : (m.write a bs).wf := by
  obtain ⟨hs, hv⟩ := h
  refine ⟨?_, ?_⟩
  · unfold Mem.write
    refine List.pairwise_append.2 ⟨hs.filter _, List.pairwise_append.2 ⟨listed_sorted a bs, hs.filter _, ?_⟩, ?_⟩
    · intro p hp q hq
      have := listed_mem hp
      have := (List.mem_filter.1 hq).2
      simp at this; omega
    · intro p hp q hq
      have hp := (List.mem_filter.1 hp).2
      simp only [decide_eq_true_eq] at hp
      rcases List.mem_append.1 hq with hq | hq
      · have := listed_mem hq; omega
      · have := (List.mem_filter.1 hq).2
        simp only [decide_eq_true_eq] at this; omega
  · intro c hc
    unfold Mem.write at hc
    rcases List.mem_append.1 hc with hc | hc
    · exact hv c (List.mem_of_mem_filter hc)
    · rcases List.mem_append.1 hc with hc | hc
      · exact (listed_mem hc).2.2
      · exact hv c (List.mem_of_mem_filter hc)

theorem setWord_wf {m : Mem} (h : m.wf) (a : Nat) (v : Word) : (m.setWord a v).wf := write_wf h _ _

theorem setLine_wf {m : Mem} (h : m.wf) (l : Nat) (d : LineData) : (m.setLine l d).wf := write_wf h _ _

/-! ### Reads after a write -/

theorem find_listed (a : Nat) (bs : List Byte) (x : Nat) :
    (((listed a bs).find? fun c => c.1 == x).map fun c => c.2).getD unlistedByte
      = if a ≤ x ∧ x < a + bs.length then bs.getD (x - a) unlistedByte else unlistedByte := by
  induction bs generalizing a with
  | nil => simp [listed]
  | cons b t ih =>
    simp only [listed, List.length_cons]
    by_cases hb : b = unlistedByte
    · rw [if_pos hb, ih]
      by_cases hx : x = a
      · subst hx; simp [hb]
      · by_cases hr : a + 1 ≤ x ∧ x < a + 1 + t.length
        · rw [if_pos hr, if_pos (by omega)]
          rw [show x - a = (x - (a + 1)) + 1 by omega, List.getD_cons_succ]
        · rw [if_neg hr, if_neg (by omega)]
    · rw [if_neg hb]
      by_cases hx : x = a
      · subst hx; simp
      · rw [List.find?_cons_of_neg (by simp; omega), ih]
        by_cases hr : a + 1 ≤ x ∧ x < a + 1 + t.length
        · rw [if_pos hr, if_pos (by omega)]
          rw [show x - a = (x - (a + 1)) + 1 by omega, List.getD_cons_succ]
        · rw [if_neg hr, if_neg (by omega)]

/-- What a read finds after a write: the byte written there, else what was there. -/
theorem read_write (m : Mem) (a : Nat) (bs : List Byte) (x : Nat) :
    (m.write a bs).read x = if a ≤ x ∧ x < a + bs.length then bs.getD (x - a) unlistedByte else m.read x := by
  have hlo : ∀ (p : Nat → Bool), p x = true → ((m.filter fun c => p c.1).find? fun c => c.1 == x) = m.find? fun c => c.1 == x := by
    intro p hp
    rw [List.find?_filter]
    congr 1; funext c
    by_cases hc : c.1 = x
    · simp [hc, hp]
    · simp [hc]
  have hno : ∀ (p : Nat → Bool), p x = false → ((m.filter fun c => p c.1).find? fun c => c.1 == x) = none := by
    intro p hp
    rw [List.find?_eq_none]
    intro c hc
    have := (List.mem_filter.1 hc).2
    simp only [beq_iff_eq]; rintro rfl; simp [hp] at this
  unfold Mem.read Mem.write
  rw [List.find?_append, List.find?_append]
  by_cases h1 : x < a
  · rw [hlo (fun k => decide (k < a)) (by simpa using h1), if_neg (by omega)]
    cases hm : m.find? fun c => c.1 == x with
    | some c => simp
    | none =>
      have h2 : ((listed a bs).find? fun c => c.1 == x) = none := by
        rw [List.find?_eq_none]; intro c hc; have := listed_mem hc; simp; omega
      simp [h2, hno (fun k => decide (a + bs.length ≤ k)) (by simp; omega)]
  · rw [hno (fun k => decide (k < a)) (by simpa using h1)]
    by_cases h2 : x < a + bs.length
    · rw [if_pos ⟨by omega, h2⟩, hno (fun k => decide (a + bs.length ≤ k)) (by simp; omega)]
      have := find_listed a bs x
      rw [if_pos ⟨by omega, h2⟩] at this
      simpa using this
    · rw [if_neg (by omega), hlo (fun k => decide (a + bs.length ≤ k)) (by simp; omega)]
      have h3 : ((listed a bs).find? fun c => c.1 == x) = none := by
        rw [List.find?_eq_none]; intro c hc; have := listed_mem hc; simp; omega
      simp [h3]

/-- A write leaves every byte outside it alone. -/
theorem read_write_other (m : Mem) {a x : Nat} {bs : List Byte} (h : x < a ∨ a + bs.length ≤ x) : (m.write a bs).read x = m.read x := by
  rw [read_write, if_neg (by omega)]

/-! ### Runs -/

@[simp] theorem takeRun_length (m : Mem) (a n : Nat) : (takeRun m a n).length = n := by
  induction n generalizing m a with
  | zero => cases m <;> rfl
  | succ n ih =>
    cases m with
    | nil => simp [takeRun, ih]
    | cons c t => obtain ⟨k, b⟩ := c; simp only [takeRun]; split <;> simp [ih]

@[simp] theorem run_length (m : Mem) (a n : Nat) : (m.run a n).length = n := takeRun_length _ _ _

theorem takeRun_get (m : Mem) (hs : m.Pairwise fun p q => p.1 < q.1) (a n i : Nat) (hi : i < n) (hlo : ∀ c ∈ m, a ≤ c.1) :
    (takeRun m a n).getD i unlistedByte = m.read (a + i) := by
  induction n generalizing m a i with
  | zero => omega
  | succ n ih =>
    cases m with
    | nil =>
      cases i with
      | zero => simp [takeRun, Mem.read]
      | succ i =>
        have := ih [] List.Pairwise.nil a i (by omega) (by simp)
        simp only [takeRun, List.getD_cons_succ]
        exact this
    | cons c t =>
      obtain ⟨k, b⟩ := c
      have hk : a ≤ k := hlo (k, b) (List.mem_cons_self ..)
      have ht := (List.pairwise_cons.1 hs)
      simp only [takeRun]
      split
      · next hka =>
        subst hka
        cases i with
        | zero => simp [Mem.read]
        | succ i =>
          rw [List.getD_cons_succ, ih t ht.2 (k + 1) i (by omega) fun c hc => ht.1 c hc]
          unfold Mem.read
          rw [List.find?_cons_of_neg (by simp), show k + 1 + i = k + (i + 1) by omega]
      · next hka =>
        cases i with
        | zero =>
          have : ((k, b) :: t).find? (fun c => c.1 == a + 0) = none := by
            rw [List.find?_eq_none]; intro c hc
            rcases List.mem_cons.1 hc with rfl | hc
            · simpa using hka
            · have := ht.1 c hc; simp; omega
          simp only [List.getD_cons_zero, Mem.read, this]
          rfl
        | succ i =>
          rw [List.getD_cons_succ, ih ((k, b) :: t) hs (a + 1) i (by omega), show a + 1 + i = a + (i + 1) by omega]
          intro c hc
          rcases List.mem_cons.1 hc with rfl | hc
          · show a + 1 ≤ k; omega
          · have := ht.1 c hc; omega

/-- Byte i of a run is the byte read at its address. -/
theorem run_get {m : Mem} (h : m.wf) {a n i : Nat} (hi : i < n) : (m.run a n).getD i unlistedByte = m.read (a + i) := by
  unfold Mem.run
  rw [takeRun_get _ (h.1.filter _) a n i hi (by intro c hc; simpa using (List.mem_filter.1 hc).2)]
  unfold Mem.read
  rw [List.find?_filter]
  congr 2
  congr 1; funext c
  by_cases hc : c.1 = a + i
  · simp [hc]
  · simp [hc]

/-- A run found after a write of the same place. -/
theorem run_write_same {m : Mem} (h : m.wf) (a : Nat) (bs : List Byte) : (m.write a bs).run a bs.length = bs := by
  apply List.ext_getElem (by simp)
  intro i h1 h2
  have := run_get (write_wf h a bs) (a := a) (n := bs.length) h2
  rw [read_write, if_pos ⟨by omega, by omega⟩, show a + i - a = i by omega, List.getD_eq_getElem _ _ h1, List.getD_eq_getElem _ _ h2] at this
  exact this

/-- A run elsewhere is untouched by a write. -/
theorem run_write_other {m : Mem} (h : m.wf) {a b n : Nat} {bs : List Byte} (hd : b + n ≤ a ∨ a + bs.length ≤ b) :
    (m.write a bs).run b n = m.run b n := by
  apply List.ext_getElem (by simp)
  intro i h1 h2
  rw [run_length] at h1
  have e1 := run_get (write_wf h a bs) (a := b) (n := n) h1
  have e2 := run_get h (a := b) (n := n) h1
  rw [read_write_other _ (by omega)] at e1
  rw [List.getD_eq_getElem _ _ (by simpa using h1)] at e1 e2
  rw [e1, e2]

/-! ### Tables -/

theorem tab_get_set_same {α : Type} (t : Tab α) (k : Nat) (v : α) : Tab.get (Tab.set t k v) k = some v := by
  unfold Tab.get Tab.set
  rw [List.find?_append]
  have : ((t.filter fun c => decide (c.1 < k)).find? fun c => c.1 == k) = none := by
    rw [List.find?_eq_none]; intro c hc
    have := (List.mem_filter.1 hc).2
    simp at this; simp; omega
  simp [this]

theorem tab_get_set_other {α : Type} (t : Tab α) {k j : Nat} (v : α) (h : j ≠ k) : Tab.get (Tab.set t k v) j = Tab.get t j := by
  have hf : ∀ (p : Nat → Bool), ((t.filter fun c => p c.1).find? fun c => c.1 == j) = if p j then t.find? (fun c => c.1 == j) else none := by
    intro p
    split
    · next hp =>
      rw [List.find?_filter]; congr 1; funext c
      by_cases hc : c.1 = j
      · simp [hc, hp]
      · simp [hc]
    · next hp =>
      rw [List.find?_eq_none]; intro c hc
      have := (List.mem_filter.1 hc).2
      simp only [beq_iff_eq]; rintro rfl; exact hp this
  unfold Tab.get Tab.set
  rw [List.find?_append, List.find?_cons_of_neg (by simp; omega), hf (fun x => decide (x < k)), hf (fun x => decide (k < x))]
  by_cases h1 : j < k
  · simp [h1, show ¬ k < j by omega]
  · simp [h1, show k < j by omega]

end Sys2Proof.Machine
end

