-- ==== Sys2Proof/Laws/State.lean ====
section
/-!
SUPPORT. Laws of the state: one lemma per field per named update, so that no proof unfolds a record update.
-/
namespace Sys2Proof.Machine

/-! ### setLine -/

@[simp] theorem State.setLine_cur (s : State) (l : Nat) (r : Line) : (s.setLine l r).cur = s.cur := rfl
@[simp] theorem State.setLine_others (s : State) (l : Nat) (r : Line) : (s.setLine l r).others = s.others := rfl
@[simp] theorem State.setLine_cycle (s : State) (l : Nat) (r : Line) : (s.setLine l r).cycle = s.cycle := rfl
@[simp] theorem State.setLine_order (s : State) (l : Nat) (r : Line) : (s.setLine l r).order = s.order := rfl
@[simp] theorem State.setLine_mem (s : State) (l : Nat) (r : Line) : (s.setLine l r).mem = s.mem := rfl
@[simp] theorem State.setLine_lines (s : State) (l : Nat) (r : Line) : (s.setLine l r).lines = Tab.set s.lines l r := rfl
@[simp] theorem State.setLine_copies (s : State) (l : Nat) (r : Line) : (s.setLine l r).copies = s.copies := rfl
@[simp] theorem State.setLine_gathered (s : State) (l : Nat) (r : Line) : (s.setLine l r).gathered = s.gathered := rfl
@[simp] theorem State.setLine_tlb (s : State) (l : Nat) (r : Line) : (s.setLine l r).tlb = s.tlb := rfl
@[simp] theorem State.setLine_walks (s : State) (l : Nat) (r : Line) : (s.setLine l r).walks = s.walks := rfl
@[simp] theorem State.setLine_cores (s : State) (l : Nat) (r : Line) : (s.setLine l r).cores = s.cores := rfl
@[simp] theorem State.setLine_clusters (s : State) (l : Nat) (r : Line) : (s.setLine l r).clusters = s.clusters := rfl
@[simp] theorem State.setLine_slots (s : State) (l : Nat) (r : Line) : (s.setLine l r).slots = s.slots := rfl
@[simp] theorem State.setLine_launches (s : State) (l : Nat) (r : Line) : (s.setLine l r).launches = s.launches := rfl
@[simp] theorem State.setLine_shadows (s : State) (l : Nat) (r : Line) : (s.setLine l r).shadows = s.shadows := rfl
@[simp] theorem State.setLine_cmds (s : State) (l : Nat) (r : Line) : (s.setLine l r).cmds = s.cmds := rfl
@[simp] theorem State.setLine_banks (s : State) (l : Nat) (r : Line) : (s.setLine l r).banks = s.banks := rfl
@[simp] theorem State.setLine_locks (s : State) (l : Nat) (r : Line) : (s.setLine l r).locks = s.locks := rfl
@[simp] theorem State.setLine_sends (s : State) (l : Nat) (r : Line) : (s.setLine l r).sends = s.sends := rfl
@[simp] theorem State.setLine_holders (s : State) (l : Nat) (r : Line) : (s.setLine l r).holders = s.holders := rfl
@[simp] theorem State.setLine_parts (s : State) (l : Nat) (r : Line) : (s.setLine l r).parts = s.parts := rfl
@[simp] theorem State.setLine_windows (s : State) (l : Nat) (r : Line) : (s.setLine l r).windows = s.windows := rfl
@[simp] theorem State.setLine_colophon (s : State) (l : Nat) (r : Line) : (s.setLine l r).colophon = s.colophon := rfl
@[simp] theorem State.setLine_flash (s : State) (l : Nat) (r : Line) : (s.setLine l r).flash = s.flash := rfl
@[simp] theorem State.setLine_host (s : State) (l : Nat) (r : Line) : (s.setLine l r).host = s.host := rfl
@[simp] theorem State.setLine_link (s : State) (l : Nat) (r : Line) : (s.setLine l r).link = s.link := rfl
@[simp] theorem State.setLine_cxl (s : State) (l : Nat) (r : Line) : (s.setLine l r).cxl = s.cxl := rfl
@[simp] theorem State.setLine_hbm (s : State) (l : Nat) (r : Line) : (s.setLine l r).hbm = s.hbm := rfl
@[simp] theorem State.setLine_agenda (s : State) (l : Nat) (r : Line) : (s.setLine l r).agenda = s.agenda := rfl
@[simp] theorem State.setLine_nextLaunch (s : State) (l : Nat) (r : Line) : (s.setLine l r).nextLaunch = s.nextLaunch := rfl
@[simp] theorem State.setLine_nextImage (s : State) (l : Nat) (r : Line) : (s.setLine l r).nextImage = s.nextImage := rfl
@[simp] theorem State.setLine_badScales (s : State) (l : Nat) (r : Line) : (s.setLine l r).badScales = s.badScales := rfl

/-! ### setCore -/

@[simp] theorem State.setCore_cur (s : State) (p : Place) (c : Core) : (s.setCore p c).cur = s.cur := rfl
@[simp] theorem State.setCore_others (s : State) (p : Place) (c : Core) : (s.setCore p c).others = s.others := rfl
@[simp] theorem State.setCore_cycle (s : State) (p : Place) (c : Core) : (s.setCore p c).cycle = s.cycle := rfl
@[simp] theorem State.setCore_order (s : State) (p : Place) (c : Core) : (s.setCore p c).order = s.order := rfl
@[simp] theorem State.setCore_mem (s : State) (p : Place) (c : Core) : (s.setCore p c).mem = s.mem := rfl
@[simp] theorem State.setCore_lines (s : State) (p : Place) (c : Core) : (s.setCore p c).lines = s.lines := rfl
@[simp] theorem State.setCore_copies (s : State) (p : Place) (c : Core) : (s.setCore p c).copies = s.copies := rfl
@[simp] theorem State.setCore_gathered (s : State) (p : Place) (c : Core) : (s.setCore p c).gathered = s.gathered := rfl
@[simp] theorem State.setCore_tlb (s : State) (p : Place) (c : Core) : (s.setCore p c).tlb = s.tlb := rfl
@[simp] theorem State.setCore_walks (s : State) (p : Place) (c : Core) : (s.setCore p c).walks = s.walks := rfl
@[simp] theorem State.setCore_cores (s : State) (p : Place) (c : Core) : (s.setCore p c).cores = Tab.set s.cores p.coreKey c := rfl
@[simp] theorem State.setCore_clusters (s : State) (p : Place) (c : Core) : (s.setCore p c).clusters = s.clusters := rfl
@[simp] theorem State.setCore_slots (s : State) (p : Place) (c : Core) : (s.setCore p c).slots = s.slots := rfl
@[simp] theorem State.setCore_launches (s : State) (p : Place) (c : Core) : (s.setCore p c).launches = s.launches := rfl
@[simp] theorem State.setCore_shadows (s : State) (p : Place) (c : Core) : (s.setCore p c).shadows = s.shadows := rfl
@[simp] theorem State.setCore_cmds (s : State) (p : Place) (c : Core) : (s.setCore p c).cmds = s.cmds := rfl
@[simp] theorem State.setCore_banks (s : State) (p : Place) (c : Core) : (s.setCore p c).banks = s.banks := rfl
@[simp] theorem State.setCore_locks (s : State) (p : Place) (c : Core) : (s.setCore p c).locks = s.locks := rfl
@[simp] theorem State.setCore_sends (s : State) (p : Place) (c : Core) : (s.setCore p c).sends = s.sends := rfl
@[simp] theorem State.setCore_holders (s : State) (p : Place) (c : Core) : (s.setCore p c).holders = s.holders := rfl
@[simp] theorem State.setCore_parts (s : State) (p : Place) (c : Core) : (s.setCore p c).parts = s.parts := rfl
@[simp] theorem State.setCore_windows (s : State) (p : Place) (c : Core) : (s.setCore p c).windows = s.windows := rfl
@[simp] theorem State.setCore_colophon (s : State) (p : Place) (c : Core) : (s.setCore p c).colophon = s.colophon := rfl
@[simp] theorem State.setCore_flash (s : State) (p : Place) (c : Core) : (s.setCore p c).flash = s.flash := rfl
@[simp] theorem State.setCore_host (s : State) (p : Place) (c : Core) : (s.setCore p c).host = s.host := rfl
@[simp] theorem State.setCore_link (s : State) (p : Place) (c : Core) : (s.setCore p c).link = s.link := rfl
@[simp] theorem State.setCore_cxl (s : State) (p : Place) (c : Core) : (s.setCore p c).cxl = s.cxl := rfl
@[simp] theorem State.setCore_hbm (s : State) (p : Place) (c : Core) : (s.setCore p c).hbm = s.hbm := rfl
@[simp] theorem State.setCore_agenda (s : State) (p : Place) (c : Core) : (s.setCore p c).agenda = s.agenda := rfl
@[simp] theorem State.setCore_nextLaunch (s : State) (p : Place) (c : Core) : (s.setCore p c).nextLaunch = s.nextLaunch := rfl
@[simp] theorem State.setCore_nextImage (s : State) (p : Place) (c : Core) : (s.setCore p c).nextImage = s.nextImage := rfl
@[simp] theorem State.setCore_badScales (s : State) (p : Place) (c : Core) : (s.setCore p c).badScales = s.badScales := rfl

/-! ### setCluster -/

@[simp] theorem State.setCluster_cur (s : State) (k : Nat) (c : Cluster) : (s.setCluster k c).cur = s.cur := rfl
@[simp] theorem State.setCluster_others (s : State) (k : Nat) (c : Cluster) : (s.setCluster k c).others = s.others := rfl
@[simp] theorem State.setCluster_cycle (s : State) (k : Nat) (c : Cluster) : (s.setCluster k c).cycle = s.cycle := rfl
@[simp] theorem State.setCluster_order (s : State) (k : Nat) (c : Cluster) : (s.setCluster k c).order = s.order := rfl
@[simp] theorem State.setCluster_mem (s : State) (k : Nat) (c : Cluster) : (s.setCluster k c).mem = s.mem := rfl
@[simp] theorem State.setCluster_lines (s : State) (k : Nat) (c : Cluster) : (s.setCluster k c).lines = s.lines := rfl
@[simp] theorem State.setCluster_copies (s : State) (k : Nat) (c : Cluster) : (s.setCluster k c).copies = s.copies := rfl
@[simp] theorem State.setCluster_gathered (s : State) (k : Nat) (c : Cluster) : (s.setCluster k c).gathered = s.gathered := rfl
@[simp] theorem State.setCluster_tlb (s : State) (k : Nat) (c : Cluster) : (s.setCluster k c).tlb = s.tlb := rfl
@[simp] theorem State.setCluster_walks (s : State) (k : Nat) (c : Cluster) : (s.setCluster k c).walks = s.walks := rfl
@[simp] theorem State.setCluster_cores (s : State) (k : Nat) (c : Cluster) : (s.setCluster k c).cores = s.cores := rfl
@[simp] theorem State.setCluster_clusters (s : State) (k : Nat) (c : Cluster) : (s.setCluster k c).clusters = Tab.set s.clusters k c := rfl
@[simp] theorem State.setCluster_slots (s : State) (k : Nat) (c : Cluster) : (s.setCluster k c).slots = s.slots := rfl
@[simp] theorem State.setCluster_launches (s : State) (k : Nat) (c : Cluster) : (s.setCluster k c).launches = s.launches := rfl
@[simp] theorem State.setCluster_shadows (s : State) (k : Nat) (c : Cluster) : (s.setCluster k c).shadows = s.shadows := rfl
@[simp] theorem State.setCluster_cmds (s : State) (k : Nat) (c : Cluster) : (s.setCluster k c).cmds = s.cmds := rfl
@[simp] theorem State.setCluster_banks (s : State) (k : Nat) (c : Cluster) : (s.setCluster k c).banks = s.banks := rfl
@[simp] theorem State.setCluster_locks (s : State) (k : Nat) (c : Cluster) : (s.setCluster k c).locks = s.locks := rfl
@[simp] theorem State.setCluster_sends (s : State) (k : Nat) (c : Cluster) : (s.setCluster k c).sends = s.sends := rfl
@[simp] theorem State.setCluster_holders (s : State) (k : Nat) (c : Cluster) : (s.setCluster k c).holders = s.holders := rfl
@[simp] theorem State.setCluster_parts (s : State) (k : Nat) (c : Cluster) : (s.setCluster k c).parts = s.parts := rfl
@[simp] theorem State.setCluster_windows (s : State) (k : Nat) (c : Cluster) : (s.setCluster k c).windows = s.windows := rfl
@[simp] theorem State.setCluster_colophon (s : State) (k : Nat) (c : Cluster) : (s.setCluster k c).colophon = s.colophon := rfl
@[simp] theorem State.setCluster_flash (s : State) (k : Nat) (c : Cluster) : (s.setCluster k c).flash = s.flash := rfl
@[simp] theorem State.setCluster_host (s : State) (k : Nat) (c : Cluster) : (s.setCluster k c).host = s.host := rfl
@[simp] theorem State.setCluster_link (s : State) (k : Nat) (c : Cluster) : (s.setCluster k c).link = s.link := rfl
@[simp] theorem State.setCluster_cxl (s : State) (k : Nat) (c : Cluster) : (s.setCluster k c).cxl = s.cxl := rfl
@[simp] theorem State.setCluster_hbm (s : State) (k : Nat) (c : Cluster) : (s.setCluster k c).hbm = s.hbm := rfl
@[simp] theorem State.setCluster_agenda (s : State) (k : Nat) (c : Cluster) : (s.setCluster k c).agenda = s.agenda := rfl
@[simp] theorem State.setCluster_nextLaunch (s : State) (k : Nat) (c : Cluster) : (s.setCluster k c).nextLaunch = s.nextLaunch := rfl
@[simp] theorem State.setCluster_nextImage (s : State) (k : Nat) (c : Cluster) : (s.setCluster k c).nextImage = s.nextImage := rfl
@[simp] theorem State.setCluster_badScales (s : State) (k : Nat) (c : Cluster) : (s.setCluster k c).badScales = s.badScales := rfl

/-! ### modLaunch -/

@[simp] theorem State.modLaunch_cur (s : State) (l : Nat) (f : Launch → Launch) : (s.modLaunch l f).cur = s.cur := rfl
@[simp] theorem State.modLaunch_others (s : State) (l : Nat) (f : Launch → Launch) : (s.modLaunch l f).others = s.others := rfl
@[simp] theorem State.modLaunch_cycle (s : State) (l : Nat) (f : Launch → Launch) : (s.modLaunch l f).cycle = s.cycle := rfl
@[simp] theorem State.modLaunch_order (s : State) (l : Nat) (f : Launch → Launch) : (s.modLaunch l f).order = s.order := rfl
@[simp] theorem State.modLaunch_mem (s : State) (l : Nat) (f : Launch → Launch) : (s.modLaunch l f).mem = s.mem := rfl
@[simp] theorem State.modLaunch_lines (s : State) (l : Nat) (f : Launch → Launch) : (s.modLaunch l f).lines = s.lines := rfl
@[simp] theorem State.modLaunch_copies (s : State) (l : Nat) (f : Launch → Launch) : (s.modLaunch l f).copies = s.copies := rfl
@[simp] theorem State.modLaunch_gathered (s : State) (l : Nat) (f : Launch → Launch) : (s.modLaunch l f).gathered = s.gathered := rfl
@[simp] theorem State.modLaunch_tlb (s : State) (l : Nat) (f : Launch → Launch) : (s.modLaunch l f).tlb = s.tlb := rfl
@[simp] theorem State.modLaunch_walks (s : State) (l : Nat) (f : Launch → Launch) : (s.modLaunch l f).walks = s.walks := rfl
@[simp] theorem State.modLaunch_cores (s : State) (l : Nat) (f : Launch → Launch) : (s.modLaunch l f).cores = s.cores := rfl
@[simp] theorem State.modLaunch_clusters (s : State) (l : Nat) (f : Launch → Launch) : (s.modLaunch l f).clusters = s.clusters := rfl
@[simp] theorem State.modLaunch_slots (s : State) (l : Nat) (f : Launch → Launch) : (s.modLaunch l f).slots = s.slots := rfl
@[simp] theorem State.modLaunch_launches (s : State) (l : Nat) (f : Launch → Launch) : (s.modLaunch l f).launches = s.launches.map fun x => if x.id = l then f x else x := rfl
@[simp] theorem State.modLaunch_shadows (s : State) (l : Nat) (f : Launch → Launch) : (s.modLaunch l f).shadows = s.shadows := rfl
@[simp] theorem State.modLaunch_cmds (s : State) (l : Nat) (f : Launch → Launch) : (s.modLaunch l f).cmds = s.cmds := rfl
@[simp] theorem State.modLaunch_banks (s : State) (l : Nat) (f : Launch → Launch) : (s.modLaunch l f).banks = s.banks := rfl
@[simp] theorem State.modLaunch_locks (s : State) (l : Nat) (f : Launch → Launch) : (s.modLaunch l f).locks = s.locks := rfl
@[simp] theorem State.modLaunch_sends (s : State) (l : Nat) (f : Launch → Launch) : (s.modLaunch l f).sends = s.sends := rfl
@[simp] theorem State.modLaunch_holders (s : State) (l : Nat) (f : Launch → Launch) : (s.modLaunch l f).holders = s.holders := rfl
@[simp] theorem State.modLaunch_parts (s : State) (l : Nat) (f : Launch → Launch) : (s.modLaunch l f).parts = s.parts := rfl
@[simp] theorem State.modLaunch_windows (s : State) (l : Nat) (f : Launch → Launch) : (s.modLaunch l f).windows = s.windows := rfl
@[simp] theorem State.modLaunch_colophon (s : State) (l : Nat) (f : Launch → Launch) : (s.modLaunch l f).colophon = s.colophon := rfl
@[simp] theorem State.modLaunch_flash (s : State) (l : Nat) (f : Launch → Launch) : (s.modLaunch l f).flash = s.flash := rfl
@[simp] theorem State.modLaunch_host (s : State) (l : Nat) (f : Launch → Launch) : (s.modLaunch l f).host = s.host := rfl
@[simp] theorem State.modLaunch_link (s : State) (l : Nat) (f : Launch → Launch) : (s.modLaunch l f).link = s.link := rfl
@[simp] theorem State.modLaunch_cxl (s : State) (l : Nat) (f : Launch → Launch) : (s.modLaunch l f).cxl = s.cxl := rfl
@[simp] theorem State.modLaunch_hbm (s : State) (l : Nat) (f : Launch → Launch) : (s.modLaunch l f).hbm = s.hbm := rfl
@[simp] theorem State.modLaunch_agenda (s : State) (l : Nat) (f : Launch → Launch) : (s.modLaunch l f).agenda = s.agenda := rfl
@[simp] theorem State.modLaunch_nextLaunch (s : State) (l : Nat) (f : Launch → Launch) : (s.modLaunch l f).nextLaunch = s.nextLaunch := rfl
@[simp] theorem State.modLaunch_nextImage (s : State) (l : Nat) (f : Launch → Launch) : (s.modLaunch l f).nextImage = s.nextImage := rfl
@[simp] theorem State.modLaunch_badScales (s : State) (l : Nat) (f : Launch → Launch) : (s.modLaunch l f).badScales = s.badScales := rfl

/-! ### modPart -/

@[simp] theorem State.modPart_cur (s : State) (p : Nat) (f : Part → Part) : (s.modPart p f).cur = s.cur := rfl
@[simp] theorem State.modPart_others (s : State) (p : Nat) (f : Part → Part) : (s.modPart p f).others = s.others := rfl
@[simp] theorem State.modPart_cycle (s : State) (p : Nat) (f : Part → Part) : (s.modPart p f).cycle = s.cycle := rfl
@[simp] theorem State.modPart_order (s : State) (p : Nat) (f : Part → Part) : (s.modPart p f).order = s.order := rfl
@[simp] theorem State.modPart_mem (s : State) (p : Nat) (f : Part → Part) : (s.modPart p f).mem = s.mem := rfl
@[simp] theorem State.modPart_lines (s : State) (p : Nat) (f : Part → Part) : (s.modPart p f).lines = s.lines := rfl
@[simp] theorem State.modPart_copies (s : State) (p : Nat) (f : Part → Part) : (s.modPart p f).copies = s.copies := rfl
@[simp] theorem State.modPart_gathered (s : State) (p : Nat) (f : Part → Part) : (s.modPart p f).gathered = s.gathered := rfl
@[simp] theorem State.modPart_tlb (s : State) (p : Nat) (f : Part → Part) : (s.modPart p f).tlb = s.tlb := rfl
@[simp] theorem State.modPart_walks (s : State) (p : Nat) (f : Part → Part) : (s.modPart p f).walks = s.walks := rfl
@[simp] theorem State.modPart_cores (s : State) (p : Nat) (f : Part → Part) : (s.modPart p f).cores = s.cores := rfl
@[simp] theorem State.modPart_clusters (s : State) (p : Nat) (f : Part → Part) : (s.modPart p f).clusters = s.clusters := rfl
@[simp] theorem State.modPart_slots (s : State) (p : Nat) (f : Part → Part) : (s.modPart p f).slots = s.slots := rfl
@[simp] theorem State.modPart_launches (s : State) (p : Nat) (f : Part → Part) : (s.modPart p f).launches = s.launches := rfl
@[simp] theorem State.modPart_shadows (s : State) (p : Nat) (f : Part → Part) : (s.modPart p f).shadows = s.shadows := rfl
@[simp] theorem State.modPart_cmds (s : State) (p : Nat) (f : Part → Part) : (s.modPart p f).cmds = s.cmds := rfl
@[simp] theorem State.modPart_banks (s : State) (p : Nat) (f : Part → Part) : (s.modPart p f).banks = s.banks := rfl
@[simp] theorem State.modPart_locks (s : State) (p : Nat) (f : Part → Part) : (s.modPart p f).locks = s.locks := rfl
@[simp] theorem State.modPart_sends (s : State) (p : Nat) (f : Part → Part) : (s.modPart p f).sends = s.sends := rfl
@[simp] theorem State.modPart_holders (s : State) (p : Nat) (f : Part → Part) : (s.modPart p f).holders = s.holders := rfl
@[simp] theorem State.modPart_parts (s : State) (p : Nat) (f : Part → Part) : (s.modPart p f).parts = s.parts.map fun x => if x.idx = p then f x else x := rfl
@[simp] theorem State.modPart_windows (s : State) (p : Nat) (f : Part → Part) : (s.modPart p f).windows = s.windows := rfl
@[simp] theorem State.modPart_colophon (s : State) (p : Nat) (f : Part → Part) : (s.modPart p f).colophon = s.colophon := rfl
@[simp] theorem State.modPart_flash (s : State) (p : Nat) (f : Part → Part) : (s.modPart p f).flash = s.flash := rfl
@[simp] theorem State.modPart_host (s : State) (p : Nat) (f : Part → Part) : (s.modPart p f).host = s.host := rfl
@[simp] theorem State.modPart_link (s : State) (p : Nat) (f : Part → Part) : (s.modPart p f).link = s.link := rfl
@[simp] theorem State.modPart_cxl (s : State) (p : Nat) (f : Part → Part) : (s.modPart p f).cxl = s.cxl := rfl
@[simp] theorem State.modPart_hbm (s : State) (p : Nat) (f : Part → Part) : (s.modPart p f).hbm = s.hbm := rfl
@[simp] theorem State.modPart_agenda (s : State) (p : Nat) (f : Part → Part) : (s.modPart p f).agenda = s.agenda := rfl
@[simp] theorem State.modPart_nextLaunch (s : State) (p : Nat) (f : Part → Part) : (s.modPart p f).nextLaunch = s.nextLaunch := rfl
@[simp] theorem State.modPart_nextImage (s : State) (p : Nat) (f : Part → Part) : (s.modPart p f).nextImage = s.nextImage := rfl
@[simp] theorem State.modPart_badScales (s : State) (p : Nat) (f : Part → Part) : (s.modPart p f).badScales = s.badScales := rfl

/-! ### tick -/

@[simp] theorem State.tick_cur (s : State) : (s.tick).cur = s.cur := rfl
@[simp] theorem State.tick_others (s : State) : (s.tick).others = s.others := rfl
@[simp] theorem State.tick_cycle (s : State) : (s.tick).cycle = s.cycle + 1 := rfl
@[simp] theorem State.tick_order (s : State) : (s.tick).order = s.order := rfl
@[simp] theorem State.tick_mem (s : State) : (s.tick).mem = s.mem := rfl
@[simp] theorem State.tick_lines (s : State) : (s.tick).lines = s.lines := rfl
@[simp] theorem State.tick_copies (s : State) : (s.tick).copies = s.copies := rfl
@[simp] theorem State.tick_gathered (s : State) : (s.tick).gathered = s.gathered := rfl
@[simp] theorem State.tick_tlb (s : State) : (s.tick).tlb = s.tlb := rfl
@[simp] theorem State.tick_walks (s : State) : (s.tick).walks = s.walks := rfl
@[simp] theorem State.tick_cores (s : State) : (s.tick).cores = s.cores := rfl
@[simp] theorem State.tick_clusters (s : State) : (s.tick).clusters = s.clusters := rfl
@[simp] theorem State.tick_slots (s : State) : (s.tick).slots = s.slots := rfl
@[simp] theorem State.tick_launches (s : State) : (s.tick).launches = s.launches := rfl
@[simp] theorem State.tick_shadows (s : State) : (s.tick).shadows = s.shadows := rfl
@[simp] theorem State.tick_cmds (s : State) : (s.tick).cmds = s.cmds := rfl
@[simp] theorem State.tick_banks (s : State) : (s.tick).banks = s.banks := rfl
@[simp] theorem State.tick_locks (s : State) : (s.tick).locks = s.locks := rfl
@[simp] theorem State.tick_sends (s : State) : (s.tick).sends = s.sends := rfl
@[simp] theorem State.tick_holders (s : State) : (s.tick).holders = s.holders := rfl
@[simp] theorem State.tick_parts (s : State) : (s.tick).parts = s.parts := rfl
@[simp] theorem State.tick_windows (s : State) : (s.tick).windows = s.windows := rfl
@[simp] theorem State.tick_colophon (s : State) : (s.tick).colophon = s.colophon := rfl
@[simp] theorem State.tick_flash (s : State) : (s.tick).flash = s.flash := rfl
@[simp] theorem State.tick_host (s : State) : (s.tick).host = s.host := rfl
@[simp] theorem State.tick_link (s : State) : (s.tick).link = s.link := rfl
@[simp] theorem State.tick_cxl (s : State) : (s.tick).cxl = s.cxl := rfl
@[simp] theorem State.tick_hbm (s : State) : (s.tick).hbm = s.hbm := rfl
@[simp] theorem State.tick_agenda (s : State) : (s.tick).agenda = s.agenda := rfl
@[simp] theorem State.tick_nextLaunch (s : State) : (s.tick).nextLaunch = s.nextLaunch := rfl
@[simp] theorem State.tick_nextImage (s : State) : (s.tick).nextImage = s.nextImage := rfl
@[simp] theorem State.tick_badScales (s : State) : (s.tick).badScales = s.badScales := rfl

/-! ### setIr -/

@[simp] theorem State.setIr_cur (s : State) (w : BitVec 32) : (s.setIr w).cur = { s.cur with ir := w } := rfl
@[simp] theorem State.setIr_others (s : State) (w : BitVec 32) : (s.setIr w).others = s.others := rfl
@[simp] theorem State.setIr_cycle (s : State) (w : BitVec 32) : (s.setIr w).cycle = s.cycle := rfl
@[simp] theorem State.setIr_order (s : State) (w : BitVec 32) : (s.setIr w).order = s.order := rfl
@[simp] theorem State.setIr_mem (s : State) (w : BitVec 32) : (s.setIr w).mem = s.mem := rfl
@[simp] theorem State.setIr_lines (s : State) (w : BitVec 32) : (s.setIr w).lines = s.lines := rfl
@[simp] theorem State.setIr_copies (s : State) (w : BitVec 32) : (s.setIr w).copies = s.copies := rfl
@[simp] theorem State.setIr_gathered (s : State) (w : BitVec 32) : (s.setIr w).gathered = s.gathered := rfl
@[simp] theorem State.setIr_tlb (s : State) (w : BitVec 32) : (s.setIr w).tlb = s.tlb := rfl
@[simp] theorem State.setIr_walks (s : State) (w : BitVec 32) : (s.setIr w).walks = s.walks := rfl
@[simp] theorem State.setIr_cores (s : State) (w : BitVec 32) : (s.setIr w).cores = s.cores := rfl
@[simp] theorem State.setIr_clusters (s : State) (w : BitVec 32) : (s.setIr w).clusters = s.clusters := rfl
@[simp] theorem State.setIr_slots (s : State) (w : BitVec 32) : (s.setIr w).slots = s.slots := rfl
@[simp] theorem State.setIr_launches (s : State) (w : BitVec 32) : (s.setIr w).launches = s.launches := rfl
@[simp] theorem State.setIr_shadows (s : State) (w : BitVec 32) : (s.setIr w).shadows = s.shadows := rfl
@[simp] theorem State.setIr_cmds (s : State) (w : BitVec 32) : (s.setIr w).cmds = s.cmds := rfl
@[simp] theorem State.setIr_banks (s : State) (w : BitVec 32) : (s.setIr w).banks = s.banks := rfl
@[simp] theorem State.setIr_locks (s : State) (w : BitVec 32) : (s.setIr w).locks = s.locks := rfl
@[simp] theorem State.setIr_sends (s : State) (w : BitVec 32) : (s.setIr w).sends = s.sends := rfl
@[simp] theorem State.setIr_holders (s : State) (w : BitVec 32) : (s.setIr w).holders = s.holders := rfl
@[simp] theorem State.setIr_parts (s : State) (w : BitVec 32) : (s.setIr w).parts = s.parts := rfl
@[simp] theorem State.setIr_windows (s : State) (w : BitVec 32) : (s.setIr w).windows = s.windows := rfl
@[simp] theorem State.setIr_colophon (s : State) (w : BitVec 32) : (s.setIr w).colophon = s.colophon := rfl
@[simp] theorem State.setIr_flash (s : State) (w : BitVec 32) : (s.setIr w).flash = s.flash := rfl
@[simp] theorem State.setIr_host (s : State) (w : BitVec 32) : (s.setIr w).host = s.host := rfl
@[simp] theorem State.setIr_link (s : State) (w : BitVec 32) : (s.setIr w).link = s.link := rfl
@[simp] theorem State.setIr_cxl (s : State) (w : BitVec 32) : (s.setIr w).cxl = s.cxl := rfl
@[simp] theorem State.setIr_hbm (s : State) (w : BitVec 32) : (s.setIr w).hbm = s.hbm := rfl
@[simp] theorem State.setIr_agenda (s : State) (w : BitVec 32) : (s.setIr w).agenda = s.agenda := rfl
@[simp] theorem State.setIr_nextLaunch (s : State) (w : BitVec 32) : (s.setIr w).nextLaunch = s.nextLaunch := rfl
@[simp] theorem State.setIr_nextImage (s : State) (w : BitVec 32) : (s.setIr w).nextImage = s.nextImage := rfl
@[simp] theorem State.setIr_badScales (s : State) (w : BitVec 32) : (s.setIr w).badScales = s.badScales := rfl

/-! ### goto -/

@[simp] theorem State.goto_cur (s : State) (a : Word) : (s.goto a).cur = { s.cur with pc := a, wait := none, stalled := false, pass := false, retired := s.cur.retired + 1 } := rfl
@[simp] theorem State.goto_others (s : State) (a : Word) : (s.goto a).others = s.others := rfl
@[simp] theorem State.goto_cycle (s : State) (a : Word) : (s.goto a).cycle = s.cycle := rfl
@[simp] theorem State.goto_order (s : State) (a : Word) : (s.goto a).order = s.order := rfl
@[simp] theorem State.goto_mem (s : State) (a : Word) : (s.goto a).mem = s.mem := rfl
@[simp] theorem State.goto_lines (s : State) (a : Word) : (s.goto a).lines = s.lines := rfl
@[simp] theorem State.goto_copies (s : State) (a : Word) : (s.goto a).copies = s.copies := rfl
@[simp] theorem State.goto_gathered (s : State) (a : Word) : (s.goto a).gathered = s.gathered := rfl
@[simp] theorem State.goto_tlb (s : State) (a : Word) : (s.goto a).tlb = s.tlb := rfl
@[simp] theorem State.goto_walks (s : State) (a : Word) : (s.goto a).walks = s.walks := rfl
@[simp] theorem State.goto_cores (s : State) (a : Word) : (s.goto a).cores = s.cores := rfl
@[simp] theorem State.goto_clusters (s : State) (a : Word) : (s.goto a).clusters = s.clusters := rfl
@[simp] theorem State.goto_slots (s : State) (a : Word) : (s.goto a).slots = s.slots := rfl
@[simp] theorem State.goto_launches (s : State) (a : Word) : (s.goto a).launches = s.launches := rfl
@[simp] theorem State.goto_shadows (s : State) (a : Word) : (s.goto a).shadows = s.shadows := rfl
@[simp] theorem State.goto_cmds (s : State) (a : Word) : (s.goto a).cmds = s.cmds := rfl
@[simp] theorem State.goto_banks (s : State) (a : Word) : (s.goto a).banks = s.banks := rfl
@[simp] theorem State.goto_locks (s : State) (a : Word) : (s.goto a).locks = s.locks := rfl
@[simp] theorem State.goto_sends (s : State) (a : Word) : (s.goto a).sends = s.sends := rfl
@[simp] theorem State.goto_holders (s : State) (a : Word) : (s.goto a).holders = s.holders := rfl
@[simp] theorem State.goto_parts (s : State) (a : Word) : (s.goto a).parts = s.parts := rfl
@[simp] theorem State.goto_windows (s : State) (a : Word) : (s.goto a).windows = s.windows := rfl
@[simp] theorem State.goto_colophon (s : State) (a : Word) : (s.goto a).colophon = s.colophon := rfl
@[simp] theorem State.goto_flash (s : State) (a : Word) : (s.goto a).flash = s.flash := rfl
@[simp] theorem State.goto_host (s : State) (a : Word) : (s.goto a).host = s.host := rfl
@[simp] theorem State.goto_link (s : State) (a : Word) : (s.goto a).link = s.link := rfl
@[simp] theorem State.goto_cxl (s : State) (a : Word) : (s.goto a).cxl = s.cxl := rfl
@[simp] theorem State.goto_hbm (s : State) (a : Word) : (s.goto a).hbm = s.hbm := rfl
@[simp] theorem State.goto_agenda (s : State) (a : Word) : (s.goto a).agenda = s.agenda := rfl
@[simp] theorem State.goto_nextLaunch (s : State) (a : Word) : (s.goto a).nextLaunch = s.nextLaunch := rfl
@[simp] theorem State.goto_nextImage (s : State) (a : Word) : (s.goto a).nextImage = s.nextImage := rfl
@[simp] theorem State.goto_badScales (s : State) (a : Word) : (s.goto a).badScales = s.badScales := rfl

/-! ### setPts -/

@[simp] theorem State.setPts_cur (s : State) (t : Nat) : (s.setPts t).cur = { s.cur with sys := { s.cur.sys with pts := t } } := rfl
@[simp] theorem State.setPts_others (s : State) (t : Nat) : (s.setPts t).others = s.others := rfl
@[simp] theorem State.setPts_cycle (s : State) (t : Nat) : (s.setPts t).cycle = s.cycle := rfl
@[simp] theorem State.setPts_order (s : State) (t : Nat) : (s.setPts t).order = s.order := rfl
@[simp] theorem State.setPts_mem (s : State) (t : Nat) : (s.setPts t).mem = s.mem := rfl
@[simp] theorem State.setPts_lines (s : State) (t : Nat) : (s.setPts t).lines = s.lines := rfl
@[simp] theorem State.setPts_copies (s : State) (t : Nat) : (s.setPts t).copies = s.copies := rfl
@[simp] theorem State.setPts_gathered (s : State) (t : Nat) : (s.setPts t).gathered = s.gathered := rfl
@[simp] theorem State.setPts_tlb (s : State) (t : Nat) : (s.setPts t).tlb = s.tlb := rfl
@[simp] theorem State.setPts_walks (s : State) (t : Nat) : (s.setPts t).walks = s.walks := rfl
@[simp] theorem State.setPts_cores (s : State) (t : Nat) : (s.setPts t).cores = s.cores := rfl
@[simp] theorem State.setPts_clusters (s : State) (t : Nat) : (s.setPts t).clusters = s.clusters := rfl
@[simp] theorem State.setPts_slots (s : State) (t : Nat) : (s.setPts t).slots = s.slots := rfl
@[simp] theorem State.setPts_launches (s : State) (t : Nat) : (s.setPts t).launches = s.launches := rfl
@[simp] theorem State.setPts_shadows (s : State) (t : Nat) : (s.setPts t).shadows = s.shadows := rfl
@[simp] theorem State.setPts_cmds (s : State) (t : Nat) : (s.setPts t).cmds = s.cmds := rfl
@[simp] theorem State.setPts_banks (s : State) (t : Nat) : (s.setPts t).banks = s.banks := rfl
@[simp] theorem State.setPts_locks (s : State) (t : Nat) : (s.setPts t).locks = s.locks := rfl
@[simp] theorem State.setPts_sends (s : State) (t : Nat) : (s.setPts t).sends = s.sends := rfl
@[simp] theorem State.setPts_holders (s : State) (t : Nat) : (s.setPts t).holders = s.holders := rfl
@[simp] theorem State.setPts_parts (s : State) (t : Nat) : (s.setPts t).parts = s.parts := rfl
@[simp] theorem State.setPts_windows (s : State) (t : Nat) : (s.setPts t).windows = s.windows := rfl
@[simp] theorem State.setPts_colophon (s : State) (t : Nat) : (s.setPts t).colophon = s.colophon := rfl
@[simp] theorem State.setPts_flash (s : State) (t : Nat) : (s.setPts t).flash = s.flash := rfl
@[simp] theorem State.setPts_host (s : State) (t : Nat) : (s.setPts t).host = s.host := rfl
@[simp] theorem State.setPts_link (s : State) (t : Nat) : (s.setPts t).link = s.link := rfl
@[simp] theorem State.setPts_cxl (s : State) (t : Nat) : (s.setPts t).cxl = s.cxl := rfl
@[simp] theorem State.setPts_hbm (s : State) (t : Nat) : (s.setPts t).hbm = s.hbm := rfl
@[simp] theorem State.setPts_agenda (s : State) (t : Nat) : (s.setPts t).agenda = s.agenda := rfl
@[simp] theorem State.setPts_nextLaunch (s : State) (t : Nat) : (s.setPts t).nextLaunch = s.nextLaunch := rfl
@[simp] theorem State.setPts_nextImage (s : State) (t : Nat) : (s.setPts t).nextImage = s.nextImage := rfl
@[simp] theorem State.setPts_badScales (s : State) (t : Nat) : (s.setPts t).badScales = s.badScales := rfl

/-! ### enqueue -/

@[simp] theorem State.enqueue_cur (s : State) (q : QEntry) : (s.enqueue q).cur = { s.cur with vec := { s.cur.vec with queue := s.cur.vec.queue ++ [q] } } := rfl
@[simp] theorem State.enqueue_others (s : State) (q : QEntry) : (s.enqueue q).others = s.others := rfl
@[simp] theorem State.enqueue_cycle (s : State) (q : QEntry) : (s.enqueue q).cycle = s.cycle := rfl
@[simp] theorem State.enqueue_order (s : State) (q : QEntry) : (s.enqueue q).order = s.order := rfl
@[simp] theorem State.enqueue_mem (s : State) (q : QEntry) : (s.enqueue q).mem = s.mem := rfl
@[simp] theorem State.enqueue_lines (s : State) (q : QEntry) : (s.enqueue q).lines = s.lines := rfl
@[simp] theorem State.enqueue_copies (s : State) (q : QEntry) : (s.enqueue q).copies = s.copies := rfl
@[simp] theorem State.enqueue_gathered (s : State) (q : QEntry) : (s.enqueue q).gathered = s.gathered := rfl
@[simp] theorem State.enqueue_tlb (s : State) (q : QEntry) : (s.enqueue q).tlb = s.tlb := rfl
@[simp] theorem State.enqueue_walks (s : State) (q : QEntry) : (s.enqueue q).walks = s.walks := rfl
@[simp] theorem State.enqueue_cores (s : State) (q : QEntry) : (s.enqueue q).cores = s.cores := rfl
@[simp] theorem State.enqueue_clusters (s : State) (q : QEntry) : (s.enqueue q).clusters = s.clusters := rfl
@[simp] theorem State.enqueue_slots (s : State) (q : QEntry) : (s.enqueue q).slots = s.slots := rfl
@[simp] theorem State.enqueue_launches (s : State) (q : QEntry) : (s.enqueue q).launches = s.launches := rfl
@[simp] theorem State.enqueue_shadows (s : State) (q : QEntry) : (s.enqueue q).shadows = s.shadows := rfl
@[simp] theorem State.enqueue_cmds (s : State) (q : QEntry) : (s.enqueue q).cmds = s.cmds := rfl
@[simp] theorem State.enqueue_banks (s : State) (q : QEntry) : (s.enqueue q).banks = s.banks := rfl
@[simp] theorem State.enqueue_locks (s : State) (q : QEntry) : (s.enqueue q).locks = s.locks := rfl
@[simp] theorem State.enqueue_sends (s : State) (q : QEntry) : (s.enqueue q).sends = s.sends := rfl
@[simp] theorem State.enqueue_holders (s : State) (q : QEntry) : (s.enqueue q).holders = s.holders := rfl
@[simp] theorem State.enqueue_parts (s : State) (q : QEntry) : (s.enqueue q).parts = s.parts := rfl
@[simp] theorem State.enqueue_windows (s : State) (q : QEntry) : (s.enqueue q).windows = s.windows := rfl
@[simp] theorem State.enqueue_colophon (s : State) (q : QEntry) : (s.enqueue q).colophon = s.colophon := rfl
@[simp] theorem State.enqueue_flash (s : State) (q : QEntry) : (s.enqueue q).flash = s.flash := rfl
@[simp] theorem State.enqueue_host (s : State) (q : QEntry) : (s.enqueue q).host = s.host := rfl
@[simp] theorem State.enqueue_link (s : State) (q : QEntry) : (s.enqueue q).link = s.link := rfl
@[simp] theorem State.enqueue_cxl (s : State) (q : QEntry) : (s.enqueue q).cxl = s.cxl := rfl
@[simp] theorem State.enqueue_hbm (s : State) (q : QEntry) : (s.enqueue q).hbm = s.hbm := rfl
@[simp] theorem State.enqueue_agenda (s : State) (q : QEntry) : (s.enqueue q).agenda = s.agenda := rfl
@[simp] theorem State.enqueue_nextLaunch (s : State) (q : QEntry) : (s.enqueue q).nextLaunch = s.nextLaunch := rfl
@[simp] theorem State.enqueue_nextImage (s : State) (q : QEntry) : (s.enqueue q).nextImage = s.nextImage := rfl
@[simp] theorem State.enqueue_badScales (s : State) (q : QEntry) : (s.enqueue q).badScales = s.badScales := rfl

/-! ### popQueue -/

@[simp] theorem State.popQueue_cur (s : State) : (s.popQueue).cur = { s.cur with stalled := false, vec := { s.cur.vec with queue := s.cur.vec.queue.drop 1 } } := rfl
@[simp] theorem State.popQueue_others (s : State) : (s.popQueue).others = s.others := rfl
@[simp] theorem State.popQueue_cycle (s : State) : (s.popQueue).cycle = s.cycle := rfl
@[simp] theorem State.popQueue_order (s : State) : (s.popQueue).order = s.order := rfl
@[simp] theorem State.popQueue_mem (s : State) : (s.popQueue).mem = s.mem := rfl
@[simp] theorem State.popQueue_lines (s : State) : (s.popQueue).lines = s.lines := rfl
@[simp] theorem State.popQueue_copies (s : State) : (s.popQueue).copies = s.copies := rfl
@[simp] theorem State.popQueue_gathered (s : State) : (s.popQueue).gathered = s.gathered := rfl
@[simp] theorem State.popQueue_tlb (s : State) : (s.popQueue).tlb = s.tlb := rfl
@[simp] theorem State.popQueue_walks (s : State) : (s.popQueue).walks = s.walks := rfl
@[simp] theorem State.popQueue_cores (s : State) : (s.popQueue).cores = s.cores := rfl
@[simp] theorem State.popQueue_clusters (s : State) : (s.popQueue).clusters = s.clusters := rfl
@[simp] theorem State.popQueue_slots (s : State) : (s.popQueue).slots = s.slots := rfl
@[simp] theorem State.popQueue_launches (s : State) : (s.popQueue).launches = s.launches := rfl
@[simp] theorem State.popQueue_shadows (s : State) : (s.popQueue).shadows = s.shadows := rfl
@[simp] theorem State.popQueue_cmds (s : State) : (s.popQueue).cmds = s.cmds := rfl
@[simp] theorem State.popQueue_banks (s : State) : (s.popQueue).banks = s.banks := rfl
@[simp] theorem State.popQueue_locks (s : State) : (s.popQueue).locks = s.locks := rfl
@[simp] theorem State.popQueue_sends (s : State) : (s.popQueue).sends = s.sends := rfl
@[simp] theorem State.popQueue_holders (s : State) : (s.popQueue).holders = s.holders := rfl
@[simp] theorem State.popQueue_parts (s : State) : (s.popQueue).parts = s.parts := rfl
@[simp] theorem State.popQueue_windows (s : State) : (s.popQueue).windows = s.windows := rfl
@[simp] theorem State.popQueue_colophon (s : State) : (s.popQueue).colophon = s.colophon := rfl
@[simp] theorem State.popQueue_flash (s : State) : (s.popQueue).flash = s.flash := rfl
@[simp] theorem State.popQueue_host (s : State) : (s.popQueue).host = s.host := rfl
@[simp] theorem State.popQueue_link (s : State) : (s.popQueue).link = s.link := rfl
@[simp] theorem State.popQueue_cxl (s : State) : (s.popQueue).cxl = s.cxl := rfl
@[simp] theorem State.popQueue_hbm (s : State) : (s.popQueue).hbm = s.hbm := rfl
@[simp] theorem State.popQueue_agenda (s : State) : (s.popQueue).agenda = s.agenda := rfl
@[simp] theorem State.popQueue_nextLaunch (s : State) : (s.popQueue).nextLaunch = s.nextLaunch := rfl
@[simp] theorem State.popQueue_nextImage (s : State) : (s.popQueue).nextImage = s.nextImage := rfl
@[simp] theorem State.popQueue_badScales (s : State) : (s.popQueue).badScales = s.badScales := rfl

/-! ### retire -/

@[simp] theorem State.retire_eq (s : State) : s.retire = s.goto (s.cur.pc + 4) := rfl

/-! ### setX -/

@[simp] theorem State.setX_others (s : State) (n : Nat) (v : Word) : (s.setX n v).others = s.others := by
  unfold State.setX; split <;> rfl
@[simp] theorem State.setX_cycle (s : State) (n : Nat) (v : Word) : (s.setX n v).cycle = s.cycle := by
  unfold State.setX; split <;> rfl
@[simp] theorem State.setX_order (s : State) (n : Nat) (v : Word) : (s.setX n v).order = s.order := by
  unfold State.setX; split <;> rfl
@[simp] theorem State.setX_mem (s : State) (n : Nat) (v : Word) : (s.setX n v).mem = s.mem := by
  unfold State.setX; split <;> rfl
@[simp] theorem State.setX_lines (s : State) (n : Nat) (v : Word) : (s.setX n v).lines = s.lines := by
  unfold State.setX; split <;> rfl
@[simp] theorem State.setX_copies (s : State) (n : Nat) (v : Word) : (s.setX n v).copies = s.copies := by
  unfold State.setX; split <;> rfl
@[simp] theorem State.setX_gathered (s : State) (n : Nat) (v : Word) : (s.setX n v).gathered = s.gathered := by
  unfold State.setX; split <;> rfl
@[simp] theorem State.setX_tlb (s : State) (n : Nat) (v : Word) : (s.setX n v).tlb = s.tlb := by
  unfold State.setX; split <;> rfl
@[simp] theorem State.setX_walks (s : State) (n : Nat) (v : Word) : (s.setX n v).walks = s.walks := by
  unfold State.setX; split <;> rfl
@[simp] theorem State.setX_cores (s : State) (n : Nat) (v : Word) : (s.setX n v).cores = s.cores := by
  unfold State.setX; split <;> rfl
@[simp] theorem State.setX_clusters (s : State) (n : Nat) (v : Word) : (s.setX n v).clusters = s.clusters := by
  unfold State.setX; split <;> rfl
@[simp] theorem State.setX_slots (s : State) (n : Nat) (v : Word) : (s.setX n v).slots = s.slots := by
  unfold State.setX; split <;> rfl
@[simp] theorem State.setX_launches (s : State) (n : Nat) (v : Word) : (s.setX n v).launches = s.launches := by
  unfold State.setX; split <;> rfl
@[simp] theorem State.setX_shadows (s : State) (n : Nat) (v : Word) : (s.setX n v).shadows = s.shadows := by
  unfold State.setX; split <;> rfl
@[simp] theorem State.setX_cmds (s : State) (n : Nat) (v : Word) : (s.setX n v).cmds = s.cmds := by
  unfold State.setX; split <;> rfl
@[simp] theorem State.setX_banks (s : State) (n : Nat) (v : Word) : (s.setX n v).banks = s.banks := by
  unfold State.setX; split <;> rfl
@[simp] theorem State.setX_locks (s : State) (n : Nat) (v : Word) : (s.setX n v).locks = s.locks := by
  unfold State.setX; split <;> rfl
@[simp] theorem State.setX_sends (s : State) (n : Nat) (v : Word) : (s.setX n v).sends = s.sends := by
  unfold State.setX; split <;> rfl
@[simp] theorem State.setX_holders (s : State) (n : Nat) (v : Word) : (s.setX n v).holders = s.holders := by
  unfold State.setX; split <;> rfl
@[simp] theorem State.setX_parts (s : State) (n : Nat) (v : Word) : (s.setX n v).parts = s.parts := by
  unfold State.setX; split <;> rfl
@[simp] theorem State.setX_windows (s : State) (n : Nat) (v : Word) : (s.setX n v).windows = s.windows := by
  unfold State.setX; split <;> rfl
@[simp] theorem State.setX_colophon (s : State) (n : Nat) (v : Word) : (s.setX n v).colophon = s.colophon := by
  unfold State.setX; split <;> rfl
@[simp] theorem State.setX_flash (s : State) (n : Nat) (v : Word) : (s.setX n v).flash = s.flash := by
  unfold State.setX; split <;> rfl
@[simp] theorem State.setX_host (s : State) (n : Nat) (v : Word) : (s.setX n v).host = s.host := by
  unfold State.setX; split <;> rfl
@[simp] theorem State.setX_link (s : State) (n : Nat) (v : Word) : (s.setX n v).link = s.link := by
  unfold State.setX; split <;> rfl
@[simp] theorem State.setX_cxl (s : State) (n : Nat) (v : Word) : (s.setX n v).cxl = s.cxl := by
  unfold State.setX; split <;> rfl
@[simp] theorem State.setX_hbm (s : State) (n : Nat) (v : Word) : (s.setX n v).hbm = s.hbm := by
  unfold State.setX; split <;> rfl
@[simp] theorem State.setX_agenda (s : State) (n : Nat) (v : Word) : (s.setX n v).agenda = s.agenda := by
  unfold State.setX; split <;> rfl
@[simp] theorem State.setX_nextLaunch (s : State) (n : Nat) (v : Word) : (s.setX n v).nextLaunch = s.nextLaunch := by
  unfold State.setX; split <;> rfl
@[simp] theorem State.setX_nextImage (s : State) (n : Nat) (v : Word) : (s.setX n v).nextImage = s.nextImage := by
  unfold State.setX; split <;> rfl
@[simp] theorem State.setX_badScales (s : State) (n : Nat) (v : Word) : (s.setX n v).badScales = s.badScales := by
  unfold State.setX; split <;> rfl
@[simp] theorem State.setX_cur_id (s : State) (n : Nat) (v : Word) : (s.setX n v).cur.id = s.cur.id := by
  unfold State.setX; split <;> rfl
@[simp] theorem State.setX_cur_ir (s : State) (n : Nat) (v : Word) : (s.setX n v).cur.ir = s.cur.ir := by
  unfold State.setX; split <;> rfl
@[simp] theorem State.setX_cur_raised (s : State) (n : Nat) (v : Word) : (s.setX n v).cur.raised = s.cur.raised := by
  unfold State.setX; split <;> rfl
@[simp] theorem State.setX_cur_st (s : State) (n : Nat) (v : Word) : (s.setX n v).cur.st = s.cur.st := by
  unfold State.setX; split <;> rfl
@[simp] theorem State.setX_cur_pc (s : State) (n : Nat) (v : Word) : (s.setX n v).cur.pc = s.cur.pc := by
  unfold State.setX; split <;> rfl
@[simp] theorem State.setX_cur_resume (s : State) (n : Nat) (v : Word) : (s.setX n v).cur.resume = s.cur.resume := by
  unfold State.setX; split <;> rfl
@[simp] theorem State.setX_cur_sys (s : State) (n : Nat) (v : Word) : (s.setX n v).cur.sys = s.cur.sys := by
  unfold State.setX; split <;> rfl
@[simp] theorem State.setX_cur_vec (s : State) (n : Nat) (v : Word) : (s.setX n v).cur.vec = s.cur.vec := by
  unfold State.setX; split <;> rfl
@[simp] theorem State.setX_cur_share (s : State) (n : Nat) (v : Word) : (s.setX n v).cur.share = s.cur.share := by
  unfold State.setX; split <;> rfl
@[simp] theorem State.setX_cur_nextId (s : State) (n : Nat) (v : Word) : (s.setX n v).cur.nextId = s.cur.nextId := by
  unfold State.setX; split <;> rfl
@[simp] theorem State.setX_cur_nextTag (s : State) (n : Nat) (v : Word) : (s.setX n v).cur.nextTag = s.cur.nextTag := by
  unfold State.setX; split <;> rfl
@[simp] theorem State.setX_cur_wait (s : State) (n : Nat) (v : Word) : (s.setX n v).cur.wait = s.cur.wait := by
  unfold State.setX; split <;> rfl
@[simp] theorem State.setX_cur_stalled (s : State) (n : Nat) (v : Word) : (s.setX n v).cur.stalled = s.cur.stalled := by
  unfold State.setX; split <;> rfl
@[simp] theorem State.setX_cur_trap (s : State) (n : Nat) (v : Word) : (s.setX n v).cur.trap = s.cur.trap := by
  unfold State.setX; split <;> rfl
@[simp] theorem State.setX_cur_retired (s : State) (n : Nat) (v : Word) : (s.setX n v).cur.retired = s.cur.retired := by
  unfold State.setX; split <;> rfl
@[simp] theorem State.setX_cur_driftAt (s : State) (n : Nat) (v : Word) : (s.setX n v).cur.driftAt = s.cur.driftAt := by
  unfold State.setX; split <;> rfl
@[simp] theorem State.setX_cur_sliceAt (s : State) (n : Nat) (v : Word) : (s.setX n v).cur.sliceAt = s.cur.sliceAt := by
  unfold State.setX; split <;> rfl
@[simp] theorem State.setX_cur_sliceUsed (s : State) (n : Nat) (v : Word) : (s.setX n v).cur.sliceUsed = s.cur.sliceUsed := by
  unfold State.setX; split <;> rfl
@[simp] theorem State.setX_cur_turn (s : State) (n : Nat) (v : Word) : (s.setX n v).cur.turn = s.cur.turn := by
  unfold State.setX; split <;> rfl
@[simp] theorem State.setX_cur_saveRebases (s : State) (n : Nat) (v : Word) : (s.setX n v).cur.saveRebases = s.cur.saveRebases := by
  unfold State.setX; split <;> rfl
@[simp] theorem State.setX_cur_ptsSaved (s : State) (n : Nat) (v : Word) : (s.setX n v).cur.ptsSaved = s.cur.ptsSaved := by
  unfold State.setX; split <;> rfl
@[simp] theorem State.setX_cur_loop (s : State) (n : Nat) (v : Word) : (s.setX n v).cur.loop = s.cur.loop := by
  unfold State.setX; split <;> rfl
@[simp] theorem State.setX_cur_arrivals (s : State) (n : Nat) (v : Word) : (s.setX n v).cur.arrivals = s.cur.arrivals := by
  unfold State.setX; split <;> rfl
@[simp] theorem State.setX_cur_det (s : State) (n : Nat) (v : Word) : (s.setX n v).cur.det = s.cur.det := by
  unfold State.setX; split <;> rfl
@[simp] theorem State.setX_cur_snap (s : State) (n : Nat) (v : Word) : (s.setX n v).cur.snap = s.cur.snap := by
  unfold State.setX; split <;> rfl
@[simp] theorem State.setX_cur_snapLoc (s : State) (n : Nat) (v : Word) : (s.setX n v).cur.snapLoc = s.cur.snapLoc := by
  unfold State.setX; split <;> rfl
@[simp] theorem State.setX_cur_pass (s : State) (n : Nat) (v : Word) : (s.setX n v).cur.pass = s.cur.pass := by
  unfold State.setX; split <;> rfl
@[simp] theorem State.setX_cur_stopDue (s : State) (n : Nat) (v : Word) : (s.setX n v).cur.stopDue = s.cur.stopDue := by
  unfold State.setX; split <;> rfl
@[simp] theorem State.setX_cur_tok (s : State) (n : Nat) (v : Word) : (s.setX n v).cur.tok = s.cur.tok := by
  unfold State.setX; split <;> rfl
@[simp] theorem State.setX_cur_strip (s : State) (n : Nat) (v : Word) : (s.setX n v).cur.strip = s.cur.strip := by
  unfold State.setX; split <;> rfl
@[simp] theorem State.setX_cur_path (s : State) (n : Nat) (v : Word) : (s.setX n v).cur.path = s.cur.path := by
  unfold State.setX; split <;> rfl
@[simp] theorem State.setX_cur_orig (s : State) (n : Nat) (v : Word) : (s.setX n v).cur.orig = s.cur.orig := by
  unfold State.setX; split <;> rfl
@[simp] theorem State.setX_cur_turnAt (s : State) (n : Nat) (v : Word) : (s.setX n v).cur.turnAt = s.cur.turnAt := by
  unfold State.setX; split <;> rfl
@[simp] theorem State.setX_cur_ptsOwed (s : State) (n : Nat) (v : Word) : (s.setX n v).cur.ptsOwed = s.cur.ptsOwed := by
  unfold State.setX; split <;> rfl

@[simp] theorem State.setX_zero (s : State) (v : Word) : s.setX 0 v = s := rfl

/-- g0 reads 0 (R13). -/
@[simp] theorem State.x_zero (s : State) : s.x 0 = 0 := rfl

/-- A register read after it was written. -/
theorem State.x_setX_same (s : State) {n : Nat} (v : Word) (h0 : n ≠ 0) (h : n < 32) : (s.setX n v).x n = v := by
  simp only [State.setX, State.x, if_neg h0]
  simp [Vector.getD, h]

/-- A register read after another one was written. -/
theorem State.x_setX_other (s : State) {n m : Nat} (v : Word) (h : m ≠ n) : (s.setX n v).x m = s.x m := by
  unfold State.setX
  split
  · rfl
  · simp only [State.x]
    split
    · rfl
    · simp [Vector.getD, Ne.symm h]

@[simp] theorem State.goto_x (s : State) (a : Word) (n : Nat) : (s.goto a).x n = s.x n := rfl

end Sys2Proof.Machine
end

