-- ==== Sys2Proof/Laws/Ops.lean ====
section
/-!
SUPPORT. Laws of the shared operations: for each one, what it answers where its checks pass, and where they do not.
-/
namespace Sys2Proof.Machine

/-! ### Answers -/

@[simp] theorem andThen_ok {α β : Type} (v : α) (s : State) (f : α → State → Res β) : (Res.ok v s).andThen f = f v s := rfl
@[simp] theorem andThen_trap {α β : Type} (t : Trap) (s : State) (f : α → State → Res β) : (Res.trap t s).andThen f = .trap t s := rfl
@[simp] theorem andThen_wait {α β : Type} (w : Watch) (s : State) (f : α → State → Res β) : (Res.wait w s).andThen f = .wait w s := rfl
@[simp] theorem andThen_hole {α β : Type} (p : Nat) (f : α → State → Res β) : (Res.hole p).andThen f = .hole p := rfl
@[simp] theorem seq_done {β : Type} (s : State) (f : State → Res β) : (done s).seq f = f s := rfl

/-- A meaning that is done gives the next state. -/
@[simp] theorem finish_done (s : State) : finish (done s) = .next s := rfl

/-- A wait leaves the thread at its instruction, stalled. -/
@[simp] theorem finish_wait (w : Watch) (s : State) :
    finish (.wait w s) = .next { s with cur := { s.cur with wait := some w, stalled := true } } := rfl

@[simp] theorem finish_hole (p : Nat) : finish (.hole p) = .fault (.physicalHole p) := rfl

@[simp] theorem stepOr_none (s : State) : stepOr s none = .next s := rfl
@[simp] theorem stepOr_some (s : State) (r : Res Unit) : stepOr s (some r) = finish r := rfl

/-- No meaning ends in a refusal. -/
theorem finish_not_refused (r : Res Unit) (x : Refusal) : finish r ≠ .refused x := by
  unfold finish
  split
  · simp
  · simp
  · simp
  · split <;> simp

/-! ### Scalar registers -/

/-- A usable source register is read. -/
theorem readG_usable {β : Type} {s : State} {n : BitVec 6} (h : s.usable n) (d : BitVec 8) (f : Word → Res β) :
    readG s n d f = f (s.x n.toNat) := by
  unfold readG
  rw [if_neg (by have := h.1; omega), if_neg (by simp [h.2])]

/-- A usable destination register passes. -/
theorem checkG_usable {β : Type} {s : State} {n : BitVec 6} (h : s.usable n) (d : BitVec 8) (f : Res β) : checkG s n d f = f := by
  unfold checkG
  rw [if_neg (by have := h.1; omega), if_neg (by simp [h.2])]

/-- A number of 32 or more is a register-number violation (R236). -/
theorem readG_bad {β : Type} {s : State} {n : BitVec 6} (h : 32 ≤ n.toNat) (d : BitVec 8) (f : Word → Res β) :
    readG s n d f = s.regTrap d := by unfold readG; rw [if_pos h]

theorem checkG_bad {β : Type} {s : State} {n : BitVec 6} (h : 32 ≤ n.toNat) (d : BitVec 8) (f : Res β) :
    checkG s n d f = s.regTrap d := by unfold checkG; rw [if_pos h]

theorem regs3_usable {s : State} {d a b : BitVec 6} (hd : s.usable d) (ha : s.usable a) (hb : s.usable b) (f : Word → Word → Res Unit) :
    regs3 s d a b f = f (s.x a.toNat) (s.x b.toNat) := by
  unfold regs3
  rw [checkG_usable hd, readG_usable ha, readG_usable hb]

theorem regs2_usable {s : State} {d a : BitVec 6} (hd : s.usable d) (ha : s.usable a) (f : Word → Res Unit) :
    regs2 s d a f = f (s.x a.toNat) := by
  unfold regs2
  rw [checkG_usable hd, readG_usable ha]

/-! ### Accesses of the scalar stream -/

/-- An access that reaches memory goes on there. -/
theorem scalarAccess_reaches {s : State} {n : Need} {ea : Word} {w : Wid} {pa : Nat} (h : s.reaches n ea w pa) (f : Where → Res Unit) :
    scalarAccess s n ea w f = f (.phys pa) := by
  unfold scalarAccess
  rw [h.1]
  simp [h.2]

/-! ### The push -/

/-- A context that holds the lanes goes on with them. -/
theorem needLanes_held {s : State} (h : (s.core s.cur.id.place).holder = some s.cur.id.ctxid) (f : State → Res Unit) :
    needLanes s f = f s := by
  unfold needLanes State.lanes
  simp [h]

/-- A scalar operand that no vector work writes is captured. -/
theorem capture_ready {β : Type} {s : State} {want : Bool} {n : Nat} (h : want = true → n < 32 → s.notReady n = false) (f : Word → Res β) :
    capture s want n f = f (if want = true ∧ n < 32 then s.x n else 0) := by
  unfold capture
  by_cases hw : want = true
  · by_cases hn : n < 32
    · simp [hw, hn, h hw hn, show ¬ 32 ≤ n by omega]
    · simp [hw, hn, show 32 ≤ n by omega]
  · simp [hw]

/-! ### Transfers -/

/-- A transfer to an aligned address of the address space goes there. -/
theorem transfer_ok {s : State} {t : Word} (h4 : t.toNat % 4 = 0) (hv : t.toNat < Config.vaTop) (f : State → State) :
    transfer s t f = done ((f s).goto t) := by
  unfold transfer
  rw [if_neg (by omega), if_neg (by omega)]

/-! ### Power (R8) -/

/-- HPST.PWR never reads above the package's maximum. -/
theorem power_le (s : State) : s.power.toNat ≤ 4500 := by
  unfold State.power
  split_ifs
  · decide
  · rw [BitVec.toNat_ofNat, Nat.mod_eq_of_lt] <;> simp only [Config.maxPower] <;> omega

end Sys2Proof.Machine
end

