-- ==== Sys2Proof/Laws/PerInstr.lean ====
section
/-!
SUPPORT. Laws per instruction: the instructions of the programs are the ones that a word encodes, and no step of another agent has one
(R234 to R242).
-/
namespace Sys2Proof.Laws.Encoding

/-- An instruction has a word exactly where it is no step of another agent. -/
def Statement (i : Instr) : Prop := (encode i).isSome = !i.isEvent

theorem add (d : BitVec 6) (a : BitVec 6) (b : BitVec 6) : Statement (.add d a b) := rfl
theorem sub (d : BitVec 6) (a : BitVec 6) (b : BitVec 6) : Statement (.sub d a b) := rfl
theorem and (d : BitVec 6) (a : BitVec 6) (b : BitVec 6) : Statement (.and d a b) := rfl
theorem or (d : BitVec 6) (a : BitVec 6) (b : BitVec 6) : Statement (.or d a b) := rfl
theorem xor (d : BitVec 6) (a : BitVec 6) (b : BitVec 6) : Statement (.xor d a b) := rfl
theorem andn (d : BitVec 6) (a : BitVec 6) (b : BitVec 6) : Statement (.andn d a b) := rfl
theorem sll (d : BitVec 6) (a : BitVec 6) (b : BitVec 6) : Statement (.sll d a b) := rfl
theorem srl (d : BitVec 6) (a : BitVec 6) (b : BitVec 6) : Statement (.srl d a b) := rfl
theorem sra (d : BitVec 6) (a : BitVec 6) (b : BitVec 6) : Statement (.sra d a b) := rfl
theorem mul (d : BitVec 6) (a : BitVec 6) (b : BitVec 6) : Statement (.mul d a b) := rfl
theorem mulh (d : BitVec 6) (a : BitVec 6) (b : BitVec 6) : Statement (.mulh d a b) := rfl
theorem mulhu (d : BitVec 6) (a : BitVec 6) (b : BitVec 6) : Statement (.mulhu d a b) := rfl
theorem div (d : BitVec 6) (a : BitVec 6) (b : BitVec 6) : Statement (.div d a b) := rfl
theorem divu (d : BitVec 6) (a : BitVec 6) (b : BitVec 6) : Statement (.divu d a b) := rfl
theorem rem (d : BitVec 6) (a : BitVec 6) (b : BitVec 6) : Statement (.rem d a b) := rfl
theorem remu (d : BitVec 6) (a : BitVec 6) (b : BitVec 6) : Statement (.remu d a b) := rfl
theorem min (d : BitVec 6) (a : BitVec 6) (b : BitVec 6) : Statement (.min d a b) := rfl
theorem max (d : BitVec 6) (a : BitVec 6) (b : BitVec 6) : Statement (.max d a b) := rfl
theorem minu (d : BitVec 6) (a : BitVec 6) (b : BitVec 6) : Statement (.minu d a b) := rfl
theorem maxu (d : BitVec 6) (a : BitVec 6) (b : BitVec 6) : Statement (.maxu d a b) := rfl
theorem slt (d : BitVec 6) (a : BitVec 6) (b : BitVec 6) : Statement (.slt d a b) := rfl
theorem sltu (d : BitVec 6) (a : BitVec 6) (b : BitVec 6) : Statement (.sltu d a b) := rfl
theorem clz (d : BitVec 6) (a : BitVec 6) : Statement (.clz d a) := rfl
theorem popc (d : BitVec 6) (a : BitVec 6) : Statement (.popc d a) := rfl
theorem sext (d : BitVec 6) (a : BitVec 6) (w : BitVec 6) : Statement (.sext d a w) := rfl
theorem zext (d : BitVec 6) (a : BitVec 6) (w : BitVec 6) : Statement (.zext d a w) := rfl
theorem addi (d : BitVec 6) (a : BitVec 6) (i : BitVec 13) : Statement (.addi d a i) := rfl
theorem andi (d : BitVec 6) (a : BitVec 6) (i : BitVec 13) : Statement (.andi d a i) := rfl
theorem ori (d : BitVec 6) (a : BitVec 6) (i : BitVec 13) : Statement (.ori d a i) := rfl
theorem xori (d : BitVec 6) (a : BitVec 6) (i : BitVec 13) : Statement (.xori d a i) := rfl
theorem slli (d : BitVec 6) (a : BitVec 6) (s : BitVec 6) : Statement (.slli d a s) := rfl
theorem srli (d : BitVec 6) (a : BitVec 6) (s : BitVec 6) : Statement (.srli d a s) := rfl
theorem srai (d : BitVec 6) (a : BitVec 6) (s : BitVec 6) : Statement (.srai d a s) := rfl
theorem slti (d : BitVec 6) (a : BitVec 6) (i : BitVec 13) : Statement (.slti d a i) := rfl
theorem lih (d : BitVec 6) (i : BitVec 19) : Statement (.lih d i) := rfl
theorem addpc (d : BitVec 6) (i : BitVec 19) : Statement (.addpc d i) := rfl
theorem lds (d : BitVec 6) (a : BitVec 6) (w : Wid) (o : BitVec 11) : Statement (.lds d a w o) := rfl
theorem ldz (d : BitVec 6) (a : BitVec 6) (w : Wid) (o : BitVec 11) : Statement (.ldz d a w o) := rfl
theorem st (d : BitVec 6) (a : BitVec 6) (w : Wid) (o : BitVec 11) : Statement (.st d a w o) := rfl
theorem jalr (d : BitVec 6) (a : BitVec 6) (i : BitVec 13) : Statement (.jalr d a i) := rfl
theorem beq (a : BitVec 6) (b : BitVec 6) (d : BitVec 13) : Statement (.beq a b d) := rfl
theorem bne (a : BitVec 6) (b : BitVec 6) (d : BitVec 13) : Statement (.bne a b d) := rfl
theorem blt (a : BitVec 6) (b : BitVec 6) (d : BitVec 13) : Statement (.blt a b d) := rfl
theorem bge (a : BitVec 6) (b : BitVec 6) (d : BitVec 13) : Statement (.bge a b d) := rfl
theorem bltu (a : BitVec 6) (b : BitVec 6) (d : BitVec 13) : Statement (.bltu a b d) := rfl
theorem bgeu (a : BitVec 6) (b : BitVec 6) (d : BitVec 13) : Statement (.bgeu a b d) := rfl
theorem j (d : BitVec 25) : Statement (.j d) := rfl
theorem jal (d : BitVec 25) : Statement (.jal d) := rfl
theorem trap (a : BitVec 6) : Statement (.trap a) := rfl
theorem alloc (d : BitVec 6) (a : BitVec 6) : Statement (.alloc d a) := rfl
theorem free (d : BitVec 6) (a : BitVec 6) : Statement (.free d a) := rfl
theorem launch (d : BitVec 6) (a : BitVec 6) : Statement (.launch d a) := rfl
theorem deal (d : BitVec 6) (a : BitVec 6) (b : BitVec 6) : Statement (.deal d a b) := rfl
theorem prio (a : BitVec 6) : Statement (.prio a) := rfl
theorem srd (d : BitVec 6) (n : BitVec 12) : Statement (.srd d n) := rfl
theorem swr (a : BitVec 6) (n : BitVec 12) : Statement (.swr a n) := rfl
theorem frame (r : BitVec 6) (n : BitVec 6) (x : BitVec 4) (y : BitVec 4) (z : BitVec 4) : Statement (.frame r n x y z) := rfl
theorem vconf (n : BitVec 2) : Statement (.vconf n) := rfl
theorem vsetl (d : BitVec 6) (a : BitVec 6) (b : BitVec 6) (w : Wid) : Statement (.vsetl d a b w) := rfl
theorem vld (x : M0Args) : Statement (.vld x) := rfl
theorem vlds (x : MArgs) : Statement (.vlds x) := rfl
theorem vldx (x : MArgs) : Statement (.vldx x) := rfl
theorem vldseg (x : MArgs) : Statement (.vldseg x) := rfl
theorem vldff (x : M0Args) : Statement (.vldff x) := rfl
theorem vldsc (d : BitVec 6) (a : BitVec 6) : Statement (.vldsc d a) := rfl
theorem vst (x : M0Args) : Statement (.vst x) := rfl
theorem vsts (x : MArgs) : Statement (.vsts x) := rfl
theorem vstx (x : MArgs) : Statement (.vstx x) := rfl
theorem vstseg (x : MArgs) : Statement (.vstseg x) := rfl
theorem vstreamBind (d : BitVec 6) (a : BitVec 6) (b : BitVec 6) : Statement (.vstreamBind d a b) := rfl
theorem vstreamUnbind (d : BitVec 6) : Statement (.vstreamUnbind d) := rfl
theorem vstreamRewind (d : BitVec 6) : Statement (.vstreamRewind d) := rfl
theorem vamoAdd (x : AArgs) : Statement (.vamoAdd x) := rfl
theorem vamoMin (x : AArgs) : Statement (.vamoMin x) := rfl
theorem vamoMax (x : AArgs) : Statement (.vamoMax x) := rfl
theorem vamoFadd (x : AArgs) : Statement (.vamoFadd x) := rfl
theorem amoAdd (d : BitVec 6) (a : BitVec 6) (b : BitVec 6) : Statement (.amoAdd d a b) := rfl
theorem amoAnd (d : BitVec 6) (a : BitVec 6) (b : BitVec 6) : Statement (.amoAnd d a b) := rfl
theorem amoOr (d : BitVec 6) (a : BitVec 6) (b : BitVec 6) : Statement (.amoOr d a b) := rfl
theorem amoXor (d : BitVec 6) (a : BitVec 6) (b : BitVec 6) : Statement (.amoXor d a b) := rfl
theorem amoMin (d : BitVec 6) (a : BitVec 6) (b : BitVec 6) : Statement (.amoMin d a b) := rfl
theorem amoMax (d : BitVec 6) (a : BitVec 6) (b : BitVec 6) : Statement (.amoMax d a b) := rfl
theorem amoMinu (d : BitVec 6) (a : BitVec 6) (b : BitVec 6) : Statement (.amoMinu d a b) := rfl
theorem amoMaxu (d : BitVec 6) (a : BitVec 6) (b : BitVec 6) : Statement (.amoMaxu d a b) := rfl
theorem amoSwap (d : BitVec 6) (a : BitVec 6) (b : BitVec 6) : Statement (.amoSwap d a b) := rfl
theorem cas (d : BitVec 6) (a : BitVec 6) (b : BitVec 6) : Statement (.cas d a b) := rfl
theorem lock (d : BitVec 6) (a : BitVec 6) : Statement (.lock d a) := rfl
theorem trylock (d : BitVec 6) (a : BitVec 6) : Statement (.trylock d a) := rfl
theorem unlock (a : BitVec 6) : Statement (.unlock a) := rfl
theorem waitwEq (d : BitVec 6) (a : BitVec 6) (b : BitVec 6) : Statement (.waitwEq d a b) := rfl
theorem waitwNe (d : BitVec 6) (a : BitVec 6) (b : BitVec 6) : Statement (.waitwNe d a b) := rfl
theorem waitwLt (d : BitVec 6) (a : BitVec 6) (b : BitVec 6) : Statement (.waitwLt d a b) := rfl
theorem waitwGe (d : BitVec 6) (a : BitVec 6) (b : BitVec 6) : Statement (.waitwGe d a b) := rfl
theorem waitwLtu (d : BitVec 6) (a : BitVec 6) (b : BitVec 6) : Statement (.waitwLtu d a b) := rfl
theorem waitwGeu (d : BitVec 6) (a : BitVec 6) (b : BitVec 6) : Statement (.waitwGeu d a b) := rfl
theorem fence (f : Bool) (p : Bool) (v : Bool) (k : Bool) (e : Bool) (l : BitVec 3) : Statement (.fence f p v k e l) := rfl
theorem vfence (l : BitVec 3) : Statement (.vfence l) := rfl
theorem barArrive (n : BitVec 7) : Statement (.barArrive n) := rfl
theorem barWait (n : BitVec 7) : Statement (.barWait n) := rfl
theorem barArrwait (n : BitVec 7) : Statement (.barArrwait n) := rfl
theorem post (k : BitVec 6) (a : BitVec 6) : Statement (.post k a) := rfl
theorem waiti (k : BitVec 6) (a : BitVec 6) : Statement (.waiti k a) := rfl
theorem waitv (d : BitVec 6) (k : BitVec 6) (b : BitVec 6) : Statement (.waitv d k b) := rfl
theorem cpy (d : BitVec 6) (a : BitVec 6) (b : BitVec 6) : Statement (.cpy d a b) := rfl
theorem cpyf (d : BitVec 6) (a : BitVec 6) (b : BitVec 6) : Statement (.cpyf d a b) := rfl
theorem cptile (d : BitVec 6) (a : BitVec 6) (b : BitVec 6) : Statement (.cptile d a b) := rfl
theorem cprem (d : BitVec 6) (a : BitVec 6) (b : BitVec 6) : Statement (.cprem d a b) := rfl
theorem coll (d : BitVec 6) (a : BitVec 6) (b : BitVec 6) : Statement (.coll d a b) := rfl
theorem publish (a : BitVec 6) : Statement (.publish a) := rfl
theorem shadow (d : BitVec 6) (a : BitVec 6) : Statement (.shadow d a) := rfl
theorem shadowRelease (d : BitVec 6) (b : BitVec 6) : Statement (.shadowRelease d b) := rfl
theorem syncw (a : BitVec 6) (b : BitVec 6) : Statement (.syncw a b) := rfl
theorem cleanr (a : BitVec 6) (b : BitVec 6) : Statement (.cleanr a b) := rfl
theorem invalr (a : BitVec 6) (b : BitVec 6) : Statement (.invalr a b) := rfl
theorem bankcmd (d : BitVec 6) (a : BitVec 6) : Statement (.bankcmd d a) := rfl
theorem xfwait (a : BitVec 6) (b : BitVec 6) : Statement (.xfwait a b) := rfl
theorem syncwait (d : BitVec 6) (a : BitVec 6) (b : BitVec 6) : Statement (.syncwait d a b) := rfl
theorem bankwait (d : BitVec 6) (a : BitVec 6) : Statement (.bankwait d a) := rfl
theorem pattach (z : BitVec 6) : Statement (.pattach z) := rfl
theorem pldaMem (f : BitVec 2) (a : BitVec 6) (b : BitVec 6) (k : BitVec 4) : Statement (.pldaMem f a b k) := rfl
theorem pldaReg (f : BitVec 2) (a : BitVec 6) (k : BitVec 4) : Statement (.pldaReg f a k) := rfl
theorem pldbMem (f : BitVec 2) (a : BitVec 6) (b : BitVec 6) (k : BitVec 4) : Statement (.pldbMem f a b k) := rfl
theorem pldbReg (f : BitVec 2) (a : BitVec 6) (k : BitVec 4) : Statement (.pldbReg f a k) := rfl
theorem pmma (c : BitVec 2) (a : BitVec 6) (k : BitVec 4) : Statement (.pmma c a k) := rfl
theorem pmmas (c : BitVec 2) (a : BitVec 6) (k : BitVec 4) : Statement (.pmmas c a k) := rfl
theorem pzero (c : BitVec 2) : Statement (.pzero c) := rfl
theorem prdacc (c : BitVec 2) (d : BitVec 6) (b : BitVec 6) : Statement (.prdacc c d b) := rfl
theorem pwracc (c : BitVec 2) (a : BitVec 6) (b : BitVec 6) : Statement (.pwracc c a b) := rfl
theorem ppub (c : BitVec 2) (l : BitVec 6) : Statement (.ppub c l) := rfl
theorem pfin (c : BitVec 2) : Statement (.pfin c) := rfl
theorem settle (l : BitVec 15) : Statement (.settle l) := rfl
theorem lmark (a : BitVec 6) (d : BitVec 3) : Statement (.lmark a d) := rfl
theorem lend (c : BitVec 6) (d : BitVec 13) : Statement (.lend c d) := rfl
theorem tkarm (d : BitVec 6) (a : BitVec 6) (b : BitVec 6) : Statement (.tkarm d a b) := rfl
theorem tkdisarm (b : BitVec 6) : Statement (.tkdisarm b) := rfl
theorem tkemit (a : BitVec 6) (b : BitVec 6) : Statement (.tkemit a b) := rfl
theorem tkemitDraft (a : BitVec 6) (b : BitVec 6) : Statement (.tkemitDraft a b) := rfl
theorem tksync (d : BitVec 6) : Statement (.tksync d) := rfl
theorem tkconf (a : BitVec 6) (b : BitVec 6) : Statement (.tkconf a b) := rfl
theorem ptsDrift (c : Nat) : Statement (.ptsDrift c) := rfl
theorem waitwRecheck (c : Nat) : Statement (.waitwRecheck c) := rfl
theorem savedWaiterWake (c : Nat) : Statement (.savedWaiterWake c) := rfl
theorem launchAdmit (l : Nat) : Statement (.launchAdmit l) := rfl
theorem threadCreate (l : Nat) (p : Place) (c : Nat) : Statement (.threadCreate l p c) := rfl
theorem timeSliceEnd (c : Nat) : Statement (.timeSliceEnd c) := rfl
theorem preemption (c : Nat) : Statement (.preemption c) := rfl
theorem restore (c : Nat) (p : Place) : Statement (.restore c p) := rfl
theorem laneSliceEnd (c : Nat) : Statement (.laneSliceEnd c) := rfl
theorem laneHandover (c : Nat) : Statement (.laneHandover c) := rfl
theorem laneGrantChange (k : Nat) (n : Nat) : Statement (.laneGrantChange k n) := rfl
theorem trapDelivery (c : Nat) : Statement (.trapDelivery c) := rfl
theorem eventRecordWrite (p : Nat) : Statement (.eventRecordWrite p) := rfl
theorem barMarkerFire (c : Nat) : Statement (.barMarkerFire c) := rfl
theorem postMarkerFire (c : Nat) : Statement (.postMarkerFire c) := rfl
theorem detEpochDrain (l : Nat) (n : Nat) : Statement (.detEpochDrain l n) := rfl
theorem chase (k : Nat) (n : Nat) : Statement (.chase k n) := rfl
theorem replayIteration (c : Nat) (e : Bool) : Statement (.replayIteration c e) := rfl
theorem catchwordVerdict (u : Nat) : Statement (.catchwordVerdict u) := rfl
theorem catchwordDraft (u : Nat) : Statement (.catchwordDraft u) := rfl
theorem catchwordArmWrite (u : Nat) : Statement (.catchwordArmWrite u) := rfl
theorem catchwordRecordTransfer (r : Nat) (u : Nat) : Statement (.catchwordRecordTransfer r u) := rfl
theorem syncCount (n : Nat) : Statement (.syncCount n) := rfl
theorem engineCommandComplete (n : Nat) : Statement (.engineCommandComplete n) := rfl
theorem engineFaultPause (n : Nat) : Statement (.engineFaultPause n) := rfl
theorem remotePartReceive (x : RemotePart) : Statement (.remotePartReceive x) := rfl
theorem collContributionReceive (x : CollPart) : Statement (.collContributionReceive x) := rfl
theorem flitReceive (x : Flit) : Statement (.flitReceive x) := rfl
theorem linkRetrain (p : Nat) (ok : Bool) (acks : List (BitVec 24)) : Statement (.linkRetrain p ok acks) := rfl
theorem bankCommandComplete (n : Nat) : Statement (.bankCommandComplete n) := rfl
theorem bankCommandPause (n : Nat) (r : Nat) : Statement (.bankCommandPause n r) := rfl
theorem bankCommandContinue (n : Nat) : Statement (.bankCommandContinue n) := rfl
theorem pinTimeoutAbort (p : Nat) : Statement (.pinTimeoutAbort p) := rfl
theorem pressErrorRerun (c : Nat) (again : Bool) : Statement (.pressErrorRerun c again) := rfl
theorem linePoison (a : Nat) : Statement (.linePoison a) := rfl
theorem lineEviction (a : Nat) : Statement (.lineEviction a) := rfl
theorem streamReadahead (c : Nat) (r : Nat) : Statement (.streamReadahead c r) := rfl
theorem checkpoint (c : Nat) : Statement (.checkpoint c) := rfl
theorem retiredCountStop (c : Nat) : Statement (.retiredCountStop c) := rfl
theorem kcmdResume (p c : Nat) : Statement (.kcmdResume p c) := rfl
theorem kcmdKill (p c : Nat) : Statement (.kcmdKill p c) := rfl
theorem kcmdSave (p c : Nat) : Statement (.kcmdSave p c) := rfl
theorem kcmdEngres (p c : Nat) (ch : Nat) : Statement (.kcmdEngres p c ch) := rfl
theorem kcmdEngabt (p c : Nat) (ch : Nat) : Statement (.kcmdEngabt p c ch) := rfl
theorem tlbInvalidate (p : Nat) (v : BitVec 64) : Statement (.tlbInvalidate p v) := rfl
theorem tsdprePreset (p : Nat) (v : BitVec 64) : Statement (.tsdprePreset p v) := rfl
theorem formatWindowEnable (n : Nat) (v : BitVec 64) : Statement (.formatWindowEnable n v) := rfl
theorem hostDoorbell (v : BitVec 64) : Statement (.hostDoorbell v) := rfl
theorem hostLoad (x : LoadPlan) : Statement (.hostLoad x) := rfl
theorem hostWindowWrite (a : Nat) (n : Nat) (v : BitVec 64) : Statement (.hostWindowWrite a n v) := rfl
theorem hostWindowRead (a : Nat) (n : Nat) : Statement (.hostWindowRead a n) := rfl
theorem partitionReset (p : Nat) : Statement (.partitionReset p) := rfl
theorem registerWrite (sp : Space) (a : Nat) (v : BitVec 64) : Statement (.registerWrite sp a v) := rfl
theorem vectorInstructionComplete (c : Nat) : Statement (.vectorInstructionComplete c) := rfl
theorem engineErrorRepair (n : Nat) : Statement (.engineErrorRepair n) := rfl
theorem bankUnitError (n : Nat) : Statement (.bankUnitError n) := rfl
theorem spineError (fatal : Bool) : Statement (.spineError fatal) := rfl
theorem contextStateError (c : Nat) : Statement (.contextStateError c) := rfl
theorem threadTableResSet (p c : Nat) : Statement (.threadTableResSet p c) := rfl
theorem barrierArrivalDelivery (x : BarMsg) : Statement (.barrierArrivalDelivery x) := rfl
theorem vadd (x : VArgs) : Statement (.vadd x) := rfl
theorem vsub (x : VArgs) : Statement (.vsub x) := rfl
theorem vmul (x : VArgs) : Statement (.vmul x) := rfl
theorem vmulh (x : VArgs) : Statement (.vmulh x) := rfl
theorem vmulhu (x : VArgs) : Statement (.vmulhu x) := rfl
theorem vmacc (x : VArgs) : Statement (.vmacc x) := rfl
theorem vdiv (x : VArgs) : Statement (.vdiv x) := rfl
theorem vrem (x : VArgs) : Statement (.vrem x) := rfl
theorem vmin (x : VArgs) : Statement (.vmin x) := rfl
theorem vmax (x : VArgs) : Statement (.vmax x) := rfl
theorem vminu (x : VArgs) : Statement (.vminu x) := rfl
theorem vmaxu (x : VArgs) : Statement (.vmaxu x) := rfl
theorem vand (x : VArgs) : Statement (.vand x) := rfl
theorem vor (x : VArgs) : Statement (.vor x) := rfl
theorem vxor (x : VArgs) : Statement (.vxor x) := rfl
theorem vsll (x : VArgs) : Statement (.vsll x) := rfl
theorem vsrl (x : VArgs) : Statement (.vsrl x) := rfl
theorem vsra (x : VArgs) : Statement (.vsra x) := rfl
theorem vsadd (x : VArgs) : Statement (.vsadd x) := rfl
theorem vssub (x : VArgs) : Statement (.vssub x) := rfl
theorem vaadd (x : VArgs) : Statement (.vaadd x) := rfl
theorem vsmul (x : VArgs) : Statement (.vsmul x) := rfl
theorem vwadd (x : VArgs) : Statement (.vwadd x) := rfl
theorem vwaddu (x : VArgs) : Statement (.vwaddu x) := rfl
theorem vwmul (x : VArgs) : Statement (.vwmul x) := rfl
theorem vwmulu (x : VArgs) : Statement (.vwmulu x) := rfl
theorem vwmacc (x : VArgs) : Statement (.vwmacc x) := rfl
theorem vwmaccu (x : VArgs) : Statement (.vwmaccu x) := rfl
theorem vnclip (x : VArgs) : Statement (.vnclip x) := rfl
theorem vnclipu (x : VArgs) : Statement (.vnclipu x) := rfl
theorem vfadd (x : VArgs) : Statement (.vfadd x) := rfl
theorem vfsub (x : VArgs) : Statement (.vfsub x) := rfl
theorem vfmul (x : VArgs) : Statement (.vfmul x) := rfl
theorem vfdiv (x : VArgs) : Statement (.vfdiv x) := rfl
theorem vfma (x : VArgs) : Statement (.vfma x) := rfl
theorem vfnma (x : VArgs) : Statement (.vfnma x) := rfl
theorem vfmin (x : VArgs) : Statement (.vfmin x) := rfl
theorem vfmax (x : VArgs) : Statement (.vfmax x) := rfl
theorem vfsgnj (x : VArgs) : Statement (.vfsgnj x) := rfl
theorem vfsgnjn (x : VArgs) : Statement (.vfsgnjn x) := rfl
theorem vcmpeq (x : VArgs) : Statement (.vcmpeq x) := rfl
theorem vcmpne (x : VArgs) : Statement (.vcmpne x) := rfl
theorem vcmplt (x : VArgs) : Statement (.vcmplt x) := rfl
theorem vcmpltu (x : VArgs) : Statement (.vcmpltu x) := rfl
theorem vcmple (x : VArgs) : Statement (.vcmple x) := rfl
theorem vcmpleu (x : VArgs) : Statement (.vcmpleu x) := rfl
theorem vfcmpeq (x : VArgs) : Statement (.vfcmpeq x) := rfl
theorem vfcmplt (x : VArgs) : Statement (.vfcmplt x) := rfl
theorem vfcmple (x : VArgs) : Statement (.vfcmple x) := rfl
theorem vfcmpun (x : VArgs) : Statement (.vfcmpun x) := rfl
theorem vsel (x : VArgs) : Statement (.vsel x) := rfl
theorem vslideup (d : BitVec 6) (a : BitVec 6) (b : BitVec 6) (m : BitVec 3) (t : ElTy) : Statement (.vslideup d a b m t) := rfl
theorem vslidedn (d : BitVec 6) (a : BitVec 6) (b : BitVec 6) (m : BitVec 3) (t : ElTy) : Statement (.vslidedn d a b m t) := rfl
theorem vgatherr (x : VArgs) : Statement (.vgatherr x) := rfl
theorem vmrgk (d : BitVec 6) (a : BitVec 6) (b : BitVec 6) (t : ElTy) : Statement (.vmrgk d a b t) := rfl
theorem vmand (d : BitVec 6) (a : BitVec 6) (b : BitVec 6) : Statement (.vmand d a b) := rfl
theorem vmor (d : BitVec 6) (a : BitVec 6) (b : BitVec 6) : Statement (.vmor d a b) := rfl
theorem vmxor (d : BitVec 6) (a : BitVec 6) (b : BitVec 6) : Statement (.vmxor d a b) := rfl
theorem vmandn (d : BitVec 6) (a : BitVec 6) (b : BitVec 6) : Statement (.vmandn d a b) := rfl
theorem vmv (x : UArgs) : Statement (.vmv x) := rfl
theorem vsplat (x : UArgs) : Statement (.vsplat x) := rfl
theorem vmvsx (x : UArgs) : Statement (.vmvsx x) := rfl
theorem vmvxs (d : BitVec 6) (a : BitVec 6) (t : ElTy) : Statement (.vmvxs d a t) := rfl
theorem vid (d : BitVec 6) (m : BitVec 3) (t : ElTy) : Statement (.vid d m t) := rfl
theorem viota (x : UArgs) : Statement (.viota x) := rfl
theorem vcompress (x : UArgs) : Statement (.vcompress x) := rfl
theorem vneg (x : UArgs) : Statement (.vneg x) := rfl
theorem vabs (x : UArgs) : Statement (.vabs x) := rfl
theorem vnot (x : UArgs) : Statement (.vnot x) := rfl
theorem vfneg (x : UArgs) : Statement (.vfneg x) := rfl
theorem vfabs (x : UArgs) : Statement (.vfabs x) := rfl
theorem vfsqrt (x : UArgs) : Statement (.vfsqrt x) := rfl
theorem vfrecip (x : UArgs) : Statement (.vfrecip x) := rfl
theorem vfexp2 (x : UArgs) : Statement (.vfexp2 x) := rfl
theorem vfclass (x : UArgs) : Statement (.vfclass x) := rfl
theorem vredsum (x : UArgs) : Statement (.vredsum x) := rfl
theorem vredmin (x : UArgs) : Statement (.vredmin x) := rfl
theorem vredmax (x : UArgs) : Statement (.vredmax x) := rfl
theorem vredminu (x : UArgs) : Statement (.vredminu x) := rfl
theorem vredmaxu (x : UArgs) : Statement (.vredmaxu x) := rfl
theorem vredand (x : UArgs) : Statement (.vredand x) := rfl
theorem vredor (x : UArgs) : Statement (.vredor x) := rfl
theorem vredxor (x : UArgs) : Statement (.vredxor x) := rfl
theorem vfredsum (x : UArgs) : Statement (.vfredsum x) := rfl
theorem vfredmin (x : UArgs) : Statement (.vfredmin x) := rfl
theorem vfredmax (x : UArgs) : Statement (.vfredmax x) := rfl
theorem vmpop (d : BitVec 6) (a : BitVec 6) (m : BitVec 3) : Statement (.vmpop d a m) := rfl
theorem vmfirst (d : BitVec 6) (a : BitVec 6) (m : BitVec 3) : Statement (.vmfirst d a m) := rfl
theorem vmnot (d : BitVec 6) (a : BitVec 6) (m : BitVec 3) : Statement (.vmnot d a m) := rfl
theorem vmbefore (d : BitVec 6) (a : BitVec 6) (m : BitVec 3) : Statement (.vmbefore d a m) := rfl
theorem vmincl (d : BitVec 6) (a : BitVec 6) (m : BitVec 3) : Statement (.vmincl d a m) := rfl
theorem vsortk (x : UArgs) : Statement (.vsortk x) := rfl
theorem vuniq (x : UArgs) : Statement (.vuniq x) := rfl
theorem vtosf (x : UArgs) : Statement (.vtosf x) := rfl
theorem vtobf (x : UArgs) : Statement (.vtobf x) := rfl
theorem vtohf (x : UArgs) : Statement (.vtohf x) := rfl
theorem vtoe4 (x : UArgs) : Statement (.vtoe4 x) := rfl
theorem vtoe4s (x : UArgs) : Statement (.vtoe4s x) := rfl
theorem vtoe5 (x : UArgs) : Statement (.vtoe5 x) := rfl
theorem vtoe5s (x : UArgs) : Statement (.vtoe5s x) := rfl
theorem vtof4 (x : UArgs) : Statement (.vtof4 x) := rfl
theorem vfromf4 (x : UArgs) : Statement (.vfromf4 x) := rfl
theorem vtoinr (x : UArgs) : Statement (.vtoinr x) := rfl
theorem vtoinz (x : UArgs) : Statement (.vtoinz x) := rfl
theorem vintof (x : UArgs) : Statement (.vintof x) := rfl
theorem vwiden (x : UArgs) : Statement (.vwiden x) := rfl
theorem vwidenu (x : UArgs) : Statement (.vwidenu x) := rfl
theorem nop : Statement (.nop) := rfl
theorem yield : Statement (.yield) := rfl
theorem exit : Statement (.exit) := rfl
theorem brk : Statement (.brk) := rfl
theorem vrel : Statement (.vrel) := rfl
theorem pdetach : Statement (.pdetach) := rfl
theorem mailboxExtend : Statement (.mailboxExtend) := rfl
theorem mailboxQuote : Statement (.mailboxQuote) := rfl
theorem mailboxDevcert : Statement (.mailboxDevcert) := rfl
theorem hostSubmit : Statement (.hostSubmit) := rfl
theorem hostKill : Statement (.hostKill) := rfl
theorem hostQuote : Statement (.hostQuote) := rfl
theorem hostEventWrite : Statement (.hostEventWrite) := rfl
theorem powerStateEntry : Statement (.powerStateEntry) := rfl
theorem powerWake : Statement (.powerWake) := rfl
theorem packageBoot : Statement (.packageBoot) := rfl

end Sys2Proof.Laws.Encoding
end

