-- ==== Sys2Proof/Tests/Slice0.lean ====
section
/-!
SUPPORT. Tests: the decoder on words written out from the spec's encodings, terms that the checks of R235 refuse, single steps on small
states, and for each statement with hypotheses a state that meets them.
-/
namespace Sys2Proof.Tests
set_option maxRecDepth 20000
set_option Elab.async false
open Sys2Proof.Machine

/-! ### Words written out from the encodings (opcode_table.json, R234 to R242) -/


theorem test_decode_alu_1 :
    [0x02AFA500, 0x02D54201, 0x022EB182, 0x023B1303, 0x02277084, 0x02706305, 0x02E36286, 0x0280D207, 0x02E09A88, 0x03291E89, 0x027D348A, 0x0337A20B, 0x032CCD0C, 0x0227E78D].map decode =
      [some (.add 21 61 10), some (.sub 26 42 4), some (.and 5 53 35), some (.or 7 24 38), some (.xor 4 59 33), some (.andn 14 3 6), some (.sll 28 27 5), some (.srl 16 6 36), some (.sra 28 4 53), some (.mul 37 8 61), some (.mulh 15 41 41), some (.mulhu 38 61 4), some (.div 37 38 26), some (.divu 4 63 15)] := by decide

theorem test_decode_alu_2 :
    [0x021C9B8E, 0x024A6D8F, 0x02546410, 0x032A9211, 0x03AD8612, 0x023CD293, 0x0349AC14, 0x023C9715, 0x022CA016, 0x02250017, 0x02740118, 0x031B8099].map decode =
      [some (.rem 3 36 55), some (.remu 9 19 27), some (.min 10 35 8), some (.max 37 20 36), some (.minu 53 44 12), some (.maxu 7 38 37), some (.slt 41 13 24), some (.sltu 7 36 46), some (.clz 5 37), some (.popc 4 40), some (.sext 14 32 2), some (.zext 35 28 1)] := by decide

theorem test_decode_immediate :
    [0x04F4DD8D, 0x06F30998, 0x088665C1, 0x0B6E47D0, 0x0C34A014, 0x0F140039, 0x10B5E01D, 0x129CFF5E, 0x1428F1CD, 0x170B5851].map decode =
      [some (.addi 30 38 7565), some (.andi 30 24 2456), some (.ori 16 51 1473), some (.xori 45 50 2000), some (.slli 6 37 20), some (.srli 34 32 57), some (.srai 22 47 29), some (.slti 19 39 8030), some (.lih 5 61901), some (.addpc 33 219217)] := by decide

theorem test_decode_memory_and_control :
    [0x185E3138, 0x1BE41051, 0x1DF56E1E, 0x1F24B941, 0x21CEAA0B, 0x22B5AB35, 0x253C128F, 0x27A3C234, 0x29B0DE3B, 0x2A93F64F, 0x2D540BC3, 0x2E2147AE].map decode =
      [some (.lds 11 49 .w 312), some (.ldz 60 32 .w 81), some (.st 62 43 .h 1566), some (.jalr 36 37 6465), some (.beq 57 53 2571), some (.bne 22 45 2869), some (.blt 39 32 4751), some (.bge 52 30 564), some (.bltu 54 6 7739), some (.bgeu 18 31 5711), some (.j 22285251), some (.jal 2181038)] := by decide

theorem test_decode_system_1 :
    [0x30000000, 0x30000001, 0x30000002, 0x30000003, 0x30008004, 0x317DA005, 0x30A54006, 0x312D8007, 0x31ABA988, 0x3005C009, 0x32C80E32, 0x3405658E, 0x3611CC74, 0x38000001].map decode =
      [some (.nop), some (.yield), some (.exit), some (.brk), some (.trap 4), some (.alloc 47 45), some (.free 20 42), some (.launch 37 44), some (.deal 53 29 19), some (.prio 46), some (.srd 25 3634), some (.swr 43 1422), some (.frame 2 14 6 3 10), some (.vconf 1)] := by decide

theorem test_decode_system_2 :
    [0x3B008702, 0x3C000000].map decode =
      [some (.vsetl 32 4 14 .w), some (.vrel)] := by decide

theorem test_decode_vector_memory :
    [0x404E002E, 0x42316ECA, 0x45C4896F, 0x47CB2121, 0x487D6027, 0x4A622000, 0x4C98202F, 0x4F2ABEA7, 0x51A48D4D, 0x52FD2211].map decode =
      [some (.vld ⟨9, 48, 2, true, true, .w⟩), some (.vlds ⟨6, 11, 29, 4, true, false, .w⟩), some (.vldx ⟨56, 36, 18, 6, true, true, .d⟩), some (.vldseg ⟨57, 25, 2, 2, false, false, .h⟩), some (.vldff ⟨15, 43, 2, false, true, .d⟩), some (.vldsc 12 17), some (.vst ⟨19, 1, 2, true, true, .d⟩), some (.vsts ⟨37, 21, 61, 2, false, true, .d⟩), some (.vstx ⟨52, 36, 26, 4, true, true, .h⟩), some (.vstseg ⟨31, 41, 4, 1, false, false, .h⟩)] := by decide

theorem test_decode_synchronisation_1 :
    [0x54E96400, 0x54B00001, 0x55380002, 0x5620E0D1, 0x5718FEB7, 0x5610BC2B, 0x56C954BE, 0x593B0F80, 0x58411B81, 0x5907EF02, 0x58FBEA03, 0x58314384, 0x5982D805, 0x588BFB06].map decode =
      [some (.vstreamBind 29 11 8), some (.vstreamUnbind 22), some (.vstreamRewind 39), some (.vamoAdd ⟨4, 7, 1, 5, .h⟩), some (.vamoMin ⟨35, 7, 61, 3, .d⟩), some (.vamoMax ⟨2, 5, 56, 2, .d⟩), some (.vamoFadd ⟨25, 10, 41, 3, .w⟩), some (.amoAdd 39 24 31), some (.amoAnd 8 8 55), some (.amoOr 32 63 30), some (.amoXor 31 31 20), some (.amoMin 6 10 7), some (.amoMax 48 22 48), some (.amoMinu 17 31 54)] := by decide

theorem test_decode_synchronisation_2 :
    [0x59697107, 0x5811DE88, 0x5BEC4C00, 0x5C55A000, 0x5D1F6001, 0x5C004002, 0x5F8C4A00, 0x5FFD5C01, 0x5E35BB82, 0x5E8C4C03, 0x5FD96B84, 0x5F91F185, 0x6000008E, 0x62000007].map decode =
      [some (.amoMaxu 45 11 34), some (.amoSwap 2 14 61), some (.cas 61 34 24), some (.lock 10 45), some (.trylock 35 59), some (.unlock 2), some (.waitwEq 49 34 20), some (.waitwNe 63 42 56), some (.waitwLt 6 45 55), some (.waitwGe 17 34 24), some (.waitwLtu 59 11 23), some (.waitwGeu 50 15 35), some (.fence true false false false true 6), some (.vfence 7)] := by decide

theorem test_decode_synchronisation_3 :
    [0x6400001E, 0x6400009A, 0x64000143, 0x6702E000, 0x69784000, 0x6A166900].map decode =
      [some (.barArrive 30), some (.barWait 26), some (.barArrwait 67), some (.post 32 23), some (.waiti 47 2), some (.waitv 2 51 18)] := by decide

theorem test_decode_engines_1 :
    [0x6CFA2680, 0x6D6CFF01, 0x6CBBBA02, 0x6DE5EB83, 0x6DF7EC04, 0x6C00C005, 0x6C78E006, 0x6C780F86, 0x6C01AB07, 0x6C01CF88, 0x6C051D09, 0x6D46C00A, 0x6E002F80, 0x6FDD4B81].map decode =
      [some (.cpy 31 17 13), some (.cpyf 45 39 62), some (.cptile 23 29 52), some (.cprem 60 47 23), some (.coll 62 63 24), some (.publish 6), some (.shadow 15 7), some (.shadowRelease 15 31), some (.syncw 13 22), some (.cleanr 14 31), some (.invalr 40 58), some (.bankcmd 40 54), some (.xfwait 1 31), some (.syncwait 59 42 23)] := by decide

theorem test_decode_engines_2 :
    [0x6FA54002].map decode =
      [some (.bankwait 52 42)] := by decide

theorem test_decode_press :
    [0x70000001, 0x70000040, 0x7191D887, 0x71E200A4, 0x717260C7, 0x712C00E2, 0x71980108, 0x7104014C, 0x70800180, 0x709211C0, 0x70CDD200, 0x71680240, 0x71800280, 0x7200256C].map decode =
      [some (.pattach 1), some (.pdetach), some (.pldaMem 3 8 59 7), some (.pldaReg 3 49 4), some (.pldbMem 2 57 12 7), some (.pldbReg 2 22 2), some (.pmma 3 12 8), some (.pmmas 2 2 12), some (.pzero 1), some (.prdacc 1 9 2), some (.pwracc 1 38 58), some (.ppub 2 52), some (.pfin 3), some (.settle 4790)] := by decide

theorem test_decode_loops_and_tokens :
    [0x74050006, 0x77F81F2D, 0x795F8B80, 0x78000501, 0x78049202, 0x78092102, 0x78080003, 0x78069F84].map decode =
      [some (.lmark 40 6), some (.lend 63 7981), some (.tkarm 43 60 23), some (.tkdisarm 10), some (.tkemit 36 36), some (.tkemitDraft 9 2), some (.tksync 1), some (.tkconf 52 63)] := by decide

theorem test_decode_vector_integer_1 :
    [0x817D43D3, 0x83C1BAF0, 0x8489C9D2, 0x868C6DF0, 0x89DE0BC9, 0x8B195153, 0x8D919391, 0x8E53F460, 0x90AD9158, 0x93CC8222, 0x941E43D8, 0x978F5D9A, 0x9947F0D2, 0x9AEC31F9].map decode =
      [some (.vadd ⟨47, 42, 7, 5, false, .d⟩), some (.vsub ⟨56, 13, 53, 7, false, .b⟩), some (.vmul ⟨17, 14, 19, 5, false, .w⟩), some (.vmulh ⟨17, 35, 27, 7, false, .b⟩), some (.vmulhu ⟨59, 48, 23, 4, true, .h⟩), some (.vmacc ⟨35, 10, 34, 5, false, .d⟩), some (.vdiv ⟨50, 12, 39, 1, false, .h⟩), some (.vrem ⟨10, 31, 40, 6, false, .b⟩), some (.vmin ⟨21, 44, 34, 5, true, .b⟩), some (.vmax ⟨57, 36, 4, 2, false, .w⟩), some (.vminu ⟨3, 50, 7, 5, true, .b⟩), some (.vmaxu ⟨49, 58, 59, 1, true, .w⟩), some (.vand ⟨40, 63, 33, 5, false, .w⟩), some (.vor ⟨29, 33, 35, 7, true, .h⟩)] := by decide

theorem test_decode_vector_integer_2 :
    [0x9D6C5CB3, 0x9E4B644A, 0xA02D6841, 0xA35A9992, 0xA4523CA9, 0xA787A3C9, 0xA95EC7AB, 0xAAB366B8].map decode =
      [some (.vxor ⟨45, 34, 57, 3, false, .d⟩), some (.vsll ⟨9, 27, 8, 4, true, .w⟩), some (.vsrl ⟨5, 43, 16, 4, false, .h⟩), some (.vsra ⟨43, 20, 51, 1, false, .w⟩), some (.vsadd ⟨10, 17, 57, 2, true, .h⟩), some (.vssub ⟨48, 61, 7, 4, true, .h⟩), some (.vaadd ⟨43, 54, 15, 2, true, .d⟩), some (.vsmul ⟨22, 27, 13, 3, true, .b⟩)] := by decide

theorem test_decode_vector_wide_and_float_1 :
    [0xAD7B0139, 0xAF704CBA, 0xB1F0A470, 0xB2322911, 0xB5893AC9, 0xB6547DDA, 0xB8A8C911, 0xBBD0A911, 0xBC34FBA6, 0xBFC10F1F, 0xC1E76954, 0xC315C816, 0xC42186BD, 0xC69BB0E6].map decode =
      [some (.vwadd ⟨47, 24, 2, 3, true, .h⟩), some (.vwaddu ⟨46, 2, 25, 3, true, .w⟩), some (.vwmul ⟨62, 5, 8, 7, false, .b⟩), some (.vwmulu ⟨6, 17, 18, 1, false, .h⟩), some (.vwmacc ⟨49, 9, 53, 4, true, .h⟩), some (.vwmaccu ⟨10, 35, 59, 5, true, .w⟩), some (.vnclip ⟨21, 6, 18, 1, false, .h⟩), some (.vnclipu ⟨58, 5, 18, 1, false, .h⟩), some (.vfadd ⟨6, 39, 55, 2, false, .hf⟩), some (.vfsub ⟨56, 8, 30, 1, true, .sf⟩), some (.vfmul ⟨60, 59, 18, 5, false, .e4⟩), some (.vfdiv ⟨34, 46, 16, 1, false, .hf⟩), some (.vfma ⟨4, 12, 13, 3, true, .bf⟩), some (.vfnma ⟨19, 29, 33, 6, false, .hf⟩)] := by decide

theorem test_decode_vector_wide_and_float_2 :
    [0xC8BE8134, 0xCA15F0D7, 0xCC878E9F, 0xCF1EDCCD].map decode =
      [some (.vfmin ⟨23, 52, 2, 3, false, .e4⟩), some (.vfmax ⟨2, 47, 33, 5, false, .sf⟩), some (.vfsgnj ⟨16, 60, 29, 1, true, .sf⟩), some (.vfsgnjn ⟨35, 54, 57, 4, true, .bf⟩)] := by decide

theorem test_decode_vector_compare_and_move_1 :
    [0xD1F9EB23, 0xD2BFE270, 0xD42D3839, 0xD620D5FA, 0xD93A16B3, 0xDA616942, 0xDCC7CB5D, 0xDE1FDCB6, 0xE0602B47, 0xE2943524, 0xE4323A96, 0xE7306D1C, 0xE8A5279A, 0xEB5F577D].map decode =
      [some (.vcmpeq ⟨63, 15, 22, 2, false, .d⟩), some (.vcmpne ⟨23, 63, 4, 7, false, .b⟩), some (.vcmplt ⟨5, 41, 48, 3, true, .h⟩), some (.vcmpltu ⟨4, 6, 43, 7, true, .w⟩), some (.vcmple ⟨39, 16, 45, 3, false, .d⟩), some (.vcmpleu ⟨12, 11, 18, 4, false, .w⟩), some (.vfcmpeq ⟨24, 62, 22, 5, true, .bf⟩), some (.vfcmplt ⟨3, 62, 57, 3, false, .hf⟩), some (.vfcmple ⟨12, 1, 22, 4, false, .sf⟩), some (.vfcmpun ⟨18, 33, 42, 2, false, .e4⟩), some (.vsel ⟨6, 17, 53, 1, false, .hf⟩), some (.vslideup 38 3 26 1 .e4), some (.vslidedn 20 41 15 1 .w), some (.vgatherr ⟨43, 58, 46, 7, true, .bf⟩)] := by decide

theorem test_decode_vector_compare_and_move_2 :
    [0xED7C0502, 0xEF7D1500, 0xF0507A80, 0xF3B5DD00, 0xF50D2E00].map decode =
      [some (.vmrgk 47 32 10 .w), some (.vmand 47 40 42), some (.vmor 10 3 53), some (.vmxor 54 46 58), some (.vmandn 33 41 28)] := by decide

theorem test_decode_vector_unary_1 :
    [0xF77DA072, 0xF7DC40F0, 0xF7AD8153, 0xF6304180, 0xF6480262, 0xF7F0E2C3, 0xF7208360, 0xF74C63E1, 0xF7022413, 0xF7A0A4E0, 0xF75C4517, 0xF68E8596, 0xF685E675, 0xF67E06E7].map decode =
      [some (.vmv ⟨47, 45, 7, .w⟩), some (.vsplat ⟨59, 34, 7, .b⟩), some (.vmvsx ⟨53, 44, 5, .d⟩), some (.vmvxs 6 2 .b), some (.vid 9 6 .w), some (.viota ⟨62, 7, 4, .d⟩), some (.vcompress ⟨36, 4, 6, .b⟩), some (.vneg ⟨41, 35, 6, .h⟩), some (.vabs ⟨32, 17, 1, .d⟩), some (.vnot ⟨52, 5, 6, .b⟩), some (.vfneg ⟨43, 34, 1, .sf⟩), some (.vfabs ⟨17, 52, 1, .hf⟩), some (.vfsqrt ⟨16, 47, 7, .bf⟩), some (.vfrecip ⟨15, 48, 6, .sf⟩)] := by decide

theorem test_decode_vector_unary_2 :
    [0xF706E745, 0xF6FF67E6, 0xF7906851, 0xF62CE8A2, 0xF68D4962, 0xF744A9A0, 0xF6F88A42, 0xF7FD8A91, 0xF7640B32, 0xF6F3CBC0, 0xF7D48C26, 0xF7F8CCC4, 0xF69BCD17, 0xF6932DA0].map decode =
      [some (.vfexp2 ⟨32, 55, 4, .bf⟩), some (.vfclass ⟨31, 59, 6, .hf⟩), some (.vredsum ⟨50, 3, 5, .h⟩), some (.vredmin ⟨5, 39, 2, .w⟩), some (.vredmax ⟨17, 42, 6, .w⟩), some (.vredminu ⟨40, 37, 2, .b⟩), some (.vredmaxu ⟨31, 4, 4, .w⟩), some (.vredand ⟨63, 44, 1, .h⟩), some (.vredor ⟨44, 32, 3, .w⟩), some (.vredxor ⟨30, 30, 4, .b⟩), some (.vfredsum ⟨58, 36, 2, .hf⟩), some (.vfredmin ⟨63, 6, 4, .e4⟩), some (.vfredmax ⟨19, 30, 1, .sf⟩), some (.vmpop 18 25 2)] := by decide

theorem test_decode_vector_unary_3 :
    [0xF7DFAE20, 0xF62CCE90, 0xF6560F50, 0xF68FAFB0, 0xF64CF072, 0xF7C910E5, 0xF67C1141, 0xF6117194, 0xF763B245, 0xF77952C6, 0xF6CAB316, 0xF60AB3F6, 0xF7B35415, 0xF77034E6].map decode =
      [some (.vmfirst 59 61 2), some (.vmnot 5 38 1), some (.vmbefore 10 48 5), some (.vmincl 17 61 3), some (.vsortk ⟨9, 39, 7, .w⟩), some (.vuniq ⟨57, 8, 6, .bf⟩), some (.vtosf ⟨15, 32, 4, .h⟩), some (.vtobf ⟨2, 11, 1, .e4⟩), some (.vtohf ⟨44, 29, 4, .bf⟩), some (.vtoe4 ⟨47, 10, 4, .hf⟩), some (.vtoe4s ⟨25, 21, 1, .hf⟩), some (.vtoe5 ⟨1, 21, 7, .hf⟩), some (.vtoe5s ⟨54, 26, 1, .bf⟩), some (.vtof4 ⟨46, 1, 6, .hf⟩)] := by decide

theorem test_decode_vector_unary_4 :
    [0xF68B1516, 0xF6CF15D4, 0xF6C79646, 0xF7B896B5, 0xF626D761, 0xF74F97A0].map decode =
      [some (.vfromf4 ⟨17, 24, 1, .hf⟩), some (.vtoinr ⟨25, 56, 5, .e4⟩), some (.vtoinz ⟨24, 60, 4, .hf⟩), some (.vintof ⟨55, 4, 3, .bf⟩), some (.vwiden ⟨4, 54, 6, .h⟩), some (.vwidenu ⟨41, 60, 2, .b⟩)] := by decide


/-- The example words that the entries of the manual print (R261 to R360). -/
theorem test_decode_manual_scalar :
    [0x0228C38C, 0x0228C118, 0x1028C003, 0x16308000, 0x1828D7C4, 0x1C38CFFF, 0x1A28C000, 0x2828C003, 0x2C000010, 0x2FFFFFFE, 0x1EF90000,
      0x1E03E000, 0x3400A005, 0x34000008, 0x32300005, 0x38000001, 0x3A288482, 0x3C000000].map decode =
      [some (.div 5 6 7), some (.sext 5 6 2), some (.srai 5 6 3), some (.addpc 6 0x8000), some (.lds 5 6 .w (-60)), some (.st 7 6 .h (-1)),
        some (.ldz 5 6 .b 0), some (.bltu 5 6 3), some (.j 16), some (.jal (-2)), some (.jalr 31 8 0), some (.jalr 0 31 0), some (.swr 5 5),
        some (.swr 0 8), some (.srd 6 5), some (.vconf 1), some (.vsetl 5 4 9 .w), some .vrel] := by decide +kernel

theorem test_decode_manual_memory :
    [0x4E11050B, 0x4408C1A6, 0x4A30E000, 0x48088002, 0x4620C101, 0x52210101, 0x5010C182, 0x5440C000, 0x54400002, 0x5618C102, 0x5828C380,
      0x5A28C380, 0x5C28C000, 0x5E28C383, 0x60000010, 0x62000001, 0x64000103, 0x6610A000, 0x6A284180].map decode =
      [some (.vsts ⟨2, 8, 10, 0, true, false, .d⟩), some (.vldx ⟨1, 6, 3, 2, false, true, .w⟩), some (.vldsc 6 7),
        some (.vldff ⟨1, 4, 0, false, false, .w⟩), some (.vldseg ⟨4, 6, 2, 0, false, false, .h⟩),
        some (.vstseg ⟨4, 8, 2, 0, false, false, .h⟩), some (.vstx ⟨2, 6, 3, 0, false, false, .w⟩), some (.vstreamBind 8 6 0),
        some (.vstreamRewind 8), some (.vamoAdd ⟨3, 6, 2, 0, .w⟩), some (.amoAdd 5 6 7), some (.cas 5 6 7), some (.lock 5 6),
        some (.waitwGe 5 6 7), some (.fence false false false true false 0), some (.vfence 1), some (.barArrwait 3), some (.post 2 5),
        some (.waitv 5 2 3)] := by decide +kernel

theorem test_decode_manual_engines_and_press :
    [0x6C28C080, 0x6C00C005, 0x6C28C006, 0x6C00C387, 0x6C00C388, 0x6E002280, 0x6E28C381, 0x6E28C002, 0x70000002, 0x70000040, 0x700C3881,
      0x719800A0, 0x70000101, 0x70820140, 0x71000180, 0x700841C0, 0x708A4200, 0x70040240, 0x70000280, 0x72000002, 0x7828C380, 0x78000381,
      0x78004182, 0x78080003, 0x78004204].map decode =
      [some (.cpy 5 6 1), some (.publish 6), some (.shadow 5 6), some (.syncw 6 7), some (.cleanr 6 7), some (.xfwait 1 5),
        some (.syncwait 5 6 7), some (.bankwait 5 6), some (.pattach 2), some .pdetach, some (.pldaMem 0 6 7 1), some (.pldaReg 3 12 0),
        some (.pmma 0 0 1), some (.pmmas 1 1 0), some (.pzero 2), some (.prdacc 0 4 8), some (.pwracc 1 5 8), some (.ppub 0 2), some (.pfin 0),
        some (.settle 1), some (.tkarm 5 6 7), some (.tkdisarm 7), some (.tkemit 2 3), some (.tksync 1), some (.tkconf 2 4)] := by
  decide +kernel

theorem test_decode_manual_vector :
    [0x80880000#32, 0x8A304193, 0xA4084209, 0xB8414189, 0xC420A317, 0xD410228A, 0xE4182142, 0xE810220A, 0xEA204191, 0xEC400202, 0xEE182100,
      0xF6184707, 0xF6282182, 0xF6102C07, 0xF6205002, 0xF6309487].tail.map decode =
      [some (.vmacc ⟨6, 2, 3, 1, false, .d⟩), some (.vsadd ⟨1, 2, 4, 0, true, .h⟩), some (.vnclip ⟨8, 10, 3, 0, true, .h⟩),
        some (.vfma ⟨4, 5, 6, 1, false, .sf⟩), some (.vcmplt ⟨2, 1, 5, 0, true, .w⟩), some (.vsel ⟨3, 1, 2, 4, false, .w⟩),
        some (.vslidedn 2 1 4 0 .w), some (.vgatherr ⟨4, 2, 3, 1, false, .h⟩), some (.vmrgk 8 0 4 .w), some (.vmand 3 1 2),
        some (.vfexp2 ⟨3, 2, 0, .sf⟩), some (.vmvxs 5 1 .w), some (.vfredsum ⟨2, 1, 0, .sf⟩), some (.vsortk ⟨4, 2, 0, .w⟩),
        some (.vtof4 ⟨6, 4, 0, .sf⟩)] := by decide +kernel

/-! ### Terms that the checks refuse (R235, R238) -/

theorem test_wf_refuses :
    [Instr.vadd ⟨0, 0, 0, 0, false, .sf⟩, .vwadd ⟨0, 0, 0, 0, false, .d⟩, .vfadd ⟨0, 0, 0, 0, false, .w⟩, .vfexp2 ⟨0, 0, 0, .e4⟩,
      .vtosf ⟨0, 0, 0, .sf⟩, .vtobf ⟨0, 0, 0, .bf⟩, .vtohf ⟨0, 0, 0, .w⟩, .vmrgk 0 0 0 .hf, .sext 0 0 3, .zext 0 0 7, .frame 0 16 0 0 0,
      .vldseg ⟨0, 0, 0, 0, false, false, .b⟩, .vstseg ⟨0, 0, 8, 0, false, false, .b⟩, .vamoFadd ⟨0, 0, 0, 0, .d⟩, .lmark 0 2, .lmark 1 1,
      .lend 0 0x1FFF, .lend 1 4, .pattach 0, .pattach 5, .pldbReg 3 0 0, .pmma 0 16 0, .pmmas 0 16 0, .shadow 0 0].map Instr.wf =
      List.replicate 24 false := by decide +kernel

/-! ### A small machine -/

/-- A partition of section 0: thread table at 1 MiB, event queue at 4 MiB, translation on, debug enabled. -/
def part0 : Part :=
  { idx := 0, sects := 1, tierLo := 0, tierHi := 0, debugOn := true, rebases := 0, tsBase := 0
    k := { KRegs.init with asrt := 0x8000000000010000, ttbase := 0x100000, evqb := 0x400000 }, db := Debug.init, pending := [], inval := none }

/-- A record of four threads on a core, with a heap of 1 KiB, stacks of 256 bytes and one 64 KiB of local store. -/
def rec0 : LaunchRec :=
  { LaunchRec.empty with
    prio := 3, ring := true, lsg := 1, argp := 0x77, heapb := 0x30000, heapsz := 1024, stkb := 0x40000, stksz := 256
    levels := [⟨1, false, 1, 0⟩, ⟨4, false, 0, 0⟩], stages := [⟨0x20000, 1, 0, 0⟩] }

def launch0 : Launch := { Launch.empty with id := 1, admitted := true, lrec := rec0, made := [1], ended := [0] }

/-- Virtual pages 1 to 4 of ASID 0 at physical pages 1 to 4, readable, writable and executable, for the agents on cluster c. -/
def tlb0 (c : Nat) : List Tlb :=
  (List.range 4).map fun n => ⟨c, none, 0, 0, n + 1, false, BitVec.ofNat 64 ((n + 1) * 65536 + 0x1F)⟩

/-- A running thread, CTXID 1, with the values of some registers. -/
def thread0 (rs : List (Nat × Word)) : Thread :=
  { Thread.init with
    id := { ctxid := 1, launch := 1, stage := 0, lthr := 0, place := ⟨0, 0, 0, 0⟩, lv := [0, 0] }
    st := .running, pc := 0x20000, g := rs.foldl (fun g r => g.setIfInBounds r.1 r.2) (Vector.replicate 32 0)
    sys := { Sys.init with bprio := 3, eprio := 3 } }

/-- The machine with that thread, which holds the lanes of its core. -/
def m0 (rs : List (Nat × Word)) : State :=
  { State.reset with
    cur := thread0 rs, launches := [launch0], parts := [part0], tlb := tlb0 0
    cores := [(0, { Core.init false with holder := some 1 })] }

/-- The same with bytes of memory. -/
def m1 (rs : List (Nat × Word)) (ms : List (Nat × List Byte)) : State :=
  { m0 rs with mem := ms.foldl (fun m w => m.write w.1 w.2) [] }

/-- A doubleword's bytes. -/
def dw (v : Nat) : List Byte := natBytes 8 v

/-- Whether a next state is answered with a property. -/
def nextIs (o : Host.Outcome State Fault Refusal) (p : State → Bool) : Bool :=
  match o with
  | .next s => p s
  | _ => false

/-- Whether a step answers a next state. -/
def goesOn (o : Host.Outcome State Fault Refusal) : Bool := nextIs o fun _ => true

theorem canSave_of {s : State} (p : Part) (h : s.curPart = some p ∧ s.isMemory (p.tableEntry s.cur.id.ctxid) = true ∧
    s.isMemory (s.imageBase p s.cur.id.ctxid) = true) : s.canSave := ⟨p, h⟩

/-! ### A state that meets the hypotheses of each statement -/

/-- DIV g5, g6, g7 at the program counter of a thread that can issue. -/
def atDiv : State := m1 [(6, 100), (7, 7)] [(0x20000, natBytes 4 0x0228C38C)]

theorem witness_StepRunsTheDecodedInstruction :
    let s := atDiv
    s.issues ∧ s.begin_.fetch = .word 0x0228C38C ∧ decode 0x0228C38C = some (.div 5 6 7) ∧ goesOn (step s) = true := by dsimp only [State.issues]; decide +kernel

/-- The same state where the environment has chosen the thread. -/
def chosen : State := { atDiv with agenda := [.issue 1] }

/-- What the thread looks like when it issues. -/
def focused : State := (({ chosen.begin_ with agenda := [] } : State).focus 1).getD State.reset

theorem witness_StepRunsTheDecodedInstruction_2 :
    chosen.agenda = .issue 1 :: [] ∧ ({ chosen.begin_ with agenda := [] } : State).focus 1 = some focused ∧ focused.cur.canIssue = true ∧
      focused.boundary = none ∧ focused.fetch = .word 0x0228C38C ∧ decode 0x0228C38C = some (.div 5 6 7) ∧ goesOn (step chosen) = true := by decide +kernel

theorem witness_StepRunsTheDecodedInstruction_3 :
    let s := { State.reset with agenda := [.event .packageBoot] }
    let t := { State.reset with agenda := [.event .powerWake] }
    let u := { t with colophon := { t.colophon with kernelUp := true } }
    s.agenda = .event .packageBoot :: [] ∧ Instr.packageBoot.isEvent = true ∧ t.agenda = .event .powerWake :: [] ∧
      Instr.powerWake.isEvent = true ∧ t.colophon.kernelUp = false ∧ Instr.powerWake ≠ .packageBoot ∧ u.agenda = t.agenda ∧
      u.colophon.kernelUp = true := by dsimp only; decide +kernel

theorem witness_DecodeEncode : (Instr.div 5 6 7).wf = true ∧ encode (.div 5 6 7) = some 0x0228C38C := by decide +kernel

theorem witness_EncodeDecode : decode 0x0228C38C = some (.div 5 6 7) := by decide +kernel

theorem witness_ReservedWordTraps_1 :
    let s := m0 []
    s.queue = [] ∧ s.canSave ∧ s.fetch = .word 0 ∧ decode 0 = none ∧ queuedFamily 0 = false := by
  exact ⟨rfl, canSave_of part0 (by decide +kernel), by decide +kernel⟩

theorem witness_ReservedWordTraps_2 :
    let s := m1 [] [(0x20000, natBytes 4 0xF7FFFFFF)]
    s.fetch = .word 0xF7FFFFFF ∧ decode 0xF7FFFFFF = none ∧ queuedFamily 0xF7FFFFFF = true ∧ s.canPush := by
  dsimp only [State.canPush]; decide +kernel

theorem witness_StepKeepsMemoryCanonical :
    let s := atDiv
    s.memWf ∧ goesOn (step s) = true := by dsimp only [State.memWf]; decide +kernel

theorem witness_ProgramsLeaveTheTrustedStateAlone : (Instr.div 5 6 7).isEvent = false ∧ goesOn (exec (.div 5 6 7) atDiv) = true := by decide +kernel

theorem witness_ScalarAluResults :
    let s := atDiv
    s.usable 0 ∧ s.usable 6 ∧ s.usable 31 := by dsimp only [State.usable]; decide +kernel

theorem witness_ScalarImmediateResults :
    let s := atDiv
    s.usable 0 ∧ s.usable 31 := by dsimp only [State.usable]; decide +kernel

theorem witness_ScalarFormsFrame :
    let s := atDiv
    s.usable 0 ∧ s.usable 6 ∧ s.usable 31 ∧ goesOn (exec (.div 0 6 31) s) = true := by dsimp only [State.usable]; decide +kernel

theorem witness_ScalarFormsTrap_1 :
    (m0 []).queue = [] ∧ (m0 []).canSave ∧ 32 ≤ (32 : BitVec 6).toNat ∧ (31 : BitVec 6).toNat < 32 ∧ 32 ≤ (63 : BitVec 6).toNat ∧
      (m0 []).sysRead (0x060 : BitVec 12).toNat ≠ none := by
  exact ⟨rfl, canSave_of part0 (by decide +kernel), by decide +kernel⟩

theorem witness_ScalarFormsTrap_2 :
    let s := m0 [(5, 0x10001)]
    s.queue = [] ∧ s.usable 31 ∧ s.usable 5 ∧ (s.x 5 + BitVec.ofInt 64 ((0 : BitVec 11).toInt * Wid.d.bytes)).toNat % Wid.d.bytes ≠ 0 := by dsimp only [State.usable]; decide +kernel

theorem witness_ScalarLoadResults :
    let s := m0 [(5, 0x10000)]
    let t := { s with launches := [{ launch0 with lrec := { rec0 with det := true } }] }
    s.usable 31 ∧ s.usable 5 ∧ s.reaches needRd (s.x 5 + BitVec.ofInt 64 ((1023 : BitVec 11).toInt * Wid.d.bytes)) .d 0x11FF8 ∧ s.isDet = false ∧
      t.usable 31 ∧ t.usable 5 ∧ t.reaches needRd (t.x 5 + BitVec.ofInt 64 ((0 : BitVec 11).toInt * Wid.b.bytes)) .b 0x10000 ∧ t.isDet = true := by
  dsimp only [State.usable, State.reaches]; decide +kernel

theorem witness_ScalarStoreResult_1 :
    let s := m0 [(5, 0x10000)]
    s.usable 31 ∧ s.usable 5 ∧ s.isDet = false ∧ s.undisturbed 1 ∧
      s.reaches needWr (s.x 5 + BitVec.ofInt 64 ((0x3FF : BitVec 11).toInt * Wid.b.bytes)) .b 0x103FF := by
  dsimp only [State.usable, State.reaches, State.undisturbed, State.roomFor]; decide +kernel

/-- A thread of a DET launch with some stores buffered. -/
def buffering (n : Nat) : State :=
  let s := m0 [(5, 0x10000)]
  { s with
    cur := { s.cur with det := List.replicate n ⟨0x10000, 0x10000, false, ⟨false, false⟩, false, 0, [5]⟩ }
    launches := [{ launch0 with lrec := { rec0 with det := true } }] }

theorem witness_ScalarStoreResult_2 :
    let s := buffering 0
    let t := buffering 1084
    s.usable 31 ∧ s.usable 5 ∧ s.isDet = true ∧ s.storesQueued = false ∧ t.storesQueued = false ∧ s.reaches needWr (s.x 5 + BitVec.ofInt 64 ((0 : BitVec 11).toInt * Wid.b.bytes)) .b 0x10000 ∧
      (s.buffer ⟨s.x 5, 0x10000, false, s.pageTag s.xctx (s.x 5), false, 0, [0]⟩).isSome = true ∧ t.isDet = true ∧
      t.reaches needWr (t.x 5 + BitVec.ofInt 64 ((0 : BitVec 11).toInt * Wid.b.bytes)) .b 0x10000 ∧
      t.buffer ⟨t.x 5, 0x10000, false, t.pageTag t.xctx (t.x 5), false, 0, [0]⟩ = none ∧ t.queue = [] ∧
      t.slotPoisoned (t.cur.det.length - Config.wcbEntries) = false := by
  dsimp only [State.usable, State.reaches]; decide +kernel

/-- A poisoned line of a state. -/
def poisonAt (s : State) (pa : Nat) : State := { s with lines := [(pa / 128, { Line.init 0 with poison := true })] }

theorem witness_ScalarStoreResult_3 :
    let s := poisonAt (buffering 64) ((buffering 64).imageBase part0 1 + 0xC000)
    s.buffer ⟨s.x 5, 0x10000, false, s.pageTag s.xctx (s.x 5), false, 0, [0]⟩ = none ∧ s.storesQueued = false ∧
      s.slotPoisoned (s.cur.det.length - Config.wcbEntries) = true ∧
      nextIs (exec (.st 0 5 .b 0) s) (fun t => t.cur.sys.cause == 8 && t.cur.sys.badva == 0x10000) = true := by dsimp only; decide +kernel

theorem witness_LocalStoreAccesses :
    let s := m0 [(5, 0xFFFFFFFFE00000)]
    let t := { s with launches := [{ launch0 with lrec := { rec0 with det := true } }] }
    s.usable 31 ∧ s.usable 5 ∧ s.isDet = false ∧ s.memBusy = false ∧ t.isDet = true ∧ t.storesQueued = false ∧
      s.undisturbed 0 ∧ s.launch ∈ s.launches ∧ (s.launch.store s.cur.id.place.cluster).wf ∧
      t.spot needWr (t.x 5 + BitVec.ofInt 64 ((0 : BitVec 11).toInt * Wid.b.bytes)) Wid.b.bytes (BitVec.ofNat 8 Wid.b.num) = .loc 0 ∧
      (t.buffer ⟨t.x 5, 0, true, ⟨false, false⟩, false, 0, [7]⟩).isSome = true ∧
      s.spot needRd (s.x 5 + BitVec.ofInt 64 ((1 : BitVec 11).toInt * Wid.d.bytes)) Wid.d.bytes (BitVec.ofNat 8 Wid.d.num) = .loc 8 ∧
      s.spot needWr (s.x 5 + BitVec.ofInt 64 ((0 : BitVec 11).toInt * Wid.b.bytes)) Wid.b.bytes (BitVec.ofNat 8 Wid.b.num) = .loc 0 := by
  dsimp only [State.usable, State.undisturbed, State.roomFor]; decide +kernel

/-- A private copy of line 0x200 with lease 9 for the core of the thread. -/
def copied : State := { m0 [] with copies := [⟨false, 0, 0x200, 7, 3, 9, none⟩] }

theorem witness_LeaseReadsAndWrites_1 :
    let s := copied
    s.copyHit false (0x10000 / 128) = some ⟨false, 0, 0x200, 7, 3, 9, none⟩ := by dsimp only; decide +kernel

theorem witness_LeaseReadsAndWrites_2 :
    let s := m0 []
    s.copyHit false (0x10000 / 128) = none ∧ s.roomFor 1 ∧ s.undisturbed 1 ∧ max (s.line 0x200).rts (s.cur.sys.pts + s.cur.sys.lease.toNat) < 0xC0000 ∧
      max s.cur.sys.pts ((s.line 0x200).rts + 1) < 0xC0000 := by dsimp only [State.undisturbed, State.roomFor]; decide +kernel

theorem witness_BranchesGoWhereTheyTell :
    let s := m0 []
    let tgt := s.cur.pc + BitVec.ofInt 64 ((-4096 : BitVec 13).toInt * 4)
    s.usable 0 ∧ s.usable 31 ∧ tgt.toNat % 4 = 0 ∧ tgt.toNat < 0x100000000000000 := by dsimp only [State.usable]; decide +kernel

/-- The thread at an address. -/
def atPc (pc : Word) : State := { m0 [] with cur := { thread0 [] with pc := pc } }

theorem witness_BranchesGoWhereTheyTell_2 :
    let far := (atPc 0x00FFFFFFFFFFFFFC).cur.pc + BitVec.ofInt 64 ((1 : BitVec 13).toInt * 4)
    let odd := (atPc 2).cur.pc + BitVec.ofInt 64 ((1 : BitVec 13).toInt * 4)
    (atPc 2).queue = [] ∧ far.toNat % 4 = 0 ∧ 0x100000000000000 ≤ far.toNat ∧ odd.toNat % 4 ≠ 0 := by dsimp only; decide +kernel

theorem witness_BranchesGoWhereTheyTell_3 : (atPc 2).canSave ∧ (atPc 0x00FFFFFFFFFFFFFC).canSave :=
  ⟨canSave_of part0 (by decide +kernel), canSave_of part0 (by decide +kernel)⟩

theorem witness_JumpsLinkAndGo_1 :
    let s := m0 []
    let near := s.cur.pc + BitVec.ofInt 64 ((-1 : BitVec 25).toInt * 4)
    let far := s.x 0 + BitVec.ofInt 64 ((1 : BitVec 13).toInt * 4)
    near.toNat % 4 = 0 ∧ near.toNat < 0x100000000000000 ∧ s.notReady 31 = false ∧ far.toNat % 4 = 0 ∧ far.toNat < 0x100000000000000 ∧
      s.usable 0 ∧ s.usable 31 := by dsimp only [State.usable]; decide +kernel

theorem witness_JumpsLinkAndGo_2 :
    (m0 [(5, 2)]).usable 5 ∧ (m0 [(5, 2)]).canSave ∧ ((m0 [(5, 2)]).x 5 + BitVec.ofInt 64 ((0 : BitVec 13).toInt * 4)).toNat % 4 ≠ 0 := by
  refine ⟨by unfold State.usable; decide +kernel, canSave_of part0 (by decide +kernel), by decide +kernel⟩

theorem witness_JumpsLinkAndGo_3 :
    let s := m0 [(5, 0x100000000000000)]
    let far := s.x 5 + BitVec.ofInt 64 ((0 : BitVec 13).toInt * 4)
    let near := (atPc 0x00FFFFFFFFFFFFFC).cur.pc + BitVec.ofInt 64 ((1 : BitVec 25).toInt * 4)
    s.usable 5 ∧ s.queue = [] ∧ far.toNat % 4 = 0 ∧ 0x100000000000000 ≤ far.toNat ∧ near.toNat % 4 = 0 ∧ 0x100000000000000 ≤ near.toNat ∧
      (atPc 0x00FFFFFFFFFFFFFC).queue = [] := by dsimp only [State.usable]; decide +kernel

theorem witness_SystemRegisterReads :
    let s := m0 []
    let i := s.cur.id
    s.usable 31 ∧ s.queue = [] ∧ s.sysRead (0x052 : BitVec 12).toNat = some 0x33 ∧ s.sysRead (0xFFF : BitVec 12).toNat = none ∧ i.lthr < 2 ^ 32 ∧
      i.stage < 8 ∧ i.ctxid < 2 ^ 16 ∧ i.place.sect < 8 ∧ i.place.unit < 32 ∧ i.place.core < 8 ∧ i.place.ctx < 4 ∧ i.place.isBase = false := by dsimp only [State.usable]; decide +kernel

theorem witness_SystemRegisterReads_2 : ({ m0 [] with cur := { (m0 []).cur with id := { (m0 []).cur.id with place := ⟨0, 24, 0, 0⟩ } } } :
    State).cur.id.place.isBase = true ∧ (m0 []).canSave := by
  exact ⟨by decide +kernel, canSave_of part0 (by decide +kernel)⟩

theorem witness_SystemRegisterWrites :
    let s := m0 [(5, -1)]
    let b := { s with cur := { s.cur with id := { s.cur.id with place := ⟨0, 24, 0, 0⟩ } } }
    s.usable 5 ∧ s.queue = [] ∧ s.tokenQuiet = true ∧ s.cur.id.place.isBase = false ∧ b.usable 5 ∧ b.queue = [] ∧ b.tokenQuiet = true ∧
      b.cur.id.place.isBase = true := by dsimp only [State.usable]; decide +kernel

theorem witness_VconfAndVrelClearTheRegisters :
    let s := m0 []
    (s.core s.cur.id.place).holder = some s.cur.id.ctxid ∧ s.vecDone = true ∧ s.cur.vec.streams = [] ∧
      s.cur.sys.nvreg.toNat = 8 * 2 ^ (2 : BitVec 2).toNat ∧ s.cur.sys.nvreg.toNat ≠ 8 * 2 ^ (3 : BitVec 2).toNat := by dsimp only; decide +kernel

theorem witness_VsetlGrantsTheLength_1 :
    let s := m0 [(5, 4096), (6, 9)]
    s.usable 7 ∧ s.usable 5 ∧ s.usable 6 ∧ s.canPush ∧ s.stripStop = false ∧ s.cur.strip = none ∧
      goesOn (exec (.vsetl 7 5 0 .b) s) = true := by dsimp only [State.usable, State.canPush]; decide +kernel

/-- A thread that the partition's debug selects, with a strip open and the strip ring at 0x20000. -/
def stripping : State :=
  let s := m0 [(5, 4096)]
  { s with
    cur := { s.cur with strip := some ⟨false, 0x20000, 5, 16, 0⟩ }
    parts := [{ part0 with db := { part0.db with dbctl := 0xA000000000000000, dbstrb := 0x20000 } }] }

theorem witness_VsetlGrantsTheLength_3 :
    let s := stripping
    ∃ p z, s.usable 7 ∧ s.usable 5 ∧ s.canPush ∧ s.stripStop = false ∧ s.curPart = some p ∧ s.cur.strip = some z ∧ p.selects s.cur.id.ctxid = true ∧
      p.db.dbctl.getLsbD 63 = true ∧ s.isMemory (bitsOf p.db.dbstrb 17 35 * 131072 + 32 * (p.db.strips % 4096)) = true ∧ s.memWf ∧ s.roomFor 1 ∧
      goesOn (exec (.vsetl 7 5 0 .b) s) = true :=
  ⟨_, _, by dsimp only [State.usable]; decide +kernel, by dsimp only [State.usable]; decide +kernel, by dsimp only [State.canPush]; decide +kernel,
    by decide +kernel, rfl, rfl, by decide +kernel, by decide +kernel, by decide +kernel, by unfold State.memWf; decide +kernel,
    by unfold State.roomFor; decide +kernel, by decide +kernel⟩

/-- An entry of the queue of the thread. -/
def qe (op : QOp) : QEntry := ⟨0x20000, 0, op, 4, 8, 12, 0, 0, 1, 0, false, 0, none, []⟩

/-- The machine with entries in the queue of the thread. -/
def queued (rs : List (Nat × Word)) (qs : List QEntry) : State :=
  let s := m0 rs
  { s with cur := { s.cur with vec := { s.cur.vec with queue := qs } } }

theorem witness_VsetlGrantsTheLength_2 :
    let s := queued [] [qe (.setvl 4 2)]
    s.heads 1 (qe (.setvl 4 2)) ∧ (qe (.setvl 4 2)).op = .setvl 4 2 ∧ 4 < 2 ^ 14 := by dsimp only [State.heads]; decide +kernel

/-- FRAME of two words, VADD v1, v2, v3 and VMAND k1, k2, k3, two copies. -/
def framed : State :=
  m1 [] [(0x20004, natBytes 4 0x80084182), (0x20008, natBytes 4 0xee084180)]

/-- The pushes of its words. -/
def framedPushes : List (BitVec 32 × Push) :=
  [(0x80084182, ⟨.int .add 0 false .w, 1, 2, 3, false, false⟩), (0xee084180, ⟨.mlog .and, 1, 2, 3, false, false⟩)]

theorem witness_FramePushesEveryCopy_1 :
    let s := framed
    (s.core s.cur.id.place).holder = some s.cur.id.ctxid ∧ frameWords s (List.range ((1 : BitVec 6).toNat + 1)) = .ok framedPushes ∧
      (∀ p ∈ framedPushes, p.2.ca = false ∧ p.2.cb = false) ∧ s.cur.vec.frame = none ∧
      s.queue.length + ((1 : BitVec 6).toNat + 1) * ((1 : BitVec 6).toNat + 1) ≤ 64 ∧
      (∀ p ∈ framedPushes, ∀ i ≤ (1 : BitVec 6).toNat, (vWord (stepWord p.1 p.2 i 1 1 1)).isSome ∧
        s.frameBad (s.entry s.cur.pc 0 (frameCopy p i 1 1 1).2 0 0) = none ∧
        s.captures (frameCopy p i 1 1 1).2.ca (frameCopy p i 1 1 1).2.a ∧ s.captures (frameCopy p i 1 1 1).2.cb (frameCopy p i 1 1 1).2.b) := by
  dsimp only [State.captures]; decide +kernel

/-- FRAME of one word, VADD v40, v2, v3, whose copy is the oldest. -/
def framedBad : State :=
  let s := m1 [] [(0x20004, natBytes 4 0x81404182)]
  { s with cur := { s.cur with vec := { s.cur.vec with frame := some ⟨0x20000, 0, 0⟩ } } }

theorem witness_FramePushesEveryCopy_2 :
    let s := framedBad
    let p : BitVec 32 × Push := (0x81404182, ⟨.int .add 0 false .w, 40, 2, 3, false, false⟩)
    frameWords s (List.range ((0 : BitVec 6).toNat + 1)) = .ok [p] ∧ s.cur.vec.frame = some ⟨s.cur.pc, 0, 0⟩ ∧ s.queue = [] ∧
      s.frameBad (s.entry (s.cur.pc + 4) 0 (frameCopy p 0 0 0 0).2 0 0) = some 1 := by dsimp only; decide +kernel

theorem witness_FramePushesEveryCopy_3 : framedBad.canSave := canSave_of part0 (by decide +kernel)

theorem witness_NopYieldDealPrio :
    let s := { m0 [(5, 7), (6, 1)] with launches := [{ launch0 with made := [4], ended := [3] }] }
    s.usable 7 ∧ s.usable 5 ∧ s.usable 6 ∧ s.queue = [] ∧ s.peerWaits = false := by dsimp only [State.usable]; decide +kernel

theorem witness_NopYieldDealPrio_2 :
    let s := m0 [(5, 7), (6, 1)]
    s.queue = [] ∧ s.peerWaits = true ∧ s.alone ∧ launch0 ∈ s.launches ∧ s.cur.st = .running ∧
      s.withoutGang.creatable s.cur.id.place launch0 = true ∧ launch0.lrec.prio = s.cur.sys.eprio.toNat ∧
      (∀ t ∈ s.threads, t.sys.eprio.toNat ≤ launch0.lrec.prio) ∧ s.locks = [] ∧
      nextIs (exec .yield s) (fun t => decide (t.cur.id = s.cur.id ∧ t.cur.st = .saved ∧ s.cur.turn < t.cur.turn)) = true := by
  dsimp only [State.alone]; decide +kernel

theorem witness_NopYieldDealPrio_3 : (m0 [(5, 7), (6, 1)]).canSave := canSave_of part0 (by decide +kernel)

theorem witness_TrapsAreTakenAndReturnedFrom_1 :
    (m0 [(5, 7)]).usable 5 ∧ (m0 []).queue = [] ∧ (m0 [(5, 7)]).canSave ∧ (m0 [(5, 7)]).curPart = some part0 := by
  refine ⟨by unfold State.usable; decide +kernel, rfl, canSave_of part0 (by decide +kernel), by decide +kernel⟩

theorem witness_TrapsAreTakenAndReturnedFrom_2 :
    let s := { m0 [] with cur := { (m0 []).cur with st := .suspended, resume := 0x20008 } }
    s.part? part0.idx = some part0 ∧ s.cur.id.ctxid = 1 ∧ s.cur.st = .suspended ∧ s.launch.part = part0.idx ∧
      s.isMemory (part0.tableEntry 1) = true ∧ part0.kcmdBusy = false ∧ part0.recordWaits 1 = false ∧
      goesOn (exec (.kcmdResume 0 1) s) = true := by dsimp only; decide +kernel

theorem witness_ExitEndsTheThread :
    let s := m0 []
    s.queue = [] ∧ s.ownLins = [] ∧ s.cmdsEnded s.cur.id.ctxid = true ∧ s.banksEnded s.cur.id.ctxid = true ∧ s.cur.share = none ∧
      s.curPart = some part0 ∧ s.isMemory (part0.tableEntry s.cur.id.ctxid) = true ∧ s.launch.ended[s.cur.id.stage]? = some 0 ∧
      s.launch.id = s.cur.id.launch := by dsimp only; decide +kernel

/-- A launch of which 128 bytes of heap are taken. -/
def taken : State := { m0 [(5, 128), (6, 0x30000), (7, 0x30080), (8, 1024)] with launches := [{ launch0 with allocs := [⟨0x30000, 128, 0⟩] }] }

theorem witness_AllocAndFree :
    let s := taken
    let o := { s with launches := [{ launch0 with lrec := { rec0 with det := true }, allocs := [⟨0x30000, 128, 3⟩] }] }
    s.usable 9 ∧ s.usable 5 ∧ s.launch.lrec.det = false ∧ s.launch.lrec.heapsz ≠ 0 ∧ (s.x 5).toNat ≠ 0 ∧ s.x 10 = 0 ∧
      lowestFit s.launch.allocs 0x30000 (0x30000 + s.launch.lrec.heapsz) 128 = some 0x30080 ∧
      lowestFit s.launch.allocs 0x30000 (0x30000 + s.launch.lrec.heapsz) 1024 = none ∧
      (s.launch.allocs.find? fun y => decide (y.addr = (s.x 6).toNat)) = some ⟨0x30000, 128, 0⟩ ∧ (s.x 7).toNat ≠ 0 ∧
      (∀ x ∈ s.launch.allocs, x.addr ≠ (s.x 7).toNat) ∧ o.launch.lrec.det = true ∧
      (o.launch.allocs.find? fun y => decide (y.addr = (o.x 6).toNat)) = some ⟨0x30000, 128, 3⟩ ∧ (3 : Nat) ≠ o.threadNo := by
  dsimp only [State.usable]; decide +kernel


/-- The bytes of a well-formed record: one level of four threads and one stage. -/
def recBytes : List Byte :=
  dw (1 * 2 ^ 56 + 2 + 1 * 16 + 3 * 2 ^ 16 + 2 ^ 20) ++ List.replicate 56 0 ++ dw (2 ^ 32 + 2 ^ 16) ++ dw 0 ++ dw (4 * 2 ^ 32) ++ dw 0 ++
    List.replicate (0xC0 - 0x60) 0 ++ dw 0x20000 ++ dw (2 ^ 32)

/-- A thread with that record, or with one whose first byte another takes, at the address in g5. -/
def launching (h : List Byte) : State := m1 [(5, 0x10000)] [(0x10000, recBytes), (0x10000, h)]

/-- The lines of the record. -/
def recordAt : List Where := (List.range 12).map fun k => .phys (0x10000 + 128 * k)

theorem witness_LaunchQueuesARecord_1 :
    let s := launching []
    let r := loadLinesAt s recordAt
    s.usable 7 ∧ s.usable 5 ∧ (s.x 5).toNat % 128 = 0 ∧ s.memBusy = false ∧ recordLines s (s.x 5) (List.range 12) = .ok recordAt ∧
      r.2.curPart = some part0 ∧ r.2.refuseRecord part0 r.1 (launchRecOf r.1) true = none ∧ goesOn (exec (.launch 7 5) s) = true := by dsimp only [State.usable]; decide +kernel

theorem witness_LaunchQueuesARecord_2 :
    let s := launching [0]
    let r := loadLinesAt s recordAt
    recordLines s (s.x 5) (List.range 12) = .ok recordAt ∧ r.2.curPart = some part0 ∧
      r.2.refuseRecord part0 r.1 (launchRecOf r.1) true = some 1 := by dsimp only; decide +kernel

/-- Word 0x10000 holds a value, and g5 its address. -/
def holding (v : Nat) (rs : List (Nat × Word)) : State := m1 ((5, 0x10000) :: rs) [(0x10000, dw v)]

theorem witness_AmoResults :
    let s := holding 7 [(6, -1), (7, 7), (8, 8)]
    s.usable 7 ∧ s.usable 8 ∧ s.usable 5 ∧ s.usable 6 ∧ s.reaches needRw (s.x 5) .d 0x10000 ∧ s.mem.word 0x10000 = s.x 7 ∧
      s.mem.word 0x10000 ≠ s.x 8 ∧ s.roomFor 1 := by dsimp only [State.usable, State.reaches, State.roomFor]; decide +kernel

theorem witness_LocksChangeHolder :
    let s := holding 0x20000 []
    let t := holding 0x40009 []
    let u := holding 0x30001 []
    let v := { t with others := [{ thread0 [] with id := { (thread0 []).id with ctxid := 9, place := ⟨0, 0, 0, 1⟩ } }] }
    s.usable 7 ∧ s.usable 5 ∧ s.reaches needRw (s.x 5) .d 0x10000 ∧ s.memWf ∧ s.cur.wait = none ∧ 0 < s.cur.id.ctxid ∧
      s.undisturbed 1 ∧ v.undisturbed 1 ∧ u.undisturbed 1 ∧
      s.mem.nat 0x10000 8 % 65536 = 0 ∧ v.reaches needRw (v.x 5) .d 0x10000 ∧ v.mem.nat 0x10000 8 % 65536 = 9 ∧ v.memWf ∧ v.cur.wait = none ∧
      v.live 9 = true ∧ u.reaches needRw (u.x 5) .d 0x10000 ∧ u.mem.nat 0x10000 8 % 65536 = u.cur.id.ctxid ∧ u.memWf ∧
      u.lockQueue 0x10000 = [] := by dsimp only [State.usable, State.reaches, State.memWf, State.undisturbed, State.roomFor]; decide +kernel

theorem witness_WaitwChecksItsCondition_1 :
    let s := holding 7 [(6, 7)]
    s.usable 7 ∧ s.usable 5 ∧ s.usable 6 ∧ s.reaches needRd (s.x 5) .d 0x10000 ∧ s.cur.wait = none ∧
      BitVec.ofNat 64 (leNat (s.waitRead 0x10000 8).1) = s.x 6 ∧ BitVec.ofNat 64 (leNat (s.waitRead 0x10000 8).1) ≠ s.x 0 ∧ s.roomFor 1 := by
  dsimp only [State.usable, State.reaches, State.roomFor]; decide +kernel

theorem witness_WaitwChecksItsCondition_2 :
    let s := { holding 7 [] with cur := { thread0 [] with wait := some (.word 7 0x10000 0x10000 .eq 7 0) }
                                 lines := [(0x200, { Line.init 0 with ver := 1 })] }
    s.cur.id.ctxid = 1 ∧ s.cur.st = .running ∧ s.cur.wait = some (.word 7 0x10000 0x10000 .eq 7 0) ∧ s.spot needRd 0x10000 8 3 = .phys 0x10000 ∧
      (s.line (0x10000 / 128)).ver ≠ 0 ∧ 0x10000 < 2 ^ 60 ∧ WCond.eq.holds (BitVec.ofNat 64 (leNat (s.waitRead 0x10000 8).1)) 7 = true := by dsimp only; decide +kernel

/-- The thread of a deterministic launch. -/
def inDet : State := { m0 [] with launches := [{ launch0 with lrec := { rec0 with det := true } }] }

theorem witness_FencesComplete :
    let s := m0 []
    let w := { inDet with cur := { thread0 [] with wait := some (.epoch 0 true) } }
    s.queue = [] ∧ s.cmdsEnded s.cur.id.ctxid = true ∧ s.banksEnded s.cur.id.ctxid = true ∧ s.isDet = false ∧
      inDet.isDet = true ∧ inDet.queue = [] ∧ inDet.cur.wait = none ∧ inDet.detPoison = none ∧ w.isDet = true ∧ w.queue = [] ∧
      w.cur.wait = some (.epoch 0 true) ∧ s.inScope (s.launch.lrec.clampLevel (7 : BitVec 3).toNat) 0 = true ∧ (Tab.get s.cores 0).isSome = true ∧
      (Tab.get (inDet.dropFetch 0).cores 0).isSome = true := by dsimp only; decide +kernel

/-- The thread of a deterministic launch whose buffered store meets a poisoned line. -/
def detPoisoned : State :=
  poisonAt { inDet with cur := { inDet.cur with det := [⟨0x10004, 0x10004, false, ⟨false, false⟩, false, 0, [5]⟩] } } 0x10000

theorem witness_FencesComplete_2 :
    let s := detPoisoned
    s.isDet = true ∧ s.queue = [] ∧ s.cur.wait = none ∧ s.arrivedAt (s.launch.lrec.clampLevel 0) = false ∧ s.detPoison = some 0x10004 ∧
      nextIs (exec (.vfence 0) s) (fun t => t.cur.sys.cause == 8 && t.cur.sys.badva == 0x10004) = true := by dsimp only; decide +kernel

theorem witness_FencesComplete_3 : detPoisoned.canSave := canSave_of part0 (by decide +kernel)

theorem witness_LeaseReadsAndWrites_3 :
    let s := { m0 [] with cycle := 1000000 }
    s.cur.id.ctxid = 1 ∧ s.cur.st = .running ∧ s.cur.driftAt + s.cur.sys.drift.toNat ≤ s.cycle ∧ s.cur.sys.pts + 1 < 0xC0000 := by dsimp only; decide +kernel

/-- A launch with a barrier of two threads at level 1. -/
def barred : State := { m0 [] with launches := [{ launch0 with lrec := { rec0 with bars := [⟨0, 1, 2⟩] } }] }

theorem witness_BarriersArriveAndWait_1 :
    let s := { barred with cores := [] }
    let a := { barred with cur := { thread0 [] with arrivals := [(0, ⟨0, 0, some 5⟩)], wait := some (.bar 0) } }
    s.launch.lrec.bars[(0 : BitVec 7).toNat]? = some ⟨0, 1, 2⟩ ∧ 0 = s.cur.id.stage ∧
      (s.core s.cur.id.place).holder ≠ some s.cur.id.ctxid ∧ s.queue = [] ∧ s.mayArrive 0 = true ∧ barred.canPush ∧
      s.barQueued 0 = false ∧ s.cur.arrival 0 = none ∧ a.barQueued 0 = false ∧ a.cur.arrival 0 = some ⟨0, 0, some 5⟩ ∧
      a.cur.wait = some (.bar 0) ∧ a.launch.lrec.bars[0]? = some ⟨0, 1, 2⟩ := by dsimp only [State.canPush]; decide +kernel

theorem witness_BarriersArriveAndWait_2 :
    let s := { barred with cur := (queued [] [qe (.bar 0)]).cur }
    let i := (Tab.get s.launch.bars (barKey 0 (s.cur.id.node s.launch.lrec 1))).getD ⟨0, 0, 0, 0⟩
    s.heads 1 (qe (.bar 0)) ∧ s.mayArrive 0 = true ∧ s.launch.lrec.bars[0]? = some ⟨0, 1, 2⟩ ∧ s.launch.id = s.cur.id.launch ∧
      s.heldElsewhere s.launch.lrec 1 = false ∧ i.count + 1 < 2 ∧ goesOn (exec (.barMarkerFire 1) s) = true := by dsimp only [State.heads]; decide +kernel

theorem witness_BarriersArriveAndWait_4 :
    let s := { barred with cur := (queued [] [qe (.bar 0)]).cur
                           launches := [{ launch0 with lrec := { rec0 with bars := [⟨0, 0, 0⟩] } }] }
    let i := (Tab.get s.launch.bars (barKey 0 (s.cur.id.node s.launch.lrec 0))).getD ⟨0, 0, 0, 0⟩
    s.heads 1 (qe (.bar 0)) ∧ s.mayArrive 0 = true ∧ s.launch.lrec.bars[0]? = some ⟨0, 0, 0⟩ ∧ s.launch.id = s.cur.id.launch ∧
      s.heldElsewhere s.launch.lrec 0 = false ∧ s.launch.lrec.below 0 = 4 ∧ i.count + 1 < 4 := by dsimp only [State.heads]; decide +kernel

theorem witness_BarriersArriveAndWait_3 :
    let s := { barred with cur := (queued [] [qe (.bar 0)]).cur
                           launches := [{ launch0 with lrec := { rec0 with bars := [⟨0, 1, 1⟩] } }] }
    let i := (Tab.get s.launch.bars (barKey 0 (s.cur.id.node s.launch.lrec 1))).getD ⟨0, 0, 0, 0⟩
    s.heads 1 (qe (.bar 0)) ∧ s.mayArrive 0 = true ∧ s.launch.lrec.bars[0]? = some ⟨0, 1, 1⟩ ∧ 1 ≤ i.count + 1 := by dsimp only [State.heads]; decide +kernel

/-- A launch whose ring channel 3 has its frontier at 2. -/
def ringed (w : Option Watch) : State :=
  let s := m0 [(5, 1), (6, 1025)]
  { s with launches := [{ launch0 with rings := [(ringKey 0 3, ⟨2, [], 9⟩)] }], cores := [], cur := { s.cur with wait := w } }

theorem witness_RingPostsAndWaits_1 :
    let s := ringed none
    s.usable 7 ∧ s.usable 5 ∧ (3 : BitVec 6).toNat < 16 ∧ s.launch.lrec.ring = true ∧ (31 : BitVec 6).toNat < s.nv ∧
      (s.core s.cur.id.place).holder ≠ some s.cur.id.ctxid ∧ s.queue = [] ∧ (s.x 6).toNat < (s.ring 3).frontier + 1024 ∧ s.cur.wait = none ∧
      (s.x 5).toNat < (s.ring 3).frontier ∧ s.tag 31 = 0 ∧ s.vl = 0 := by dsimp only [State.usable]; decide +kernel

theorem witness_RingPostsAndWaits_2 :
    let s := ringed (some (.ring 3 2 [0, 1]))
    s.usable 5 ∧ s.launch.lrec.ring = true ∧ s.cur.wait = some (.ring 3 2 [0, 1]) ∧ ∀ i ∈ [0, 1], i < (s.ring (3 : BitVec 6).toNat).frontier := by dsimp only [State.usable]; decide +kernel

theorem witness_RingPostsAndWaits_3 :
    let s := { ringed none with cur := { (ringed none).cur with sys := { (ringed none).cur.sys with vlg := 1 } } }
    let its := s.elems 31 (2 ^ s.cur.sys.sewc.toNat) 1
    s.usable 7 ∧ s.usable 5 ∧ s.cur.wait = none ∧ s.queue = [] ∧ s.vl = 1 ∧ s.ringUsed < 32 ∧ (∀ i ∈ its, i < (s.ring 3).frontier) ∧
      ¬ (∀ i ∈ its, i < (s.ring 2).frontier) := by dsimp only [State.usable]; decide +kernel

theorem witness_RingPostsAndWaits_4 : (ringed none).settled := ⟨rfl, rfl, fun _ => rfl⟩

theorem witness_VectorWordsArePushed :
    let s := m0 []
    s.canPush ∧ s.captures true 31 ∧ s.captures false 63 := by dsimp only [State.canPush, State.captures]; decide +kernel

theorem witness_QueuedInstructionsArePushed :
    let s := m0 []
    let w := { m0 [] with cur := { thread0 [] with wait := some .attach } }
    s.canPush ∧ s.captures true 31 ∧ s.cur.wait ≠ some .attach ∧ w.canPush ∧ w.captures true 31 ∧ w.cur.wait = some .attach ∧
      ∀ q ∈ w.queue, q.op.isAttach = false := by dsimp only [State.canPush, State.captures]; decide +kernel

theorem witness_VectorIntegerFunctions :
    8 ∈ [8, 16, 32, 64] ∧ 64 ∈ [8, 16, 32, 64] ∧ 8 ≠ 64 ∧ 8 * ElTy.b.bytes = 8 ∧ 8 * ElTy.d.bytes = 64 := by decide +kernel

theorem witness_FloatingPointSpecialCases :
    Fmt.bf ∈ [Fmt.bf, .hf, .sf] ∧ (Fmt.bf.decode 0x7FC0).isNaN = true ∧ VFp.nma ∈ [VFp.add, .sub, .mul, .div, .ma, .nma] ∧
      Fmt.hf.decode 0x7C00 = .inf false ∧ Fmt.hf.decode 0x8000 = .fin true 0 (-24) ∧ Fmt.sf.decode 0x80000001 = .fin true 1 (-149) ∧
      Fmt.bf.decode 0x3F80 = .fin false 128 (-7) ∧ 0x3F80 < 2 ^ Fmt.bf.bits := by decide +kernel

/-- A code for each clause on the fields, and operands of each kind. -/
theorem witness_FloatingPointSpecialCases_2 :
    (Fmt.hf, 5, 10, 15) ∈ ([(.sf, 8, 23, 127), (.hf, 5, 10, 15), (.bf, 8, 7, 127), (.e4, 4, 3, 7), (.e5, 5, 2, 15), (.e2, 2, 1, 1)] : List (Fmt × Nat × Nat × Nat)) ∧
      0x8001 / 2 ^ 10 % 2 ^ 5 = 0 ∧ 0x7BFF / 2 ^ 10 % 2 ^ 5 = 30 ∧ 0x7C00 / 2 ^ 10 % 2 ^ 5 = 2 ^ 5 - 1 ∧ Fmt.hf ∉ [Fmt.e2, .e4] ∧
      0x7F / 2 ^ 3 % 2 ^ 4 = 15 ∧ 0x7F % 2 ^ 3 = 7 ∧ 0x7E / 2 ^ 3 % 2 ^ 4 = 15 ∧ 0x7E % 2 ^ 3 < 7 ∧
      ElTy.hf ∈ [ElTy.e4, .bf, .hf, .sf] ∧ ElTy.hf.fmt.decode 0x3C00 = .fin false 1024 (-10) ∧ 0x3C00 < 2 ^ ElTy.hf.fmt.bits ∧
      ElTy.hf.fmt.decode 0 = .fin false 0 (-24) ∧ ElTy.hf.fmt.decode 0x8000 = .fin true 0 (-24) ∧ (ElTy.hf.fmt.decode 0x3C00).isNaN = false ∧
      (ElTy.hf.fmt.decode 0x7C01) = .nan true ∧ VFp.max ∈ [VFp.min, .max] ∧ ElTy.b ∈ [ElTy.b, .e4, .bf, .hf, .sf] ∧ Fmt.e5.decode 0x7D = .nan true ∧
      Fmt.e5.decode 0xFC = .inf true ∧ Fmt.e5.decode 1 = .fin false 1 (-16) ∧ ElTy.h ∈ [ElTy.h, .w, .d] ∧ (BitVec.ofNat 16 0).toInt = 0 ∧
      ElTy.sf ∈ [ElTy.bf, .hf, .sf] ∧ (VCvt.e4s, Fmt.e4, true, 0x7F) ∈ ([(.sf, .sf, false, 0x7FC00000), (.bf, .bf, false, 0x7FC0), (.hf, .hf, false, 0x7E00),
        (.e4, .e4, false, 0x7F), (.e4s, .e4, true, 0x7F), (.e5, .e5, false, 0x7E), (.e5s, .e5, true, 0x7E)] : List (VCvt × Fmt × Bool × Nat)) ∧
      Fmt.sf.decode 0x7FC00000 = .nan false ∧ Fmt.sf.decode 0xFF800000 = .inf true ∧ VCvt.inz ∈ [VCvt.inr, .inz] := by decide +kernel

/-- Numbers below the threshold of E4M3, at it, and on both sides of where it rounds to below the smallest normal; the integers of 2.5. -/
theorem witness_FloatingPointSpecialCases_3 :
    (463 : ℝ) ≠ 0 ∧ |(463 : ℝ)| < 464 ∧ (464 : ℝ) ≤ |(-464 : ℝ)| ∧ |(0.001 : ℝ)| < (1 - 2 ^ (-5 : ℤ)) * 2 ^ (-6 : ℤ) ∧
      (1 - 2 ^ (-5 : ℤ)) * 2 ^ (-6 : ℤ) ≤ |(3 : ℝ)| ∧ (0 : ℝ) < 1 * 1024 * 2 ^ (-10 : ℤ) ∧ |(2.5 : ℝ) - (2 : ℤ)| = 1 / 2 ∧ (2 : ℤ) % 2 = 0 ∧
      |((2 : ℤ) : ℝ)| ≤ |(2.5 : ℝ)| ∧ |(2.5 : ℝ)| < |((2 : ℤ) : ℝ)| + 1 ∧ 0 ≤ (2.5 : ℝ) * (2 : ℤ) ∧ |(2.25 : ℝ) - (2 : ℤ)| < 1 / 2 := by
  norm_num [abs_of_pos, abs_of_neg]

/-- A queue of one entry with VL 1 and the head of the thread's work. -/
def headed (op : QOp) : State :=
  let s := queued [] [qe op]
  { s with cur := { s.cur with sys := { s.cur.sys with vlg := 1 } } }

theorem witness_ReservedWordTraps_3 :
    let s := headed .reserved
    s.heads 1 (qe .reserved) ∧ s.queue = [qe .reserved] ∧ (qe .reserved).op = .reserved := by dsimp only [State.heads]; decide +kernel

theorem witness_ReservedWordTraps_4 : (headed .reserved).canSave := canSave_of part0 (by decide +kernel)

theorem settled_headed (op : QOp) : (headed op).settled := ⟨rfl, rfl, fun _ => rfl⟩

theorem witness_ElementsCompleteAtTheHead_1 :
    let s := headed (.int .add 0 false .w)
    s.heads 1 (qe (.int .add 0 false .w)) ∧ s.cur.vec.vrf.wf ∧ s.vl = 1 ∧
      s.checkRegs (s.vlmax 4) [.dst 4 4 1 1, .src 8 4 1 2, useB (qe (.int .add 0 false .w)) false 4 1] true = none := by dsimp only [State.heads]; decide +kernel

theorem witness_ElementsCompleteAtTheHead_2 :
    let s := headed (.wide .macc 0 true .h)
    let q := qe (.wide .macc 0 true .h)
    s.heads 1 q ∧ s.cur.vec.vrf.wf ∧ s.checkRegs (s.vlmax 2) ([.dst 4 4 1 1, .src 8 2 1 2, useB q true 2 1] ++ [.src 4 4 1 1]) true = none := by dsimp only [State.heads]; decide +kernel

theorem witness_ElementsCompleteAtTheHead_3 :
    let s := headed (.nclip true 0 true .h)
    let q := qe (.nclip true 0 true .h)
    s.heads 1 q ∧ s.cur.vec.vrf.wf ∧ s.checkRegs (s.vlmax 2) [.dst 4 2 1 1, .src 8 4 1 2, useB q true 2 1] true = none := by dsimp only [State.heads]; decide +kernel

theorem witness_ElementsCompleteAtTheHead_4 :
    let s := headed (.fp .ma 0 false .bf)
    let q := qe (.fp .ma 0 false .bf)
    s.heads 1 q ∧ s.cur.vec.vrf.wf ∧ s.checkRegs (s.vlmax 2) ([.dst 4 2 1 1, .src 8 2 1 2, useB q false 2 1] ++ [.src 4 2 1 1]) true = none := by dsimp only [State.heads]; decide +kernel


/-- A descriptor of one strip of one element at 0x20000, two registers. -/
def streamBytes : List Byte := dw 0x20000 ++ dw 8 ++ dw 0 ++ dw 0 ++ dw (1 + 2 ^ 32) ++ dw (2 ^ 32 + 2 ^ 16 + 2 * 16 + 3) ++ dw 0 ++ dw 0

/-- The stream of v8 that it makes. -/
def stream0 : Stream := ⟨8, 2, 0x10000, 0x20000, [8, 0, 0], [1, 1, 1], 1, .d, 0, 0, [], none, []⟩

/-- The thread with that descriptor in g5, and its streams. -/
def streamed (xs : List Stream) : State :=
  let s := m1 [(5, 0x10000)] [(0x10000, streamBytes)]
  { s with cur := { s.cur with vec := { s.cur.vec with streams := xs } } }

theorem witness_StreamsAreBoundReadAndUnbound_1 :
    let s := streamed []
    let bs := natBytes 64 (s.load false (.phys 0x10000) 64).1
    (8 : BitVec 6).toNat < s.nv ∧ s.usable 5 ∧ s.usable 6 ∧ s.gangOk (s.x 6) = true ∧ s.cur.vec.streams.length < 4 ∧ s.vecQuiet = true ∧
      s.roomFor 1 ∧ s.spot needRd (s.x 5) 64 3 = .phys 0x10000 ∧ s.memBusy = false ∧ streamOf 8 (s.x 5) ((s.x 6).setWidth 4) bs = stream0 ∧
      s.streamOk stream0 bs = true ∧ ∀ n ∈ stream0.regs, s.isBuffer n = false ∧ s.isHeld n = false := by dsimp only [State.usable, State.roomFor]; decide +kernel

theorem witness_StreamsAreBoundReadAndUnbound_2 :
    let s := streamed [stream0]
    (8 : BitVec 6).toNat < s.nv ∧ s.cur.wait = none ∧ s.vecQuiet = true ∧ (s.cur.vec.streams.find? fun y => y.reg == 8) = some stream0 ∧
      stream0.mask = 0 ∧ (∀ n ∈ stream0.regs, s.isHeld n = false) ∧ goesOn (exec (.vstreamUnbind 8) s) = true ∧ goesOn (exec (.vstreamRewind 8) s) = true := by dsimp only; decide +kernel

theorem witness_StreamsAreBoundReadAndUnbound_3 :
    let s := streamed [stream0]
    s.cur.st = .running ∧ s.cur.vec.streams = [stream0] ∧ stream0.mask = 0 ∧ stream0.err = none ∧ stream0.popped + stream0.ready.length < stream0.strips ∧
      stream0.ready.length + (if stream0.popped = 0 then 0 else 1) < stream0.nb ∧
      ((readStrip s stream0 (stream0.strip (stream0.popped + stream0.ready.length))).toOption.map fun y => y.1) = some (dw 0) := by dsimp only; decide +kernel

/-- The stream of a gang of cores 0 and 1, and its member on core 1 with the wait that is given. -/
def streamGang : Stream := { stream0 with mask := 3 }

def gangMate (w : Option Watch) : Thread :=
  let t := (streamed [streamGang]).cur
  { t with id := { t.id with ctxid := 2, lthr := 1, place := ⟨0, 0, 1, 0⟩ }, wait := w }

def ganged (w : Option Watch) : State := { streamed [streamGang] with others := [gangMate w] }

theorem witness_StreamsAreBoundReadAndUnbound_4 :
    let s := streamed [streamGang]
    let t := ganged none
    (s.cur.vec.streams.find? fun y => y.reg == 8) = some streamGang ∧ streamGang.mask ≠ 0 ∧ s.gangAll streamGang (fun _ => true) = false ∧
      (8 : BitVec 6).toNat < t.nv ∧ t.vecQuiet = true ∧ (∀ n ∈ streamGang.regs, t.isHeld n = false) ∧ t.cur.wait = none ∧
      (t.gangAll streamGang fun y => decide (y.id.ctxid = t.cur.id.ctxid) || decide (y.wait = some (.gang false streamGang.desc streamGang.mask false))) = false ∧
      goesOn (exec (.vstreamUnbind 8) t) = true := by dsimp only; decide +kernel

theorem witness_StreamsAreBoundReadAndUnbound_5 :
    ∀ rw ∈ [false, true], let s := ganged (some (.gang rw streamGang.desc streamGang.mask false))
      let u := gangMate (some (.gang rw streamGang.desc streamGang.mask false))
      s.cur.wait = none ∧ s.others = [u] ∧ u.st ≠ .free ∧ s.cur.st ≠ .free ∧ u.id.ctxid ≠ s.cur.id.ctxid ∧ s.gang streamGang = [s.cur, u] ∧
        u.wait = some (.gang rw streamGang.desc streamGang.mask false) ∧ (s.gangAll streamGang fun _ => true) = true ∧
        s.cur.vec.streams.find? streamGang.gangOf = some streamGang ∧ u.vec.streams.find? streamGang.gangOf = some streamGang ∧
        nextIs (exec (if rw then .vstreamRewind 8 else .vstreamUnbind 8) s) (fun t => t.others.all fun v =>
          decide (v.wait = some (.gang rw streamGang.desc streamGang.mask true)) && decide (v.vec.streams.length = if rw then 1 else 0)) = true := by
  decide +kernel

/-- A thread with a count in g5 and a marked loop. -/
def looped (n : Word) (l : Option Loop) (st : BitVec 4) (w : Option Watch) : State :=
  let s := m0 [(5, n)]
  { s with cur := { s.cur with loop := l, wait := w, sys := { s.cur.sys with lstate := st } } }

/-- A loop of g5 from 0x1FFF0 on with an empty body, two demonstrations of four iterations, as the second one ends. -/
def loop0 : Loop :=
  let s := m0 []
  { reg := 5, pc := 0x1FFF0, d := 2, n := 4, it := 1, first := [], trace := [], base0 := [], base1 := [], slot := Place.collator s.cur.id.place
    next := 2, lanes := 64, rts := 0, flags := 0, g := s.cur.g, vec := s.cur.vec, sys := s.cur.sys, out := none }

theorem witness_LoopsAreMarkedAndReplayed_1 :
    let s := looped 4 none 0 none
    s.usable 5 ∧ s.cur.loop = none ∧ s.notCaptured (s.x 5).toNat (2 : BitVec 3).toNat = none ∧ (s.x 5).toNat = 4 ∧
      (looped 2 none 0 none).notCaptured 2 2 = some 0x11 := by dsimp only [State.usable]; decide +kernel

theorem witness_LoopsAreMarkedAndReplayed_2 :
    let s := looped 4 none 0 none
    let back := s.cur.pc + BitVec.ofInt 64 ((-3 : BitVec 13).toInt * 4)
    s.usable 5 ∧ s.cur.wait = none ∧ s.cur.loop = none ∧ back.toNat % 4 = 0 ∧ back.toNat < 0x100000000000000 ∧ s.x 5 - 1 ≠ 0 ∧
      (looped 1 none 0 none).x 5 - 1 = 0 := by dsimp only [State.usable]; decide +kernel

theorem witness_LoopsAreMarkedAndReplayed_3 :
    let s := looped 3 (some loop0) 1 none
    let back := s.cur.pc + BitVec.ofInt 64 ((-3 : BitVec 13).toInt * 4)
    s.usable 5 ∧ s.cur.wait = none ∧ s.cur.loop = some loop0 ∧ s.cur.sys.lstate = 1 ∧ (5 : BitVec 6).toNat = loop0.reg ∧ back = loop0.pc + 4 ∧
      endWhy loop0 = none ∧ loop0.d ≤ loop0.it + 1 ∧ s.queue = [] ∧ goesOn (exec (.lend 5 (-3)) s) = true := by dsimp only [State.usable]; decide +kernel

/-- Whether the body of the next iteration completes. -/
def bodyOk (s : State) (l : Loop) : Bool :=
  match replayBody l l.first (s.asReplay l l.next) with
  | .ok _ _ => true
  | _ => false

theorem witness_LoopsAreMarkedAndReplayed_4 :
    let s := looped 2 (some loop0) 2 (some .replay)
    let t := looped 2 (some { loop0 with next := 3 }) 2 (some .replay)
    s.cur.loop = some loop0 ∧ s.cur.sys.lstate = 2 ∧ s.cur.st = .running ∧ bodyOk s loop0 = true ∧ loop0.next + 1 ≠ loop0.n ∧
      goesOn (exec (.replayIteration 1 false) s) = true ∧ bodyOk t { loop0 with next := 3 } = true ∧ 3 + 1 = loop0.n ∧
      goesOn (exec (.replayIteration 1 true) t) = true := by dsimp only; decide +kernel

/-- Lineage 2 of the thread, published from accumulator 0, with its correction there, and element 0 of v1 that carries it. -/
def provisional : State :=
  let s := m0 []
  { s with
    cores := [(0, { Core.init false with holder := some 1, lins := [(2, ⟨1, 0, [], some [0x3F800000]⟩)] })]
    cur := { s.cur with vec := { s.cur.vec with regs := [(1, ⟨1, 0, true, 2, 0⟩)], src := [(1, 64, .root 0)] } } }

theorem witness_LineagesSettle :
    let s := provisional
    s.cur.id.place.isBase = false ∧ (∀ q ∈ s.queue, ∀ c ∈ [(0 : Nat), 1, 2, 3], ∀ n ∈ [(0 : Nat), 1], q.op ≠ .ppub c n) ∧ (m0 []).cur.sys.lnact &&& ((0x7FFF : BitVec 15).setWidth 16 <<< 1) = 0 ∧
      Tab.get (s.core s.cur.id.place).lins 2 = some ⟨1, 0, [], some [0x3F800000]⟩ ∧ 1 = s.cur.id.ctxid ∧ (Tab.get s.cores s.cur.id.place.coreKey).isSome = true ∧
      s.cur.st = .running ∧ s.cur.vec.vrf.wf ∧ ((s.cur.vec.src.filter fun x => decide (s.tag x.1 = 2)).map fun x => x.2.1) = [64] ∧
      nextIs (exec (.chase s.cur.id.place.coreKey 2) s) (fun t => t.cur.vec.vrf.nat 256 4 = 0x3F800000) = true := by dsimp only; decide +kernel

/-- A thread with a sequence table and verdicts. -/
def verdicts (t : Token) : State :=
  let s := m0 []
  { s with cur := { s.cur with tok := t, sys := { s.cur.sys with tkseqb := 0x10000 } } }

theorem witness_TksyncCollectsTheVerdicts_1 :
    let s := verdicts ⟨[0x10C00, 0x11000], [0x11000], [], [], 9⟩
    s.cur.id.place.isBase = false ∧ s.seqBase ≠ 0 ∧ (7 : BitVec 6).toNat < 8 ∧ s.queue = [] ∧ s.tokenQuiet = true ∧ s.cur.tok.stopped = [] ∧
      s.cur.tok.last.length ≤ 8192 ∧ s.cur.tok.last[1]? = some 0x11000 := by dsimp only; decide +kernel

theorem witness_TksyncCollectsTheVerdicts_2 :
    (verdicts ⟨[0x10C00, 0x11000], [], [(4, 0x11000)], [], 9⟩).cur.tok.stopped ≠ [] ∧ (verdicts ⟨[0x10C00, 0x11000], [], [(4, 0x11000)], [], 9⟩).tokenQuiet = true ∧
      (verdicts ⟨[0x10C00, 0x11000], [], [(4, 0x11000)], [], 9⟩).canSave := by
  exact ⟨by decide +kernel, by decide +kernel, canSave_of part0 (by decide +kernel)⟩

/-- A send to the unit of section 0 for the record at 0x10000, a sequence that runs. -/
def send0 (op : TwOp) : TwSend := ⟨0, 1, true, 1, 0x10000, 0, 0x10000, ⟨false, false⟩, 5, op⟩

def sending (op : TwOp) : State := { m1 [] [(0x10000, dw 1)] with sends := [send0 op] }

theorem witness_CatchwordUnitsServeTheirSends :
    let s := sending (.token false 7)
    let r := s.seqAt 0x10000
    s.unitHead 0 = some (send0 (.token false 7)) ∧ r.state = 1 ∧ r.arm = 0 ∧
      (sending (.token true 7)).unitHead 0 = some (send0 (.token true 7)) ∧ ((sending (.token true 7)).heldDrafts 0x10000).length < 8 ∧
      (sending (.arm 15 (List.replicate 64 0))).unitHead 0 = some (send0 (.arm 15 (List.replicate 64 0))) ∧ s.memWf ∧
      s.recordPoison 0x10000 (.token false 7) = false ∧ (sending (.arm 15 [])).recordPoison 0x10000 (.arm 15 (List.replicate 64 0)) = false ∧
      (send0 (.disarm 15)).pa % 128 = 0 ∧ (sending (.disarm 15)).unitHead 0 = some (send0 (.disarm 15)) ∧ (sending (.token true 7)).memWf ∧
      (sending (.token true 7)).undisturbed 1 ∧ (sending (.arm 15 (List.replicate 64 0))).undisturbed 3 ∧ (sending (.disarm 15)).undisturbed 2 := by
  dsimp only [State.memWf, State.undisturbed, State.roomFor]; decide +kernel

theorem witness_CatchwordUnitsServeTheirSends_2 :
    let s := { sending (.token false 7) with holders := [(0x10000, 1)] }
    Tab.get s.holders 0x10000 = some 1 ∧ (s.sends.find? fun o => o.pa == 0x10000) = some (send0 (.token false 7)) ∧
      1 ≠ (send0 (.token false 7)).sect ∧ nextIs (exec (.catchwordRecordTransfer 0x10000 0) s) (fun t => t.mem == s.mem) = true := by dsimp only; decide +kernel


/-- A thread with a copy descriptor at 0x10000. -/
def copying (rs : List (Nat × Word)) : State :=
  m1 rs [(0x10000, dw 0x20000 ++ dw 0x30000 ++ dw 0 ++ dw 0 ++ dw (1 + 2 ^ 32) ++ dw (2 ^ 32))]

theorem witness_CopyCommandsIssue_1 :
    let s := copying [(5, 0x10000)]
    s.usable 7 ∧ s.usable 5 ∧ (7 : BitVec 6).toNat < 8 ∧ s.roomFor 1 ∧ s.spot needRd (s.x 5) 128 3 = .phys 0x10000 ∧ s.memBusy = false ∧
      (s.cmds.filter fun c => decide (c.owner = s.cur.id.ctxid) && !c.ended).length < 256 ∧ goesOn (exec (.coll 7 5 7) s) = true := by dsimp only [State.usable, State.roomFor]; decide +kernel

theorem witness_CopyCommandsIssue_2 :
    let s := m0 [(5, 1)]
    let t := { m0 [(5, 1)] with cur := { (m0 [(5, 1)]).cur with sys := { Sys.init with xfd := Sys.init.xfd.setIfInBounds 7 2 } } }
    (7 : BitVec 6).toNat < 8 ∧ s.usable 5 ∧ (s.cur.sys.xfd.toList.getD 7 0).toNat ≤ (s.x 5).toNat ∧ t.usable 5 ∧
      (t.x 5).toNat < (t.cur.sys.xfd.toList.getD 7 0).toNat ∧ goesOn (exec (.xfwait 7 5) t) = true := by dsimp only [State.usable]; decide +kernel

/-- A sync word at 0x10010 that has counted to generation 9, with values of ERR and of g6. -/
def syncing (err : Nat) (y : Word) : State := m1 [(5, 0x10010), (6, y)] [(0x10010, natBytes 16 (5 + 3 * 2 ^ 32 + 9 * 2 ^ 64 + err * 2 ^ 97))]

theorem witness_SyncWordsAndShadows_1 :
    let s := syncing 0 9
    s.usable 7 ∧ s.usable 5 ∧ s.usable 6 ∧ s.memBusy = false ∧ s.memWf ∧ s.undisturbed 1 ∧ s.roomFor 1 ∧ s.spot needRw (s.x 5) 16 3 = .phys 0x10010 ∧ s.cur.wait = none ∧
      s.spot needRd (s.x 5) 16 3 = .phys 0x10010 ∧ (SyncWord.ofNat (s.mem.nat 0x10010 16)).gen = 9 ∧
      (SyncWord.ofNat ((syncing 1 10).mem.nat 0x10010 16)).err = true ∧ (SyncWord.ofNat ((syncing 0 10).mem.nat 0x10010 16)).err = false ∧
      2 ^ 31 ≤ (9 + 2 ^ 32 - ((syncing 0 10).x 6).toNat % 2 ^ 32) % 2 ^ 32 := by dsimp only [State.usable, State.memWf, State.undisturbed, State.roomFor]; decide +kernel

/-- A declared buffer, handle 4, with line 2 written. -/
def shadow0 : Shadow := ⟨4, 0, 0, 0x10000, 0x30000, 65536, 0, true, [0x10000], [0x30000], [(2, ⟨7, true, 5, true⟩)]⟩

theorem witness_SyncWordsAndShadows_2 :
    let s := m0 [(5, 4)]
    let t := { m0 [(5, 4)] with shadows := [shadow0] }
    s.usable 5 ∧ s.shadow? s.launch.part 4 = none ∧ t.usable 7 ∧ t.usable 5 ∧ t.shadow? t.launch.part 4 = some shadow0 ∧
      shadow0.lines = [(2, ⟨7, true, 5, true⟩)] ∧ t.memWf ∧ t.undisturbed 1 ∧ t.visible shadow0 (128 * 2) = none ∧ t.writesTo t.launch.part 4 = false ∧
      ({ t with tlb := tlb0 0xFFFFFFFF } : State).visible shadow0 (128 * 2) = some 0x10100 ∧ 0x10100 % 128 = 0 := by
  dsimp only [State.usable, State.memWf, State.undisturbed, State.roomFor]; decide +kernel

/-- Operands of SHADOW at 0x10000: a buffer of 256 bytes from `v` on. -/
def declaring (v : Nat) : State := m1 [(5, 0x10000)] [(0x10000, dw v ++ dw 0x30000 ++ dw 256 ++ dw 0x10001)]

theorem witness_SyncWordsAndShadows_3 :
    let s := declaring 0x20000
    let r := s.load false (.phys 0x10000) 32
    let bs := natBytes 32 r.1
    s.usable 7 ∧ s.usable 5 ∧ s.memBusy = false ∧ s.roomFor 1 ∧ s.spot needRd (s.x 5) 32 3 = .phys 0x10000 ∧
      (wordAt bs 0).toNat = 0x20000 ∧ (wordAt bs 1).toNat = 0x30000 ∧ (wordAt bs 2).toNat = 256 ∧
      r.2.shadowPages 0x20000 256 = .ok [0x20000] ∧ r.2.shadowPages 0x30000 256 = .ok [0x30000] ∧
      (s.shadows.filter fun z => decide (z.part = s.launch.part)).length < 65536 ∧ s.shadows = [] ∧
      goesOn (exec (.shadow 7 5) s) = true ∧
      (declaring 0x20010).spot needRd ((declaring 0x20010).x 5) 32 3 = .phys 0x10000 ∧
      (wordAt (natBytes 32 ((declaring 0x20010).load false (.phys 0x10000) 32).1) 0).toNat % 128 ≠ 0 := by
  dsimp only [State.usable, State.roomFor]; decide +kernel

/-- Line 0x201 is dirty above DRAM's value 9. -/
def dirtied (rs : List (Nat × Word)) : State :=
  { m1 rs [(0x10080, [1, 2, 3])] with lines := [(0x201, { Line.init 0 with cached := true, dirty := true, under := some 9 })] }

theorem witness_LinesAreMaintained :
    let s := dirtied [(5, 0x10085), (6, 4)]
    s.memWf ∧ s.usable 5 ∧ s.usable 6 ∧ s.memBusy = false ∧ (s.x 5).toNat / 128 * 128 = 0x10080 ∧ s.x 6 ≠ 0 ∧
      ((s.x 5).toNat + (s.x 6).toNat + 127) / 128 * 128 - 0x10080 = 128 ∧
      ((s.range sysRd 0x10080 128).toOption.map linesBehind) = some [0x201] ∧
      ((s.range sysWr 0x10080 128).toOption.map linesBehind) = some [0x201] ∧ s.isMemory 0x10085 = true ∧
      (s.line (0x10085 / 128)).cached = true ∧ (s.line 0x201).dirty = true ∧ (s.line 0x202).dirty = false := by dsimp only [State.usable, State.memWf]; decide +kernel

def desc0 : CopyDesc :=
  { src := 0x10000, dst := 0x20000, sync := 0x30000, crec := 0, cnt0 := 4, cnt1 := 1, cnt2 := 1, conv := 0, rlay := 0, esz := 0
    pubc := false, rsv := false, ss := [1, 0, 0], ds := [1, 0, 0], fa := [0, 0, 0, 0] }

/-- A copy of four bytes from 0x10000 into the shadowed buffer at 0x20000, with a sync word at 0x30000. -/
def cmd0 : Cmd :=
  { key := 5, owner := 1, launch := 1, cluster := 0, pc := 0x20000, ch := 2, id := 0, fn := .cpy, desc := desc0, pts := 0, lease := 10
    parts := 0, bytes := 0, read := [], wrote := false, result := none, flags := 0, paused := none, status := 0, settled := false, dev := 0xFFFF, acked := false, ended := false, pubTs := 0 }

def shadow1 : Shadow := ⟨4, 0, 0, 0x20000, 0x40000, 65536, 0x30000, true, [0x20000], [0x40000], []⟩

def engine (c : Cmd) : State := { m1 [] [(0x10000, [1, 2, 3, 4]), (0x30000, natBytes 16 8)] with cmds := [c], shadows := [shadow1] }

theorem witness_EnginesRunCommands_1 :
    (0 : Nat) < 2 ^ 32 ∧ (⟨8, 4, 0, false, false, false, 0⟩ : SyncWord).count + 4 = 8 ∧ (⟨8, 4, 0, false, false, false, 0⟩ : SyncWord).target = 8 := by decide +kernel

/-- The part of a command as the engine reads it. -/
def partOf (s : State) (c : Cmd) : Eng (List (Int × List Byte) × Run) := partData (c, s) (c.toWrite (s.destOf c) (s.members c))

/-- The part as it is written. -/
def written (s : State) (c : Cmd) : Eng (List (Int × List Byte) × Run) :=
  (partOf s c).andThen fun y => (y.1.foldl (fun (e : Eng Run) w => e.andThen fun z => engWrite z (s.destOf c) w.1 w.2) (.ok y.2)).andThen fun z => .ok (y.1, z)

/-- Whether a part that is written is counted. -/
def counts (z : Run) : Bool :=
  match countPart ({ z.1 with wrote := true }, z.2) with
  | .part _ => true
  | _ => false

/-- What a part that goes through satisfies. -/
def Eng.holds {α : Type} (e : Eng α) (p : α → Bool) : Bool :=
  match e with
  | .ok a => p a
  | _ => false

theorem witness_EnginesRunCommands_2 :
    let s := engine cmd0
    let w := { cmd0 with wrote := true }
    let v := engine w
    s.runs 5 = some cmd0 ∧ cmd0.status = 0 ∧ cmd0.settled = false ∧ cmd0.wrote = false ∧ cmd0.ended = false ∧ s.refusal cmd0 = 0 ∧
      cmd0.parts < cmd0.partCount (s.members cmd0) ∧ Eng.holds (written s cmd0) (fun y => counts y.2) = true ∧
      goesOn (exec (.syncCount 5) s) = true ∧ v.runs 5 = some w ∧ w.desc.sync ≠ 0 ∧
      v.xlate (v.cmdCtx w) sysRw w.desc.sync = .phys 0x30000 ∧ v.poisoned 0x30000 = false ∧ v.memWf ∧ v.undisturbed 1 ∧
      ((SyncWord.ofNat (v.mem.nat 0x30000 16)).counted ((w.partElems (v.members w)).length * w.dsz)).1.pub = false := by
  dsimp only [State.memWf, State.undisturbed, State.roomFor]; decide +kernel

/-- The command with all its parts written, with a reserved field, and with a source that no page maps. -/
def cmdDone : Cmd := { cmd0 with parts := 1, bytes := 4, desc := { desc0 with crec := 0x30020 } }
def cmdBad : Cmd := { cmd0 with desc := { desc0 with rsv := true, sync := 0 } }
def cmdFault : Cmd := { cmd0 with desc := { desc0 with src := 0x90000 } }

theorem witness_EnginesRunCommands_3 :
    let c := cmdDone
    let s := engine c
    let k := cmdBad
    let f := cmdFault
    s.runs 5 = some c ∧ c.partCount (s.members c) ≤ c.parts ∧ c.desc.crec.toNat % 32 = 0 ∧
      s.xlate (s.cmdCtx c) sysWr c.desc.crec = .phys 0x30020 ∧ s.poisoned 0x30020 = false ∧ s.memWf ∧ s.undisturbed 1 ∧ c.settled = false ∧
      c.parts ≠ 0 ∧ c.fn ≠ .cprem ∧ c.desc.pubc = false ∧ c.desc.crec ≠ 0 ∧ (engine k).syncOf k = none ∧ k.desc.crec = 0 ∧ s.cur.id.ctxid = c.owner ∧
      (∀ y ∈ s.cmds, y.key = 5) ∧ goesOn (exec (.engineCommandComplete 5) s) = true ∧
      (engine k).runs 5 = some k ∧ (engine k).refusal k ≠ 0 ∧ (engine f).runs 5 = some f ∧
      (match (engine f).engNext f with
        | .fault r _ _ v => decide (v = 0x90000) && decide (r.1.key = 5) && r.2.cmds.any (fun y => decide (y.key = 5)) &&
            decide (r.2.part? ((engine f).cmdPart f) = some part0)
        | _ => false) = true := by
  dsimp only [State.memWf, State.undisturbed, State.roomFor]; decide +kernel

/-- A part of a push that lands in the shadowed buffer. -/
def push0 : RemotePart := ⟨9, 1, 0, 0, 130, 132, 1, false, none, 0, 4, [(130, [7, 8])]⟩

/-- A part of a push that goes beyond the buffer. -/
def push1 : RemotePart := { push0 with lo := -2 }

/-- A contribution of another module. -/
def contrib0 : CollPart := ⟨1, 2, 3, [5]⟩

theorem witness_EnginesRunCommands_4 :
    let z := engine cmd0
    let s := { z with tlb := tlb0 0xFFFFFFFF, link := { z.link with inbox := [.part push0, .part push1, .contribution contrib0] } }
    let y := { s with link := { s.link with seen := [(push0.src, push0.ch, push0.id, push0.part)], contribs := [contrib0] } }
    .part push0 ∈ s.link.inbox ∧ .part push0 ∉ z.link.inbox ∧ s.pushTarget push0.dom push0.handle (push0.lo, push0.hi) = some shadow1 ∧
      s.link.held.any (samePush push0) = false ∧ s.pushFault shadow1 push0.runs = none ∧
      .part push1 ∈ s.link.inbox ∧ s.link.held.any (samePush push1) = false ∧ s.pushTarget push1.dom push1.handle (push1.lo, push1.hi) = none ∧ push0.pubc = false ∧ s.undisturbed 1 ∧
      (push0.src, push0.ch, push0.id, push0.part) ∈ y.link.seen ∧ .contribution contrib0 ∈ s.link.inbox ∧
      .contribution contrib0 ∉ z.link.inbox ∧ .contribution contrib0 ∈ y.link.inbox ∧
      (y.link.contribs.any fun w => decide (w.grp = contrib0.grp ∧ w.seq = contrib0.seq ∧ w.dev = contrib0.dev)) = true ∧
      (push0.src, push0.ch, push0.id, push0.part) ∉ s.link.seen ∧ push0.runs = [(130, [7, 8])] ∧ 130 % 128 + 2 ≤ 128 ∧
      s.xlate ⟨shadow1.part, shadow1.asid, 0xFFFFFFFF, none, 0⟩ sysRw shadow1.sync = .phys 0x30000 ∧ s.poisoned 0x30000 = false ∧ s.memWf ∧
      ((SyncWord.ofNat (s.mem.nat 0x30000 16)).counted 2).1.pub = false ∧ goesOn (exec (.remotePartReceive push0) s) = true ∧
      (s.link.contribs.any fun w => decide (w.grp = contrib0.grp ∧ w.seq = contrib0.seq ∧ w.dev = contrib0.dev)) = false := by
  dsimp only [State.memWf, State.undisturbed, State.roomFor]; decide +kernel

/-- Bank descriptor of one row of one product, W at 0x10000, X at 0x20000, Y at 0x30000. -/
def bankBytes : List Byte :=
  dw 0x10000 ++ dw 0x20000 ++ dw 0x30000 ++ dw 0 ++ dw (32 + 2 ^ 32) ++ dw (32 * 2 ^ 32) ++ dw 128 ++ dw 0 ++ dw 0 ++ dw 0

def banking (h : List Byte) : State := m1 [(5, 0x40000)] [(0x40000, bankBytes), (0x10000, [0x80, 0x3F]), (0x20000, [0, 0x40]), (0x40028, h)]

theorem witness_BankCommandsRun_1 :
    let s := banking []
    let r := s.load false (.phys 0x40000) 128
    let z := bankDescOf (natBytes 128 r.1)
    s.usable 7 ∧ s.usable 5 ∧ s.roomFor 1 ∧ s.spot needRd (s.x 5) 128 3 = .phys 0x40000 ∧ s.memBusy = false ∧ z.bad = false ∧ z.crec = 0 ∧
      z.mode ≠ 3 ∧ z.mode ≠ 4 ∧
      (match rangesOf r.2 bankRd z.weights, rangesOf r.2 bankRd z.scales, rangesOf r.2 bankRd z.seconds, rangesOf r.2 bankWr [z.output] with
        | .ok w, .ok c, .ok v, .ok y => (w ++ v ++ c ++ y ++ []).all fun p => r.2.bankPage p
        | _, _, _, _ => false) = true ∧
      goesOn (exec (.bankcmd 7 5) s) = true ∧
      (bankDescOf (natBytes 128 ((banking [0xFF]).load false (.phys 0x40000) 128).1)).bad = true := by
  dsimp only [State.usable, State.roomFor]; decide +kernel

/-- The command that it queues. -/
def bank0 : BankCmd :=
  { key := 3, owner := 1, launch := 1, part := 0, asid := 0, tag := 0, pc := 0x20000, desc := bankDescOf (bankBytes ++ List.replicate 48 0), resume := 0
    pins := [0x10000, 0x20000, 0x30000].map fun a => ⟨a, a, ⟨false, false⟩⟩, flags := 0, paused := false, status := 0, ended := false }

/-- A thread that has issued the command, which stands as it says. -/
def banked (k : BankCmd) : State := { banking [] with banks := [k], cur := { (banking []).cur with g := Vector.replicate 32 0, nextTag := 1 } }

/-- The command ended, paused, and refused with a record to write. -/
def bankEnded : BankCmd := { bank0 with ended := true, status := 3 }
def bankPaused : BankCmd := { bank0 with paused := true }
def bankBad : BankCmd := { bank0 with status := 7, desc := { bank0.desc with crec := 0x30020 } }

theorem witness_BankCommandsRun_2 :
    let e := bankEnded
    (banking []).usable 5 ∧ (banking []).cur.nextTag ≤ ((banking []).x 5).toNat ∧ ((banked e).x 5).toNat < (banked e).cur.nextTag ∧
      (∀ k ∈ (banked e).banks, k.owner = 1 → k.tag ≤ 0 → k.ended = true) ∧
      ((banked e).banks.find? fun k => decide (k.owner = 1 ∧ k.tag = 0)) = some e ∧
      ¬ (∀ k ∈ (banked bank0).banks, k.owner = 1 → k.tag ≤ 0 → k.ended = true) ∧ goesOn (exec (.bankwait 6 5) (banked bank0)) = true := by dsimp only [State.usable]; decide +kernel

theorem witness_BankCommandsRun_3 :
    let s := banked bank0
    let p := bankPaused
    let r := bankBad
    s.bankRuns 3 = some bank0 ∧ bank0.paused = false ∧ bank0.status = 0 ∧ bank0.resume < bank0.desc.total ∧
      (produceRows 0 bank0 s).1.status = 0 ∧ bank0.desc.crec = 0 ∧ bank0.desc.mode ≠ 4 ∧ bank0.resume + 1 = bank0.desc.total ∧
      (bank0.row s 0).map (fun z => z.code) = some 0x40000000 ∧ (bank0.desc.y.toNat + 4 * bank0.resume) % 4 = 0 ∧
      bank0.at_ (bank0.desc.y.toNat + 4 * bank0.resume) = some 0x30000 ∧ s.memWf ∧ (s.line (0x30000 / 128)).under = none ∧
      (banked p).bankRuns 3 = some p ∧ (banked r).bankRuns 3 = some r ∧ r.status ≠ 0 ∧ r.desc.crec.toNat % 32 = 0 ∧
      r.at_ r.desc.crec.toNat = some 0x30020 ∧ (banked r).poisoned 0x30020 = false ∧ (banked r).undisturbed 1 ∧
      nextIs (exec (.bankCommandComplete 3) s) (fun t => t.dramBytes 0x30000 4 == natBytes 4 0x40000000) = true := by dsimp only [State.memWf, State.undisturbed, State.roomFor]; decide +kernel

/-- An invalidation under way since cycle 0. -/
def inval0 : Inval := ⟨0, 0x20000, 0⟩
def partInval : Part := { part0 with inval := some inval0, k := { part0.k with tinvc := 0x4000000000020000, pintmo := 1 } }

theorem witness_BankCommandsRun_4 :
    let v := inval0
    let p := partInval
    let s := { banked bank0 with parts := [p], cycle := 800 }
    s.part? p.idx = some p ∧ p.inval = some v ∧ p.k.pintmo ≠ 0 ∧ v.start + 800 * p.k.pintmo.toNat ≤ s.cycle ∧ s.pinners p.idx v = [bank0] ∧
      bank0.desc.crec = 0 ∧ goesOn (exec (.pinTimeoutAbort 0) s) = true ∧ { s with banks := [] }.pinners p.idx v = [] ∧
      { s with banks := [] }.unperformed p.idx v = false := by dsimp only; decide +kernel


/-- A second launch beside that of the thread. -/
def second (a : Bool) (prio : Nat) : Launch :=
  { Launch.empty with id := 2, admitted := a, lrec := { rec0 with prio := prio }, made := [0], ended := [0], ts := 6 }

def twoLaunches (a : Bool) (prio : Nat) : State := { m0 [] with launches := [launch0, second a prio] }

theorem witness_TheDispatcherPlacesThreads_1 :
    let s := twoLaunches false 3
    let x := second false 3
    s.launchOf 2 = x ∧ x ∈ s.launches ∧ x.id = 2 ∧ x.queuedIn x.part = true ∧ s.admissible x = true ∧ x.lrec.queues = [] ∧
      (∀ o ∈ s.launches, o.queuedIn x.part = true → x.lrec.prio < o.lrec.prio → s.admissible o = false) := by dsimp only; decide +kernel

/-- A context beside that of the thread. -/
def beside : Place := ⟨0, 0, 0, 1⟩

theorem witness_TheDispatcherPlacesThreads_2 :
    let s := twoLaunches true 3
    let l := second true 3
    s.launchOf l.id = l ∧ l.holds = true ∧ l.killed = false ∧ l.nextStage = some 0 ∧ l.made[0]? = some 0 ∧
      (s.instOf l (l.lrec.coords 0)).isSome = true ∧ l.lrec.gangLevel 0 = none ∧ s.live 65535 = false ∧ s.vacant beside = true ∧
      s.mayStand l (l.lrec.coords 0) beside = true ∧ s.stageRoom l 0 1 = true ∧
      (s.threads.filter fun t => decide (t.st ≠ .free)).length < 65535 ∧ (∀ t ∈ s.candidates beside, t.sys.eprio.toNat ≤ l.lrec.prio) ∧
      s.part? l.part = some part0 ∧ s.isMemory (part0.tableEntry 65535) = true ∧ goesOn (exec (.threadCreate 2 beside 65535) s) = true := by dsimp only; decide +kernel

/-- The thread saved, its thread table's first word of the entry as given. -/
def savedAs (st : TState) (w : Option Watch) (e : Nat) : State :=
  let s := m1 [] [(0x100010, dw e), (0x100 + 24, dw 99)]
  { s with cur := { s.cur with st := st, resume := 0x20010, wait := w }, cores := [], launches := [{ launch0 with made := [4], ended := [3] }] }

theorem witness_TheDispatcherPlacesThreads_3 :
    let s := savedAs .saved none (2 ^ 63)
    s.cur.id.ctxid = 1 ∧ s.vacant beside = true ∧ s.cur ∈ s.candidates beside ∧ (∀ u ∈ s.candidates beside, s.rank s.cur ≤ s.rank u) ∧
      s.savedGang s.cur = [] ∧ s.curPart = some part0 ∧ s.isMemory (part0.tableEntry 1) = true ∧ s.isMemory (s.imageBase part0 1) = true ∧
      s.overtakes s.cur = false ∧ s.creationDue beside s.cur = false ∧ s.imagePoisoned (s.imageBase part0 1) = false ∧
      (0 : Fin 8).val < s.cur.id.lv.length ∧ nextIs (exec (.restore 1 beside) s) (fun t => t.x 3 == 99) = true := by dsimp only; decide +kernel

/-- What a thread has had of its slice counts on where it is restored (R153), and LV1 comes from its slot (R217). -/
theorem test_restore_slice_and_coordinate :
    let z := savedAs .saved none (2 ^ 63)
    let s := { z with cycle := 1000, cur := { z.cur with sliceUsed := 300 }, mem := z.mem.write (0x2E8 + 8) (dw 6) }
    nextIs (exec (.restore 1 beside) s) (fun t => t.cur.sliceAt == 700 && t.cur.sys.lv[1] == 6 && t.cur.sys.lv[2] == 0) = true := by dsimp only; decide +kernel

theorem witness_TheDispatcherPlacesThreads_7 :
    let z := savedAs .saved none (2 ^ 63)
    let s := { z with lines := [(z.imageBase part0 1 / 128, { Line.init 0 with poison := true })] }
    s.vacant beside = true ∧ s.cur ∈ s.candidates beside ∧ (∀ u ∈ s.candidates beside, s.rank s.cur ≤ s.rank u) ∧ s.savedGang s.cur = [] ∧
      s.curPart = some part0 ∧ s.overtakes s.cur = false ∧ s.creationDue beside s.cur = false ∧ s.imagePoisoned (s.imageBase part0 1) = true ∧
      nextIs (exec (.restore 1 beside) s) (fun t => decide (t.cur.st = .free)) = true := by dsimp only; decide +kernel

theorem witness_TheDispatcherPlacesThreads_8 :
    let z := twoLaunches true 3
    let s := { z with cur := { z.cur with wait := some (.word 7 0x10000 0x10000 .eq 7 0) } }
    s.givesWay = true ∧ s.alone ∧ s.cur.waiting = true ∧ goesOn (exec (.preemption 1) s) = true := by dsimp only [State.alone]; decide +kernel

theorem witness_TheDispatcherPlacesThreads_4 :
    (twoLaunches true 5).givesWay = true ∧ (twoLaunches true 5).alone ∧ (twoLaunches true 5).canSave ∧ (twoLaunches true 5).cur.waiting = false ∧
      (twoLaunches true 5).cycle < (twoLaunches true 5).cur.sliceAt + Config.sliceCycles := by
  exact ⟨by decide +kernel, by unfold State.alone; decide +kernel, canSave_of part0 (by decide +kernel), by decide +kernel, by decide +kernel⟩

theorem witness_TheDispatcherPlacesThreads_9 :
    let s := { twoLaunches true 5 with cycle := 10000000000 }
    let t := { twoLaunches true 5 with cycle := 1000 }
    s.givesWay = true ∧ s.cur.sliceAt + Config.sliceCycles ≤ s.cycle ∧ nextIs (exec (.preemption 1) s) (fun u => decide (s.cur.turn < u.cur.turn)) = true ∧
      nextIs (exec (.preemption 1) t) (fun u => u.cur.turn == t.cur.turn && u.cur.sliceUsed == 1000) = true := by dsimp only; decide +kernel

theorem witness_TheDispatcherPlacesThreads_5 :
    let s := { twoLaunches true 3 with cycle := 10000000000 }
    let l := second true 3
    s.alone ∧ l ∈ s.launches ∧ s.cur.waiting = false ∧ s.cur.sliceAt + Config.sliceCycles ≤ s.cycle ∧ s.withoutGang.creatable s.cur.id.place l = true ∧
      l.lrec.prio = s.cur.sys.eprio.toNat ∧ (∀ t ∈ s.threads, t.sys.eprio.toNat ≤ l.lrec.prio) ∧ goesOn (exec (.timeSliceEnd 1) s) = true := by dsimp only [State.alone]; decide +kernel

theorem witness_TheDispatcherPlacesThreads_6 :
    let s := savedAs .savedWaiting (some (.fence false false)) (2 ^ 63)
    let t := savedAs .savedWaiting (some (.fence false false)) 0
    s.cur.st = .savedWaiting ∧ s.wakes = true ∧ s.curPart = some part0 ∧ s.isMemory (part0.tableEntry 1) = true ∧ s.memWf ∧
      (s.mem.word (part0.tableEntry 1)).getLsbD 63 = true ∧ t.wakes = true ∧ t.memWf ∧ (t.mem.word (part0.tableEntry 1)).getLsbD 63 = false ∧
      (t.mem.word (part0.tableEntry 1 + 8)).getLsbD 63 = false ∧ goesOn (exec (.savedWaiterWake 1) t) = true := by dsimp only [State.memWf]; decide +kernel

/-- The lanes of the thread's core, with a waiter, or lent. -/
def lanes (c : Core) : State :=
  { m0 [] with
    cores := [(0, c)], cycle := 10000000000
    others := [{ thread0 [] with id := { (thread0 []).id with ctxid := 2, place := beside } }] }

theorem witness_LanesChangeHands :
    let s := lanes { Core.init false with holder := some 1, waiters := [2] }
    let t := lanes { Core.init false with holder := some 1, lenders := [2] }
    s.cur.id.ctxid = 1 ∧ s.cur.st = .running ∧ s.queue = [] ∧ (s.core s.cur.id.place).holder = some 1 ∧
      2 ∈ (s.core s.cur.id.place).waiters ∧ (s.core s.cur.id.place).since + Config.sliceCycles ≤ s.cycle ∧
      (t.core t.cur.id.place).holder = some 1 ∧ (t.core t.cur.id.place).lenders = 2 :: [] ∧ s.lenderBack (s.core s.cur.id.place) = none ∧ (t.thread? 2).isSome = true ∧
      2 ≠ 1 ∧ ((t.thread? 2).map fun u => decide (u.sys.lstate ≠ 2)) = some true ∧ isBaseKey 0 = false ∧ isBaseKey 192 = true := by dsimp only; decide +kernel

/-- An engine command at a fault, which KARG names. -/
def pausedCmd0 : Cmd := { cmd0 with id := 7, paused := some (3, 0, 5), desc := { desc0 with sync := 0 } }
def partArg : Part := { part0 with k := { part0.k with karg := 7 } }

theorem witness_TheKernelCommands_1 :
    let s := m0 []
    let e := { engine pausedCmd0 with parts := [partArg] }
    s.part? part0.idx = some part0 ∧ part0.kcmdBusy = false ∧ partArg.kcmdBusy = false ∧ s.cur.id.ctxid = 1 ∧ s.cur.st ≠ .free ∧ s.launch.part = part0.idx ∧
      s.isMemory (part0.tableEntry 1) = true ∧ s.alone ∧ e.part? partArg.idx = some partArg ∧
      e.pausedCmd partArg.idx 1 2 partArg.k.karg = some pausedCmd0 ∧ e.syncOf pausedCmd0 = none ∧ pausedCmd0.desc.crec = 0 ∧ s.thread? 65535 = none ∧ (∀ x ∈ s.cmds, x.owner ≠ 65535) ∧ s.link.held = [] ∧
      goesOn (exec (.kcmdKill 0 1) s) = true := by dsimp only [State.alone]; decide +kernel

theorem witness_TheKernelCommands_2 : (m0 []).canSave := canSave_of part0 (by decide +kernel)

def ev0 : EvRec := ⟨1, 2, 3, 4, 5, 6, 7, 8⟩
def partEv : Part := { part0 with pending := [ev0] }

theorem witness_ControlRegistersAct_1 :
    let s := { m0 [] with parts := [partEv] }
    s.part? partEv.idx = some partEv ∧ partEv.pending = ev0 :: [] ∧ (partEv.k.evqt - partEv.k.evqh).toNat < 4096 ∧ s.memWf ∧
      s.isMemory (bitsOf partEv.k.evqb 18 34 * 2 ^ 18 + 64 * (partEv.k.evqt.toNat % 4096)) = true ∧
      goesOn (exec (.eventRecordWrite 0) s) = true := by dsimp only [State.memWf]; decide +kernel

theorem witness_ControlRegistersAct_2 :
    let s := savedAs .savedWaiting (some (.fence false false)) 0
    let t := { s with mem := s.mem.write 0x100018 (dw (2 ^ 63)) }
    t.memWf ∧ t.isMemory (part0.tableEntry 1) = true ∧ t.cur.id.ctxid = 1 ∧ t.launch.part = part0.idx ∧ t.cur.st = .savedWaiting ∧
      (t.mem.word (part0.tableEntry 1 + 8)).getLsbD 63 = true ∧ t.cur.ptsOwed = 0 ∧ t.others = [] ∧
      overlaps (part0.tableEntry 1) 16 (t.imageBase part0 1 + 0x230) 8 = false ∧ goesOn (exec (.threadTableResSet 0 1) t) = true := by dsimp only [State.memWf]; decide +kernel

theorem witness_ControlRegistersAct_3 :
    let s := m0 []
    part0.inval = none ∧ (BitVec.ofNat 64 (2 ^ 63 + 2 * 2 ^ 16)).getLsbD 63 = true ∧ 2 ≤ bitsOf (BitVec.ofNat 64 (2 ^ 63 + 2 * 2 ^ 16)) 16 2 ∧
      bitsOf (BitVec.ofNat 64 (2 ^ 63 + 2 ^ 16)) 16 2 = 1 ∧ bitsOf (BitVec.ofNat 64 (2 ^ 63)) 16 2 = 0 ∧ part0.debugOn = true ∧
      s.tsmax part0 + bitsOf (BitVec.ofNat 64 (2 ^ 63 + 5)) 0 20 < 0xC0000 ∧ s.cur.st = .running ∧ s.owns part0 (128 * 0x201) = true ∧
      s.windows[31]? = some ⟨0, 0, 0, 0, 0⟩ ∧ s.partAt part0.lowest = some part0 ∧ part0.lowest < 8 := by dsimp only; decide +kernel

theorem witness_ControlRegistersAct_4 :
    let s := { m0 [] with launches := [{ launch0 with finished := true }], lines := [(0x201, { Line.init 0 with wts := 3, rts := 4 })] }
    s.part? part0.idx = some part0 ∧ (∀ l ∈ s.launches, l.part = part0.idx → l.finished = true) ∧
      (∀ x ∈ s.sends, (s.launchOf x.launch).part ≠ part0.idx) ∧
      nextIs (exec (.partitionReset 0) s) (fun t => t.launches == [] && t.tlb == []) = true := by dsimp only; decide +kernel

/-- A host window of 2 MiB at 16 MiB. -/
def windowed (rs : List (Nat × Word)) (ms : List (Nat × List Byte)) : State :=
  let s := m1 rs ms
  { s with
    host := { s.host with ready := true, hwin := BitVec.ofNat 64 (0x1000000 + 2 * 2 ^ 56), hrqt := 1 }
    colophon := { s.colophon with kernelUp := true, booted := true } }

/-- The host's request 0. -/
def req (op : Nat) (arg : Nat) : List Byte := [BitVec.ofNat 8 op, 0, 0, 0] ++ natBytes 4 0x55 ++ dw arg

def hostEv0 : HostEv := ⟨1, 2, 3, 4, 5, 6, 7⟩

theorem witness_TheHostIsServed_1 :
    let s := windowed [] []
    let e := { s with host := { s.host with waiting := [hostEv0], tail := 4095, heqh := 4095 } }
    s.host.ready = true ∧ 0x1FFFF8 + 8 ≤ s.winSize ∧ s.poisonedRun (s.winBase + 0x1FFFF8) 8 = false ∧ s.winPart = some part0 ∧ s.memWf ∧ s.undisturbed 2 ∧ e.undisturbed 2 ∧ e.host.waiting = hostEv0 :: [] ∧
      e.winPart = some part0 ∧ (e.host.tail - e.host.heqh).toNat < 4096 ∧ e.memWf ∧ e.host.tail = e.host.heqh := by dsimp only [State.memWf, State.undisturbed, State.roomFor]; decide +kernel

/-- An image of one page of data with a window request on it, and where its load puts it. -/
def imgBytes : List Byte :=
  natBytes 4 0x5332494D ++ natBytes 2 1 ++ natBytes 2 1 ++ natBytes 8 1 ++ dw 0x10000 ++ dw 1792 ++ List.replicate 32 0 ++ dw 0x10000 ++
    dw 1536 ++ dw 0x100 ++ dw 2 ++ (natBytes 4 1 ++ natBytes 4 1 ++ dw 0x10600 ++ dw 0x10680 ++ dw 0x10680 ++ dw 0x106A0 ++ dw 0)

def plan0 : LoadPlan :=
  { asid := 1, tables := [(0x10008, 0x20001), (0x20000, 0x40001), (0x40000, 0x50001), (0x50008, 0x6000F)], pages := [(1, 0x60000)], windows := [31] }

theorem witness_TheHostIsServed_2 :
    let s := windowed [] [(0x1000000, req 1 0x90000), (0x1090000, imgBytes)]
    let bs := s.mem.run (s.winBase + 0x90000) (min (s.winSize - 0x90000) (leNat (s.mem.run (s.winBase + 0x90000 + 0x18) 8)))
    let m := imgOf bs
    let ps := (m.textPages ++ m.dataPages ++ vpages (m.wins.flatMap ImgWin.ranges)).eraseDups.filterMap fun v => Tab.get plan0.pages v
    (s.request.map fun r => (leNat (r.take 1), leNat ((r.drop 1).take 1), (wordAt r 1).toNat)) = some (1, 0, 0x90000) ∧
      s.part? 0 = some part0 ∧ s.winPart = some part0 ∧ 0x90000 + 0x40 ≤ s.winSize ∧ m.size ≤ s.winSize - 0x90000 ∧ m.accepted = true ∧
      s.poisonedRun (s.winBase + 0x90000) (max 0x40 m.size) = false ∧ plan0.windows.length = m.wins.length ∧ plan0.windows.Nodup ∧ (∀ w ∈ m.wins, w.window plan0 ≠ none) ∧ m.wins.length = 1 ∧
      s.windows[31]? = some Window.init ∧ Window.init.ctl.getLsbD 63 = false ∧
      s.soundPlan part0 plan0 ps = true ∧ (s.putTables plan0).mapsImage part0 m plan0 ps = true ∧ goesOn (exec (.hostLoad plan0) s) = true := by dsimp only; decide +kernel

/-- A plan whose leaf entry serves every ASID is none that the kernel follows (R193, R253). -/
theorem test_load_serves_one_asid :
    let s := windowed [] [(0x1000000, req 1 0x90000), (0x1090000, imgBytes)]
    let p := { plan0 with tables := [(0x10008, 0x20001), (0x20000, 0x40001), (0x40000, 0x50001), (0x50008, 0x6008F)] }
    nextIs (exec (.hostLoad p) s) (fun t => decide (t = s)) = true := by dsimp only; decide +kernel

/-- A loaded image. -/
def img0 : Image := ⟨3, 0, 0, 0x10000, [], []⟩

def submitting : State :=
  let s := windowed [] [(0x1000000, req 2 3), (0x10000, recBytes)]
  { s with tlb := tlb0 256, host := { s.host with images := [img0] } }

theorem witness_TheHostIsServed_3 :
    let s := submitting
    (s.request.map fun r => (leNat (r.take 1), leNat ((r.drop 1).take 1), (wordAt r 1).toNat)) = some (2, 0, 3) ∧
      (s.host.images.find? fun i => decide (i.id = 3 ∧ i.part = 0)) = some img0 ∧
      ((s.entryRecord img0).map fun bs => s.refuseRecord part0 bs (launchRecOf bs) false) = some none ∧ goesOn (exec .hostSubmit s) = true := by dsimp only; decide +kernel

/-- A launch of the host. -/
def hosted : Launch := { Launch.empty with id := 9, host := some 9, admitted := true, lrec := rec0, made := [0], ended := [0] }

theorem witness_TheHostIsServed_4 :
    let s := { windowed [] [(0x1000000, req 3 9)] with launches := [launch0, hosted] }
    (s.request.map fun r => (leNat (r.take 1), leNat ((r.drop 1).take 1), (wordAt r 1).toNat)) = some (3, 0, 9) ∧ s.launchOf 9 = hosted ∧
      hosted ∈ s.launches ∧ hosted.part = part0.idx ∧ hosted.finished = false ∧ hosted.host.isSome = true ∧
      (∀ o ∈ s.launches, o.id = 9 → o = hosted) ∧ (∀ t ∈ s.threads, t.id.launch = 9 → t.st = .free) ∧ goesOn (exec .hostKill s) = true := by dsimp only; decide +kernel

/-- A module with an identity, and a request of the host. -/
def quoting : State :=
  let s := windowed [] [(0x1000000, req 4 0x2008)]
  { s with colophon := { s.colophon with seed := some 5 } }

theorem witness_TheHostIsServed_5 :
    let s := quoting
    (s.request.map fun r => (leNat (r.take 1), leNat ((r.drop 1).take 1), (wordAt r 1).toNat)) = some (4, 0, 0x2008) ∧
      part0.idx ≤ 7 ∧ s.poisonedRun (s.winBase + 0x2008) 4096 = false ∧ (windowed [] [(0x1000000, req 4 0x2000)]).colophon.seed = none ∧
      nextIs (exec .hostQuote (windowed [] [(0x1000000, req 4 0x2000)])) (fun t => decide (t.colophon.mbstat = 3 ∧ t.host.waiting.map (fun e => e.status) = [1])) = true ∧
      0x2008 + 4096 ≤ s.winSize ∧ 0x2008 + 4096 ≤ 0x80000 ∧ s.memWf ∧ s.undisturbed 16 := by
  dsimp only [State.memWf, State.undisturbed, State.roomFor]; decide +kernel

theorem quoting_quote : (quoting.quote (quoting.mem.run (quoting.winBase + 0x2008) 64) part0.idx).isSome = true := by rfl

/-- The mailbox at 0x50000. -/
def mailed (b : List Byte) : State :=
  let s := windowed [] [(0x50000, b)]
  { s with colophon := { s.colophon with seed := some 5, mbbuf := 0x50000 }, flash := { s.flash with devCert := [1, 2, 3] } }

theorem witness_TheColophonMeasuresAndBoots_1 :
    let s := mailed [7]
    s.isMemory s.mailbox = true ∧ s.poisonedRun s.mailbox 128 = false ∧ s.memWf ∧ leNat ((s.mem.run s.mailbox 128).take 1) = 7 ∧
      leNat (((s.mem.run s.mailbox 128).drop 64).take 1) = 0 ∧ (windowed [] []).colophon.seed = none ∧ s.flash.devCert.length ≤ 4092 ∧
      s.colophon.booted = true ∧ State.reset.colophon.booted = false := by dsimp only [State.memWf]; decide +kernel

theorem witness_TheColophonMeasuresAndBoots_2 : ((mailed [7]).quote ((((mailed [7]).mem.run (mailed [7]).mailbox 128)).take 64) 0).isSome = true := by
  rfl

def port0 : Port := ⟨0, 5, 0, [(4, 5, 2)], [], 8, false, true⟩

/-- A port after eight replays, a route over it, and a push in flight. -/
def linked : State :=
  let s := engine { cmd0 with fn := .cprem, desc := { desc0 with sync := 0 } }
  { s with link := { s.link with ports := [port0], routes := [⟨1, 0, false, 0⟩] } }

theorem witness_LinksAndPower_1 :
    let s := linked
    s.link.ports[(0 : Nat)]? = some port0 ∧ port0.up = true ∧ 8 ≤ port0.replays ∧ port0.expect = 0 ∧
      ((s.cmds.find? fun c => decide (c.key = 5)).map fun c => (decide (c.fn = .cprem), c.ended)) = some (true, false) ∧
      (port0.ackedAll []).unsent = [(5, 2)] ∧
      ((s.cmds.find? fun c => decide (c.key = 5) && !c.ended && decide (c.fn = .cprem ∨ c.fn = .coll)).map fun c => (s.syncOf c, c.desc.crec)) =
        some (none, 0) ∧
      goesOn (exec (.linkRetrain 0 false []) s) = true ∧
      goesOn (exec (.flitReceive ⟨0, 0, 1, 0, 0, true, false, some (5, 3, 9), some (.part push0)⟩) s) = true := by dsimp only; decide +kernel

/-- An idle module whose host tolerates a latency, at a cycle. -/
def idleAt (h c : Nat) : State := { State.reset with host := { State.reset.host with hltr := BitVec.ofNat 32 h }, cycle := c }

theorem witness_LinksAndPower_2 :
    (idleAt 1 0).idle = true ∧ (idleAt 1 0).host.pstate = 0 ∧ (idleAt 1 0).host.hltr.toNat < 2 ∧ (idleAt 2 799999).idle = true ∧
      (idleAt 2 799999).cycle - (idleAt 2 799999).link.lastFlit < 800000 ∧ (idleAt 150 800000).idle = true ∧
      800000 ≤ (idleAt 150 800000).cycle - (idleAt 150 800000).link.lastFlit ∧ (idleAt 5000 80000000).idle = true ∧
      2 ≤ (idleAt 2 80000000).host.hltr.toNat ∧ (idleAt 2 80000000).host.hltr.toNat < 150 ∧ 150 ≤ (idleAt 4999 80000000).host.hltr.toNat ∧
      (idleAt 4999 80000000).host.hltr.toNat < 5000 ∧ 5000 ≤ (idleAt 5000 80000000).host.hltr.toNat ∧ 80000000 ≤ (idleAt 5000 80000000).cycle - (idleAt 5000 80000000).link.lastFlit := by decide +kernel

/-- The retired-count stop, a trap that waits for delivery, and a checkpoint that is due. -/
def stopping : State := { m0 [] with parts := [{ part0 with db := { part0.db with dbctl := 1, dbret := 0x8000000000000000 } }] }
def trap0 : Trap := ⟨false, 5, 7, 0x20000, 9, 0x20004⟩
def trapped : State := { m0 [] with cur := { thread0 [] with trap := some trap0 } }
def partCk : Part := { part0 with db := { part0.db with dbctl := 0x4000000000000001, dbcki := 4, dbcap := 1 } }
def checking : State := { m0 [] with cur := { thread0 [] with retired := 4 }, parts := [partCk] }

theorem witness_EventsBetweenInstructions_1 :
    let s := stopping
    let t := trapped
    let k := checking
    s.cur.id.ctxid = 1 ∧ s.cur.st = .running ∧ s.queue = [] ∧ s.cur.trap = none ∧ s.retiredStop = true ∧ t.cur.id.ctxid = 1 ∧
      t.cur.st = .running ∧ t.queue = [] ∧ t.cur.trap = some trap0 ∧ trap0.vs = false ∧ k.cur.id.ctxid = 1 ∧ k.cur.st = .running ∧
      k.checkpointDue = true ∧ k.curPart = some partCk := by dsimp only; decide +kernel

theorem witness_EventsBetweenInstructions_2 : stopping.canSave ∧ trapped.canSave :=
  ⟨canSave_of { part0 with db := { part0.db with dbctl := 1, dbret := 0x8000000000000000 } } (by decide +kernel), canSave_of part0 (by decide +kernel)⟩

def share0 : Share := ⟨1, 32, 0, false, [], [], 0, Vector.replicate 4 Acc.init⟩

def pressing : State :=
  let s := queued [] [qe (.pfin 2)]
  { s with cur := { s.cur with share := some share0 } }

theorem witness_EventsBetweenInstructions_3 :
    let s := pressing
    let p := queued [] [qe (.post 3 0)]
    s.cur.st = .running ∧ s.queue.head? = some (qe (.pfin 2)) ∧ (qe (.pfin 2)).op.accOf = some 2 ∧ s.cur.share = some share0 ∧
      p.cur.st = .running ∧ p.queue.head? = some (qe (.post 3 0)) ∧ p.mayPost 3 0 = true ∧ p.launch ∈ p.launches ∧
      p.launch.id = p.cur.id.launch ∧ goesOn (exec (.pressErrorRerun 1 true) s) = true ∧ goesOn (exec (.postMarkerFire 1) p) = true := by dsimp only; decide +kernel

theorem witness_EventsBetweenInstructions_4 : pressing.canSave := canSave_of part0 (by decide +kernel)

/-- A deterministic launch whose one thread here has arrived at the collective fence of its node at level 1. -/
def draining : State :=
  let s := m0 []
  { s with
    cur := { s.cur with det := [⟨0x10000, 0x10000, false, ⟨false, false⟩, false, 0, [5]⟩] }
    launches := [{ launch0 with lrec := { rec0 with det := true }, arrived := [(epochKey 0 1 0, [1])] }] }

theorem witness_EventsBetweenInstructions_5 :
    let s := { barred with
      cur := { thread0 [] with arrivals := [(0, ⟨0, 2, none⟩)] }
      link := { barred.link with inbox := [.barrier (.arrival 1 0 0 7), .barrier (.complete 1 0 0 3 9), .barrier (.epoch 1 (epochKey 0 1 0) 2)] } }
    let d := draining
    (s.launchOf 1).lrec.bars[0]? = some ⟨0, 1, 2⟩ ∧ s.launchOf 1 ∈ s.launches ∧ (s.launchOf 1).id = 1 ∧ s.cur.id.launch = 1 ∧
      s.cur.arrival 0 = some ⟨0, 2, none⟩ ∧ d.cur.st = .running ∧ d.allArrived d.launch (epochKey 0 1 0) = true ∧ d.detPoison = none ∧
      LinkMsg.barrier (.epoch 1 (epochKey 0 1 0) 2) ∈ s.link.inbox ∧ nextIs (exec (.barrierArrivalDelivery (.epoch 1 (epochKey 0 1 0) 2)) s)
        (fun t => decide (Tab.get (t.launchOf 1).away (epochKey 0 1 0) = some 2)) = true ∧
      (poisonAt d 0x10000).detPoison = some 0x10000 ∧ nextIs (exec (.detEpochDrain 1 (epochKey 0 1 0)) (poisonAt d 0x10000))
        (fun t => decide (t.cur.det = d.cur.det) && decide (Tab.get t.launch.arrived (epochKey 0 1 0) = some [])) = true ∧
      Tab.get d.launch.arrived (epochKey 0 1 0) = some [1] ∧
      (d.threads.filter fun t => decide (t.id.launch = d.cur.id.launch) && [1].contains t.id.ctxid) = [d.cur] ∧
      d.cur.det = [⟨0x10000, 0x10000, false, ⟨false, false⟩, false, 0, [5]⟩] ∧ d.undisturbed 1 ∧ .barrier (.arrival 1 0 0 7) ∈ s.link.inbox ∧
      .barrier (.complete 1 0 0 3 9) ∈ s.link.inbox ∧ nextIs (exec (.detEpochDrain 1 (epochKey 0 1 0)) d) (fun t => t.mem == [(0x10000, 5)]) = true := by dsimp only [State.undisturbed, State.roomFor]; decide +kernel


/-! ### Single steps on the manual's figures -/

/-- X[7] after an instruction. -/
def g7 (o : Host.Outcome State Fault Refusal) (v : Word) : Bool := nextIs o fun t => decide (t.x 7 = v)

/-- The borderline values that R261 lists. -/
theorem test_alu_borderline :
    g7 (exec (.div 7 5 6) (m0 [(5, 0x8000000000000000), (6, -1)])) 0x8000000000000000 ∧
      g7 (exec (.rem 7 5 6) (m0 [(5, 0x8000000000000000), (6, -1)])) 0 ∧ g7 (exec (.div 7 5 6) (m0 [(5, -7), (6, 2)])) (-3) ∧
      g7 (exec (.rem 7 5 6) (m0 [(5, -7), (6, 2)])) (-1) ∧ g7 (exec (.divu 7 5 6) (m0 [(5, 7), (6, 0)])) 0xFFFFFFFFFFFFFFFF ∧
      g7 (exec (.remu 7 5 6) (m0 [(5, 7), (6, 0)])) 7 ∧ g7 (exec (.sll 7 5 6) (m0 [(5, 1), (6, 64)])) 1 ∧
      g7 (exec (.sra 7 5 6) (m0 [(5, 0x8000000000000000), (6, 63)])) (-1) ∧ g7 (exec (.mulh 7 5 6) (m0 [(5, -1), (6, -1)])) 0 ∧
      g7 (exec (.mulhu 7 5 6) (m0 [(5, -1), (6, -1)])) 0xFFFFFFFFFFFFFFFE ∧ g7 (exec (.clz 7 5) (m0 [])) 64 ∧
      g7 (exec (.sext 7 5 0) (m0 [(5, 0x12340080)])) 0xFFFFFFFFFFFFFF80 := by decide +kernel

/-- The position-independent address of R263. -/
theorem test_addpc :
    g7 (exec (.addpc 7 0x8000) { m0 [] with cur := { thread0 [] with pc := 0x10000100 } }) 0x20000100 := by decide +kernel

/-- VSTAT and LEASE as the case of R274 has them. -/
theorem test_swr_flags_and_limit :
    nextIs (exec (.swr 5 5) { m0 [] with cur := { thread0 [(5, 0x20)] with sys := { Sys.init with vstat := 0x21 } } })
        (fun t => t.cur.sys.vstat == 1) ∧
      nextIs (exec (.swr 0 8) (m0 [])) (fun t => t.cur.sys.lease == 1) := by decide +kernel

/-- Shift counts, divisions and the narrowing of R299 and R301. -/
theorem test_vector_integer :
    intOp .div 0 8 0x80 0xFF 0 = ⟨0x80, 0⟩ ∧ intOp .div 0 8 5 0 0 = ⟨0xFF, 0⟩ ∧ intOp .sll 0 16 1 17 0 = ⟨2, 0⟩ ∧
      [40, 56, 2 ^ 32 - 40, 524288, 2 ^ 32 - 524304].map (fun a => nclipOp true 1 16 a 4) =
        [⟨2, 0⟩, ⟨4, 0⟩, ⟨0xFFFE, 0⟩, ⟨0x7FFF, fSAT⟩, ⟨0x8000, fSAT⟩] ∧
      [40, 56, 2 ^ 32 - 40].map (fun a => (nclipOp true 2 16 a 4).code) = [2, 3, 0xFFFD] := by decide +kernel

/-- VFADD.e4 of 448 and 16 (R302), the conversions to integer of R53, and VFEXP2 (R56). -/
theorem test_floating_point :
    fpOp .add .e4 0x7E 0x58 0 = ⟨0x7F, fOF ||| fNX⟩ ∧ (toInt32 true (Fmt.sf.decode 0x40300000)) = ⟨3, fNX⟩ ∧
      (toInt32 false (Fmt.sf.decode 0x40300000)) = ⟨2, fNX⟩ ∧ (toInt32 true (Fmt.sf.decode 0xC0200000)) = ⟨2 ^ 32 - 2, fNX⟩ ∧
      (Fmt.sf.exp2 (Fmt.sf.decode 0x40400000)).code = 0x41000000 ∧ (Fmt.sf.exp2 (Fmt.sf.decode 0xBF800000)).code = 0x3F000000 ∧
      (Fmt.sf.exp2 (Fmt.sf.decode 0x3F000000)).code = 0x3FB504F3 := by decide +kernel

/-- The head of the queue with values in v8 and VL. -/
def headOf (op : QOp) (vl : Nat) (bs : List Byte) : State :=
  let s := headed op
  { s with cur := { s.cur with sys := { s.cur.sys with vlg := BitVec.ofNat 14 vl }, vec := { s.cur.vec with vrf := Mem.write [] (8 * s.rb) bs } } }

/-- The worked block of R54: payload in v4, its scale in v5, and NX and UF. -/
theorem test_vtof4_block :
    nextIs (exec (.vectorInstructionComplete 1) (headOf (.cvt .f4 0 .sf) 8
        ([0x3E99999A, 0xBFA00000, 0x40000000, 0x40E00000, 0, 0xC0600000, 0x3F800000, 0x3DCCCCCD].flatMap (natBytes 4))))
      (fun t => t.cur.vec.vrf.run (4 * t.rb) 4 == [0xA1, 0x73, 0xD0, 0x02] && t.cur.vec.vrf.run (5 * t.rb) 1 == [0x66] &&
        t.cur.sys.vstat == (fNX ||| fUF)) = true := by decide +kernel

/-- A queue entry at the head with an address as its scalar. -/
def headAt (op : QOp) (xa : Word) (b vl : Nat) (v : List (Nat × List Byte)) (ms : List (Nat × List Byte)) : State :=
  let s := m1 [] ms
  { s with cur := { s.cur with
      sys := { s.cur.sys with vlg := BitVec.ofNat 14 vl }
      vec := { s.cur.vec with vrf := v.foldl (fun m w => m.write (w.1 * s.rb) w.2) [], queue := [{ qe op with b := b, xa := xa }] } } }

/-- The same at 0x10000. -/
def headMem (op : QOp) (b vl : Nat) (v : List (Nat × List Byte)) (ms : List (Nat × List Byte)) : State := headAt op 0x10000 b vl v ms

/-- Behind a load that faults at element 0, the destinations of the two entries have written no element (R33), whatever index they had before. -/
theorem test_flight_starts_at_zero :
    let s := headAt (.mem .ld 0 false false .w) 0x90000 0 2 [] []
    let v : VReg := ⟨64, 5, false, 0, 0⟩
    let s := { s with cur := { s.cur with vec := { s.cur.vec with regs := [(4, v), (9, v), (10, v)], queue := s.queue ++ [{ qe (.int .add 0 false .w) with d := 9, a := 4, b := 8 }] } } }
    nextIs (exec (.vectorInstructionComplete 1) s) (fun t => t.cur.st == .suspended &&
      [4, 9, 10].map (fun n => (t.cur.vec.reg n).prog) == [0, 0, 5]) = true := by dsimp only; decide +kernel

/-- The scale of a block that was written before a fault stands (R285). -/
theorem test_vldsc_resume : scaleBytes (m0 []) [] [1, 4] 6 12 true = [none, some 0xFF, some 0xFF] := by decide +kernel

/-- The segment load of R283: twelve values as four elements of three fields. -/
theorem test_vldseg :
    nextIs (exec (.vectorInstructionComplete 1) (headMem (.mem .ldseg 0 false false .h) 2 4 []
        [(0x10000, [1, 2, 3, 4, 5, 6, 7, 8, 9, 10, 11, 12].flatMap (natBytes 2))]))
      (fun t => t.elems 4 2 4 == [1, 4, 7, 10] && t.elems 6 2 4 == [3, 6, 9, 12]) = true := by decide +kernel

/-- The colliding store of R284: memory at + 0, + 4 and + 8 holds 30, 40 and 20. -/
theorem test_vstx_collision :
    nextIs (exec (.vectorInstructionComplete 1) (headMem (.mem .stx 0 false false .w) 12 4
        [(4, [10, 20, 30, 40].flatMap (natBytes 4)), (12, [0, 8, 0, 4].flatMap (natBytes 4))] []))
      (fun t => [t.mem.nat 0x10000 4, t.mem.nat 0x10004 4, t.mem.nat 0x10008 4] == [30, 40, 20]) = true := by decide +kernel

/-- The colliding addition of R84: the word becomes 2^24, and each of the three elements receives 0. -/
theorem test_vamo_fadd_merge :
    nextIs (exec (.vectorInstructionComplete 1) (headMem (.amo .fadd 0 .w) 12 3
        [(4, [0x3F800000, 0x4B800000, 0x3F800000].flatMap (natBytes 4)), (12, natBytes 12 0)] []))
      (fun t => t.mem.nat 0x10000 4 == 0x4B800000 && t.elems 4 4 3 == [0, 0, 0]) = true := by decide +kernel

/-- The contraction of R67: three groups of BF16 products, of which the press delivers 2^24 with NX. -/
theorem test_group_rounding :
    let f := fun (n : Nat) => (⟨BitVec.ofNat 32 n, 0x20, 0, .zero⟩ : PElem)
    let g := fun (xs : List Nat) => (xs ++ List.replicate (32 - xs.length) 0).map fun n => factor false .bf (f n)
    let m := [g [0x4580, 0x3F80], g [0x3F80], g [0x3F80]]
    ((contract false 0 m m).1, (contract false 0 m m).2.1) = (0x4B800000, fNX) := by decide +kernel

/-- Element 0 of the sum of R88 over four devices: 1.0, +∞, -∞ and a NaN end as the canonical NaN, and the record names device 2. Under MIN
infinities of opposite signs that meet are the canonical NaN as well. -/
theorem test_coll_opposite_infinities :
    let fold := fun (op first : Nat) (xs : List (Nat × Nat)) => xs.foldl (fun a x => foldFloat .sf op a x.1 x.2) ⟨first, none, 0⟩
    let sum := fold 0 0x3F800000 [(1, 0x7F800000), (2, 0xFF800000), (3, 0x7FC00000)]
    let min := fold 1 0x7F800000 [(1, 0xFF800000)]
    (sum.val, sum.bad, min.val, min.bad) = (0x7FC00000, some 2, 0x7FC00000, some 1) := by decide +kernel

/-! ### What stands at the head of the queue -/

/-- An entry whose sources are registers 2 and 6. -/
def low (op : QOp) : QEntry := { qe op with a := 2, b := 6 }

/-- The machine with an entry at the head and VL 1. -/
def heading (q : QEntry) : State :=
  let s := queued [] [q]
  { s with cur := { s.cur with sys := { s.cur.sys with vlg := 1 } } }

theorem settled_heading (q : QEntry) : (heading q).settled := ⟨rfl, rfl, fun _ => rfl⟩

theorem witness_MovesMasksAndConversionsAtTheHead :
    (∀ op ∈ ([.cmp .eq 0 false .w, .sel 0 false .w, .gather 0 true .w, .slide true 0 .w, .slide false 0 .w, .compress 0 .w, .one .neg 0 .w,
      .splat 0 .w, .mvsx 0 .w, .vid 0 .w, .iota 0 .w, .mvxs .w, .mpop 0, .mfirst 0, .mlog .and, .mnot 0, .mpart .incl 0, .uniq 0 .w, .sortk 0 .w,
      .red .fsum 0 .sf, .cvt .bf 0 .sf, .cvt .fromf4 0 .sf, .cvt .f4 0 .sf, .merge .w] : List QOp),
      (heading (low op)).heads 1 (low op) ∧ (heading (low op)).cur.vec.vrf.wf ∧ (heading (low op)).checkFrame (low op) = none) ∧
    (low .detach).upto = none ∧ (heading (low .detach)).vl = 1 ∧ 1 ≤ (heading (low .detach)).rb ∧
    ((heading (low (.merge .w))).elems 2 4 1).Pairwise (· ≤ ·) ∧ ((heading (low (.merge .w))).elems 6 4 1).Pairwise (· ≤ ·) := by
  dsimp only [State.heads]; decide +kernel

/-- The entry at the head of a queue. -/
def atHead (s : State) : QEntry := s.queue.headD (qe .detach)

/-- The elements of an entry with their places. -/
def placed (s : State) (n : Need) (f : VMemOp) (w : Wid) : List (Nat × List (Word × Where)) × Option (Nat × ElemFault) :=
  let q := atHead s
  checked s n f q w (if f.isIndexed then s.offsets q else []) ((s.actives 0).filter fun i => decide (q.prog ≤ i))

/-- Whether every place is an address of memory at a multiple of a size. -/
def inMemory (l : List (Nat × List (Word × Where))) (e : Nat) : Bool :=
  (l.flatMap fun p => p.2.map fun x => x.2).all fun x => match x with
    | .phys pa => pa % e == 0
    | _ => false

/-- The addresses of the elements. -/
def places (l : List (Nat × List (Word × Where))) : List Nat :=
  (l.flatMap fun p => p.2.map fun x => x.2).filterMap fun x => match x with
    | .phys pa => some pa
    | _ => none

theorem settled_headAt (op : QOp) (xa : Word) (b vl : Nat) (v ms : List (Nat × List Byte)) : (headAt op xa b vl v ms).settled :=
  ⟨rfl, rfl, fun _ => rfl⟩

theorem witness_VectorMemoryAtTheHead_1 :
    let s := headMem (.mem .ldx 0 false false .w) 12 3 [(12, natBytes 4 8 ++ natBytes 4 0 ++ natBytes 4 4)] [(0x10000, natBytes 12 5)]
    let t := headMem (.mem .stx 0 false false .w) 12 3 [(12, natBytes 4 8 ++ natBytes 4 0 ++ natBytes 4 4)] []
    let d := { t with launches := [{ launch0 with lrec := { rec0 with det := true } }] }
    s.heads 1 (atHead s) ∧ s.cur.vec.vrf.wf ∧ (atHead s).op = .mem .ldx 0 false false .w ∧
      s.checkRegs (s.vlmax 4) (memUses s (atHead s) .ldx .w) false = none ∧ (placed s needRd .ldx .w).2 = none ∧
      (placed s needRd .ldx .w).1.length = 3 ∧ inMemory (placed s needRd .ldx .w).1 4 = true ∧ s.copies = [] ∧ s.gathered = [] ∧ s.cur.det = [] ∧
      s.roomFor (VMemOp.ldx.fields (atHead s) * s.vl) ∧ s.isDet = false ∧
      t.heads 1 (atHead t) ∧ t.cur.vec.vrf.wf ∧ t.checkRegs (t.vlmax 4) (memUses t (atHead t) .stx .w) false = none ∧
      (placed t needWr .stx .w).2 = none ∧ inMemory (placed t needWr .stx .w).1 4 = true ∧ t.memWf ∧
      (places ((placed t needWr .stx .w).1.filter fun p => !losesTo .stx (atHead t) 4 (t.offsets (atHead t)) (t.actives 0) p.1)) =
        [0x10008, 0x10000, 0x10004] ∧ t.isDet = false ∧ t.undisturbed 3 ∧ d.isDet = true ∧ (placed d needWr .stx .w).2 = none ∧
      inMemory (placed d needWr .stx .w).1 4 = true ∧ d.cur.det.length + 3 ≤ Config.wcbEntries := by
  dsimp only [State.heads, State.memWf, State.undisturbed, State.roomFor]; decide +kernel

theorem witness_VectorMemoryAtTheHead_2 :
    let s := headAt (.mem .ld 0 false false .w) 0x90000 0 2 [] []
    let t := headAt (.mem .ldff 0 false false .w) 0x4FFFC 0 2 [] []
    s.heads 1 (atHead s) ∧ s.checkRegs (s.vlmax 4) (memUses s (atHead s) .ld .w) false = none ∧ (placed s needRd .ld .w).1 = [] ∧
      (placed s needRd .ld .w).2.map (fun x => (x.1, x.2.code, x.2.ea)) = some (0, 3, 0x90000) ∧ s.queue = [atHead s] ∧
      t.heads 1 (atHead t) ∧ t.checkRegs (t.vlmax 4) (memUses t (atHead t) .ldff .w) false = none ∧
      (placed t needRd .ldff .w).2.map (fun x => (x.1, x.2.code)) = some (1, 3) := by
  dsimp only [State.heads]; decide +kernel

theorem witness_VectorMemoryAtTheHead_3 : (headAt (.mem .ld 0 false false .w) 0x90000 0 2 [] []).canSave := canSave_of part0 (by decide +kernel)

theorem witness_VectorMemoryAtTheHead_4 :
    let s := headMem (.amo .add 0 .w) 12 3 [(12, natBytes 4 8 ++ natBytes 4 0 ++ natBytes 4 8)] []
    let z := checked s needRw .ldx (atHead s) .w (s.elems 12 4 3) (s.actives 0)
    let off := fun (i : Nat) => (s.elems 12 4 3).getD i 0
    let pa := fun (i : Nat) => 0x10000 + off i
    s.heads 1 (atHead s) ∧ s.checkRegs (s.vlmax 4) [.dst 4 4 3 1, .scalar 8 2, .src 12 4 3 3, .src 4 4 3 1] false = none ∧ z.2 = none ∧
      (∀ p ∈ z.1, p.2.map (fun x => x.2) = [.phys (pa p.1)] ∧ pa p.1 % 4 = 0) ∧ (∀ p ∈ z.1, ∀ r ∈ z.1, pa p.1 = pa r.1 → off p.1 = off r.1) ∧
      s.memWf ∧ s.undisturbed 3 := by
  dsimp only [State.heads, State.memWf, State.undisturbed, State.roomFor]; decide +kernel

/-- An entry at the head of a context with a press share, and one of the cluster's B buffer of depth 32. -/
def sharing (h : Share) (q : QEntry) : State :=
  let s := heading q
  { s with cur := { s.cur with share := some h }, clusters := [(0, { Cluster.init with kb := 32 })] }

/-- The share with accumulator 0 open under lineage 2. -/
def shareOpen : Share := { share0 with acc := share0.acc.set 0 { Acc.init with isOpen := true, lin := 2 } }

theorem settled_sharing (h : Share) (q : QEntry) : (sharing h q).settled := ⟨rfl, rfl, fun _ => rfl⟩

theorem witness_PressInstructionsAtTheHead_1 :
    let p := fun (op : QOp) => sharing share0 (low op)
    let open_ := sharing shareOpen (low (.pfin 0))
    (heading (low (.attach 128))).heads 1 (low (.attach 128)) ∧ (heading (low (.attach 128))).cur.share = none ∧
      (heading (low (.attach 128))).coreAttached = false ∧ (p .detach).heads 1 (low .detach) ∧ (p .detach).cur.id.place.isBase = false ∧
      (p .detach).cur.share = some share0 ∧ (p .detach).cur.vec.vrf.wf ∧ (p .detach).cur.vec.src = [] ∧ share0.aLin = 0 ∧ (p .detach).bBusy = false ∧
      (p .detach).checkNums 1 [.src 2 (regElemBytes 0) (share0.rows * 32) 2] false = none ∧
      (p .detach).checkNums 1 [.src 2 (regElemBytes 3) (128 * 32) 2] false = none ∧
      (share0.get 1).isOpen = false ∧ (share0.get 1).lin = 0 ∧ (p .detach).checkNums 1 [.src 2 4 1 2, .scalar 6 3] false = none ∧
      (p .detach).checkNums 1 [.dst 4 4 1 1, .scalar 6 3] false = none ∧ (low .detach).xb.toNat + (1 + 127) / 128 ≤ share0.rows ∧
      1 ≤ (p .detach).vlmax 4 ∧ 32 % 32 = 0 ∧ 0 + 32 ≤ share0.ka ∧ 0 + 32 ≤ ((p .detach).cluster 0).kb ∧
      pairs false share0.aMem ((p .detach).cluster 0).bMem share0.ta ((p .detach).cluster 0).tb = true ∧ ¬ (32 + 32 ≤ share0.ka) ∧
      (p (.pmma false 0 32 32)).queue = [low (.pmma false 0 32 32)] ∧ Tab.get ((p .detach).core (p .detach).cur.id.place).lins 3 = none ∧
      (shareOpen.get 0).isOpen = true ∧ open_.heads 1 (low (.pfin 0)) ∧ open_.cur.share = some shareOpen := by
  dsimp only [State.heads]; decide +kernel

theorem witness_PressInstructionsAtTheHead_2 : (sharing share0 (low (.pmma false 0 32 32))).canSave := canSave_of part0 (by decide +kernel)

theorem witness_PressInstructionsAtTheHead_3 :
    let q := { low (.pload true false 0 32) with xa := 0x10000, xb := 64 }
    let s := sharing share0 q
    s.heads 1 q ∧ q.a < 32 ∧ q.b < 32 ∧ q.prog = 0 ∧ q.xa.toNat % groupBytes 0 = 0 ∧ q.xb.toNat % groupBytes 0 = 0 ∧ s.bBusy = false ∧ share0.aLin = 0 ∧
      (∀ i < 128, s.spot needRd (q.xa + BitVec.ofNat 64 i * q.xb) (groupBytes 0) 0 = .phys (0x10000 + 64 * i) ∧ (0x10000 + 64 * i) % groupBytes 0 = 0) ∧
      s.copies = [] ∧ s.gathered = [] ∧ s.isDet = false ∧ s.cur.det = [] ∧ s.roomFor 128 := by
  dsimp only [State.heads, State.roomFor]; decide +kernel

/-- An entry of the token instructions at the head, with a sequence table at 0x10000. -/
def tokened (q : QEntry) (ms : List (Nat × List Byte)) : State :=
  let s := m1 [] ms
  { s with cur := { s.cur with sys := { s.cur.sys with tkseqb := 0x10000, vlg := 1 }, vec := { s.cur.vec with queue := [q] } } }

theorem settled_tokened (q : QEntry) (ms : List (Nat × List Byte)) : (tokened q ms).settled := ⟨rfl, rfl, fun _ => rfl⟩

theorem witness_CatchwordUnitsServeTheirSends_3 :
    let s := tokened (low (.tkemit false)) []
    let q := { low .tkarm with xa := 0x20000, xb := 0x000F0000 }
    let a := tokened q []
    let r := tokened q [(0x20002, [1])]
    s.heads 1 (low (.tkemit false)) ∧ s.cur.id.place.isBase = false ∧ s.seqBase ≠ 0 ∧ s.vl ≤ s.vlmax 4 ∧
      s.checkNums 1 [.src 2 4 1 2, .src 6 4 1 3] false = none ∧
      (∀ op ∈ [TwOp.token false 0, .conf 0, .disarm 15, .arm 15 []], s.recordAt 0 op = .ok 0x10000) ∧
      a.heads 1 q ∧ q.b < 32 ∧ q.a < 32 ∧ q.d < 32 ∧ q.prog = 0 ∧ q.xa.toNat % 64 = 0 ∧ a.isDet = false ∧ a.spot needRd q.xa 64 3 = .phys 0x20000 ∧
      selSeq q.xb = 0 ∧ (a.recordAt 0 (.arm (selEnt q.xb) [])).toOption = some 0x10000 ∧ a.copies = [] ∧ a.gathered = [] ∧ a.cur.det = [] ∧ a.roomFor 1 ∧
      imageRefused (a.mem.run 0x20000 64) = false ∧ imageRefused (r.mem.run 0x20000 64) = true ∧ r.spot needRd q.xa 64 3 = .phys 0x20000 ∧
      ({ q with prog := 1 } : QEntry).prog ≠ 0 ∧ a.sends = [] := by
  dsimp only [State.heads, State.roomFor]; decide +kernel

theorem witness_EnginesRunCommands_5 :
    let z := engine cmd0
    let x := { push0 with ends := some true }
    let s := { z with tlb := tlb0 0xFFFFFFFF, link := { z.link with inbox := [.part x] } }
    let y := { s with link := { s.link with dead := [(push0, 4)] } }
    LinkMsg.part x ∈ s.link.inbox ∧ (x.src, x.ch, x.id, x.part) ∉ s.link.seen ∧ s.link.failed x = none ∧ x.ends = some true ∧
      s.pushBuffer x.dom x.handle = some shadow1 ∧ s.xlate ⟨shadow1.part, shadow1.asid, 0xFFFFFFFF, none, 0⟩ sysRw shadow1.sync = .phys 0x30000 ∧
      s.poisoned 0x30000 = false ∧ s.memWf ∧ s.undisturbed 1 ∧ (y.link.failed x).isSome = true ∧ push0.ends = none ∧
      (s.pushBuffer push1.dom push1.handle).map (fun z => s.xlate ⟨z.part, z.asid, 0xFFFFFFFF, none, 0⟩ sysRw z.sync) = some (.phys 0x30000) ∧
      s.link.failed push1 = none ∧ push1.ends = none := by
  dsimp only [State.memWf, State.undisturbed, State.roomFor]; decide +kernel

theorem witness_EnginesRunCommands_6 :
    let z := engine cmd0
    let x := { push0 with ends := some true, runs := [] }
    let s := { z with tlb := (tlb0 0xFFFFFFFF).take 2, link := { z.link with inbox := [.part x] } }
    LinkMsg.part x ∈ s.link.inbox ∧ (x.src, x.ch, x.id, x.part) ∉ s.link.seen ∧ s.link.failed x = none ∧ x.ends ≠ some false ∧
      s.pushBuffer x.dom x.handle = some shadow1 ∧ s.xlate ⟨shadow1.part, shadow1.asid, 0xFFFFFFFF, none, 0⟩ sysRw shadow1.sync = .bad 3 1 ∧
      s.part? x.dom = some part0 ∧ s.link.held = [] ∧ x.runs = [] ∧
      nextIs (exec (.remotePartReceive x) s) (fun t => decide (t.link.held = [x]) && nextIs (exec (.remotePartReceive x) t) fun u => decide (u = t)) = true := by
  decide +kernel

/-- A push that is paused here, and one whose buffer has no translation while the sync word has. -/
theorem witness_EnginesRunCommands_7 :
    let z := engine cmd0
    let y := { z with tlb := tlb0 0xFFFFFFFF, link := { z.link with inbox := [.part push0], held := [{ push0 with part := 7 }] } }
    let s := { z with tlb := (tlb0 0xFFFFFFFF).drop 2, link := { z.link with inbox := [.part push0] } }
    y.link.held.any (samePush push0) = true ∧ .part push0 ∈ y.link.inbox ∧ y.link.failed push0 = none ∧ nextIs (exec (.remotePartReceive push0) y) (fun t => decide (t = y)) ∧
      s.pushTarget push0.dom push0.handle (push0.lo, push0.hi) = some shadow1 ∧ s.pushFault shadow1 push0.runs = some (3, 1, 0x20082) ∧
      s.part? push0.dom = some part0 ∧ s.link.held = [] ∧
      nextIs (exec (.remotePartReceive push0) s) (fun t => decide (t.link.held = [push0]) && decide (t.shadows = s.shadows)) = true := by
  dsimp only; decide +kernel

/-- The thread saved with its image in memory. -/
def savedThere : State := savedAs .saved none (2 ^ 63)

theorem witness_ControlRegistersAct_5 :
    let s := { savedThere with mem := savedThere.mem.write 0x100010 (dw (2 ^ 63)) }
    (∀ u ∈ (m0 []).threads, u.st = .running ∨ u.st = .free) ∧ s.threads = [s.cur] ∧ s.cur.st = .saved ∧ s.launch.part = part0.idx ∧
      s.imageThere part0 s.cur.id.ctxid = true ∧ s.isMemory (s.imageBase part0 s.cur.id.ctxid) = true ∧ s.memWf ∧
      (savedAs .saved none 0).threads = [(savedAs .saved none 0).cur] ∧ (savedAs .saved none 0).imageThere part0 1 = false := by
  dsimp only [State.memWf]; decide +kernel

end Sys2Proof.Tests
end

namespace Sys2Proof.Machine

/-! ### Scalar forms that write one register (R259) -/

/-- An instruction whose meaning is one register write, after which the next word follows. -/
def State.writesOne (s : State) (d : BitVec 6) (x : Instr) : Prop := ∃ v, exec x s = .next ((s.setX d.toNat v).retire)

/-- A form with two sources writes what it computes of them. -/
theorem writesOne_of_regs3 {s : State} {d a b : BitVec 6} {x : Instr} (hd : s.usable d) (ha : s.usable a) (hb : s.usable b)
    (f : Word → Word → Word) (hx : exec x s = finish (regs3 s d a b fun p q => s.result d (f p q))) : s.writesOne d x :=
  ⟨_, by rw [hx, regs3_usable hd ha hb]; rfl⟩

/-- A form with one source writes what it computes of it. -/
theorem writesOne_of_regs2 {s : State} {d a : BitVec 6} {x : Instr} (hd : s.usable d) (ha : s.usable a)
    (f : Word → Word) (hx : exec x s = finish (regs2 s d a fun p => s.result d (f p))) : s.writesOne d x :=
  ⟨_, by rw [hx, regs2_usable hd ha]; rfl⟩

/-- A form without a source writes its constant. -/
theorem writesOne_of_checkG {s : State} {d : BitVec 6} {x : Instr} (hd : s.usable d) (v : Word)
    (hx : exec x s = finish (checkG s d 1 (s.result d v))) : s.writesOne d x :=
  ⟨v, by rw [hx, checkG_usable hd]; rfl⟩

/-- The ALU forms with two sources (R261). -/
def aluForms3 (d a b : BitVec 6) : List Instr :=
  [.add d a b, .sub d a b, .and d a b, .or d a b, .xor d a b, .andn d a b, .sll d a b, .srl d a b, .sra d a b, .mul d a b,
   .mulh d a b, .mulhu d a b, .div d a b, .divu d a b, .rem d a b, .remu d a b, .min d a b, .max d a b, .minu d a b, .maxu d a b,
   .slt d a b, .sltu d a b]

/-- The ALU forms with one source and the immediate forms (R261, R262). -/
def aluForms2 (d a k : BitVec 6) (i : BitVec 13) : List Instr :=
  [.clz d a, .popc d a, .sext d a 0, .sext d a 1, .sext d a 2, .zext d a 0, .zext d a 1, .zext d a 2,
   .addi d a i, .andi d a i, .ori d a i, .xori d a i, .slti d a i, .slli d a k, .srli d a k, .srai d a k]

/-- The forms that have no source (R263). -/
def aluForms1 (d : BitVec 6) (l : BitVec 19) : List Instr := [.lih d l, .addpc d l]

/-- Each function of the ALU family with two sources writes X[D] (R261). -/
theorem alu3_writesOne {s : State} {d a b : BitVec 6} (hd : s.usable d) (ha : s.usable a) (hb : s.usable b) :
    ∀ x ∈ aluForms3 d a b, s.writesOne d x := by
  simp only [aluForms3, List.forall_mem_cons, List.not_mem_nil, false_imp_iff, implies_true, and_true]
  and_intros <;> exact writesOne_of_regs3 hd ha hb _ rfl

/-- Each ALU form with one source and each immediate form writes X[D] (R261, R262). -/
theorem alu2_writesOne {s : State} {d a k : BitVec 6} {i : BitVec 13} (hd : s.usable d) (ha : s.usable a) :
    ∀ x ∈ aluForms2 d a k i, s.writesOne d x := by
  simp only [aluForms2, List.forall_mem_cons, List.not_mem_nil, false_imp_iff, implies_true, and_true]
  and_intros <;> exact writesOne_of_regs2 hd ha _ rfl

/-- LIH and ADDPC write X[D] (R263). -/
theorem alu1_writesOne {s : State} {d : BitVec 6} {l : BitVec 19} (hd : s.usable d) :
    ∀ x ∈ aluForms1 d l, s.writesOne d x := by
  simp only [aluForms1, List.forall_mem_cons, List.not_mem_nil, false_imp_iff, implies_true, and_true]
  exact ⟨writesOne_of_checkG hd _ rfl, writesOne_of_checkG hd _ rfl⟩

/-- Settles O11: a scalar form is one register write, and a register write has its frame. -/
theorem scalarFormsFrame : Obligations.ScalarFormsFrame := by
  unfold Obligations.ScalarFormsFrame
  intro s t d a b k i l x hd ha hb hx ht
  have hw : s.writesOne d x := by
    have hx : x ∈ aluForms3 d a b ++ (aluForms2 d a k i ++ aluForms1 d l) := hx
    obtain h3 | h := List.mem_append.1 hx
    · exact alu3_writesOne hd ha hb x h3
    · obtain h2 | h1 := List.mem_append.1 h
      · exact alu2_writesOne hd ha x h2
      · exact alu1_writesOne hd x h1
  obtain ⟨v, hv⟩ := hw
  obtain rfl : (s.setX d.toNat v).retire = t := by rw [hv] at ht; injection ht
  exact ⟨fun n hn => s.x_setX_other v hn, rfl, by simp, by simp, by simp, by simp, by simp, by simp, by simp, by simp, by simp, by simp⟩

end Sys2Proof.Machine

namespace Sys2Proof.Machine

/-! ### Instructions that are over at issue (R20, R29) -/

/-- The push of an entry goes on with the entry at the end of the queue, where the lanes are held and no captured operand is in flight. -/
theorem pushAt_of_canPush {s : State} {p : Push} (hq : s.canPush) (ha : s.captures p.ca p.a) (hb : s.captures p.cb p.b)
    (pc : Word) (word : BitVec 32) (f : State → Res Unit) :
    pushAt s pc word p f = f (s.enqueue (s.entry pc word p (s.captured p.ca p.a) (s.captured p.cb p.b))) := by
  obtain ⟨hl, hroom⟩ := hq
  unfold pushAt
  rw [capture_ready ha, capture_ready hb, needLanes_held hl, if_neg (by unfold queueSize at *; omega)]
  rfl

/-- An instruction that pushes its entry is over at issue. -/
theorem pushes_of_pushed {s : State} {i : Instr} {p : Push} (hq : s.canPush) (ha : s.captures p.ca p.a) (hb : s.captures p.cb p.b)
    (hx : exec i s = finish (pushed s p)) : s.pushes i p := by
  unfold State.pushes
  rw [hx, pushed, pushAt_of_canPush hq ha hb, finish_done]

/-- A push that captures no operand has nothing to wait for. -/
theorem captures_false (s : State) (n : Nat) : s.captures false n := by
  intro h; cases h

/-- A form-V instruction pushes its entry with the scalar operand that its S bit selects (R295). -/
theorem pushes_of_issueV {s : State} {i : Instr} {op : QOp} {x : VArgs} (hq : s.canPush) (hb : s.captures x.s x.b.toNat)
    (hx : exec i s = finish (issueV s op x)) : s.pushes i ⟨op, x.d.toNat, x.a.toNat, x.b.toNat, false, x.s⟩ :=
  pushes_of_pushed hq (captures_false s _) hb hx

/-- A one-source form-V instruction pushes its entry, with X[A] where its row takes a scalar. -/
theorem pushes_of_issueU {s : State} {i : Instr} {op : QOp} {x : UArgs} {ca : Bool} (hq : s.canPush) (ha : s.captures ca x.a.toNat)
    (hx : exec i s = finish (issueU s op x ca)) : s.pushes i ⟨op, x.d.toNat, x.a.toNat, 0, ca, false⟩ :=
  pushes_of_pushed hq ha (captures_false s _) hx

/-- An instruction without a scalar operand pushes its entry. -/
theorem pushes_of_pushed_plain {s : State} {i : Instr} {op : QOp} {d a b : Nat} (hq : s.canPush)
    (hx : exec i s = finish (pushed s ⟨op, d, a, b, false, false⟩)) : s.pushes i ⟨op, d, a, b, false, false⟩ :=
  pushes_of_pushed hq (captures_false s _) (captures_false s _) hx

/-- Settles O35: the meaning of every word of forms V and VF is the push of its entry. -/
theorem vectorWordsArePushed : Obligations.VectorWordsArePushed := by
  unfold Obligations.VectorWordsArePushed
  intro s d a b m c t hq
  simp only [List.forall_mem_cons, List.not_mem_nil, false_imp_iff, implies_true, and_true]
  refine ⟨fun hb => ?_, ?_, fun ha => ?_, fun hb => ?_, ?_⟩
  · and_intros <;> exact pushes_of_issueV (x := ⟨d, a, b, m, c, t⟩) hq hb rfl
  · and_intros <;> exact pushes_of_issueU (x := ⟨d, a, m, t⟩) hq (captures_false s _) rfl
  · and_intros <;> exact pushes_of_issueU (x := ⟨d, a, m, t⟩) hq ha rfl
  · and_intros <;> exact pushes_of_pushed hq (captures_false s _) hb rfl
  · and_intros <;> exact pushes_of_pushed_plain hq rfl

/-- PATTACH pushes its entry and stays at its place (R320). -/
theorem execPattach_pushes {s : State} {z : BitVec 6} (hq : s.canPush) (hw : s.cur.wait ≠ some .attach) :
    exec (.pattach z) s = finish (.wait .attach (s.enqueue (s.entry s.cur.pc s.cur.ir ⟨.attach (32 * z.toNat), 0, 0, 0, false, false⟩ 0 0))) := by
  have hx : exec (.pattach z) s = execPattach z s := rfl
  rw [hx, execPattach, if_neg hw, pushAt_of_canPush hq (captures_false s _) (captures_false s _)]
  rfl

/-- PATTACH that waits goes on once no attachment is queued (R320). -/
theorem execPattach_attached {s : State} {z : BitVec 6} (hw : s.cur.wait = some .attach) (hq : ∀ q ∈ s.queue, q.op.isAttach = false) :
    exec (.pattach z) s = .next s.retire := by
  have hx : exec (.pattach z) s = execPattach z s := rfl
  have hn : s.queue.any (fun q => q.op.isAttach) = false := by simpa using hq
  rw [hx, execPattach, if_pos hw, hn]
  rfl

/-- Settles O36: the meaning of every queued instruction is the push of its entry; PATTACH pushes its own and waits for it. -/
theorem queuedInstructionsArePushed : Obligations.QueuedInstructionsArePushed := by
  unfold Obligations.QueuedInstructionsArePushed
  intro s d a b m o k v f c n hq ha
  simp only [List.forall_mem_cons, List.not_mem_nil, false_imp_iff, implies_true, and_true]
  refine ⟨?_, fun hb => ?_, fun hw => ⟨_, execPattach_pushes hq hw, rfl, rfl, rfl, ?_⟩, fun hw hn => execPattach_attached hw hn⟩
  · and_intros
    iterate 12 exact pushes_of_pushed hq ha (captures_false s _) rfl
    all_goals exact pushes_of_pushed_plain hq rfl
  · and_intros
    iterate 4 exact pushes_of_pushed hq ha hb rfl
    iterate 2 exact pushes_of_pushed hq (captures_false s _) hb rfl
    · exact pushes_of_pushed hq ha hb rfl
    · exact pushes_of_pushed hq (captures_false s _) hb rfl
  · simp [State.queue, State.entry]

end Sys2Proof.Machine

namespace Sys2Proof.Machine

/-! ### Writes of the cache that leave the current thread as it is (R34) -/

@[simp] theorem State.mendScales_cur (s : State) (pa n : Nat) : (s.mendScales pa n).cur = s.cur := by
  unfold State.mendScales
  split <;> rfl

@[simp] theorem State.evictLine_cur (s : State) (l : Nat) : (s.evictLine l).cur = s.cur := by
  unfold State.evictLine
  dsimp only
  split <;> rfl

@[simp] theorem State.fillLine_cur (s : State) (l : Nat) : (s.fillLine l).cur = s.cur := by
  unfold State.fillLine
  split
  · rfl
  · dsimp only
    cases s.llcVictim l <;> simp

@[simp] theorem State.cacheWrite_cur (s : State) (pa : Nat) (bs : List Byte) : (s.cacheWrite pa bs).cur = s.cur := by
  simp [State.cacheWrite]

@[simp] theorem State.sysStore_cur (s : State) (pa : Nat) (bs : List Byte) : (s.sysStore pa bs).cur = s.cur := by
  unfold State.sysStore
  exact List.foldlRecOn _ _ (motive := fun t : State => t.cur = s.cur) rfl fun t ht p _ => (t.cacheWrite_cur p.1 p.2).trans ht

/-! ### Captures (R228) -/

/-- A partition of which no capture is enabled takes no record. -/
theorem State.record_off {s : State} (h : ∀ p ∈ s.parts, p.db.dbctl.getLsbD 62 = false) (p : Nat) (o : OldLine) (f : Debug → Option Debug) :
    s.record p o f = s := by
  unfold State.record
  cases hq : s.part? p with
  | none => rfl
  | some q =>
    have hoff := h q (List.mem_of_find?_eq_some hq)
    simp only [hoff, Bool.false_and, Bool.false_eq_true, if_false]

theorem State.captureOld_off {s : State} (h : ∀ p ∈ s.parts, p.db.dbctl.getLsbD 62 = false) (launch : Nat) (o : OldLine) :
    s.captureOld launch o = s := by
  unfold State.captureOld
  cases s.launches.find? fun x => x.id == launch with
  | none => rfl
  | some l => simp [State.record_off h]

theorem State.captureLoc_off {s : State} (h : ∀ p ∈ s.parts, p.db.dbctl.getLsbD 62 = false) (launch cl off n : Nat) :
    s.captureLoc launch cl off n = s := by
  unfold State.captureLoc
  exact List.foldlRecOn _ _ (motive := fun t : State => t = s) rfl fun t ht l _ => by rw [ht, State.captureOld_off h]

/-! ### The local store (R37) -/

/-- A window address that translates lies below the local-store size of the launch (R37). -/
theorem State.lt_local_of_xlate_loc {s : State} {c : XCtx} {n : Need} {va : Word} {off : Nat} (h : s.xlate c n va = .loc off) :
    off < c.local_ := by
  unfold State.xlate at h
  dsimp only at h
  split at h
  · cases h
  · split at h
    · split at h
      · cases h
      · split at h
        · cases h
        · injection h; omega
    · split at h
      · cases h
      · split_ifs at h

/-- Where a local-store address is found, its translation said so. -/
theorem State.xlate_of_spot_loc {s : State} {n : Need} {ea : Word} {size : Nat} {code : BitVec 8} {off : Nat}
    (h : s.spot n ea size code = .loc off) : s.xlate s.xctx n ea = .loc off := by
  unfold State.spot State.unpoisoned State.aim at h
  split_ifs at h with h4
  cases hx : s.xlate s.xctx n ea with
  | loc o => rw [hx] at h; exact h
  | phys pa => rw [hx] at h; dsimp only at h; split_ifs at h
  | host p => rw [hx] at h; cases h
  | bad c d => rw [hx] at h; cases h

/-- A local-store address is one of a launch that stands: a thread without a launch has no local store. -/
theorem State.launch_found_of_loc {s : State} {n : Need} {ea : Word} {size : Nat} {code : BitVec 8} {off : Nat}
    (h : s.spot n ea size code = .loc off) : s.launches.find? (fun x => x.id == s.cur.id.launch) = some s.launch := by
  have hlt := State.lt_local_of_xlate_loc (State.xlate_of_spot_loc h)
  unfold State.xctx State.launch State.launchOf at hlt
  unfold State.launch State.launchOf
  cases hf : s.launches.find? fun x => x.id == s.cur.id.launch with
  | some l => rfl
  | none => rw [hf] at hlt; exact absurd hlt (Nat.not_lt_zero _)

/-- The launch of an identifier after a change of that launch that keeps the identifier. -/
theorem State.launchOf_modLaunch {s : State} {i : Nat} {l : Launch} (hl : s.launches.find? (fun x => x.id == i) = some l)
    (f : Launch → Launch) (hf : ∀ x, (f x).id = x.id) : (s.modLaunch i f).launchOf i = f l := by
  have hid : l.id = i := by simpa using List.find?_some hl
  have hp : ((fun x : Launch => x.id == i) ∘ fun x => if x.id = i then f x else x) = fun x => x.id == i := by
    funext x
    simp only [Function.comp_apply]
    split <;> simp [hf]
  unfold State.launchOf
  rw [State.modLaunch_launches, List.find?_map, hp, hl]
  simp [hid]

/-- A launch whose local store on a cluster has been written to. -/
def Launch.wrote (l : Launch) (cl off : Nat) (bs : List Byte) : Launch :=
  { l with stores := Tab.set l.stores cl ((l.store cl).write off bs) }

theorem Launch.store_wrote_same (l : Launch) (cl off : Nat) (bs : List Byte) :
    (l.wrote cl off bs).store cl = (l.store cl).write off bs := by
  simp [Launch.wrote, Launch.store, tab_get_set_same]

theorem Launch.store_wrote_other (l : Launch) {cl c : Nat} (off : Nat) (bs : List Byte) (h : c ≠ cl) :
    (l.wrote cl off bs).store c = l.store c := by
  simp [Launch.wrote, Launch.store, tab_get_set_other _ _ h]

/-- A write to the local store where nothing is captured changes the launch's bytes on the cluster alone. -/
theorem State.locWrite_uncaptured {s : State} (h : ∀ p ∈ s.parts, p.db.dbctl.getLsbD 62 = false) (off : Nat) (bs : List Byte) :
    s.locWrite off bs = s.modLaunch s.cur.id.launch fun l => l.wrote s.cur.id.place.cluster off bs := by
  unfold State.locWrite State.locWriteAt
  rw [State.captureLoc_off h]
  rfl

/-- The launch of the current thread after a write to its local store where nothing is captured. -/
theorem State.launch_locWrite {s : State} (h : ∀ p ∈ s.parts, p.db.dbctl.getLsbD 62 = false)
    (hl : s.launches.find? (fun x => x.id == s.cur.id.launch) = some s.launch) (off : Nat) (bs : List Byte) :
    (s.locWrite off bs).launch = s.launch.wrote s.cur.id.place.cluster off bs := by
  rw [State.locWrite_uncaptured h]
  exact State.launchOf_modLaunch hl _ fun _ => rfl

/-! ### Scalar accesses of the local store -/

/-- An access of the scalar stream that finds the local store goes on there, where no older vector access holds it back (R104). -/
theorem scalarAccess_loc {s : State} {n : Need} {ea : Word} {v : Wid} {off : Nat} (hs : s.spot n ea v.bytes (BitVec.ofNat 8 v.num) = .loc off)
    (hb : s.memBusy = false) (f : Where → Res Unit) : scalarAccess s n ea v f = f (.loc off) := by
  unfold scalarAccess
  rw [hs]
  simp [hb]

/-- The bytes that a load of the local store reads: in a DET launch those of its snapshot, else those that stand, under the thread's own. -/
theorem State.load_loc (s : State) (off n : Nat) : s.load false (.loc off) n =
    (leNat (if s.isDet = true then s.detRun true off n else s.own true off (s.locRun off n)), if s.isDet = true then s else s.seeLoc off n) := by
  unfold State.load
  cases s.isDet <;> rfl

/-- The signed value of a code is its balanced remainder. -/
theorem sgn_eq_bmod {n : Nat} (hn : 0 < n) (x : Nat) : sgn n x = (x : Int).bmod (2 ^ n) := by
  obtain ⟨k, rfl⟩ : ∃ k, n = k + 1 := ⟨n - 1, by omega⟩
  have h2 : 2 ^ (k + 1) = 2 * 2 ^ k := by ring
  have hcast : ((x : Int) % ((2 ^ (k + 1) : Nat) : Int)) = ((x % 2 ^ (k + 1) : Nat) : Int) := by norm_cast
  unfold sgn Int.bmod
  dsimp only
  rw [hcast]
  generalize x % 2 ^ (k + 1) = y
  push_cast
  rw [h2]
  have h2' : (2 : Int) ^ (k + 1) = 2 * ((2 ^ k : Nat) : Int) := by push_cast; ring
  rw [h2']
  generalize 2 ^ k = p
  split_ifs <;> omega

/-- A buffered store stands at the end of the thread's buffer (R85). -/
theorem State.buffer_det {s t : State} {x : DetStore} (h : s.buffer x = some t) : t.cur.det = s.cur.det ++ [x] := by
  unfold State.buffer at h
  dsimp only at h
  split at h
  · injection h with h; rw [← h]
  · split at h
    · cases h
    · split at h
      · cases h
      · split at h
        · injection h with h
          rw [← h]
          simp
        · cases h

section
variable {s : State} {d a : BitVec 6} {v : Wid} {o : BitVec 11} {off : Nat} (hd : s.usable d) (ha : s.usable a) (hb : s.memBusy = false)
include hd ha hb

/-- A load of the local store, before its extension. -/
theorem exec_load_loc (hs : s.spot needRd (scalarEa (s.x a.toNat) v o) v.bytes (BitVec.ofNat 8 v.num) = .loc off) (f : Nat → Word) :
    finish (regs2 s d a fun x => scalarAccess s needRd (scalarEa x v o) v fun p =>
      let r := s.load false p v.bytes
      r.2.result d (f r.1)) =
    .next ((State.setX (if s.isDet = true then s else s.seeLoc off v.bytes) d.toNat
      (f (leNat (if s.isDet = true then s.detRun true off v.bytes else s.own true off (s.locRun off v.bytes))))).retire) := by
  rw [regs2_usable hd ha, scalarAccess_loc hs hb, State.load_loc]
  rfl

/-- A store to the local store is over where it has a place, and no older vector store is queued. -/
theorem execSt_loc (hs : s.spot needWr (scalarEa (s.x a.toNat) v o) v.bytes (BitVec.ofNat 8 v.num) = .loc off) (hq : s.storesQueued = false)
    {t : State} (ht : s.store false (scalarEa (s.x a.toNat) v o) (.loc off) v.bytes (s.x d.toNat).toNat = some t) :
    exec (.st d a v o) s = .next t.retire := by
  have hx : exec (.st d a v o) s = execSt d a v o s := rfl
  rw [hx, execSt, readG_usable hd, readG_usable ha]
  dsimp only
  rw [scalarAccess_loc hs hb, hq, ht]
  rfl

end

/-- Settles O15: loads and stores of the local store, by the rules of its bytes. -/
theorem localStoreAccesses : Obligations.LocalStoreAccesses := by
  unfold Obligations.LocalStoreAccesses
  intro s d a v o off hd ha hb ea bs
  have hlen : bs.length = v.bytes := natBytes_length _ _
  refine ⟨fun hs => ⟨exec_load_loc hd ha hb hs fun n => BitVec.ofNat 64 n, ?_⟩, fun hs => ⟨fun hdet => ⟨?_, ?_⟩, fun hdet hq t ht => ⟨?_, ?_⟩⟩⟩
  · have hw : 0 < 8 * v.bytes := by cases v <;> decide
    have h := exec_load_loc hd ha hb hs fun n => BitVec.ofInt 64 (sgn (8 * v.bytes) n)
    rw [sgn_eq_bmod hw] at h
    exact h
  · exact execSt_loc hd ha hb hs (by simp [State.storesQueued, hdet]) (by simp only [State.store, hdet]; rfl)
  · intro hu _ hwf
    obtain ⟨-, hu⟩ := hu
    have hl := State.launch_locWrite hu (State.launch_found_of_loc hs) off bs
    have hcur : (s.locWrite off bs).cur = s.cur := by rw [State.locWrite_uncaptured hu]; rfl
    have hrun : ∀ k n, (s.locWrite off bs).locRun k n = ((s.launch.store s.cur.id.place.cluster).write off bs).run k n := by
      intro k n
      rw [State.locRun, hl, hcur, Launch.store_wrote_same]
    refine ⟨by rw [State.locWrite_uncaptured hu]; rfl, hcur, ?_, fun k n hk => ?_, fun c hc => ?_⟩
    · rw [hrun, ← hlen]
      exact run_write_same hwf off bs
    · rw [hrun]
      exact run_write_other hwf (by rw [hlen]; exact hk)
    · rw [hl]
      exact Launch.store_wrote_other _ off bs hc
  · exact execSt_loc hd ha hb hs hq (by simp only [State.store, hdet, if_true]; exact ht)
  · rw [State.buffer_det ht]
    simp

end Sys2Proof.Machine

namespace Sys2Proof.Machine

/-! ### Writes of system registers (R19, R273, R274) -/

/-- Nothing that a write of a system register waits for is outstanding. -/
theorem State.swrReady_of_quiet {s : State} (hq : s.queue = []) (ht : s.tokenQuiet = true) (n : Nat) : s.swrReady n = true := by
  unfold State.swrReady
  split <;> simp [State.vecQuiet, State.pressQuiet, hq, ht]

/-- A listed register can be read whatever the core's class (R273). -/
theorem State.sysRead_ne_none {s : State} {n : Nat} (h : s.cur.sysValue s.cycle n ≠ none) : s.sysRead n ≠ none := by
  simpa [State.sysRead] using h

/-- On a base core a press or token register takes no write (R273). -/
theorem Thread.sysWrite_hidden {t : Thread} {n : Nat} (h : (t.id.place.isBase && zeroOnBase n) = true) (cycle : Nat) (v : Word) :
    t.sysWrite cycle n v = t := by
  unfold Thread.sysWrite
  rw [if_pos h]

section
variable {s : State} {a : BitVec 6} (ha : s.usable a) (hq : s.queue = []) (ht : s.tokenQuiet = true)
include ha hq ht

/-- SWR of a listed register that waits for nothing is one write of it. -/
theorem exec_swr {n : BitVec 12} (hn : s.cur.sysValue s.cycle n.toNat ≠ none) :
    exec (.swr a n) s = .next (({ s with cur := s.cur.sysWrite s.cycle n.toNat (s.x a.toNat) } : State).retire) := by
  have hx : exec (.swr a n) s = execSwr a n s := rfl
  obtain ⟨v, hv⟩ := Option.ne_none_iff_exists'.1 (State.sysRead_ne_none hn)
  rw [hx, execSwr, hv]
  dsimp only
  rw [readG_usable ha, if_pos (State.swrReady_of_quiet hq ht _)]
  rfl

/-- SWR of a listed register that changes the system registers by `f`. -/
theorem exec_swr_sys (n : BitVec 12) (f : Sys → Sys) (hn : s.cur.sysValue s.cycle n.toNat ≠ none)
    (hw : s.cur.sysWrite s.cycle n.toNat (s.x a.toNat) = { s.cur with sys := f s.cur.sys }) :
    exec (.swr a n) s = .next (({ s with cur := { s.cur with sys := f s.cur.sys } } : State).retire) := by
  rw [exec_swr ha hq ht hn, hw]

end

/-- The registers that have no writable bit (R19). -/
def readOnlyRegisters : List (BitVec 12) :=
  [0x001, 0x002, 0x003, 0x007, 0x010, 0x013, 0x020, 0x021, 0x028, 0x029, 0x02A, 0x02B, 0x02C, 0x02D, 0x02E, 0x02F, 0x040, 0x041, 0x042,
   0x043, 0x044, 0x045, 0x046, 0x047, 0x048, 0x049, 0x04A, 0x04B, 0x050, 0x051, 0x052]

theorem Thread.sysValue_readOnly (t : Thread) (cycle : Nat) : ∀ n ∈ readOnlyRegisters, t.sysValue cycle n.toNat ≠ none := by
  simp only [readOnlyRegisters, List.forall_mem_cons, List.not_mem_nil, false_imp_iff, implies_true, and_true]
  and_intros
  all_goals exact Option.some_ne_none _

/-- A write to a register without a writable bit changes nothing. -/
theorem Thread.sysWrite_readOnly (t : Thread) (cycle : Nat) (v : Word) : ∀ n ∈ readOnlyRegisters, t.sysWrite cycle n.toNat v = t := by
  simp only [readOnlyRegisters, List.forall_mem_cons, List.not_mem_nil, false_imp_iff, implies_true, and_true]
  and_intros
  all_goals exact ite_self _

/-- DRIFT takes at least 64 of the 16 bits written (R19). -/
theorem drift_written (v : Word) :
    (if (v.setWidth 16 : BitVec 16).toNat < 64 then 64 else v.setWidth 16) = BitVec.ofNat 16 (max 64 (v.toNat % 65536)) := by
  apply BitVec.eq_of_toNat_eq
  rw [BitVec.toNat_ofNat, BitVec.toNat_setWidth]
  split
  · rw [show (64 : BitVec 16).toNat = 64 from rfl]
    omega
  · rw [BitVec.toNat_setWidth]
    omega

/-- Settles O20: SWR is one write of the thread's system registers, register by register. -/
theorem systemRegisterWrites : Obligations.SystemRegisterWrites := by
  unfold Obligations.SystemRegisterWrites
  intro s a ha hq ht v
  refine ⟨?_, ?_, ?_, ?_, ?_, ?_, fun hb => ?_, fun hb => ?_, fun n hn => ?_⟩
  · exact exec_swr_sys ha hq ht 0x004 (fun y => { y with rmode := v.setWidth 2 }) (Option.some_ne_none _) (by simp [Thread.sysWrite, zeroOnBase, v])
  · exact exec_swr_sys ha hq ht 0x005 (fun y => { y with vstat := y.vstat &&& ~~~(v.setWidth 8) }) (Option.some_ne_none _) (by
      simp [Thread.sysWrite, zeroOnBase, v])
  · exact exec_swr_sys ha hq ht 0x006 (fun y => { y with fstat := v.setWidth 16 }) (Option.some_ne_none _) (by
      simp [Thread.sysWrite, zeroOnBase, v])
  · exact exec_swr_sys ha hq ht 0x008 (fun y => { y with lease := if v.setWidth 8 = (0 : BitVec 8) then 1 else v.setWidth 8 })
      (Option.some_ne_none _) (by simp [Thread.sysWrite, zeroOnBase, v])
  · exact exec_swr_sys ha hq ht 0x009 (fun y => { y with vmpol := v.setWidth 3 }) (Option.some_ne_none _) (by
      simp [Thread.sysWrite, zeroOnBase, v])
  · rw [exec_swr ha hq ht (n := 0x060) (Option.some_ne_none _), ← drift_written]
    simp [Thread.sysWrite, zeroOnBase, v]
  · refine ⟨?_, ?_, ?_, ?_⟩
    · exact exec_swr_sys ha hq ht 0x011 (fun y => { y with pnan := v }) (Option.some_ne_none _) (by simp [Thread.sysWrite, hb, v])
    · exact exec_swr_sys ha hq ht 0x012 (fun y => { y with nanz := v.getLsbD 0 }) (Option.some_ne_none _) (by simp [Thread.sysWrite, hb, v])
    · exact exec_swr_sys ha hq ht 0x030
        (fun y => { y with tknote := if v.getLsbD 63 = true then y.tknote &&& 0x7FFFFFFFFFFFFFFF else y.tknote })
        (Option.some_ne_none _) (by simp [Thread.sysWrite, hb, v])
    · exact exec_swr_sys ha hq ht 0x031 (fun y => { y with tkseqb := v &&& 0x00FFFFFFFFFF0000 }) (Option.some_ne_none _) (by
        simp [Thread.sysWrite, hb, v])
  · simp only [List.forall_mem_cons, List.not_mem_nil, false_imp_iff, implies_true, and_true]
    refine ⟨?_, ?_, ?_, ?_⟩ <;>
      exact exec_swr_sys ha hq ht _ id (Option.some_ne_none _) (Thread.sysWrite_hidden (by rw [hb]; rfl) _ _)
  · exact exec_swr_sys ha hq ht n id (s.cur.sysValue_readOnly s.cycle n hn) (s.cur.sysWrite_readOnly s.cycle v n hn)

end Sys2Proof.Machine

namespace Sys2Proof.Machine

/-! ### Lists of codes in the register file -/

@[simp] theorem chunks_length {α : Type} (n k : Nat) (l : List α) : (chunks n k l).length = k := by
  induction k generalizing l with
  | zero => rfl
  | succ k ih => simp [chunks, ih]

/-- The chunks of a list of pieces of one length are the pieces. -/
theorem chunks_flatten {α : Type} {n : Nat} {ls : List (List α)} (h : ∀ l ∈ ls, l.length = n) : chunks n ls.length ls.flatten = ls := by
  induction ls with
  | nil => rfl
  | cons l ls ih =>
    obtain ⟨rfl, h⟩ := List.forall_mem_cons.1 h
    simp [chunks, ih h]

/-- A chunk is not longer than its bound. -/
theorem length_le_of_mem_chunks {α : Type} {n k : Nat} {l c : List α} (h : c ∈ chunks n k l) : c.length ≤ n := by
  induction k generalizing l with
  | zero => simp [chunks] at h
  | succ k ih =>
    obtain rfl | h := List.mem_cons.1 h
    · exact List.length_take_le n l
    · exact ih h

@[simp] theorem elems_length (m : Mem) (a e k : Nat) : (m.elems a e k).length = k := by simp [Mem.elems]

@[simp] theorem State.elems_length (s : State) (n e k : Nat) : (s.elems n e k).length = k := Machine.elems_length _ _ _ _

/-- A code of e bytes is below 256 to the e. -/
theorem lt_of_mem_elems {m : Mem} {a e k v : Nat} (h : v ∈ m.elems a e k) : v < 256 ^ e := by
  obtain ⟨c, hc, rfl⟩ := List.mem_map.1 h
  exact (leNat_lt c).trans_le (Nat.pow_le_pow_right (by decide) (length_le_of_mem_chunks hc))

/-- The bytes of a list of codes. -/
def codeBytes (e : Nat) (vs : List Nat) : List Byte := (vs.map (natBytes e)).flatten

@[simp] theorem codeBytes_length (e : Nat) (vs : List Nat) : (codeBytes e vs).length = vs.length * e := by
  induction vs with
  | nil => simp [codeBytes]
  | cons v vs ih => simp_all [codeBytes, Nat.add_mul, Nat.add_comm]

/-- Codes written to the register file are read back, modulo their width. -/
theorem elems_write {m : Mem} (hm : m.wf) (a e : Nat) (vs : List Nat) :
    (m.write a (codeBytes e vs)).elems a e vs.length = vs.map (· % 256 ^ e) := by
  have hlen : ∀ l ∈ vs.map (natBytes e), l.length = e := by simp
  have hc : chunks e vs.length (codeBytes e vs) = vs.map (natBytes e) := by simpa [codeBytes] using chunks_flatten hlen
  unfold Mem.elems
  rw [← codeBytes_length, run_write_same hm, hc, List.map_map]
  exact List.map_congr_left fun v _ => leNat_natBytes e v

/-! ### Elements written (R15) -/

/-- What the elements of a group hold once some are written. -/
def putOver (old : List Nat) (vals : List (Option Nat)) : List Nat := (old.zip vals).map fun p => p.2.getD p.1

theorem putOver_getD {old : List Nat} {vals : List (Option Nat)} (h : old.length = vals.length) {i : Nat} (hi : i < vals.length) :
    (putOver old vals).getD i 0 = (vals[i]).getD (old.getD i 0) := by
  simp [putOver, List.getD_eq_getElem?_getD, hi, h ▸ hi]

/-- The register file after elements were written. -/
theorem State.putV_vrf (s : State) (n e : Nat) (vals : List (Option Nat)) :
    (s.putV n e vals).cur.vec.vrf = s.cur.vec.vrf.write (n * s.rb) (codeBytes e (putOver (s.elems n e vals.length) vals)) := by
  unfold State.putV codeBytes putOver
  rw [List.map_map]
  rfl

/-- An element written is the code's low bytes; one that is not keeps what it held. -/
theorem State.elems_putV {s : State} (h : s.cur.vec.vrf.wf) (n e : Nat) {vals : List (Option Nat)} {k i : Nat} (hk : vals.length = k) (hi : i < k) :
    ((s.putV n e vals).elems n e k).getD i 0 = ((vals.getD i none).map (· % 2 ^ (8 * e))).getD ((s.elems n e k).getD i 0) := by
  subst hk
  have hw : (putOver (s.elems n e vals.length) vals).length = vals.length := by simp [putOver]
  have hr : (s.putV n e vals).elems n e vals.length = (putOver (s.elems n e vals.length) vals).map (· % 256 ^ e) := by
    have he := elems_write h (n * s.rb) e (putOver (s.elems n e vals.length) vals)
    rw [hw, ← State.putV_vrf] at he
    exact he
  have h256 : (256 : Nat) ^ e = 2 ^ (8 * e) := by rw [Nat.pow_mul]
  have hlt : (s.elems n e vals.length).getD i 0 < 256 ^ e := by
    rw [List.getD_eq_getElem _ _ (by simpa using hi)]
    exact lt_of_mem_elems (List.getElem_mem _)
  have hg := putOver_getD (old := s.elems n e vals.length) (by simp) hi
  rw [hr, List.getD_eq_getElem _ _ (by simpa [hw] using hi), List.getElem_map, ← List.getD_eq_getElem _ 0, hg, ← h256, List.getD_eq_getElem vals _ hi]
  cases vals[i] with
  | none => exact Nat.mod_eq_of_lt hlt
  | some v => rfl

/-- The register file outside the elements written is as it was. -/
theorem State.read_putV_other (s : State) (n e : Nat) (vals : List (Option Nat)) {x : Nat}
    (hx : x < n * s.rb ∨ n * s.rb + vals.length * e ≤ x) : (s.putV n e vals).cur.vec.vrf.read x = s.cur.vec.vrf.read x := by
  rw [State.putV_vrf, read_write_other]
  simpa [putOver] using hx

/-! ### Results of the elements -/

/-- The results of an entry's elements: those that its mask and its progress make active have one. -/
def State.results (s : State) (q : QEntry) (m : BitVec 3) (r : Nat → FRes) : List (Option FRes) :=
  (List.range s.vl).map fun i => if s.acts q m i then some (r i) else none

/-- A walk over lists of one length gives each active element the function of its operands. -/
theorem walk_eq_map (act : Nat → Bool) (f : Nat → Nat → Nat → FRes) {k : Nat} {as bs ds : List Nat} (ha : as.length = k) (hb : bs.length = k)
    (hd : ds.length = k) (j : Nat) : walk act f j as bs ds =
      (List.range k).map fun i => if act (j + i) then some (f (as.getD i 0) (bs.getD i 0) (ds.getD i 0)) else none := by
  induction k generalizing as bs ds j with
  | zero =>
    obtain rfl := List.eq_nil_of_length_eq_zero ha
    rfl
  | succ k ih =>
    match as, bs, ds, ha, hb, hd with
    | a :: as, b :: bs, d :: ds, ha, hb, hd =>
      simp only [List.length_cons, Nat.add_right_cancel_iff] at ha hb hd
      rw [walk, ih ha hb hd, List.range_succ_eq_map]
      simp [Function.comp_def, Nat.add_assoc, Nat.add_comm 1]

@[simp] theorem State.operandB_length (s : State) (q : QEntry) (sc : Bool) (e k : Nat) : (s.operandB q sc e k).length = k := by
  unfold State.operandB
  split <;> simp

/-- The second operand of an element: the captured scalar, or the element of B. -/
theorem State.operandB_getD (s : State) (q : QEntry) (sc : Bool) (e : Nat) {k i : Nat} (hi : i < k) :
    (s.operandB q sc e k).getD i 0 = if sc then q.xb.toNat % 2 ^ (8 * e) else (s.elems q.b e k).getD i 0 := by
  unfold State.operandB
  cases sc
  · rfl
  · simp [List.getD_eq_getElem?_getD, hi]

/-- The walk of an element-wise entry gives its results. -/
theorem State.walk_eq_results (s : State) (q : QEntry) (m : BitVec 3) (sc : Bool) (f : Nat → Nat → Nat → FRes) (ea eb ed : Nat) :
    Machine.walk (s.acts q m) f 0 (s.elems q.a ea s.vl) (s.operandB q sc eb s.vl) (s.elems q.d ed s.vl) =
      s.results q m fun i => f ((s.elems q.a ea s.vl).getD i 0)
        (if sc then q.xb.toNat % 2 ^ (8 * eb) else (s.elems q.b eb s.vl).getD i 0) ((s.elems q.d ed s.vl).getD i 0) := by
  rw [walk_eq_map _ _ (State.elems_length ..) (State.operandB_length ..) (State.elems_length ..)]
  refine List.map_congr_left fun i hi => ?_
  rw [State.operandB_getD _ _ _ _ (List.mem_range.1 hi), Nat.zero_add]

@[simp] theorem State.results_length (s : State) (q : QEntry) (m : BitVec 3) (r : Nat → FRes) : (s.results q m r).length = s.vl := by
  simp [State.results]

/-- A flag is raised where an element's result raises it. -/
theorem flagsOf_getLsbD (rs : List (Option FRes)) (b : Nat) :
    (flagsOf rs).getLsbD b = rs.any fun r => (r.map fun x => x.flags.getLsbD b).getD false := by
  induction rs using List.reverseRecOn with
  | nil => simp [flagsOf]
  | append_singleton rs r ih =>
    rw [List.any_append, ← ih, flagsOf, List.foldl_append]
    cases r with
    | none => simp [flagsOf]
    | some x => simp [flagsOf]

theorem State.flagsOf_results (s : State) (q : QEntry) (m : BitVec 3) (r : Nat → FRes) (b : Nat) :
    (flagsOf (s.results q m r)).getLsbD b = (List.range s.vl).any fun i => s.acts q m i && (r i).flags.getLsbD b := by
  rw [flagsOf_getLsbD, State.results, List.any_map]
  congr 1
  funext i
  simp only [Function.comp_apply]
  cases s.acts q m i <;> rfl

/-! ### The head of the queue (R29, R72, R281, R297) -/

/-- A thread without streams and lineages performs an entry whose checks pass, with no provisional operand. -/
theorem vexec_settled {s : State} {q : QEntry} (hs : s.settled) (hc : s.checkFrame q = none) (linear : Bool)
    (defs : State → List (Nat × DOp)) (wrote : State → List Nat) (f : State → State) :
    vexec s q linear defs wrote f = done ((f s).endEntry q (s.entryDsts q)) := by
  obtain ⟨hstreams, hlins, htags⟩ := hs
  have hj : ∀ srcs dsts lin w, s.judge srcs dsts lin w = .plain := by
    intro srcs dsts lin w
    have ht : ((srcs.map fun r => s.tag r).filter fun t => decide (t ≠ 0)).dedup = [] := by simp [htags]
    have hh : dsts.any (fun r => s.isHeld r) = false := by simp [State.isHeld, hlins]
    unfold State.judge
    rw [hh, ht]
    rfl
  unfold vexec
  rw [hc]
  dsimp only
  rw [popAll, hstreams, List.filter_nil, popAll.go, hj]

/-- The oldest entry of a resident thread with the lanes performs, and the directory has the progress of what left the queue (R33). -/
theorem complete_of_perform {s t : State} {c : Nat} {q : QEntry} (hh : s.heads c q) (hm : q.op.isMarker = false)
    (hp : perform s q = done t) : exec (.vectorInstructionComplete c) s =
      .next (if t.queue.length < s.queue.length then t.setRegProg (q.targets s) s.vl else t) := by
  obtain ⟨hc, hrun, hlanes, hq⟩ := hh
  obtain ⟨l, hq⟩ := List.head?_eq_some_iff.1 hq
  have hx : exec (.vectorInstructionComplete c) s = execVectorInstructionComplete c s := rfl
  have hf : s.focus c = some s := if_pos hc
  have hl : s.lanes = some s := if_pos (hc ▸ hlanes)
  have hw : performWhole s q = done (if t.queue.length < s.queue.length then t.setRegProg (q.targets s) s.vl else t) := by
    rw [performWhole, hp, seq_done]
  have hh : completeHead s = done (if t.queue.length < s.queue.length then t.setRegProg (q.targets s) s.vl else t) := by
    rw [completeHead, hq]
    dsimp only
    rw [hm, hl]
    dsimp only
    rw [hw, hq]
    rfl
  rw [hx, execVectorInstructionComplete, hf]
  dsimp only
  rw [if_pos hrun, hh]
  rfl

/-- Equality of what the end of an entry leaves alone: all that a program can read but the queue. -/
structure State.SameData (s u : State) : Prop where
  vrf : u.cur.vec.vrf = s.cur.vec.vrf
  rb : u.rb = s.rb
  vstat : u.cur.sys.vstat = s.cur.sys.vstat
  g : u.cur.g = s.cur.g
  masks : u.cur.vec.masks = s.cur.vec.masks
  mem : u.mem = s.mem
  pc : u.cur.pc = s.cur.pc

/-- The end of an entry changes the queue and the directory alone (R29, R33). -/
theorem State.sameData_endEntry (s : State) (q : QEntry) (dsts : List Nat) : s.SameData (s.endEntry q dsts) := by
  unfold State.endEntry
  cases q.upto <;> exact ⟨rfl, rfl, rfl, rfl, rfl, rfl, rfl⟩

/-- The oldest entry leaves the queue where nothing limits it. -/
theorem State.endEntry_queue (s : State) {q : QEntry} (hq : q.upto = none) (dsts : List Nat) : (s.endEntry q dsts).queue = s.queue.tail := by
  rw [State.endEntry, hq]
  exact List.drop_one

section
variable {s : State} {c : Nat} {q : QEntry} (hh : s.heads c q) (hs : s.settled) (hm : q.op.isMarker = false) (hc : s.checkFrame q = none)
include hh hs hm hc

/-- The state that the completion of an entry leaves where nothing is provisional: the entry's own effect, and its end. -/
theorem exec_complete_settled {linear : Bool} {defs : State → List (Nat × DOp)} {wrote : State → List Nat} {f : State → State}
    (hp : perform s q = vexec s q linear defs wrote f) :
    ∃ u, exec (.vectorInstructionComplete c) s = .next u ∧ (f s).SameData u ∧ (q.upto = none → u.queue = (f s).queue.tail) := by
  have h := (f s).sameData_endEntry q (s.entryDsts q)
  have hq := fun hu => (f s).endEntry_queue (q := q) hu (s.entryDsts q)
  rw [vexec_settled hs hc] at hp
  refine ⟨_, complete_of_perform hh hm hp, ?_, fun hu => ?_⟩
  · split
    · exact ⟨h.vrf, h.rb, h.vstat, h.g, h.masks, h.mem, h.pc⟩
    · exact h
  · split <;> exact hq hu

/-- What the completion of an element-wise entry leaves (R15, R21, R33). -/
theorem exec_complete_results (hwf : s.cur.vec.vrf.wf) {linear : Bool} {defs : State → List (Nat × DOp)} {wrote : State → List Nat}
    {f : State → State} {m : BitVec 3} {g : Nat} {r : Nat → FRes} (hp : perform s q = vexec s q linear defs wrote f)
    (hf : f s = s.putRes q.d g (s.results q m r)) :
    ∃ u, exec (.vectorInstructionComplete c) s = .next u ∧ (q.upto = none → u.queue = s.queue.tail) ∧
      (∀ i < s.vl, (u.elems q.d g s.vl).getD i 0 =
        if s.acts q m i then (r i).code % 2 ^ (8 * g) else (s.elems q.d g s.vl).getD i 0) ∧
      (∀ x, x < q.d * s.rb ∨ q.d * s.rb + s.vl * g ≤ x → u.cur.vec.vrf.read x = s.cur.vec.vrf.read x) ∧
      (∀ b, u.cur.sys.vstat.getLsbD b =
        (s.cur.sys.vstat.getLsbD b || (List.range s.vl).any fun i => s.acts q m i && (r i).flags.getLsbD b)) ∧
      u.cur.g = s.cur.g ∧ u.cur.vec.masks = s.cur.vec.masks ∧ u.mem = s.mem ∧ u.cur.pc = s.cur.pc := by
  obtain ⟨u, hu, hd, hq⟩ := exec_complete_settled hh hs hm hc hp
  rw [hf] at hd hq
  have hlen : ((s.results q m r).map fun x => x.map fun y => y.code).length = s.vl := by simp
  refine ⟨u, hu, hq, fun i hi => ?_, fun x hx => ?_, fun b => ?_, hd.g, hd.masks, hd.mem, hd.pc⟩
  · have he := State.elems_putV hwf q.d g hlen hi
    have hue : u.elems q.d g s.vl = (s.putV q.d g ((s.results q m r).map fun x => x.map fun y => y.code)).elems q.d g s.vl := by
      rw [State.elems, hd.vrf, hd.rb]
      rfl
    rw [hue, he, List.getD_eq_getElem _ _ (hlen.symm ▸ hi)]
    simp only [State.results, List.getElem_map, List.getElem_range]
    cases s.acts q m i <;> rfl
  · rw [hd.vrf]
    exact s.read_putV_other q.d g _ (by rwa [hlen])
  · rw [hd.vstat, ← State.flagsOf_results, ← BitVec.getLsbD_or]
    rfl

end

/-- Settles O39: an element-wise entry performs at the head of the queue, and puts the results of its active elements. -/
theorem elementsCompleteAtTheHead : Obligations.ElementsCompleteAtTheHead := by
  unfold Obligations.ElementsCompleteAtTheHead
  intro s c q m sc t hh hs hwf
  refine ⟨fun f hop hc => ?_, fun f hop hc => ?_, fun f hop hc => ?_, fun f hop hc => ?_⟩
  · exact exec_complete_results hh hs (by rw [hop]; rfl) (by rw [State.checkFrame, vframe, hop]; exact hc) hwf
      (by rw [perform, hop]; rfl) (congrArg _ (s.walk_eq_results q m sc (fun a b d => intOp f q.rmode (8 * t.bytes) a b d) _ _ _))
  · exact exec_complete_results hh hs (by rw [hop]; rfl) (by rw [State.checkFrame, vframe, hop]; simpa using hc) hwf
      (by rw [perform, hop]; rfl) (congrArg _ (s.walk_eq_results q m sc (fun a b d => ⟨wideOp f (8 * t.bytes) a b d, 0⟩) _ _ _))
  · exact exec_complete_results hh hs (by rw [hop]; rfl) (by rw [State.checkFrame, vframe, hop]; exact hc) hwf
      (by rw [perform, hop]; rfl) (congrArg _ (s.walk_eq_results q m sc (fun a b _ => nclipOp f q.rmode (8 * t.bytes) a b) _ _ _))
  · exact exec_complete_results hh hs (by rw [hop]; rfl) (by rw [State.checkFrame, vframe, hop]; simpa using hc) hwf
      (by rw [perform, hop]; rfl) (congrArg _ (s.walk_eq_results q m sc (fun a b d => fpOp f t.fmt a b d) _ _ _))

end Sys2Proof.Machine

namespace Sys2Proof.Machine

/-! ### Every step keeps memory canonical -/

/-- Canonical memory in whatever state a part of a meaning hands on. -/
def Res.memWf {α : Type} : Res α → Prop
  | .ok _ s => s.memWf
  | .trap _ s => s.memWf
  | .wait _ s => s.memWf
  | .hole _ => True

/-- Canonical memory in the next state of an outcome, where there is one. -/
def nextWf : Host.Outcome State Fault Refusal → Prop
  | .next s => s.memWf
  | _ => True

/-- Canonical memory in the state in which a step of a command ends. -/
def EngStep.memWf : EngStep → Prop
  | .part s => s.memWf
  | .ended s => s.memWf
  | .fault r _ _ _ => r.2.memWf
  | .waits => True

theorem Res.memWf_of_ok {α : Type} {r : Res α} {v : α} {t : State} (h : r.memWf) (e : r = .ok v t) : t.memWf := by
  subst e
  exact h

theorem Res.memWf_of_trap {α : Type} {r : Res α} {c : Trap} {t : State} (h : r.memWf) (e : r = .trap c t) : t.memWf := by
  subst e
  exact h

theorem Res.memWf_of_wait {α : Type} {r : Res α} {w : Watch} {t : State} (h : r.memWf) (e : r = .wait w t) : t.memWf := by
  subst e
  exact h

theorem EngStep.memWf_of_part {x : EngStep} {t : State} (h : x.memWf) (e : x = .part t) : t.memWf := by
  subst e
  exact h

theorem EngStep.memWf_of_ended {x : EngStep} {t : State} (h : x.memWf) (e : x = .ended t) : t.memWf := by
  subst e
  exact h

theorem EngStep.memWf_of_fault {x : EngStep} {r : Run} {k d v} (h : x.memWf) (e : x = .fault r k d v) : r.2.memWf := by
  subst e
  exact h

section
variable {s : State}

/-- A state with the same memory. -/
theorem memWf_of_mem {t : State} (h : s.memWf) (e : t.mem = s.mem) : t.memWf := by
  rw [State.memWf, e]
  exact h

theorem memWf_set_host {x : State} {y} (h : x.memWf) : State.memWf { x with host := y } := h

theorem memWf_set_link {x : State} {y} (h : x.memWf) : State.memWf { x with link := y } := h

theorem memWf_set_cur {x : State} {y} (h : x.memWf) : State.memWf { x with cur := y } := h

/-- What holds of every value holds of this one: as a step of a proof it replaces a constant by a variable, which neither the
elaborator nor the kernel can evaluate. -/
theorem of_forall {α : Sort*} {motive : α → Prop} (a : α) (all : ∀ x, motive x) : motive a := all a

theorem foldl_memWf {α : Type} {f : State → α → State} (hf : ∀ s x, s.memWf → (f s x).memWf) (l : List α) (h : s.memWf) :
    (l.foldl f s).memWf :=
  List.foldlRecOn l f h fun s hs x _ => hf s x hs

@[simp] theorem Eng.andThen_eq_ok {α β : Type} {e : Eng α} {f : α → Eng β} {z : β} :
    e.andThen f = .ok z ↔ ∃ a, e = .ok a ∧ f a = .ok z := by
  cases e <;> simp [Eng.andThen]

theorem Eng.foldl_ok {α β : Type} {P : α → Prop} {f : α → β → Eng α} (hf : ∀ a x b, P a → f a x = .ok b → P b) (l : List β) {e : Eng α}
    (he : ∀ a, e = .ok a → P a) {z : α} (hz : l.foldl (fun e x => e.andThen fun a => f a x) e = .ok z) : P z := by
  induction l generalizing e with
  | nil => exact he z hz
  | cons x l ih =>
    refine ih (fun b hb => ?_) hz
    obtain ⟨a, ha, hb⟩ := Eng.andThen_eq_ok.1 hb
    exact hf a x b (he a ha) hb

/-! #### Canonical memory: Partitions and their ranges (R9, R197) -/

theorem State.memWf.modPart {p f} (h : s.memWf) : (s.modPart p f).memWf := h

/-! #### Canonical memory: Lines (R92, R134) -/

theorem State.memWf.setLine {l r} (h : s.memWf) : (s.setLine l r).memWf := h

theorem State.memWf.mendScales {pa n} (h : s.memWf) : (s.mendScales pa n).memWf := by
  unfold State.mendScales
  split
  · exact h
  · exact h

theorem State.memWf.dramWrite {pa bs} (h : s.memWf) : (s.dramWrite pa bs).memWf := by
  unfold State.dramWrite
  dsimp only
  split
  · exact h.setLine
  · exact State.memWf.mendScales (write_wf h _ _)

theorem State.memWf.cleanLine {l} (h : s.memWf) : (s.cleanLine l).memWf := by
  unfold State.cleanLine
  dsimp only
  split
  · exact h.setLine
  · exact h

theorem State.memWf.evictLine {l} (h : s.memWf) : (s.evictLine l).memWf := by
  unfold State.evictLine
  dsimp only
  split
  · exact h
  · exact setLine_wf h _ _

/-! #### Canonical memory: Threads -/

theorem State.memWf.focus {c} {t} (h : s.memWf) (e : s.focus c = some t) : t.memWf := by
  unfold State.focus at e
  split at e
  · cases e
    exact h
  · split at e
    · cases e
    · cases e
      exact h

theorem State.memWf.withThread {c} {f : State → State} (h : s.memWf) (hf : ∀ s, s.memWf → (f s).memWf) : (s.withThread c f).memWf := by
  unfold State.withThread
  split
  · exact h
  · rename_i t ht
    have hu := hf t (h.focus ht)
    cases hc : (f t).focus s.cur.id.ctxid with
    | none => exact hu
    | some u => exact hu.focus hc

theorem State.memWf.modThread {c f} (h : s.memWf) : (s.modThread c f).memWf := by
  unfold State.modThread
  split
  · exact h
  · exact h

theorem State.memWf.modThreads {f} (h : s.memWf) : (s.modThreads f).memWf := h

theorem State.memWf.accrue {f} (h : s.memWf) : (s.accrue f).memWf := h

/-! #### Canonical memory: Partitions, cores and launches -/

theorem State.memWf.modLaunch {l f} (h : s.memWf) : (s.modLaunch l f).memWf := h

theorem State.memWf.setCore {p c} (h : s.memWf) : (s.setCore p c).memWf := h

theorem State.memWf.setCluster {k c} (h : s.memWf) : (s.setCluster k c).memWf := h

/-! #### Canonical memory: The rounds of a rotation (R153) -/

theorem State.memWf.joined (h : s.memWf) : (s.joined).memWf := h

/-! #### Canonical memory: Timestamp domains (R93, R99, R101) -/

theorem State.memWf.shiftTs {p up down} (h : s.memWf) : (s.shiftTs p up down).memWf := h

theorem State.memWf.rebase {p} (h : s.memWf) : (s.rebase p).memWf := by
  unfold State.rebase
  split
  · exact h
  · exact h.shiftTs.modPart

theorem State.memWf.rebaseFor {p ts} (h : s.memWf) : (s.rebaseFor p ts).memWf := by
  unfold State.rebaseFor
  split
  · exact h.rebase
  · exact h

/-! #### Canonical memory: Fills (R61 to R63) -/

theorem State.memWf.fillLine {l} (h : s.memWf) : (s.fillLine l).memWf := by
  unfold State.fillLine
  split
  · exact h
  · split
    · exact h.evictLine.setLine
    · exact h.setLine

theorem State.memWf.cacheWrite {pa bs} (h : s.memWf) : (s.cacheWrite pa bs).memWf := State.memWf.mendScales (write_wf h.fillLine.setLine _ _)

/-! #### Canonical memory: Private copies -/

theorem State.memWf.evictL1 {cl l} (h : s.memWf) : (s.evictL1 cl l).memWf := h

theorem State.memWf.putCopy {al c} (h : s.memWf) : (s.putCopy al c).memWf := by
  unfold State.putCopy
  dsimp only
  split
  · exact h
  · exact h
  · split
    · exact h
    · exact h

theorem State.memWf.install {vec al l wts rts} (h : s.memWf) : (s.install vec al l wts rts).memWf := by
  unfold State.install
  split
  · exact h.putCopy
  · exact h.putCopy.putCopy

theorem State.memWf.setPts {t} (h : s.memWf) : (s.setPts t).memWf := h

theorem State.memWf.raisePts {t} (h : s.memWf) : (s.raisePts t).memWf := h.setPts

theorem State.memWf.extend {l} (h : s.memWf) : (s.extend l).memWf := by
  unfold State.extend
  dsimp only
  split
  · split
    · exact h.fillLine.setLine
    · exact h.fillLine.setLine.putCopy
  · exact h.fillLine.setLine

theorem State.memWf.leaseRenew {vec l} (h : s.memWf) : (s.leaseRenew vec l).memWf := h.rebaseFor.extend.install.raisePts

/-! #### Canonical memory: Gathered lines (R105) -/

theorem State.memWf.regather {g} (h : s.memWf) : (s.regather g).2.memWf := memWf_of_mem (foldl_memWf (fun _ _ ht => ht.extend) _ h.rebaseFor) rfl

theorem State.memWf.leaseRead {vec pa n} (h : s.memWf) : (s.leaseRead vec pa n).2.memWf := by
  unfold State.leaseRead
  dsimp only
  split
  · rename_i e
    split at e
    · split
      · dsimp only
        exact h.evictL1.raisePts
      · dsimp only
        exact h.evictL1.raisePts
    · split
      · dsimp only
        exact h.evictL1.raisePts
      · dsimp only
        exact h.raisePts
  · split
    · rename_i e₁
      split at e₁
      · split
        · split
          · dsimp only
            exact h.evictL1.raisePts
          · dsimp only
            exact h.evictL1.regather.raisePts
        · split
          · dsimp only
            exact h.evictL1.raisePts
          · dsimp only
            exact h.evictL1.regather.raisePts
      · cases e₁
    · split
      · dsimp only
        exact h.evictL1.leaseRenew
      · dsimp only
        exact h.leaseRenew

theorem State.memWf.waitRead {pa n} (h : s.memWf) : (s.waitRead pa n).2.memWf := h.rebaseFor.raisePts.leaseRead

/-! #### Canonical memory: The write set (R228, R229; log entry 60) -/

theorem State.memWf.record {p o f} (h : s.memWf) : (s.record p o f).memWf := by
  unfold State.record
  dsimp only
  split
  · exact h
  · split
    · exact h
    · rename_i e
      split at e
      · split
        · exact h.modPart
        · split
          · exact h.modPart.cacheWrite
          · exact h.modPart
      · cases e

theorem State.memWf.captureOld {launch o} (h : s.memWf) : (s.captureOld launch o).memWf := by
  unfold State.captureOld
  split
  · exact h
  · exact h.record.record

theorem State.memWf.capture {launch l} (h : s.memWf) : (s.capture launch l).memWf := h.captureOld

theorem State.memWf.storeAt {launch cl pa bs ts} (h : s.memWf) : (s.storeAt launch cl pa bs ts).memWf := memWf_of_mem h.capture.cacheWrite rfl

theorem State.memWf.leaseWriteBy {vec pol pa bs} (h : s.memWf) : (s.leaseWriteBy vec pol pa bs).memWf := by
  unfold State.leaseWriteBy
  split
  · exact h.rebaseFor.evictL1.storeAt.setLine.install.setPts
  · exact h.rebaseFor.storeAt.setLine.install.setPts

theorem State.memWf.leaseWrite {vec pa bs} (h : s.memWf) : (s.leaseWrite vec pa bs).memWf := h.leaseWriteBy

/-! #### Canonical memory: Answers -/

theorem Res.andThen_memWf {α : Type} {β : Type} {r : Res α} {f : α → State → Res β} (hr : r.memWf) (hf : ∀ x s, s.memWf → (f x s).memWf) :
    (Res.andThen r f).memWf := by
  cases r with
  | ok v t => exact hf v t hr
  | trap | wait => exact hr
  | hole => trivial

theorem Res.seq_memWf {β : Type} {r : Res Unit} {f : State → Res β} (hr : r.memWf) (hf : ∀ s, s.memWf → (f s).memWf) : (Res.seq r f).memWf :=
  Res.andThen_memWf hr (fun _ _ ht => hf _ ht)

/-! #### Canonical memory: Scalar registers and the program counter -/

theorem State.memWf.setX {n v} (h : s.memWf) : (s.setX n v).memWf := by
  unfold State.setX
  split
  · exact h
  · exact h

theorem State.memWf.goto {a} (h : s.memWf) : (s.goto a).memWf := h

theorem State.memWf.retire (h : s.memWf) : (s.retire).memWf := h.goto

theorem State.memWf.trapHere {α : Type} {code detail badva next} (h : s.memWf) : (s.trapHere code detail badva next : Res α).memWf := h

theorem State.memWf.regTrap {α : Type} {detail} (h : s.memWf) : (s.regTrap detail : Res α).memWf := h.trapHere

theorem State.memWf.illegal {α : Type} (h : s.memWf) : (s.illegal : Res α).memWf := h.trapHere

theorem State.memWf.illegalOp {α : Type} (h : s.memWf) : (s.illegalOp : Res α).memWf := h.trapHere

theorem State.memWf.stall {α : Type} (h : s.memWf) : (s.stall : Res α).memWf := h

theorem readG_memWf {β : Type} {n detail} {f : Word → Res β} (h : s.memWf) (hf : ∀ x, (f x).memWf) : (readG s n detail f).memWf := by
  unfold readG
  split
  · exact h.regTrap
  · split
    · exact h.stall
    · exact hf _

theorem checkG_memWf {β : Type} {n detail} {f : Res β} (h : s.memWf) (hf : f.memWf) : (checkG s n detail f).memWf := by
  unfold checkG
  split
  · exact h.regTrap
  · split
    · exact h.stall
    · exact hf

theorem regs3_memWf {d a b} {f : Word → Word → Res Unit} (h : s.memWf) (hf : ∀ x y, (f x y).memWf) : (regs3 s d a b f).memWf :=
  checkG_memWf h (readG_memWf h (fun _ => readG_memWf h (fun _ => hf _ _)))

theorem regs2_memWf {d a} {f : Word → Res Unit} (h : s.memWf) (hf : ∀ x, (f x).memWf) : (regs2 s d a f).memWf :=
  checkG_memWf h (readG_memWf h (fun _ => hf _))

theorem State.memWf.result {d v} (h : s.memWf) : (s.result d v).memWf := h.setX.retire

theorem State.memWf.wake (h : s.memWf) : (s.wake).memWf := h

theorem State.memWf.accepted {m} {f : State → Option (Res Unit)} {r} (h : s.memWf) (hf : ∀ s, s.memWf → ∀ r, f s = some r → r.memWf)
    (e : s.accepted m f = some r) : r.memWf := by
  unfold State.accepted at e
  split at e
  · exact hf _ (by exact h) _ e
  · cases e

/-! #### Canonical memory: Writes that no thread makes (R212, R216, R220) -/

theorem State.memWf.sysStore {pa bs} (h : s.memWf) : (s.sysStore pa bs).memWf := foldl_memWf (fun _ _ h => h.cacheWrite) _ h

theorem State.memWf.putTState {p c st} (h : s.memWf) : (s.putTState p c st).memWf := by
  unfold State.putTState
  dsimp only
  split
  · exact h.sysStore
  · exact trivial

/-! #### Canonical memory: Debug (R226 to R230) -/

theorem State.memWf.note {v} (h : s.memWf) : (s.note v).memWf := by
  unfold State.note
  split
  · exact h
  · split
    · exact h
    · exact h

/-! #### Canonical memory: The save image (R216, R217, R219) -/

theorem State.memWf.writeImage {p} (h : s.memWf) : (s.writeImage p).memWf := by
  unfold State.writeImage
  dsimp only
  split
  · exact memWf_of_mem (foldl_memWf (fun _ _ ht => ht.sysStore) _ h) rfl
  · exact trivial

theorem State.memWf.putPtsSlot (h : s.memWf) : (s.putPtsSlot).memWf := by
  unfold State.putPtsSlot
  dsimp only
  split
  · split
    · exact memWf_of_mem h.sysStore rfl
    · exact h
  · exact h

theorem State.memWf.addPtsSlot {off} (h : s.memWf) : (s.addPtsSlot off).memWf := by
  unfold State.addPtsSlot
  dsimp only
  split
  · split
    · exact h
    · split
      · exact memWf_of_mem h.sysStore rfl
      · exact h
  · exact h

/-! #### Canonical memory: The lanes of a core (R11, R154, R155) -/

theorem State.memWf.passLanes {p} (h : s.memWf) : (s.passLanes p).memWf := by
  unfold State.passLanes
  dsimp only
  split
  · exact h.setCore
  · exact h

theorem State.memWf.releaseLanes (h : s.memWf) : (s.releaseLanes).memWf := h.setCore.passLanes

theorem State.memWf.freeSlot {slot} (h : s.memWf) : (s.freeSlot slot).memWf := h

theorem State.memWf.abandon {why} (h : s.memWf) : (s.abandon why).memWf := by
  unfold State.abandon
  split
  · exact h
  · split
    · exact h
    · exact h

theorem State.memWf.outside (h : s.memWf) : (s.outside).memWf := h.abandon

theorem State.memWf.saveCur {st} (h : s.memWf) : (s.saveCur st).memWf := by
  unfold State.saveCur
  split
  · exact h
  · exact Res.seq_memWf (State.memWf.writeImage h.abandon) (fun _ ht => Res.seq_memWf ht.putTState (fun _ hu => hu.releaseLanes))

theorem State.memWf.raiseEvent {p x2} (h : s.memWf) : (s.raiseEvent p x2).memWf := h.modPart

/-! #### Canonical memory: Taking an exception (R31, R212) -/

theorem State.memWf.deliver {t} (h : s.memWf) : (s.deliver t).memWf := Res.seq_memWf (State.memWf.saveCur h) (fun _ ht => ht.raiseEvent)

theorem State.memWf.takeTrap {t} (h : s.memWf) : (s.takeTrap t).memWf := by
  unfold State.takeTrap
  split
  · exact h.deliver
  · exact h

theorem State.memWf.resumeCur (h : s.memWf) : (s.resumeCur).memWf := by
  unfold State.resumeCur
  split
  · exact h
  · exact Res.seq_memWf h.putTState (fun _ ht => State.memWf.joined ht)

theorem finish_memWf {r : Res Unit} (hr : r.memWf) : nextWf (finish r) := by
  cases r with
  | ok _ t => exact hr
  | hole => trivial
  | wait _ t => exact hr
  | trap c t =>
    have ht := State.memWf.takeTrap (t := c) hr
    unfold finish
    dsimp only
    split
    · exact Res.memWf_of_ok ht ‹_›
    · trivial
    · exact Res.memWf_of_wait ht ‹_›
    · exact Res.memWf_of_trap ht ‹_›

theorem stepOr_memWf {r : Option (Res Unit)} (h : s.memWf) (hr : ∀ x, r = some x → x.memWf) : nextWf (stepOr s r) := by
  cases r with
  | none => exact h
  | some x => exact finish_memWf (hr x rfl)

/-! #### Canonical memory: Local store -/

theorem State.memWf.captureLoc {launch cl off n} (h : s.memWf) : (s.captureLoc launch cl off n).memWf :=
  foldl_memWf (fun _ _ h => h.captureOld) _ h

theorem State.memWf.locWriteAt {launch cl off bs} (h : s.memWf) : (s.locWriteAt launch cl off bs).memWf := h.captureLoc.modLaunch

theorem State.memWf.locWrite {off bs} (h : s.memWf) : (s.locWrite off bs).memWf := h.locWriteAt

theorem State.memWf.seeLoc {off n} (h : s.memWf) : (s.seeLoc off n).memWf := by
  unfold State.seeLoc
  split
  · exact h
  · exact h.raisePts

theorem State.memWf.stampLoc {launch cl off ts} (h : s.memWf) : (s.stampLoc launch cl off ts).memWf := h.modLaunch

/-! #### Canonical memory: Buffered stores of a DET thread (R110, R218) -/

theorem State.memWf.buffer {x} {t} (h : s.memWf) (e : s.buffer x = some t) : t.memWf := by
  unfold State.buffer at e
  dsimp only at e
  split at e
  · cases e
    exact h
  · split at e
    · cases e
    · split at e
      · cases e
      · split at e
        · cases e
          exact State.memWf.sysStore (State.memWf.sysStore h)
        · cases e

theorem State.memWf.performStores {ds} (h : s.memWf) : (s.performStores ds).memWf := by
  refine foldl_memWf (fun _ _ ht => ?_) _ h
  split
  · exact ht.locWrite
  · exact ht.leaseWriteBy

/-! #### Canonical memory: Performing an access -/

theorem State.memWf.load {vec w n} (h : s.memWf) : (s.load vec w n).2.memWf := by
  unfold State.load
  split
  · split
    · split
      · dsimp only
        exact h.evictL1
      · exact h
    · dsimp only
      exact h.leaseRead
  · split
    · exact h
    · dsimp only
      exact h.seeLoc
  · exact h

theorem State.memWf.store {vec va w n v} {t} (h : s.memWf) (e : s.store vec va w n v = some t) : t.memWf := by
  unfold State.store at e
  split at e
  · split at e
    · exact h.buffer e
    · cases e
      exact h.leaseWrite
  · split at e
    · exact h.buffer e
    · cases e
      exact h.locWrite
  · cases e
    exact h

theorem State.memWf.rmwWrite {vec w n v} (h : s.memWf) : (s.rmwWrite vec w n v).memWf := by
  unfold State.rmwWrite
  split
  · exact h.leaseWrite
  · exact h.seeLoc.locWrite
  · exact h

theorem State.memWf.rmwLoad {w n} (h : s.memWf) : (s.rmwLoad w n).2.memWf := by
  unfold State.rmwLoad
  split
  · dsimp only
    exact h.leaseRenew
  · dsimp only
    exact h.seeLoc
  · exact h

/-! #### Canonical memory: The queue and the scalar stream -/

theorem scalarAccess_memWf {n ea w} {f : Where → Res Unit} (h : s.memWf) (hf : ∀ x, (f x).memWf) : (scalarAccess s n ea w f).memWf := by
  unfold scalarAccess
  split
  · split
    · exact h.stall
    · exact h.trapHere
  · split
    · exact h.stall
    · exact hf _

theorem execLds_memWf {d a w o} (h : s.memWf) : nextWf (execLds d a w o s) :=
  finish_memWf (regs2_memWf h fun _ => (scalarAccess_memWf h fun _ => h.load.result))

theorem execLdz_memWf {d a w o} (h : s.memWf) : nextWf (execLdz d a w o s) :=
  finish_memWf (regs2_memWf h fun _ => (scalarAccess_memWf h fun _ => h.load.result))

theorem execSt_memWf {d a w o} (h : s.memWf) : nextWf (execSt d a w o s) := by
  refine finish_memWf (readG_memWf h (fun _ => readG_memWf h (fun _ => scalarAccess_memWf h (fun _ => ?_))))
  split
  · exact h.stall
  · split
    · rename_i e
      exact (h.store e).retire
    · exact h.trapHere

/-! #### Canonical memory: The ALU family -/

theorem execSext_memWf {d a w} (h : s.memWf) : nextWf (execSext d a w s) := by
  refine finish_memWf ?_
  split
  · exact h.illegal
  · exact regs2_memWf h (fun _ => h.result)

theorem execZext_memWf {d a w} (h : s.memWf) : nextWf (execZext d a w s) := by
  refine finish_memWf ?_
  split
  · exact h.illegal
  · exact regs2_memWf h (fun _ => h.result)

/-! #### Canonical memory: Long immediates (R263) -/

theorem execLih_memWf {d i} (h : s.memWf) : nextWf (execLih d i s) := finish_memWf (checkG_memWf h (h.result))

theorem execAddpc_memWf {d i} (h : s.memWf) : nextWf (execAddpc d i s) := finish_memWf (checkG_memWf h (h.result))

/-! #### Canonical memory: AMO and CAS (R335, R336) -/

theorem amo_memWf {d a b f} (h : s.memWf) : (amo s d a b f).memWf :=
  regs3_memWf h fun _ _ => (scalarAccess_memWf h fun _ => h.rmwWrite.note.result)

theorem execCas_memWf {d a b} (h : s.memWf) : nextWf (execCas d a b s) := by
  unfold execCas
  dsimp only
  refine finish_memWf (readG_memWf h (fun _ => readG_memWf h (fun _ => readG_memWf h (fun _ => scalarAccess_memWf h (fun _ => ?_)))))
  split
  · exact h.rmwWrite.note.result
  · exact h.rmwLoad.note.result

/-! #### Canonical memory: Lock words (R156) -/

theorem State.memWf.keyWrite {k v} (h : s.memWf) : (s.keyWrite k v).memWf := by
  unfold State.keyWrite
  split
  · exact h.rmwWrite
  · split
    · exact h.rmwWrite
    · exact h.locWriteAt

theorem State.memWf.setLockQueue {k l} (h : s.memWf) : (s.setLockQueue k l).memWf := h

/-! #### Canonical memory: Inheritance (R157) -/

theorem State.memWf.inheritOnce (h : s.memWf) : (s.inheritOnce).memWf := h.modThreads

theorem State.memWf.inherit (h : s.memWf) : (s.inherit).memWf := foldl_memWf (fun _ _ h => h.inheritOnce) _ h

theorem State.memWf.reinherit (h : s.memWf) : (s.reinherit).memWf := State.memWf.inherit h

theorem State.memWf.handOver {k code} (h : s.memWf) : (s.handOver k code).memWf := by
  unfold State.handOver
  split
  · exact h.keyWrite
  · exact h.keyWrite.setLockQueue.modThread

theorem State.memWf.passLocks (h : s.memWf) : (s.passLocks).memWf := by
  refine State.memWf.inherit (foldl_memWf (fun _ _ h => ?_) _ ?_)
  · split
    · exact h.handOver
    · exact h
  · exact h

theorem State.memWf.setIr {w} (h : s.memWf) : (s.setIr w).memWf := h

/-! #### Canonical memory: Elements -/

theorem State.memWf.putV {n x2 vals} (h : s.memWf) : (s.putV n x2 vals).memWf := h

/-! #### Canonical memory: Masks (R15) -/

theorem State.memWf.putMask {n bs} (h : s.memWf) : (s.putMask n bs).memWf := by
  unfold State.putMask
  split
  · exact h
  · exact h

/-! #### Canonical memory: The head of the queue -/

theorem State.memWf.popQueue (h : s.memWf) : (s.popQueue).memWf := h

theorem State.memWf.setProg {k} (h : s.memWf) : (s.setProg k).memWf := h

theorem State.memWf.setRegProg {regs k} (h : s.memWf) : (s.setRegProg regs k).memWf := h

theorem State.memWf.endEntry {q dsts} (h : s.memWf) : (s.endEntry q dsts).memWf := by
  unfold State.endEntry
  split
  · exact h.popQueue
  · exact h.setProg.setRegProg

theorem vtrap_memWf {α : Type} {q code detail badva} (h : s.memWf) : (vtrap s q code detail badva : Res α).memWf := h

/-! #### Canonical memory: Streams as operands (R289, R290) -/

theorem State.memWf.popStream {x bytes} (h : s.memWf) : (s.popStream x bytes).memWf := h

/-! #### Canonical memory: Provisional operands (R72 to R76) -/

theorem popAll.go_memWf {s : State} {q a} {f : State → Res Unit} {x4 : State} (h : s.memWf) (hf : ∀ s, s.memWf → (f s).memWf)
    (hx4 : x4.memWf) : (popAll.go s q f a x4).memWf := by
  unfold popAll.go
  split
  · exact hf _ hx4
  · split
    · split
      · exact h
      · exact popAll.go_memWf h (fun _ ht => hf _ ht) hx4.popStream
    · exact h
    · exact vtrap_memWf h

theorem popAll_memWf {q regs} {f : State → Res Unit} (h : s.memWf) (hf : ∀ s, s.memWf → (f s).memWf) : (popAll s q regs f).memWf :=
  popAll.go_memWf h (fun _ ht => hf _ ht) h

theorem issueOf_memWf {c} (h : s.memWf) (hx : ∀ i t, t.memWf → nextWf (exec i t)) (hi : ∀ t, t.memWf → nextWf (issue t)) : nextWf
    (issueOf s c) := by
  unfold issueOf
  split
  · exact h
  · rename_i t ht
    have hu := h.focus ht
    split
    · split
      · exact hx _ _ hu
      · exact hi _ hu
    · exact hu

theorem State.memWf.rotate (h : s.memWf) : (s.rotate).memWf := by
  unfold State.rotate
  dsimp only
  split
  · exact h
  · split
    · exact h
    · exact h

theorem State.memWf.afterEvent {t : State} (ht : t.memWf) : (s.afterEvent t).memWf := by
  unfold State.afterEvent
  split
  · cases hc : t.focus s.cur.id.ctxid with
    | none => exact ht
    | some u => exact ht.focus hc
  · exact ht.rotate

theorem State.memWf.logLinear {ln q dsts srcs defs wrote} {s₀ : State} (h : s.memWf) :
    (s.logLinear s₀ ln q dsts srcs defs wrote).memWf := by
  unfold State.logLinear
  split
  · exact h
  · exact h

theorem execSrd_memWf {d n} (h : s.memWf) : nextWf (execSrd d n s) := by
  refine finish_memWf ?_
  split
  · exact h.illegalOp
  · refine checkG_memWf h ?_
    split
    · exact h.result
    · exact h.stall

theorem execSwr_memWf {a n} (h : s.memWf) : nextWf (execSwr a n s) := by
  refine finish_memWf ?_
  split
  · exact h.illegalOp
  · refine readG_memWf h (fun _ => ?_)
    split
    · exact State.memWf.retire h
    · split
      · exact h
      · exact h.stall

/-! #### Canonical memory: Lanes (R11, R154, R155) -/

theorem State.memWf.takeLanes (h : s.memWf) : (s.takeLanes).memWf := h.setCore

theorem State.memWf.queueForLanes (h : s.memWf) : (s.queueForLanes).memWf := by
  unfold State.queueForLanes
  dsimp only
  split
  · exact h
  · exact h.setCore

theorem State.memWf.lanes {t} (h : s.memWf) (e : s.lanes = some t) : t.memWf := by
  unfold State.lanes at e
  dsimp only at e
  split at e
  · cases e
    exact h
  · split at e
    · cases e
    · split at e
      · split at e
        · cases e
          exact h.takeLanes
        · cases e
      · cases e
        exact h.takeLanes

theorem needLanes_memWf {f : State → Res Unit} (h : s.memWf) (hf : ∀ s, s.memWf → (f s).memWf) : (needLanes s f).memWf := by
  unfold needLanes
  split
  · rename_i e
    exact hf _ (h.lanes e)
  · exact h.queueForLanes.stall

/-! #### Canonical memory: The push (R20, R29) -/

theorem capture_memWf {β : Type} {want n} {f : Word → Res β} (h : s.memWf) (hf : ∀ x, (f x).memWf) : (capture s want n f).memWf := by
  unfold capture
  split
  · exact hf _
  · split
    · exact h.stall
    · exact hf _

theorem State.memWf.enqueue {q} (h : s.memWf) : (s.enqueue q).memWf := h

theorem pushAt_memWf {pc word p} {f : State → Res Unit} (h : s.memWf) (hf : ∀ s, s.memWf → (f s).memWf) : (pushAt s pc word p f).memWf := by
  refine capture_memWf h (fun _ => capture_memWf h (fun _ => needLanes_memWf h (fun _ ht => ?_)))
  split
  · exact ht.stall
  · exact hf _ ht.enqueue

theorem pushed_memWf {p} (h : s.memWf) : (pushed s p).memWf := pushAt_memWf h fun _ ht => ht.retire

theorem reservedWord_memWf {w} (h : s.memWf) : nextWf (reservedWord w s) := by
  refine finish_memWf ?_
  split
  · exact pushed_memWf h
  · exact h.illegal

/-! #### Canonical memory: Strip records (R226) -/

theorem State.memWf.closeStrip (h : s.memWf) : (s.closeStrip).memWf := by
  unfold State.closeStrip
  dsimp only
  split
  · split
    · split
      · exact trivial
      · exact h.sysStore.modPart
    · exact h
  · exact h

theorem State.memWf.openStrip {rp va gl} (h : s.memWf) : (s.openStrip rp va gl).memWf := h

theorem State.memWf.modPort {n f} (h : s.memWf) : (s.modPort n f).memWf := h

theorem State.memWf.pumpPort {n} (h : s.memWf) : (s.pumpPort n).memWf := by
  unfold State.pumpPort
  dsimp only
  split
  · exact h
  · split
    · exact h.modPort
    · exact h

theorem State.memWf.sendFlits {port key n} (h : s.memWf) : (s.sendFlits port key n).memWf := h.modPort.pumpPort

theorem State.memWf.sendNotice {ports} (h : s.memWf) : (s.sendNotice ports).memWf := foldl_memWf (fun _ _ h => h.sendFlits) _ h

/-! #### Canonical memory: Barrier instances (R160, R161) -/

theorem State.memWf.releaseBar {launch b node ts} (h : s.memWf) : (s.releaseBar launch b node ts).memWf := h.modThreads

theorem State.memWf.countArrival {launch b lvl pcnt node pts} (h : s.memWf) : (s.countArrival launch b lvl pcnt node pts).memWf := by
  unfold State.countArrival
  dsimp only
  split
  · split
    · exact h.modLaunch.releaseBar.sendNotice
    · exact h.modLaunch
  · split
    · exact h.modLaunch.releaseBar.sendNotice
    · exact h.modLaunch

theorem State.memWf.fireBar {b} (h : s.memWf) : (s.fireBar b).memWf := by
  unfold State.fireBar
  dsimp only
  split
  · exact h
  · split
    · exact State.memWf.sendNotice h
    · exact State.memWf.countArrival h

theorem checkBar_memWf {n} {f : Res Unit} (h : s.memWf) (hf : f.memWf) : (checkBar s n f).memWf := by
  unfold checkBar
  split
  · split
    · exact hf
    · exact h.regTrap
  · exact h.regTrap

theorem putMarker_memWf {op can} {fire : State → State} {f : State → Res Unit} (h : s.memWf) (hfire : ∀ s, s.memWf → (fire s).memWf)
    (hf : ∀ s, s.memWf → (f s).memWf) : (putMarker s op can fire f).memWf := by
  unfold putMarker
  dsimp only
  split
  · exact hf _ (hfire _ h)
  · split
    · exact h.stall
    · exact hf _ h.enqueue

theorem waitBar_memWf {b} (h : s.memWf) : (waitBar s b).memWf := by
  unfold waitBar
  split
  · exact h
  · split
    · exact h.retire
    · split
      · exact h.raisePts.retire
      · exact h

theorem execBarArrive_memWf {n} (h : s.memWf) : nextWf (execBarArrive n s) :=
  finish_memWf (checkBar_memWf h (putMarker_memWf h (fun _ ht => ht.fireBar) fun _ ht => ht.retire))

theorem execBarWait_memWf {n} (h : s.memWf) : nextWf (execBarWait n s) := finish_memWf (checkBar_memWf h (waitBar_memWf h))

theorem execBarArrwait_memWf {n} (h : s.memWf) : nextWf (execBarArrwait n s) := by
  refine finish_memWf (checkBar_memWf h ?_)
  split
  · exact waitBar_memWf h
  · exact putMarker_memWf h (fun _ ht => ht.fireBar) (fun _ ht => waitBar_memWf ht)

/-! #### Canonical memory: The iteration ring (R162, R163) -/

theorem State.memWf.firePost {k i} (h : s.memWf) : (s.firePost k i).memWf := h.modLaunch.modThreads

theorem checkRing_memWf {k} {f : Res Unit} (h : s.memWf) (hf : f.memWf) : (checkRing s k f).memWf := by
  unfold checkRing
  split
  · exact h.regTrap
  · exact hf

theorem execPost_memWf {k a} (h : s.memWf) : nextWf (execPost k a s) :=
  finish_memWf (checkRing_memWf h (readG_memWf h fun _ => (putMarker_memWf h (fun _ ht => ht.firePost) fun _ ht => ht.retire)))

theorem waitRing_memWf {k n its} {f : State → Res Unit} (h : s.memWf) (hf : ∀ s, s.memWf → (f s).memWf) : (waitRing s k n its f).memWf := by
  unfold waitRing
  dsimp only
  split
  · exact hf _ h.raisePts
  · exact h

theorem execWaiti_memWf {k a} (h : s.memWf) : nextWf (execWaiti k a s) := by
  refine finish_memWf (checkRing_memWf h (readG_memWf h (fun _ => ?_)))
  split
  · exact waitRing_memWf h (fun _ ht => ht.retire)
  · split
    · exact h.raisePts.retire
    · split
      · exact h
      · exact h

theorem popScalar_memWf {r} {f : State → Res Unit} (h : s.memWf) (hf : ∀ s, s.memWf → (f s).memWf) : (popScalar s r f).memWf := by
  unfold popScalar
  split
  · split
    · exact h.trapHere
    · exact hf _ h
  · split
    · split
      · exact h.stall
      · exact hf _ h.popStream
    · exact h.stall
    · exact h.trapHere

theorem execWaitv_memWf {d k b} (h : s.memWf) : nextWf (execWaitv d k b s) := by
  refine finish_memWf (checkG_memWf h (checkRing_memWf h ?_))
  split
  · exact h.regTrap
  · split
    · exact waitRing_memWf h (fun _ ht => ht.retire)
    · split
      · exact h.stall
      · split
        · exact h.raisePts.result
        · split
          · exact h.stall
          · split
            · exact h
            · exact popScalar_memWf h (fun _ ht => waitRing_memWf ht.setX (fun _ hu => hu.retire))

/-! #### Canonical memory: The markers as steps of their own -/

theorem doBar_memWf {b} (h : s.memWf) : (doBar s b).memWf := by
  unfold doBar
  split
  · exact h.fireBar.popQueue
  · exact h

theorem doPost_memWf {k i} (h : s.memWf) : (doPost s k i).memWf := by
  unfold doPost
  split
  · exact h.firePost.popQueue
  · exact h

theorem execBarMarkerFire_memWf {c} (h : s.memWf) : nextWf (execBarMarkerFire c s) := by
  refine stepOr_memWf h (fun _ e => ?_)
  obtain ⟨u, hu, e⟩ := Option.bind_eq_some_iff.1 e
  split at e
  · split at e
    · split at e
      · cases e
        exact ((h.focus hu).fireBar).popQueue
      · cases e
    · cases e
  · cases e

theorem execPostMarkerFire_memWf {c} (h : s.memWf) : nextWf (execPostMarkerFire c s) := by
  refine stepOr_memWf h (fun _ e => ?_)
  obtain ⟨u, hu, e⟩ := Option.bind_eq_some_iff.1 e
  split at e
  · split at e
    · split at e
      · cases e
        exact ((h.focus hu).firePost).popQueue
      · cases e
    · cases e
  · cases e

theorem execBarrierArrivalDelivery_memWf {x} (h : s.memWf) : nextWf (execBarrierArrivalDelivery x s) := by
  refine stepOr_memWf h (fun _ ht => h.accepted (fun _ hv _ e => ?_) ht)
  split at e
  · obtain ⟨u, hu, e⟩ := Option.bind_eq_some_iff.1 e
    cases e
    exact hv.countArrival
  · cases e
    exact hv.modLaunch.releaseBar
  · cases e
    exact hv.modLaunch

/-! #### Canonical memory: WAITW (R338, R98) -/

theorem readWatched_memWf {c p} (h : s.memWf) : (readWatched s c p).2.memWf := by
  unfold readWatched
  split
  · dsimp only
    exact h.rmwLoad
  · split
    · dsimp only
      exact h.waitRead
    · dsimp only
      exact h.seeLoc
    · exact h

theorem checkWatched_memWf {d va c p y} (h : s.memWf) : (checkWatched s d va c p y).memWf := by
  unfold checkWatched
  dsimp only
  split
  · exact (((readWatched_memWf h).note).setX).retire
  · exact readWatched_memWf h

theorem waitWatched_memWf {f : Res Unit} (h : s.memWf) (hf : f.memWf) : (waitWatched s f).memWf := by
  unfold waitWatched
  split
  · split
    · exact hf
    · exact checkWatched_memWf h
    · exact h
  · exact hf

theorem waitw_memWf {d a b c} (h : s.memWf) : (waitw s d a b c).memWf :=
  regs3_memWf h fun _ _ => (waitWatched_memWf h (scalarAccess_memWf h fun _ => (checkWatched_memWf h)))

theorem execWaitwRecheck_memWf {c} (h : s.memWf) : nextWf (execWaitwRecheck c s) := by
  refine stepOr_memWf h (fun _ e => ?_)
  obtain ⟨u, hu, e⟩ := Option.bind_eq_some_iff.1 e
  split at e
  · split at e
    · cases e
      exact memWf_of_mem (h.focus hu) rfl
    · cases e
      exact Res.seq_memWf (checkWatched_memWf (h.focus hu)) (fun _ ht => ht.outside)
    · cases e
  · cases e

/-! #### Canonical memory: FENCE (R107, R108, R339) -/

theorem State.memWf.dropFetch {n} (h : s.memWf) : (s.dropFetch n).memWf := h

theorem execFence_memWf {f p v k x4 l} (h : s.memWf) : nextWf (execFence f p v k x4 l s) := by
  unfold execFence
  dsimp only
  refine finish_memWf ?_
  split
  · exact h
  · split
    · exact h.dropFetch.retire
    · exact h.retire

/-! #### Canonical memory: VFENCE and epochs (R109 to R111, R85) -/

theorem State.memWf.drainDet (h : s.memWf) : (s.drainDet).memWf := by
  unfold State.drainDet
  dsimp only
  split
  · split
    · exact State.memWf.sysStore h.performStores
    · exact h.performStores
  · exact h.performStores

theorem State.memWf.settlePts (h : s.memWf) : (s.settlePts).memWf := h

theorem State.memWf.drainMember (h : s.memWf) : (s.drainMember).memWf := State.memWf.drainDet h.settlePts

theorem State.memWf.sendBack {l key cs} (h : s.memWf) : (s.sendBack l key cs).memWf := (foldl_memWf (fun _ _ h => h.modThread) _ h).modLaunch

theorem execDetEpochDrain_memWf {l key} (h : s.memWf) : nextWf (execDetEpochDrain l key s) := by
  unfold execDetEpochDrain
  dsimp only
  refine stepOr_memWf h (fun _ e => ?_)
  split at e
  · cases e
  · split at e
    · cases e
      exact h.sendBack
    · cases e
      refine State.memWf.modLaunch (foldl_memWf (fun _ _ h => h.modThread.withThread fun _ h => h.putPtsSlot) _ ?_)
      refine foldl_memWf (fun _ _ h => h.withThread fun _ h => h.settlePts) _ ?_
      exact foldl_memWf (fun _ _ h => h.withThread fun _ h => h.drainMember) _ h

theorem execVfence_memWf {l} (h : s.memWf) : nextWf (execVfence l s) := by
  unfold execVfence
  dsimp only
  refine finish_memWf ?_
  split
  · split
    · exact h.retire
    · exact h.stall
  · split
    · exact h.retire
    · split
      · exact h
      · split
        · exact h.stall
        · split
          · exact h.trapHere
          · exact h.modLaunch.sendNotice

/-! #### Canonical memory: Drift (R97) -/

theorem State.memWf.driftCur (h : s.memWf) : (s.driftCur).memWf := memWf_of_mem h.rebaseFor rfl

theorem execPtsDrift_memWf {c} (h : s.memWf) : nextWf (execPtsDrift c s) := by
  refine stepOr_memWf h (fun _ e => ?_)
  obtain ⟨u, hu, e⟩ := Option.bind_eq_some_iff.1 e
  split at e
  · cases e
    exact (h.focus hu).driftCur
  · cases e

/-! #### Canonical memory: Saved waiters (R159, R220) -/

theorem execSavedWaiterWake_memWf {c} (h : s.memWf) : nextWf (execSavedWaiterWake c s) := by
  refine stepOr_memWf h fun _ e => ?_
  obtain ⟨u, hu, e⟩ := Option.bind_eq_some_iff.1 e
  have hu := h.focus hu
  split at e
  · obtain ⟨p, -, rfl⟩ := Option.map_eq_some_iff.1 e
    dsimp only
    split
    · trivial
    · split
      · exact Res.seq_memWf hu.putTState fun _ h => State.memWf.joined h
      · split
        · exact hu
        · exact hu.sysStore.raiseEvent
  · cases e

/-! #### Canonical memory: Sending (R362 to R364, R381) -/

theorem State.memWf.send {q pa op} (h : s.memWf) : (s.send q pa op).memWf := h

theorem tokenFrame_memWf {q uses lim} {f : Unit → Res Unit} (h : s.memWf) (hf : ∀ x, (f x).memWf) : (tokenFrame s q uses lim f).memWf := by
  unfold tokenFrame
  split
  · exact vtrap_memWf h
  · split
    · exact vtrap_memWf h
    · split
      · exact vtrap_memWf h
      · split
        · exact vtrap_memWf h
        · exact hf _

theorem doTkarm_memWf {q} (h : s.memWf) : (doTkarm s q).memWf := by
  unfold doTkarm
  dsimp only
  split
  · refine tokenFrame_memWf h (fun _ => ?_)
    split
    · exact vtrap_memWf h
    · split
      · split
        · exact vtrap_memWf h
        · exact vtrap_memWf h
      · exact vtrap_memWf h
      · exact vtrap_memWf h
      · split
        · exact h.load.setX.popQueue
        · exact h.load.send.setProg
  · split
    · exact h
    · exact h.setX.popQueue

theorem doTkdisarm_memWf {q} (h : s.memWf) : (doTkdisarm s q).memWf := by
  refine tokenFrame_memWf h (fun _ => ?_)
  split
  · exact vtrap_memWf h
  · exact h.send.popQueue

theorem sendElems_memWf {s : State} {op a} (h : s.memWf) : (sendElems s op a).1.memWf := by
  unfold sendElems
  split
  · exact h
  · split
    · exact h
    · exact sendElems_memWf h.send

theorem doSends_memWf {q emit op} (h : s.memWf) : (doSends s q emit op).memWf := by
  unfold doSends
  dsimp only
  refine tokenFrame_memWf h (fun _ => ?_)
  split
  · refine popAll_memWf h (fun _ ht => ?_)
    split
    · exact vtrap_memWf (State.memWf.setProg h)
    · split
      · exact State.memWf.popQueue (sendElems_memWf ht)
      · exact (sendElems_memWf ht).popQueue
  · exact h

theorem doTkemit_memWf {q draft} (h : s.memWf) : (doTkemit s q draft).memWf := doSends_memWf h

theorem doTkconf_memWf {q} (h : s.memWf) : (doTkconf s q).memWf := doSends_memWf h

/-! #### Canonical memory: The units (R185, R186) -/

theorem State.memWf.unitWrite {p launch pts ws} (h : s.memWf) : (s.unitWrite p launch pts ws).2.memWf :=
  foldl_memWf (fun _ _ ht => ht.storeAt.setLine) _ h.rebaseFor

theorem State.memWf.sent {u x} (h : s.memWf) : (s.sent u x).memWf := h

theorem State.memWf.verdict {x old v drafts} (h : s.memWf) : (s.verdict x old v drafts).memWf := by
  have hw := fun p a b c => h.unitWrite (p := p) (launch := a) (pts := b) (ws := c)
  unfold State.verdict
  generalize s.unitWrite = f at hw ⊢
  have hw := hw (s.launchOf x.launch).part x.launch x.pts (v.writes old x.pa ++ drafts)
  dsimp only
  split
  · split
    · exact hw.modThread
    · exact hw
  · split
    · exact memWf_set_host hw.modThread
    · exact memWf_set_host hw

theorem State.memWf.serveWrite {x ws} (h : s.memWf) : (s.serveWrite x ws).memWf := h.unitWrite

theorem State.memWf.serveToken {x t} (h : s.memWf) : (s.serveToken x t).memWf := by
  unfold State.serveToken
  dsimp only
  split
  · exact h
  · exact h.verdict

theorem State.memWf.serveConf {x n} (h : s.memWf) : (s.serveConf x n).memWf := by
  unfold State.serveConf
  dsimp only
  split
  · exact h
  · split
    · exact h.serveWrite
    · exact h.verdict

theorem State.memWf.serveDraft {x t} (h : s.memWf) : (s.serveDraft x t).memWf := by
  unfold State.serveDraft
  dsimp only
  split
  · exact h
  · split
    · exact h.serveWrite
    · exact h.serveWrite

theorem State.memWf.serveArm {x w arm ws} (h : s.memWf) : (s.serveArm x w arm ws).memWf := h.serveWrite

theorem State.memWf.serve {x} (h : s.memWf) : (s.serve x).memWf := by
  unfold State.serve
  split
  · exact h
  · split
    · exact h.serveToken
    · exact h.serveDraft
    · exact h.serveConf
    · exact h.serveArm
    · exact h.serveArm

theorem State.memWf.unitStep {u kind} (h : s.memWf) : nextWf (s.unitStep u kind) := by
  refine stepOr_memWf h (fun _ e => ?_)
  obtain ⟨v, hu, e⟩ := Option.bind_eq_some_iff.1 e
  split at e
  · cases e
    exact h.serve.sent
  · cases e

theorem execCatchwordVerdict_memWf {u} (h : s.memWf) : nextWf (execCatchwordVerdict u s) := h.unitStep

theorem execCatchwordDraft_memWf {u} (h : s.memWf) : nextWf (execCatchwordDraft u s) := h.unitStep

theorem execCatchwordArmWrite_memWf {u} (h : s.memWf) : nextWf (execCatchwordArmWrite u s) := h.unitStep

theorem execCatchwordRecordTransfer_memWf {r u} (h : s.memWf) : nextWf (execCatchwordRecordTransfer r u s) := by
  refine stepOr_memWf h (fun _ e => ?_)
  split at e
  · split at e
    · cases e
      split
      · exact h
      · exact h.unitWrite
    · cases e
  · cases e

/-! #### Canonical memory: TKSYNC (R189, R190, R365) -/

theorem State.memWf.seeLines {ls} (h : s.memWf) : (s.seeLines ls).memWf := by
  unfold State.seeLines
  split
  · exact h
  · exact h

theorem execTksync_memWf {d} (h : s.memWf) : nextWf (execTksync d s) := by
  unfold execTksync
  dsimp only
  refine finish_memWf ?_
  split
  · exact h.illegalOp
  · split
    · exact h.regTrap
    · split
      · exact h
      · split
        · exact State.memWf.retire h.putMask.raisePts.seeLines
        · exact State.memWf.trapHere h.putMask.raisePts.seeLines

/-! #### Canonical memory: The common frame (R297, R316) -/

theorem vexec_memWf {q linear defs wrote} {f : State → State} (h : s.memWf) (hf : ∀ s, s.memWf → (f s).memWf) :
    (vexec s q linear defs wrote f).memWf := by
  unfold vexec
  split
  · exact vtrap_memWf h
  · refine popAll_memWf h (fun _ ht => ?_)
    split
    · exact h
    · exact (hf _ ht).endEntry
    · exact (hf _ ht).logLinear.endEntry

theorem vplain_memWf {q} {f : State → State} (h : s.memWf) (hf : ∀ s, s.memWf → (f s).memWf) : (vplain s q f).memWf :=
  vexec_memWf h (fun _ ht => hf _ ht)

theorem State.memWf.putRes {n x2 rs} (h : s.memWf) : (s.putRes n x2 rs).memWf := h.putV.accrue

/-! #### Canonical memory: Corrections (R73) -/

theorem vmove_memWf {q t settled f} (h : s.memWf) : (vmove s q t settled f).memWf := vexec_memWf h fun _ ht => ht.putV

/-! #### Canonical memory: Integer, widening, narrowing and floating-point majors (R299 to R302) -/

theorem doInt_memWf {q f m sc t} (h : s.memWf) : (doInt s q f m sc t).memWf := vplain_memWf h fun _ ht => ht.putRes

theorem doWide_memWf {q f m sc t} (h : s.memWf) : (doWide s q f m sc t).memWf := vplain_memWf h fun _ ht => ht.putRes

theorem doNclip_memWf {q signed m sc t} (h : s.memWf) : (doNclip s q signed m sc t).memWf := vplain_memWf h fun _ ht => ht.putRes

theorem doFp_memWf {q f m sc t} (h : s.memWf) : (doFp s q f m sc t).memWf := vexec_memWf h fun _ ht => ht.putRes

/-! #### Canonical memory: Compares and select (R303, R304) -/

theorem doCmp_memWf {q f m sc t} (h : s.memWf) : (doCmp s q f m sc t).memWf := vplain_memWf h fun _ ht => ht.putMask.accrue

theorem doSel_memWf {q m sc t} (h : s.memWf) : (doSel s q m sc t).memWf := vexec_memWf h fun _ ht => ht.putV

/-! #### Canonical memory: Slides, gather, compress, moves (R305, R306, R309, R310) -/

theorem doSlide_memWf {q up m t} (h : s.memWf) : (doSlide s q up m t).memWf := vmove_memWf h

theorem doGather_memWf {q m sc t} (h : s.memWf) : (doGather s q m sc t).memWf := vmove_memWf h

theorem doCompress_memWf {q m t} (h : s.memWf) : (doCompress s q m t).memWf := vmove_memWf h

/-! #### Canonical memory: Key merge (R307) -/

theorem doMerge_memWf {q t} (h : s.memWf) : (doMerge s q t).memWf := vplain_memWf h fun _ ht => ht.putV.putV.accrue

/-! #### Canonical memory: Masks (R308, R313) -/

theorem doMlog_memWf {q f} (h : s.memWf) : (doMlog s q f).memWf := vplain_memWf h fun _ ht => ht.putMask

theorem doMnot_memWf {q m} (h : s.memWf) : (doMnot s q m).memWf := vplain_memWf h fun _ ht => ht.putMask

theorem doMpart_memWf {q f m} (h : s.memWf) : (doMpart s q f m).memWf := vplain_memWf h fun _ ht => ht.putMask

theorem doMpop_memWf {q m} (h : s.memWf) : (doMpop s q m).memWf := vplain_memWf h fun _ ht => ht.setX

theorem doMfirst_memWf {q m} (h : s.memWf) : (doMfirst s q m).memWf := vplain_memWf h fun _ ht => ht.setX

/-! #### Canonical memory: VUNARY functions 0 to 15 (R309) -/

theorem doOne_memWf {q f m t} (h : s.memWf) : (doOne s q f m t).memWf := by
  unfold doOne
  split
  · exact vmove_memWf h
  · exact vexec_memWf h (fun _ ht => ht.putRes)

theorem doSplat_memWf {q m t} (h : s.memWf) : (doSplat s q m t).memWf := vplain_memWf h fun _ ht => ht.putV

theorem doMvsx_memWf {q m t} (h : s.memWf) : (doMvsx s q m t).memWf := by
  refine vplain_memWf h (fun _ ht => ?_)
  split
  · exact ht.putV
  · exact ht

theorem doMvxs_memWf {q t} (h : s.memWf) : (doMvxs s q t).memWf := vplain_memWf h fun _ ht => ht.setX

theorem doVid_memWf {q m t} (h : s.memWf) : (doVid s q m t).memWf := vplain_memWf h fun _ ht => ht.putV

theorem doIota_memWf {q m t} (h : s.memWf) : (doIota s q m t).memWf := vplain_memWf h fun _ ht => ht.putV

/-! #### Canonical memory: Reductions (R57, R58, R312) -/

theorem doRed_memWf {q f m t} (h : s.memWf) : (doRed s q f m t).memWf := by
  unfold doRed
  dsimp only
  refine vplain_memWf h (fun _ ht => ?_)
  split
  · exact ht
  · exact ht.putV.accrue

/-! #### Canonical memory: Sorting (R314) -/

theorem doSortk_memWf {q m t} (h : s.memWf) : (doSortk s q m t).memWf := vplain_memWf h fun _ ht => ht.putV

theorem doUniq_memWf {q m t} (h : s.memWf) : (doUniq s q m t).memWf := vplain_memWf h fun _ ht => ht.putMask

/-! #### Canonical memory: Conversions (R51, R315) -/

theorem doToF4_memWf {q m t} (h : s.memWf) : (doToF4 s q m t).memWf := vplain_memWf h fun _ ht => ht.putV.putV.accrue

theorem doFromF4_memWf {q m t} (h : s.memWf) : (doFromF4 s q m t).memWf := vplain_memWf h fun _ ht => ht.putRes

theorem doCvt_memWf {q f m t} (h : s.memWf) : (doCvt s q f m t).memWf := by
  unfold doCvt
  split
  · exact doToF4_memWf h
  · exact doFromF4_memWf h
  · exact vplain_memWf h (fun _ ht => ht.putRes)

theorem issueV_memWf {op x} (h : s.memWf) : (issueV s op x).memWf := pushed_memWf h

theorem issueU_memWf {op x ca} (h : s.memWf) : (issueU s op x ca).memWf := pushed_memWf h

/-! #### Canonical memory: VCONF, VSETL, VREL -/

theorem execVconf_memWf {n} (h : s.memWf) : nextWf (execVconf n s) := by
  refine finish_memWf (needLanes_memWf h (fun _ ht => ?_))
  split
  · exact ht.stall
  · split
    · exact ht.trapHere
    · split
      · exact ht.retire
      · exact State.memWf.retire ht

theorem execVsetl_memWf {d a b w} (h : s.memWf) : nextWf (execVsetl d a b w s) := by
  refine finish_memWf (regs3_memWf h (fun _ _ => ?_))
  split
  · split
    · exact h.trapHere
    · exact h.stall
  · refine needLanes_memWf h (fun _ ht => ?_)
    split
    · exact ht.stall
    · exact Res.seq_memWf ht.closeStrip (fun _ ht => State.memWf.result ht.openStrip.enqueue.note)

theorem execVrel_memWf (h : s.memWf) : nextWf (execVrel s) := by
  refine finish_memWf ?_
  split
  · exact h.stall
  · exact State.memWf.retire (State.memWf.releaseLanes h)

/-! #### Canonical memory: FRAME (R278) -/

theorem State.memWf.setFrame {f} (h : s.memWf) : (s.setFrame f).memWf := h

theorem frameCopies_memWf {ps sd sa sb last a} (h : s.memWf) : (frameCopies ps sd sa sb last a s).memWf := by
  delta frameCopies frameCopies._f
  induction State.frameBad using of_forall with
  | all bad =>
    induction a generalizing s with
    | nil => exact h.setFrame.goto
    | cons x l ih =>
      dsimp -zeta only
      extract_lets +onlyGivenNames t
      have ht : t.memWf := h.setFrame
      clear_value t
      split
      · exact ht
      · extract_lets +onlyGivenNames pc p
        split
        · split
          · exact ht
          · exact ht.stall
        · exact pushAt_memWf ht fun _ h => ih h

theorem execFrame_memWf {r n x y z} (h : s.memWf) : nextWf (execFrame r n x y z s) := by
  refine finish_memWf ?_
  split
  · exact h
  · exact frameCopies_memWf h

/-! #### Canonical memory: Streams (R287 to R293) -/

theorem State.memWf.setStreams {l} (h : s.memWf) : (s.setStreams l).memWf := h

theorem State.memWf.streamTrap {α : Type} {d} (h : s.memWf) : (s.streamTrap d : Res α).memWf := h.trapHere

theorem checkV_memWf {d} {f : Res Unit} (h : s.memWf) (hf : f.memWf) : (checkV s d f).memWf := by
  unfold checkV
  split
  · exact h.regTrap
  · exact hf

theorem State.memWf.gangMap {x f} (h : s.memWf) : (s.gangMap x f).memWf := foldl_memWf (fun _ _ h => h.modThread) _ h

theorem State.memWf.markStale {x} (h : s.memWf) : (s.markStale x).memWf := by
  unfold State.markStale
  split
  · exact h
  · exact h.gangMap

theorem execVstreamBind_memWf {d a b} (h : s.memWf) : nextWf (execVstreamBind d a b s) := by
  unfold execVstreamBind
  dsimp only
  refine finish_memWf (checkV_memWf h (readG_memWf h (fun _ => readG_memWf h (fun _ => ?_))))
  split
  · exact h.streamTrap
  · split
    · exact h.streamTrap
    · split
      · split
        · exact h.stall
        · exact h.trapHere
      · split
        · exact h.stall
        · split
          · exact h.streamTrap
          · split
            · exact h.streamTrap
            · split
              · exact h.stall
              · exact State.memWf.retire (State.memWf.markStale (memWf_of_mem h.load rfl))

theorem State.memWf.unbind {x} (h : s.memWf) : (s.unbind x).memWf := h

theorem State.memWf.rewind {x} (h : s.memWf) : (s.rewind x).memWf := h.setStreams

theorem unbindOr_memWf {d rewind} (h : s.memWf) : (unbindOr s d rewind).memWf := by
  have hone : ∀ (t : State) (x : Stream), t.memWf → (if rewind then t.rewind x else t.unbind x).memWf := by
    intro t x ht
    split
    · exact ht.rewind
    · exact ht.unbind
  have hact : ∀ (t : State) (x : Stream), t.memWf → (match t.cur.vec.streams.find? x.gangOf with
      | none => t
      | some y => if rewind then t.rewind y else t.unbind y).memWf := by
    intro t x ht
    split
    · exact ht
    · exact hone _ _ ht
  unfold unbindOr
  refine checkV_memWf h ?_
  dsimp only
  split
  · exact h.retire
  · rw [if_neg Bool.false_ne_true]
    split
    · exact h.streamTrap
    · split
      · exact h.stall
      · split
        · exact State.memWf.retire (hone _ _ h)
        · split
          · exact h
          · exact State.memWf.retire (hact _ _ (foldl_memWf (fun _ _ h => (h.withThread fun _ h => hact _ _ h).modThread) _ h))

theorem execVstreamUnbind_memWf {d} (h : s.memWf) : nextWf (execVstreamUnbind d s) := finish_memWf (unbindOr_memWf h)

theorem execVstreamRewind_memWf {d} (h : s.memWf) : nextWf (execVstreamRewind d s) := finish_memWf (unbindOr_memWf h)

theorem streamLoad_memWf {x w} (h : s.memWf) : (streamLoad s x w).2.memWf := State.memWf.load h

theorem readStrip_memWf {s : State} {x a} {r} (h : s.memWf) (e : readStrip s x a = .ok r) : r.2.memWf := by
  unfold readStrip at e
  dsimp only at e
  split at e
  · cases e
    exact h
  · split at e
    · cases e
    · split at e
      · rename_i e₁
        cases e
        dsimp only
        exact readStrip_memWf (streamLoad_memWf h) e₁
      · cases e

theorem State.memWf.afterStrip {x} (h : s.memWf) : (s.afterStrip x).memWf := by
  unfold State.afterStrip
  split
  · exact h
  · exact foldl_memWf (fun _ _ ht => ht.modThread) _ h.gangMap

theorem memWf_modThreads {l : List Thread} {f : Thread → Thread} (h : s.memWf) :
    (l.foldl (fun (s : State) t => s.modThread t.id.ctxid f) s).memWf :=
  foldl_memWf (fun _ _ h => h.modThread) l h

theorem execStreamReadahead_memWf {c r} (h : s.memWf) : nextWf (execStreamReadahead c r s) := by
  refine stepOr_memWf h (fun _ e => ?_)
  obtain ⟨u, hu, e⟩ := Option.bind_eq_some_iff.1 e
  obtain ⟨x, -, e⟩ := Option.bind_eq_some_iff.1 e
  have hu := h.focus hu
  extract_lets +onlyGivenNames n same due full ms ok put at e
  have hput : ∀ f t, t.memWf → (put f t).memWf := fun _ _ ht => memWf_modThreads ht
  clear_value put ok
  split at e
  · cases e
  · split at e
    · cases e
      exact hput _ _ hu
    · rename_i z hz
      cases e
      have hr : (if x.mask = 0 ∨ u.isDet then u else u.raisePts (u.gangPts x)).memWf := by
        split
        · exact hu
        · exact hu.raisePts
      exact hput _ _ (readStrip_memWf hr hz).afterStrip

/-! #### Canonical memory: Shadowed buffers (R113 to R116) -/

theorem State.memWf.modShadow {p x2 f} (h : s.memWf) : (s.modShadow p x2 f).memWf := h

theorem State.memWf.captureShadow {launch b ns} (h : s.memWf) : (s.captureShadow launch b ns).memWf := foldl_memWf (fun _ _ h => h.captureOld) _ h

theorem State.memWf.shadowWrite {p x2 writer off bs} (h : s.memWf) : (s.shadowWrite p x2 writer off bs).memWf := by
  unfold State.shadowWrite
  split
  · exact h
  · exact h.captureShadow.modShadow

theorem State.memWf.rebaseWith {p high pts} (h : s.memWf) : (s.rebaseWith p high pts).2.memWf := by
  unfold State.rebaseWith
  split
  · dsimp only
    exact h.rebase
  · exact h

theorem State.memWf.publish {p launch x3 pts} (h : s.memWf) : (s.publish p launch x3 pts).2.memWf := by
  unfold State.publish
  dsimp only
  split
  · exact h
  · split
    · exact h
    · dsimp only
      exact (foldl_memWf (fun _ _ ht => ht.setLine) _ h.captureShadow.unitWrite).modShadow

theorem State.memWf.cancelLines {writer} (h : s.memWf) : (s.cancelLines writer).memWf := h

theorem execPublish_memWf {a} (h : s.memWf) : nextWf (execPublish a s) := by
  unfold execPublish
  dsimp only
  refine finish_memWf (readG_memWf h (fun _ => ?_))
  split
  · exact h.publish.setPts.retire
  · exact h.publish.retire

/-! #### Canonical memory: Sync words (R121, R122) -/

theorem execSyncw_memWf {a b} (h : s.memWf) : nextWf (execSyncw a b s) := by
  refine finish_memWf (readG_memWf h (fun _ => readG_memWf h (fun _ => ?_)))
  split
  · split
    · exact h.stall
    · exact h.trapHere
  · split
    · exact h.stall
    · exact h.rmwWrite.retire

theorem execSyncwait_memWf {d a b} (h : s.memWf) : nextWf (execSyncwait d a b s) := by
  refine finish_memWf (regs3_memWf h (fun _ _ => waitWatched_memWf h ?_))
  split
  · split
    · exact h.stall
    · exact h.trapHere
  · split
    · exact h.stall
    · exact checkWatched_memWf h

/-! #### Canonical memory: Engine accesses (R127, R222) -/

theorem State.memWf.homeRead {p pts lease l} (h : s.memWf) : (s.homeRead p pts lease l).2.2.memWf := by
  unfold State.homeRead
  dsimp only
  split
  · exact h.rebaseWith.fillLine.setLine.putCopy
  · exact h.rebaseWith.fillLine.setLine

theorem engRead_memWf {ea n} {r : Run} {z} (hr : r.2.memWf) (e : engRead r ea n = .ok z) : z.2.2.memWf := by
  refine Eng.foldl_ok (P := fun z : List Byte × Run => z.2.2.memWf) (fun a p b ha hb => ?_) _ ?_ e
  · grind [State.memWf.homeRead]
  · grind

theorem engWrite_memWf {x ea bs} {r : Run} {z} (hr : r.2.memWf) (e : engWrite r x ea bs = .ok z) : z.2.memWf := by
  refine Eng.foldl_ok (P := fun r : Run => r.2.memWf) (fun a p b ha hb => ?_) _ ?_ e
  · grind [State.memWf.locWriteAt, State.memWf.shadowWrite]
  · grind

theorem syncUpdate_memWf {x launch pts sync f} {z} (h : s.memWf) (e : syncUpdate s x launch pts sync f = .ok z) : z.2.2.memWf := by
  unfold syncUpdate at e
  dsimp only at e
  split at e
  · cases e
  · cases e
  · split at e
    · cases e
    · split at e
      · cases e
        exact h.rebaseWith.unitWrite
      · split at e
        · cases e
          exact h.rebaseWith.unitWrite.publish
        · cases e
          exact h.rebaseWith.unitWrite.publish.setLine
  · split at e
    · cases e
      exact h.locWriteAt
    · split at e
      · cases e
        exact h.locWriteAt.publish
      · cases e
        exact h.locWriteAt.publish.stampLoc

/-! #### Canonical memory: The end of a command (R125, R346, R347) -/

theorem State.memWf.sendEnd {c} (h : s.memWf) : (s.sendEnd c).memWf := by
  unfold State.sendEnd
  split
  · exact h
  · split
    · split
      · exact h
      · exact h.sendFlits
    · exact h

theorem State.memWf.advanceXfd {owner ch} (h : s.memWf) : (s.advanceXfd owner ch).memWf := h.modThread

theorem State.memWf.putCmd {c} (h : s.memWf) : (s.putCmd c).memWf := h

theorem State.memWf.endCmd {c} (h : s.memWf) : (s.endCmd c).memWf := h.putCmd.advanceXfd

theorem setErr_memWf {bad} {r : Run} {z} (hr : r.2.memWf) (e : setErr r bad = .ok z) : z.2.memWf := by
  unfold setErr at e
  dsimp only at e
  split at e
  · cases e
    dsimp only
    exact hr.sendEnd
  · split at e
    · cases e
      exact hr
    · split at e
      · rename_i e₁
        cases e
        split
        · dsimp only
          exact syncUpdate_memWf hr e₁
        · dsimp only
          exact syncUpdate_memWf hr e₁
      · split at e
        · cases e
          exact hr
        · cases e
      · cases e
        exact hr

theorem writeRecord_memWf {bad} {r : Run} {z} (hr : r.2.memWf) (e : writeRecord r bad = .ok z) : z.2.memWf := by
  unfold writeRecord at e
  dsimp only at e
  split at e
  · cases e
    exact hr
  · split at e
    · split at e
      · cases e
        exact hr
      · cases e
    · split at e
      · cases e
        exact hr
      · cases e
    · cases e
      split
      · dsimp only
        exact hr.locWriteAt
      · dsimp only
        exact hr.locWriteAt
    · split at e
      · cases e
        exact hr
      · cases e
        split
        · dsimp only
          exact hr.unitWrite
        · dsimp only
          exact hr.unitWrite

theorem publishEnd_memWf {r : Run} (hr : r.2.memWf) : (publishEnd r).2.memWf := by
  unfold publishEnd
  dsimp only
  split
  · exact hr
  · split
    · rename_i e
      split at e
      · split
        · dsimp only
          exact hr.publish
        · dsimp only
          exact hr.publish
      · split
        · dsimp only
          exact hr.publish
        · dsimp only
          exact hr.publish
    · split
      · dsimp only
        exact hr.publish
      · dsimp only
        exact hr.publish

theorem endWith_memWf {status bad} {r : Run} (hr : r.2.memWf) : (endWith r status bad).memWf := by
  unfold endWith
  extract_lets +onlyGivenNames c₀ c t e
  have ht : t.memWf := by
    unfold t
    split
    · exact hr
    · exact hr.cancelLines
  have he : ∀ z, e = .ok z → z.2.memWf := by
    intro z hz
    unfold e at hz
    split at hz
    · cases hz
      exact ht
    · split at hz
      · cases hz
        exact publishEnd_memWf ht
      · exact setErr_memWf ht hz
  clear_value e t
  split
  · exact ht
  · trivial
  · rename_i z
    have hz := he z rfl
    extract_lets +onlyGivenNames y₀ y
    have hy : y.2.memWf := hz
    clear_value y
    split
    · rename_i w hw
      exact (writeRecord_memWf hy hw).endCmd
    · exact hy
    · trivial

/-! #### Canonical memory: Collectives (R88, R351) -/

theorem collReady_memWf {g} {x0 : Run} {z} (hx0 : x0.2.memWf) (e : collReady x0 g = some (.ok z)) : z.2.memWf := by
  unfold collReady at e
  dsimp only at e
  split at e
  · cases e
  · obtain ⟨y, hy, hz⟩ := Eng.andThen_eq_ok.1 (Option.some.inj e)
    have hw := engRead_memWf hx0 hy
    cases hz
    exact hw

theorem execCollContributionReceive_memWf {x} (h : s.memWf) : nextWf (execCollContributionReceive x s) := by
  refine stepOr_memWf h (fun _ ht => h.accepted (fun _ hu _ e => ?_) ht)
  cases e
  split
  · exact hu
  · exact hu

/-! #### Canonical memory: Remote pushes (R131, R221, R350) -/

theorem State.memWf.writeRuns {part handle writer ws} (h : s.memWf) : (s.writeRuns part handle writer ws).memWf :=
  foldl_memWf (fun _ _ h => h.shadowWrite) _ h

theorem State.memWf.pushErr {x} {t} (h : s.memWf) (e : s.pushErr x = .ok t) : t.memWf := by
  unfold State.pushErr at e
  split at e
  · cases e
    exact h
  · split at e
    · rename_i e₁
      cases e
      exact syncUpdate_memWf h e₁
    · cases e
    · cases e
      exact h

theorem State.memWf.closePush {x status} (h : s.memWf) : (s.closePush x status).memWf := h

theorem State.memWf.holdPush {x k d v} {t} (h : s.memWf) (e : s.holdPush x k d v = some t) : t.memWf := by
  unfold State.holdPush at e
  split at e
  · cases e
  · cases e
    exact State.memWf.raiseEvent h

theorem State.memWf.failPush {x status} {t} (h : s.memWf) (e : s.failPush x status = some t) : t.memWf := by
  unfold State.failPush at e
  split at e
  · rename_i e₁
    cases e
    split
    · exact (h.pushErr e₁).closePush
    · exact memWf_of_mem (h.pushErr e₁) rfl
  · exact h.cancelLines.holdPush e
  · cases e

theorem State.memWf.abortPush {x} (h : s.memWf) : (s.abortPush x).memWf := by
  unfold State.abortPush
  split
  · rename_i e
    exact (h.pushErr e).closePush
  · exact h.closePush

theorem State.memWf.receivePart {x} {t} (h : s.memWf) (e : s.receivePart x = some t) : t.memWf := by
  unfold State.receivePart at e
  split at e
  · cases e
    exact h
  · dsimp only at e
    split at e
    · cases e
      exact memWf_set_link h
    · split at e
      · exact h.failPush e
      · cases e
        exact memWf_set_link h.cancelLines
      · split at e
        · cases e
        · split at e
          · exact h.failPush e
          · split at e
            · exact h.holdPush e
            · have hw := h.writeRuns (part := x.dom) (handle := x.handle) (writer := pushWriter x) (ws := x.runs)
              split at e
              · rename_i z hz
                have hz := syncUpdate_memWf hw hz
                cases e
                split
                · split
                  · exact memWf_set_link (State.memWf.publish (memWf_set_link hz))
                  · exact memWf_set_link (memWf_set_link hz)
                · exact memWf_set_link (memWf_set_link hz)
              · exact h.holdPush e
              · exact hw.failPush e

theorem execRemotePartReceive_memWf {x} (h : s.memWf) : nextWf (execRemotePartReceive x s) := by
  refine stepOr_memWf h fun _ e => ?_
  refine h.accepted (fun t ht r e => ?_) e
  obtain ⟨u, hu, rfl⟩ := Option.map_eq_some_iff.1 e
  exact ht.receivePart hu

/-! #### Canonical memory: Contributions -/

theorem State.memWf.sendContribution {c} (h : s.memWf) : (s.sendContribution c).memWf := by
  unfold State.sendContribution
  split
  · split
    · exact foldl_memWf (fun _ _ ht => ht.sendFlits) _ h
    · exact h
  · exact h

/-! #### Canonical memory: The parts of a command -/

theorem elemBytes_memWf {k} {r : Run} {z} (hr : r.2.memWf) (e : elemBytes r k = .ok z) : z.2.2.memWf := by
  unfold elemBytes at e
  dsimp only at e
  split at e
  · cases e
    exact hr
  · split at e
    · cases e
      exact hr
    · obtain ⟨y, hy, hz⟩ := Eng.andThen_eq_ok.1 e
      have hw := engRead_memWf hr hy
      cases hz
      exact hw

theorem partData_memWf {ks} {r : Run} {z} (hr : r.2.memWf) (e : partData r ks = .ok z) : z.2.2.memWf := by
  refine Eng.foldl_ok (P := fun z : List (Int × List Byte) × Run => z.2.2.memWf) (fun a k b ha hb => ?_) _ ?_ e
  · obtain ⟨y, hy, hz⟩ := Eng.andThen_eq_ok.1 hb
    have hw := elemBytes_memWf ha hy
    cases hz
    exact hw
  · intro a ha
    cases ha
    exact hr

theorem countPart_memWf {r : Run} (hr : r.2.memWf) : (countPart r).memWf := by
  unfold countPart
  dsimp only
  split
  · exact hr.putCmd
  · split
    · exact hr
    · exact endWith_memWf hr
    · rename_i e
      split
      · exact (syncUpdate_memWf hr e).putCmd
      · exact (syncUpdate_memWf hr e).putCmd

theorem engWrites_memWf {x : Dest} {ws : List (Int × List Byte)} {r : Run} {z} (hr : r.2.memWf)
    (e : ws.foldl (fun (e : Eng Run) w => e.andThen fun z => engWrite z x w.1 w.2) (.ok r) = .ok z) : z.2.memWf := by
  refine Eng.foldl_ok (P := fun r : Run => r.2.memWf) (fun a p b ha hb => engWrite_memWf ha hb) _ ?_ e
  intro a ha
  cases ha
  exact hr

theorem nextPart_memWf {r : Run} (hr : r.2.memWf) : (nextPart r).memWf := by
  unfold nextPart
  dsimp only
  split
  · exact countPart_memWf hr
  · split
    · exact hr
    · exact endWith_memWf hr
    · rename_i a ha
      have ha := partData_memWf hr ha
      split
      · split
        · split
          · exact hr
          · exact countPart_memWf ha.writeRuns
        · split
          · exact endWith_memWf hr
          · exact countPart_memWf ha.sendFlits
      · split
        · exact hr
        · exact endWith_memWf hr
        · rename_i z hz
          have hw := engWrites_memWf ha hz
          exact countPart_memWf hw

theorem State.memWf.engNext {c} (h : s.memWf) : (s.engNext c).memWf := by
  unfold State.engNext
  dsimp only
  split
  · exact trivial
  · split
    · exact endWith_memWf h
    · split
      · split
        · exact endWith_memWf h
        · split
          · split
            · exact trivial
            · exact endWith_memWf h
          · split
            · split
              · exact trivial
              · rename_i e
                exact nextPart_memWf (collReady_memWf h e)
              · exact h
              · exact endWith_memWf h
            · exact nextPart_memWf h
      · split
        · exact endWith_memWf h
        · split
          · split
            · exact trivial
            · exact endWith_memWf h
          · split
            · split
              · exact trivial
              · rename_i e
                exact nextPart_memWf (collReady_memWf h e)
              · exact h
              · exact endWith_memWf h
            · exact nextPart_memWf h

theorem execSyncCount_memWf {n} (h : s.memWf) : nextWf (execSyncCount n s) := by
  refine stepOr_memWf h (fun _ e => ?_)
  obtain ⟨u, hu, e⟩ := Option.bind_eq_some_iff.1 e
  split at e
  · rename_i e₁
    cases e
    exact EngStep.memWf_of_part h.engNext e₁
  · cases e

theorem execEngineCommandComplete_memWf {n} (h : s.memWf) : nextWf (execEngineCommandComplete n s) := by
  refine stepOr_memWf h (fun _ e => ?_)
  obtain ⟨u, hu, e⟩ := Option.bind_eq_some_iff.1 e
  split at e
  · rename_i e₁
    cases e
    exact EngStep.memWf_of_ended h.engNext e₁
  · cases e

theorem State.memWf.pauseCmd {k d v} {r : Run} (hr : r.2.memWf) : (s.pauseCmd r k d v).memWf := hr.putCmd.raiseEvent

theorem execEngineFaultPause_memWf {n} (h : s.memWf) : nextWf (execEngineFaultPause n s) := by
  refine stepOr_memWf h (fun _ e => ?_)
  obtain ⟨u, hu, e⟩ := Option.bind_eq_some_iff.1 e
  split at e
  · rename_i e₁
    cases e
    exact State.memWf.pauseCmd (EngStep.memWf_of_fault h.engNext e₁)
  · cases e

theorem execEngineErrorRepair_memWf {n} (h : s.memWf) : nextWf (execEngineErrorRepair n s) := by
  refine stepOr_memWf h (fun _ e => ?_)
  obtain ⟨u, e, rfl⟩ := Option.map_eq_some_iff.1 e
  exact h

theorem State.memWf.abortCmd {c status} (h : s.memWf) : (s.abortCmd c status).memWf := by
  unfold State.abortCmd
  split
  · rename_i e
    exact EngStep.memWf_of_ended (endWith_memWf h) e
  · rename_i e₁
    exact State.memWf.pauseCmd (EngStep.memWf_of_fault (endWith_memWf h) e₁)
  · exact h

theorem State.memWf.cancelCmds {owner} (h : s.memWf) : (s.cancelCmds owner).memWf := foldl_memWf (fun _ _ h => h.cancelLines.sendEnd.endCmd) _ h

/-! #### Canonical memory: Issue (R344) -/

theorem copyIssue_memWf {fn d a b} (h : s.memWf) : (copyIssue s fn d a b).memWf := by
  refine checkG_memWf h (readG_memWf h (fun _ => ?_))
  split
  · exact h.regTrap
  · split
    · split
      · exact h.stall
      · exact h.trapHere
    · split
      · exact h.stall
      · exact State.memWf.result (State.memWf.sendContribution (memWf_of_mem h.load rfl))

theorem execXfwait_memWf {a b} (h : s.memWf) : nextWf (execXfwait a b s) := by
  unfold execXfwait
  dsimp only
  refine finish_memWf ?_
  split
  · exact h.regTrap
  · refine readG_memWf h (fun _ => ?_)
    split
    · exact h.raisePts.retire
    · exact h

/-! #### Canonical memory: SHADOW (R352) -/

theorem execShadow_memWf {d a} (h : s.memWf) : nextWf (execShadow d a s) := by
  have hl : ∀ p, (s.load false p 32).2.memWf := fun _ => h.load
  unfold execShadow
  generalize s.load false = f at hl ⊢
  generalize natBytes = g
  refine finish_memWf (regs2_memWf h fun x => ?_)
  split
  · split
    · exact h.stall
    · exact h.trapHere
  · split
    · exact h.stall
    · dsimp only
      split
      · exact (hl _).result
      · split
        · exact (hl _).trapHere
        · split
          · exact (hl _).trapHere
          · split
            · exact (hl _).result
            · split
              · exact (hl _).result
              · exact State.memWf.result (hl _)

theorem execShadowRelease_memWf {d b} (h : s.memWf) : nextWf (execShadowRelease d b s) := by
  unfold execShadowRelease
  dsimp only
  refine finish_memWf (checkG_memWf h (readG_memWf h (fun _ => ?_)))
  split
  · exact h.result
  · split
    · exact h.stall
    · exact State.memWf.result h

theorem loadFields_memWf {s : State} {n a} (h : s.memWf) : (loadFields s n a).2.memWf := by
  unfold loadFields
  split
  · exact h
  · dsimp only
    exact loadFields_memWf h.load

theorem loadElems_memWf {s : State} {n a} (h : s.memWf) : (loadElems s n a).2.memWf := by
  unfold loadElems
  split
  · exact h
  · dsimp only
    exact loadElems_memWf (loadFields_memWf h)

theorem storeFields_memWf {s : State} {n a x3} {t} (h : s.memWf) (e : storeFields s n a x3 = .ok t) : t.memWf := by
  unfold storeFields at e
  split at e
  · cases e
    exact h
  · cases e
    exact h
  · split at e
    · rename_i e₁
      exact storeFields_memWf (h.store e₁) e
    · cases e

theorem storeElems_memWf {s : State} {n value loses a} (h : s.memWf) : (storeElems s n value loses a).1.memWf := by
  unfold storeElems
  split
  · exact h
  · split
    · exact storeElems_memWf h
    · split
      · rename_i e
        exact storeElems_memWf (storeFields_memWf h e)
      · exact h

theorem memFrame_memWf {q lim uses} {f : Unit → Res Unit} (h : s.memWf) (hf : ∀ x, (f x).memWf) : (memFrame s q lim uses f).memWf := by
  unfold memFrame
  split
  · exact vtrap_memWf h
  · split
    · exact vtrap_memWf h
    · split
      · exact hf _
      · exact h

theorem putLoaded_memWf {q size nf vals} (h : s.memWf) : (putLoaded s q size nf vals).memWf := foldl_memWf (fun _ _ h => h.putV) _ h

theorem State.memWf.stopAt {i offs} (h : s.memWf) : (s.stopAt i offs).memWf := h

theorem State.memWf.loadStopAt {q f w i offs} (h : s.memWf) : (s.loadStopAt q f w i offs).memWf := h.setRegProg.stopAt

theorem State.memWf.setFstat {n} (h : s.memWf) : (s.setFstat n).memWf := h

theorem putScales_memWf {q bs} (h : s.memWf) : (putScales s q bs).memWf := h.putV.accrue

theorem doLoad_memWf {q f m w} (h : s.memWf) : (doLoad s q f m w).memWf := by
  unfold doLoad
  dsimp only
  refine memFrame_memWf h (fun _ => ?_)
  split
  · exact vtrap_memWf h
  · split
    · split
      · split
        · exact ((putScales_memWf (putLoaded_memWf (loadElems_memWf h))).setFstat).popQueue
        · exact ((putLoaded_memWf (loadElems_memWf h)).setFstat).popQueue
      · split
        · exact (putScales_memWf (putLoaded_memWf (loadElems_memWf h))).popQueue
        · exact (putLoaded_memWf (loadElems_memWf h)).popQueue
    · rename_i e
      split at e
      · split
        · exact ((putLoaded_memWf (loadElems_memWf h)).setFstat).popQueue
        · split
          · exact vtrap_memWf ((putScales_memWf (putLoaded_memWf (loadElems_memWf h))).loadStopAt)
          · exact vtrap_memWf ((putLoaded_memWf (loadElems_memWf h)).loadStopAt)
      · split
        · exact ((putLoaded_memWf (loadElems_memWf h)).setFstat).popQueue
        · split
          · exact vtrap_memWf ((putScales_memWf (putLoaded_memWf (loadElems_memWf h))).loadStopAt)
          · exact vtrap_memWf ((putLoaded_memWf (loadElems_memWf h)).loadStopAt)

theorem doStore_memWf {q f m w} (h : s.memWf) : (doStore s q f m w).memWf := by
  unfold doStore
  dsimp only
  refine memFrame_memWf h (fun _ => ?_)
  split
  · exact vtrap_memWf ((storeElems_memWf h).stopAt)
  · exact vtrap_memWf ((storeElems_memWf h).stopAt)
  · exact (storeElems_memWf h).popQueue

/-! #### Canonical memory: VAMO (R84, R294) -/

theorem doAmo_memWf {q f m w} (h : s.memWf) : (doAmo s q f m w).memWf := by
  unfold doAmo
  refine memFrame_memWf h fun _ => ?_
  dsimp only
  split
  · exact vtrap_memWf h
  · refine State.memWf.popQueue (State.memWf.putV ?_)
    refine List.foldlRecOn _ _ (motive := fun a : State × List (Word × Nat) => a.1.memWf) h fun a ha x _ => ?_
    exact (ha.rmwWrite.accrue).note

theorem doMem_memWf {q f m w} (h : s.memWf) : (doMem s q f m w).memWf := by
  unfold doMem
  split
  · exact doStore_memWf h
  · exact doLoad_memWf h

/-! #### Canonical memory: Shares (R317, R320, R321) -/

theorem State.memWf.setShare {x1} (h : s.memWf) : (s.setShare x1).memWf := h

theorem State.memWf.setAcc {x1 c a} (h : s.memWf) : (s.setAcc x1 c a).memWf := h.setShare

theorem State.memWf.setGrant {n} (h : s.memWf) : (s.setGrant n).memWf := h

theorem pressFrame_memWf {q uses own} {f : Share → Res Unit} (h : s.memWf) (hf : ∀ x, (f x).memWf) : (pressFrame s q uses own f).memWf := by
  unfold pressFrame
  split
  · exact vtrap_memWf h
  · split
    · exact vtrap_memWf h
    · split
      · exact vtrap_memWf h
      · split
        · exact vtrap_memWf h
        · split
          · exact vtrap_memWf h
          · exact hf _

theorem doAttach_memWf {q rows} (h : s.memWf) : (doAttach s q rows).memWf := by
  unfold doAttach
  dsimp only
  split
  · exact vtrap_memWf h
  · split
    · exact vtrap_memWf h
    · split
      · exact h.setGrant.popQueue
      · exact State.memWf.popQueue h

/-! #### Canonical memory: Finishing a contraction (R70, R331) -/

theorem State.memWf.setLin {ln l} (h : s.memWf) : (s.setLin ln l).memWf := h.setCore

theorem finishAcc_memWf {c} (h : s.memWf) : (finishAcc s c).memWf := by
  unfold finishAcc
  dsimp only
  split
  · exact h
  · split
    · exact h
    · split
      · exact h.setAcc.accrue
      · exact h.setAcc.accrue.setLin

theorem doPfin_memWf {q c} (h : s.memWf) : (doPfin s q c).memWf := pressFrame_memWf h fun _ => (finishAcc_memWf h).popQueue

theorem State.memWf.detach (h : s.memWf) : (s.detach).memWf := by
  unfold State.detach
  dsimp only
  split
  · exact h.setCluster.setShare.setGrant
  · exact h.setShare.setGrant

theorem finishAll_memWf (h : s.memWf) : (finishAll s).memWf := foldl_memWf (fun _ _ ht => finishAcc_memWf ht) _ h

theorem doDetach_memWf {q} (h : s.memWf) : (doDetach s q).memWf := by
  unfold doDetach
  dsimp only
  refine pressFrame_memWf h (fun _ => ?_)
  split
  · exact ((finishAll_memWf h).detach).popQueue
  · exact finishAll_memWf h

/-! #### Canonical memory: Operand loads (R322 to R325) -/

theorem loadGroup_memWf {code p} (h : s.memWf) : (loadGroup s code p).2.memWf := h.load

theorem loadGroups_memWf {s : State} {code a} (h : s.memWf) : (loadGroups s code a).2.memWf := by
  unfold loadGroups
  split
  · exact h
  · dsimp only
    exact loadGroups_memWf (loadGroup_memWf h)

theorem loadLine_memWf {code eas} (h : s.memWf) : (loadLine s code eas).2.1.memWf := by
  unfold loadLine
  dsimp only
  split
  · exact h
  · dsimp only
    exact loadGroups_memWf h

theorem loadLines_memWf {s : State} {q code kgroups a} (h : s.memWf) : (loadLines s q code kgroups a).2.1.memWf := by
  unfold loadLines
  dsimp only
  split
  · exact h
  · split
    · exact h
    · dsimp only
      exact loadLines_memWf (loadLine_memWf h)

theorem doPldaMem_memWf {q code k} (h : s.memWf) : (doPldaMem s q code k).memWf := by
  unfold doPldaMem
  dsimp only
  refine pressFrame_memWf h (fun _ => ?_)
  split
  · exact vtrap_memWf h
  · split
    · exact vtrap_memWf h
    · split
      · exact h
      · split
        · exact vtrap_memWf (((loadLines_memWf h).setShare).setProg)
        · exact ((loadLines_memWf h).setShare).popQueue

theorem doPldbMem_memWf {q code k} (h : s.memWf) : (doPldbMem s q code k).memWf := by
  unfold doPldbMem
  dsimp only
  refine pressFrame_memWf h (fun _ => ?_)
  split
  · exact vtrap_memWf h
  · split
    · exact vtrap_memWf h
    · split
      · exact h
      · split
        · exact vtrap_memWf (((loadLines_memWf h).setCluster).setProg)
        · exact ((loadLines_memWf h).setCluster).popQueue

theorem doPldaReg_memWf {q code k} (h : s.memWf) : (doPldaReg s q code k).memWf := by
  unfold doPldaReg
  dsimp only
  refine pressFrame_memWf h (fun _ => ?_)
  split
  · exact h
  · split
    · exact h
    · exact popAll_memWf h (fun _ ht => ht.setShare.popQueue)
    · exact h.setShare.logLinear.popQueue

theorem doPldbReg_memWf {q code k} (h : s.memWf) : (doPldbReg s q code k).memWf := by
  unfold doPldbReg
  dsimp only
  refine pressFrame_memWf h (fun _ => ?_)
  split
  · exact h
  · split
    · exact popAll_memWf h (fun _ ht => ht.setCluster.popQueue)
    · exact h

/-! #### Canonical memory: Multiply-accumulate (R64 to R69, R326, R379) -/

theorem State.memWf.addEntry {ln x2} (h : s.memWf) : (s.addEntry ln x2).memWf := by
  unfold State.addEntry
  split
  · exact h
  · exact h.setLin

theorem pmmaRun_memWf {q x2 cl scaled c koff k} (h : s.memWf) : (pmmaRun s q x2 cl scaled c koff k).memWf := h

theorem State.memWf.logAcc {ln q c defs held} (h : s.memWf) : (s.logAcc ln q c defs held).memWf := by
  unfold State.logAcc
  dsimp only
  split
  · exact h.addEntry
  · exact h.addEntry.setAcc

theorem doPmma_memWf {q scaled c koff k} (h : s.memWf) : (doPmma s q scaled c koff k).memWf := by
  unfold doPmma
  dsimp only
  refine pressFrame_memWf h (fun _ => ?_)
  split
  · exact h
  · split
    · split
      · exact vtrap_memWf h
      · exact (pmmaRun_memWf h).popQueue
    · split
      · split
        · exact vtrap_memWf h
        · exact ((pmmaRun_memWf h).logAcc).popQueue
      · exact h
    · exact h

/-! #### Canonical memory: Zeroing, reading and writing accumulators (R327 to R329) -/

theorem doPzero_memWf {q c} (h : s.memWf) : (doPzero s q c).memWf := by
  unfold doPzero
  dsimp only
  refine pressFrame_memWf h (fun _ => ?_)
  split
  · exact h
  · exact State.memWf.popQueue h

theorem doPrdacc_memWf {q c} (h : s.memWf) : (doPrdacc s q c).memWf := by
  unfold doPrdacc
  dsimp only
  refine pressFrame_memWf h (fun _ => ?_)
  split
  · exact h
  · split
    · exact h
    · split
      · exact h
      · split
        · exact h.putV.popQueue
        · exact State.memWf.popQueue h

theorem doPwracc_memWf {q c} (h : s.memWf) : (doPwracc s q c).memWf := by
  unfold doPwracc
  dsimp only
  refine pressFrame_memWf h (fun _ => ?_)
  split
  · exact h
  · split
    · exact h
    · exact popAll_memWf h (fun _ ht => ht.setAcc.popQueue)
  · split
    · exact h
    · exact h.setAcc.logAcc.popQueue

/-! #### Canonical memory: Publishing (R330) -/

theorem State.memWf.setLnact {n b} (h : s.memWf) : (s.setLnact n b).memWf := h

theorem doPpub_memWf {q c ln} (h : s.memWf) : (doPpub s q c ln).memWf := by
  unfold doPpub
  dsimp only
  split
  · exact vtrap_memWf h
  · split
    · exact vtrap_memWf h
    · refine pressFrame_memWf h (fun _ => ?_)
      split
      · exact h
      · exact h.setAcc.setLin.setLnact.popQueue

/-! #### Canonical memory: Errors in a multiply (R221, R224) -/

theorem State.memWf.bothRegs {f} (h : s.memWf) : (s.bothRegs f).memWf := h

theorem State.memWf.dropLin {ln} (h : s.memWf) : (s.dropLin ln).memWf := State.memWf.setLnact h

theorem State.memWf.nanLin {ln} (h : s.memWf) : (s.nanLin ln).memWf := h

theorem pressError_memWf {q c} (h : s.memWf) : (pressError s q c).memWf := by
  unfold pressError
  dsimp only
  split
  · exact h
  · split
    · split
      · exact h.setAcc.popQueue
      · exact h.setAcc.nanLin.dropLin.popQueue
    · split
      · exact h.setAcc.popQueue
      · exact h.setAcc.nanLin.dropLin.popQueue

/-! #### Canonical memory: CLEANR and INVALR (R135, R355, R378) -/

theorem maintain_memWf {n a b} {f : List ℕ → State} (h : s.memWf) (hf : ∀ x, (f x).memWf) : (maintain s n a b f).memWf := by
  unfold maintain
  dsimp only
  refine readG_memWf h (fun _ => readG_memWf h (fun _ => ?_))
  split
  · exact h.trapHere
  · rename_i e
    split at e
    · split
      · exact h.stall
      · exact (hf _).retire
    · split
      · exact h.stall
      · exact (hf _).retire

theorem execCleanr_memWf {a b} (h : s.memWf) : nextWf (execCleanr a b s) :=
  finish_memWf (maintain_memWf h fun _ => (foldl_memWf (fun _ _ h => h.cleanLine) _ h))

theorem State.memWf.invalidate {ts l} (h : s.memWf) : (s.invalidate ts l).memWf := setLine_wf h _ _

theorem execInvalr_memWf {a b} (h : s.memWf) : nextWf (execInvalr a b s) := by
  refine finish_memWf (maintain_memWf h (fun _ => ?_))
  split
  · exact h
  · exact (foldl_memWf (fun _ _ ht => ht.invalidate) _ h.rebaseFor).setPts

/-! #### Canonical memory: Bank descriptors (R356, R375, R376) -/

theorem execBankcmd_memWf {d a} (h : s.memWf) : nextWf (execBankcmd d a s) := by
  unfold execBankcmd
  dsimp only
  refine finish_memWf (regs2_memWf h (fun _ => ?_))
  split
  · split
    · exact h.stall
    · exact h.trapHere
  · split
    · exact h.stall
    · split
      · exact h.load.trapHere
      · exact h.load.trapHere
      · exact State.memWf.result h.load

theorem execBankwait_memWf {d a} (h : s.memWf) : nextWf (execBankwait d a s) := by
  refine finish_memWf (regs2_memWf h (fun _ => ?_))
  split
  · exact h.result
  · split
    · exact h.result
    · exact h

/-! #### Canonical memory: What a row holds (R79 to R81, R357, R375) -/

theorem State.memWf.putBank {k} (h : s.memWf) : (s.putBank k).memWf := h

theorem State.memWf.captureBank {k l} (h : s.memWf) : (s.captureBank k l).memWf := h.record

theorem BankCmd.produce_memWf {k} {r} (h : s.memWf) (e : BankCmd.produce k s = some r) : r.2.memWf := by
  obtain ⟨z, -, rfl⟩ := Option.map_eq_some_iff.1 e
  refine foldl_memWf (fun s p h => ?_) _ h
  split
  · exact h.captureBank.dramWrite
  · exact h

theorem produceRows_memWf {s : State} {a x1} (h : s.memWf) : (produceRows a x1 s).2.memWf := by
  unfold produceRows
  split
  · exact h
  · split
    · rename_i e
      exact produceRows_memWf (BankCmd.produce_memWf h e)
    · exact h

/-! #### Canonical memory: Invalidations and pins (R202, R203) -/

theorem State.memWf.settleInvals (h : s.memWf) : (s.settleInvals).memWf := h

theorem State.memWf.bankEnd {k status} (h : s.memWf) : (s.bankEnd k status).memWf := by
  unfold State.bankEnd
  dsimp only
  split
  · exact h.putBank
  · split
    · exact h.putBank
    · split
      · exact h.putBank
      · exact h.unitWrite.putBank

theorem execBankCommandComplete_memWf {n} (h : s.memWf) : nextWf (execBankCommandComplete n s) := by
  refine stepOr_memWf h (fun _ e => ?_)
  obtain ⟨u, hu, e⟩ := Option.bind_eq_some_iff.1 e
  split at e
  · cases e
  · split at e
    · cases e
      exact h.bankEnd
    · cases e
      exact (produceRows_memWf h).bankEnd

theorem execBankCommandPause_memWf {n r} (h : s.memWf) : nextWf (execBankCommandPause n r s) := by
  refine stepOr_memWf h (fun _ e => ?_)
  obtain ⟨u, hu, e⟩ := Option.bind_eq_some_iff.1 e
  split at e
  · cases e
  · cases e
    exact (produceRows_memWf h).putBank

theorem execBankCommandContinue_memWf {n} (h : s.memWf) : nextWf (execBankCommandContinue n s) := by
  refine stepOr_memWf h (fun _ e => ?_)
  obtain ⟨u, hu, e⟩ := Option.bind_eq_some_iff.1 e
  split at e
  · cases e
    exact h.putBank
  · cases e

theorem execBankUnitError_memWf {n} (h : s.memWf) : nextWf (execBankUnitError n s) := by
  refine stepOr_memWf h (fun _ e => ?_)
  obtain ⟨u, e, rfl⟩ := Option.map_eq_some_iff.1 e
  exact h

theorem State.memWf.cancelBanks {owner} (h : s.memWf) : (s.cancelBanks owner).memWf := h

/-! #### Canonical memory: The end of waiting for pins (R202, R203) -/

theorem execPinTimeoutAbort_memWf {p} (h : s.memWf) : nextWf (execPinTimeoutAbort p s) := by
  unfold execPinTimeoutAbort
  dsimp only
  refine stepOr_memWf h (fun _ e => ?_)
  obtain ⟨u, hu, e⟩ := Option.bind_eq_some_iff.1 e
  obtain ⟨v, hu, e⟩ := Option.bind_eq_some_iff.1 e
  split at e
  · cases e
  · cases e
    exact foldl_memWf (fun _ _ ht => ht.bankEnd.raiseEvent) _ h.wake.modPart

theorem doSetvl_memWf {vl sew} (h : s.memWf) : (doSetvl s vl sew).memWf := h.popQueue

theorem doPload_memWf {q isB reg fmt k} (h : s.memWf) : (doPload s q isB reg fmt k).memWf := by
  unfold doPload
  split
  · exact doPldaMem_memWf h
  · exact doPldaReg_memWf h
  · exact doPldbMem_memWf h
  · exact doPldbReg_memWf h

theorem perform_memWf {q} (h : s.memWf) : (perform s q).memWf := by
  unfold perform
  split
  · exact doInt_memWf h
  · exact doWide_memWf h
  · exact doNclip_memWf h
  · exact doFp_memWf h
  · exact doCmp_memWf h
  · exact doSel_memWf h
  · exact doSlide_memWf h
  · exact doGather_memWf h
  · exact doMerge_memWf h
  · exact doMlog_memWf h
  · exact doOne_memWf h
  · exact doSplat_memWf h
  · exact doMvsx_memWf h
  · exact doMvxs_memWf h
  · exact doVid_memWf h
  · exact doIota_memWf h
  · exact doCompress_memWf h
  · exact doRed_memWf h
  · exact doMpop_memWf h
  · exact doMfirst_memWf h
  · exact doMnot_memWf h
  · exact doMpart_memWf h
  · exact doSortk_memWf h
  · exact doUniq_memWf h
  · exact doCvt_memWf h
  · exact doMem_memWf h
  · exact doAmo_memWf h
  · exact doSetvl_memWf h
  · exact doBar_memWf h
  · exact doPost_memWf h
  · exact doAttach_memWf h
  · exact doDetach_memWf h
  · exact doPload_memWf h
  · exact doPmma_memWf h
  · exact doPzero_memWf h
  · exact doPrdacc_memWf h
  · exact doPwracc_memWf h
  · exact doPpub_memWf h
  · exact doPfin_memWf h
  · exact doTkarm_memWf h
  · exact doTkdisarm_memWf h
  · exact doTkemit_memWf h
  · exact doTkconf_memWf h
  · exact vtrap_memWf h

theorem performWhole_memWf {q} (h : s.memWf) : (performWhole s q).memWf := by
  refine Res.seq_memWf (perform_memWf h) (fun _ ht => ?_)
  split
  · exact ht.setRegProg
  · exact ht

/-! #### Canonical memory: Element-wise chaining (R33; log entry 30) -/

theorem State.memWf.ahead {q n} {r} (h : s.memWf) (e : s.ahead q n = some r) : r.2.memWf := by
  unfold State.ahead at e
  split at e
  · cases e
    exact h
  · dsimp only at e
    split at e
    · cases e
      rename_i ht
      exact memWf_of_mem (Res.memWf_of_ok (perform_memWf (by exact h)) ht) rfl
    · cases e

theorem chainOn_memWf {s : State} {old a} (h : s.memWf) : (chainOn s old a).2.memWf := by
  unfold chainOn
  dsimp only
  split
  · exact h
  · split
    · exact h
    · split
      · split
        · exact h
        · rename_i e
          dsimp only
          exact chainOn_memWf (h.ahead e)
      · exact h

theorem flightOn_memWf {s : State} {a x3} {t : State} (h : s.memWf) (ht : t.memWf) : (flightOn s t a x3).memWf := by
  unfold flightOn
  split
  · exact ht
  · split
    · exact flightOn_memWf h ht.setRegProg
    · exact flightOn_memWf h ht.setRegProg

theorem State.memWf.flight (h : s.memWf) : (s.flight).memWf := flightOn_memWf h h

theorem State.memWf.chained (h : s.memWf) : (s.chained).memWf := by
  unfold State.chained
  split
  · exact h
  · split
    · exact h
    · exact chainOn_memWf h

/-! #### Canonical memory: The head of the queue and the drain -/

theorem completeHead_memWf (h : s.memWf) : (completeHead s).memWf := by
  unfold completeHead
  split
  · exact h
  · split
    · exact perform_memWf h
    · split
      · exact h.queueForLanes
      · rename_i e
        split
        · rename_i e₁
          split
          · exact ((Res.memWf_of_trap (performWhole_memWf (h.lanes e)) e₁).chained).flight
          · exact Res.memWf_of_trap (performWhole_memWf (h.lanes e)) e₁
        · exact performWhole_memWf (h.lanes e)

theorem drain_memWf {s : State} {a} (h : s.memWf) : (drain a s).memWf := by
  unfold drain
  split
  · exact h
  · split
    · exact h
    · split
      · rename_i e
        exact drain_memWf (Res.memWf_of_ok (completeHead_memWf h) e)
      · rename_i e
        exact Res.memWf_of_trap (completeHead_memWf h) e
      · rename_i e
        split
        · exact (Res.memWf_of_wait (completeHead_memWf h) e).flight
        · exact Res.memWf_of_wait (completeHead_memWf h) e
      · exact trivial

theorem State.memWf.drained {f : State → Res Unit} (h : s.memWf) (hf : ∀ s, s.memWf → (f s).memWf) : (s.drained f).memWf := by
  unfold State.drained
  split
  · rename_i e
    exact hf _ (Res.memWf_of_ok (drain_memWf h) e)
  · rename_i e
    exact Res.memWf_of_wait (drain_memWf h) e
  · rename_i e
    exact Res.memWf_of_trap (drain_memWf h) e
  · exact trivial

theorem execVectorInstructionComplete_memWf {c} (h : s.memWf) : nextWf (execVectorInstructionComplete c s) := by
  unfold execVectorInstructionComplete
  split
  · exact h
  · rename_i e
    split
    · split
      · rename_i e₁
        exact Res.memWf_of_wait (completeHead_memWf (h.focus e)) e₁
      · exact finish_memWf (completeHead_memWf (h.focus e))
    · exact h

theorem execTrapDelivery_memWf {c} (h : s.memWf) : nextWf (execTrapDelivery c s) := by
  refine stepOr_memWf h (fun _ e => ?_)
  obtain ⟨u, hu, e⟩ := Option.bind_eq_some_iff.1 e
  split at e
  · cases e
    exact (h.focus hu).drained (fun _ ht => ht.deliver)
  · cases e

theorem State.memWf.saveDrained (h : s.memWf) : (s.saveDrained).memWf := by
  unfold State.saveDrained
  split
  · exact h.deliver
  · exact h.saveCur

theorem execPressErrorRerun_memWf {c again} (h : s.memWf) : nextWf (execPressErrorRerun c again s) := by
  refine stepOr_memWf h fun _ e => ?_
  obtain ⟨u, hu, e⟩ := Option.bind_eq_some_iff.1 e
  have hu := h.focus hu
  split at e
  · split at e
    · cases e
      split
      · have hp := fun q a => pressError_memWf (q := q) (c := a) hu
        split
        · exact (Res.memWf_of_trap (hp _ _) ‹_›).flight
        · exact hp _ _
      · exact hu
    · cases e
  · cases e

theorem transfer_memWf {t} {f : State → State} (h : s.memWf) (hf : ∀ s, s.memWf → (f s).memWf) : (transfer s t f).memWf := by
  unfold transfer
  split
  · exact h.trapHere
  · split
    · exact h.trapHere
    · exact (hf _ h).goto

theorem branch_memWf {a b d c} (h : s.memWf) : (branch s a b d c).memWf := by
  refine readG_memWf h (fun _ => readG_memWf h (fun _ => ?_))
  split
  · exact transfer_memWf h (fun _ ht => ht.note)
  · exact h.note.retire

theorem execJ_memWf {d} (h : s.memWf) : nextWf (execJ d s) := finish_memWf (transfer_memWf h (fun _ ht => ht))

theorem execJal_memWf {d} (h : s.memWf) : nextWf (execJal d s) := finish_memWf (checkG_memWf h (transfer_memWf h fun _ ht => ht.setX))

theorem execJalr_memWf {d a i} (h : s.memWf) : nextWf (execJalr d a i s) :=
  finish_memWf (regs2_memWf h fun _ => (transfer_memWf h fun _ ht => ht.setX))

/-! #### Canonical memory: LMARK (R166, R359) -/

theorem State.memWf.setLoop {l st why} (h : s.memWf) : (s.setLoop l st why).memWf := h

theorem execLmark_memWf {a d} (h : s.memWf) : nextWf (execLmark a d s) := by
  unfold execLmark
  dsimp only
  refine finish_memWf (readG_memWf h (fun _ => ?_))
  split
  · exact h.abandon.setLoop.retire
  · exact State.memWf.retire (State.memWf.setLoop (memWf_of_mem h.abandon rfl))

/-! #### Canonical memory: What can be captured (R167) -/

theorem State.memWf.traceInstr {w i} {t : State} (ht : t.memWf) : (s.traceInstr w i t).memWf := by
  unfold State.traceInstr
  dsimp only
  split
  · exact ht
  · split
    · exact ht
    · split
      · exact ht
      · exact ht
      · split
        · exact ht.abandon
        · exact ht

/-! #### Canonical memory: LEND (R170, R360) -/

theorem State.memWf.lendLanes (h : s.memWf) : (s.lendLanes).memWf := by
  unfold State.lendLanes
  dsimp only
  split
  · exact h.setCore.passLanes
  · exact h

theorem State.memWf.confirm {l} (h : s.memWf) : (s.confirm l).memWf := h.setLoop.lendLanes

theorem lendJump_memWf {a d} {f : State → State} (h : s.memWf) (hf : ∀ s, s.memWf → (f s).memWf) : (lendJump s a d f).memWf := by
  unfold lendJump
  dsimp only
  split
  · exact transfer_memWf h (fun _ ht => (hf _ ht).setX)
  · exact ((hf _ h).setX).retire

theorem execLend_memWf {a d} (h : s.memWf) : nextWf (execLend a d s) := by
  refine finish_memWf ?_
  split
  · exact h
  · refine checkG_memWf h ?_
    split
    · split
      · exact lendJump_memWf h (fun _ ht => ht.abandon)
      · split
        · exact lendJump_memWf h (fun _ ht => ht.abandon)
        · split
          · exact lendJump_memWf h (fun _ ht => ht)
          · split
            · exact h.stall
            · exact h.setX.confirm
    · exact lendJump_memWf h (fun _ ht => ht)

/-! #### Canonical memory: Replay (R171 to R173) -/

theorem stageStore_memWf {q f m w} (h : s.memWf) : (stageStore s q f m w).memWf := by
  unfold stageStore
  dsimp only
  refine memFrame_memWf h (fun _ => ?_)
  split
  · exact vtrap_memWf h.stopAt
  · exact State.memWf.popQueue h

theorem replayOne_memWf {l x} (h : s.memWf) : (replayOne l s x).memWf := by
  unfold replayOne
  dsimp only
  split
  · exact h.setX
  · exact Res.seq_memWf h.closeStrip (fun _ ht => State.memWf.setX ht.openStrip.note)
  · split
    · split
      · exact stageStore_memWf h
      · exact performWhole_memWf h
    · exact performWhole_memWf h
  · exact h

theorem replayBody_memWf {s : State} {l a} (h : s.memWf) : (replayBody l a s).memWf := by
  unfold replayBody
  split
  · exact h
  · exact Res.seq_memWf (replayOne_memWf h) (fun _ ht => replayBody_memWf ht)

theorem State.memWf.renumber {f} (h : s.memWf) : (s.renumber f).memWf := h

theorem State.memWf.asReplay {l i} (h : s.memWf) : (s.asReplay l i).memWf := State.memWf.setX (State.memWf.renumber h)

theorem State.memWf.afterReplay {l} (h : s.memWf) : (s.afterReplay l).memWf := State.memWf.renumber h

theorem State.memWf.deliverLoop {l st why pc} (h : s.memWf) : (s.deliverLoop l st why pc).memWf := by
  unfold State.deliverLoop
  dsimp only
  split
  · exact State.memWf.writeImage (State.memWf.passLanes (State.memWf.freeSlot (State.memWf.setX h)))
  · exact State.memWf.passLanes (State.memWf.freeSlot (State.memWf.setX h))

theorem State.memWf.outcome {l st why} (h : s.memWf) : (s.outcome l st why).memWf := by
  unfold State.outcome
  split
  · exact h.deliverLoop
  · exact h

theorem State.memWf.depart {l why} (h : s.memWf) : (s.depart l why).memWf := h.outcome

theorem State.memWf.replayNext {l} {r} (h : s.memWf) (e : s.replayNext l = some r) : r.memWf := by
  unfold State.replayNext at e
  dsimp only at e
  split at e
  · cases e
    exact h.depart
  · cases e
  · cases e
    exact trivial
  · rename_i e₁
    cases e
    split
    · exact State.memWf.outcome (memWf_of_mem ((Res.memWf_of_ok (replayBody_memWf h.asReplay) e₁).performStores) rfl)
    · exact memWf_of_mem ((Res.memWf_of_ok (replayBody_memWf h.asReplay) e₁).performStores) rfl

theorem execReplayIteration_memWf {c err} (h : s.memWf) : nextWf (execReplayIteration c err s) := by
  refine stepOr_memWf h (fun _ e => ?_)
  obtain ⟨u, hu, e⟩ := Option.bind_eq_some_iff.1 e
  split at e
  · split at e
    · split at e
      · cases e
        exact (h.focus hu).outcome
      · cases e
    · split at e
      · cases e
        exact (h.focus hu).depart
      · exact (h.focus hu).replayNext e
  · cases e

/-! #### Canonical memory: Press (R318 to R331) -/

theorem execPattach_memWf {z} (h : s.memWf) : nextWf (execPattach z s) := by
  refine finish_memWf ?_
  split
  · split
    · exact h
    · exact h.retire
  · exact pushAt_memWf h (fun _ ht => ht)

/-! #### Canonical memory: Writes of the dispatcher in a launch's address space (R145, R151) -/

theorem State.memWf.sysRmw {l va f} {t} (h : s.memWf) (e : s.sysRmw l va f = .ok t) : t.memWf := by
  unfold State.sysRmw at e
  split at e
  · split at e
    · cases e
    · cases e
      exact h.rebaseWith.unitWrite
  · cases e
  · cases e
  · cases e

theorem State.memWf.clearQueue {l q} (h : s.memWf) : (s.clearQueue l q).memWf := by
  unfold State.clearQueue
  split
  · exact h.rebaseWith.unitWrite
  · exact h

theorem State.memWf.cleanImage {i} (h : s.memWf) : (s.cleanImage i).memWf := foldl_memWf (fun _ _ h => h.cleanLine) _ h

theorem State.memWf.cleanImages {part asid} (h : s.memWf) : (s.cleanImages part asid).memWf := foldl_memWf (fun _ _ h => h.cleanImage) _ h

theorem State.memWf.closeQueues {id stage} (h : s.memWf) : (s.closeQueues id stage).memWf := by
  refine foldl_memWf (fun _ _ ht => ?_) _ h
  split
  · rename_i e
    exact ht.sysRmw e
  · exact ht

theorem State.memWf.hostEvent {x1} (h : s.memWf) : (s.hostEvent x1).memWf := h

theorem State.memWf.drainLeft {id} (h : s.memWf) : (s.drainLeft id).memWf := by
  refine foldl_memWf (fun _ _ ht => ?_) _ h
  split
  · exact ht
  · exact ht.unitWrite.modLaunch

theorem State.memWf.endLaunch {id} (h : s.memWf) : (s.endLaunch id).memWf := by
  unfold State.endLaunch
  dsimp only
  split
  · split
    · exact h.drainLeft.modLaunch.hostEvent
    · split
      · rename_i e
        exact (h.drainLeft.modLaunch.sysRmw e).hostEvent
      · exact h.drainLeft.modLaunch.raiseEvent.hostEvent
  · split
    · exact h.drainLeft.modLaunch
    · split
      · rename_i e
        exact h.drainLeft.modLaunch.sysRmw e
      · exact h.drainLeft.modLaunch.raiseEvent

theorem State.memWf.countEnded {id stage n} (h : s.memWf) : (s.countEnded id stage n).memWf := by
  unfold State.countEnded
  dsimp only
  split
  · split
    · exact h.modLaunch.closeQueues.endLaunch
    · exact h.modLaunch.endLaunch
  · split
    · exact h.modLaunch.closeQueues
    · exact h.modLaunch

theorem State.memWf.gone {killed} (h : s.memWf) : (s.gone killed).memWf := by
  refine Res.seq_memWf ?_ (fun _ ht => State.memWf.countEnded ht)
  split
  · exact State.memWf.putTState (State.memWf.modLaunch (memWf_of_mem h.setPts.passLocks.releaseLanes rfl))
  · exact State.memWf.modLaunch (memWf_of_mem h.setPts.passLocks.releaseLanes rfl)

theorem State.memWf.dropLins {l : List (Nat × Lineage)} (h : s.memWf) : (l.foldl (fun (s : State) n => s.dropLin n.1) s).memWf :=
  foldl_memWf (fun _ _ h => h.dropLin) l h

theorem State.memWf.kill {r} (h : s.memWf) (e : s.kill = r) : r.memWf := by
  subst e
  have hc := (h.cancelCmds (owner := s.cur.id.ctxid)).cancelBanks (owner := s.cur.id.ctxid)
  have hs := hc.dropLins (l := ((s.cancelCmds s.cur.id.ctxid).cancelBanks s.cur.id.ctxid).ownLins)
  unfold State.kill
  refine State.memWf.gone ?_
  split
  · refine State.memWf.setLoop (State.memWf.freeSlot ?_)
    split
    · exact hs.detach
    · exact hs
  · split
    · exact hs.detach
    · exact hs

/-! #### Canonical memory: Admission (R148) -/

theorem execLaunchAdmit_memWf {l} (h : s.memWf) : nextWf (execLaunchAdmit l s) := by
  unfold execLaunchAdmit
  dsimp only
  refine stepOr_memWf h (fun _ e => ?_)
  split at e
  · cases e
    split
    · exact (foldl_memWf (fun _ _ ht => ht.clearQueue) _ h.wake.modLaunch).cleanImages
    · exact foldl_memWf (fun _ _ hu => hu.clearQueue) _ h.wake.modLaunch
  · cases e

/-! #### Canonical memory: A thread takes a context (R13 to R19, R149, R150) -/

theorem State.memWf.enterCluster {l cl} (h : s.memWf) : (s.enterCluster l cl).memWf := by
  unfold State.enterCluster
  dsimp only
  split
  · split
    · exact h
    · exact h
  · split
    · exact h
    · exact h

theorem State.memWf.addThread {t} (h : s.memWf) : (s.addThread t).memWf := h

theorem State.memWf.createAt {id stage lthr p c} (h : s.memWf) : (s.createAt id stage lthr p c).memWf := by
  unfold State.createAt
  dsimp only
  split
  · exact h.enterCluster.addThread.joined.putTState
  · exact h.enterCluster.addThread.joined

theorem createAll_memWf {s : State} {id stage a x3} (h : s.memWf) : (createAll id stage a x3 s).memWf := by
  unfold createAll
  split
  · exact h
  · split
    · exact h
    · exact Res.seq_memWf h.createAt (fun _ ht => createAll_memWf ht)

theorem execThreadCreate_memWf {id p c} (h : s.memWf) : nextWf (execThreadCreate id p c s) := by
  unfold execThreadCreate
  dsimp only
  refine stepOr_memWf h (fun _ e => ?_)
  split at e
  · cases e
  · obtain ⟨u, hu, e⟩ := Option.bind_eq_some_iff.1 e
    split at e
    · cases e
      exact h.modLaunch.countEnded
    · split at e
      · cases e
      · obtain ⟨v, e, rfl⟩ := Option.map_eq_some_iff.1 e
        refine Res.seq_memWf h.modLaunch.createAt (fun _ ht => Res.seq_memWf (createAll_memWf ht) (fun _ hv => ?_))
        split
        · exact hv
        · exact hv.countEnded

/-! #### Canonical memory: Restore (R216 to R219, R18, R19) -/

theorem State.memWf.reloadLins {image} (h : s.memWf) : (s.reloadLins image).memWf := by
  unfold State.reloadLins
  dsimp only
  split
  · exact h.setCore
  · exact h

theorem State.memWf.restoreAt {p} (h : s.memWf) : (s.restoreAt p).memWf := by
  unfold State.restoreAt
  split
  · exact h
  · generalize e : s.kill = r
    dsimp only
    split
    · trivial
    · split
      · exact h.kill e
      · exact State.memWf.putTState (State.memWf.inherit (memWf_set_cur h.enterCluster.reloadLins))

theorem restoreAll_memWf {s : State} {a} (h : s.memWf) : (restoreAll a s).memWf := by
  unfold restoreAll
  split
  · exact h
  · split
    · exact restoreAll_memWf h
    · rename_i e
      exact Res.seq_memWf ((h.focus e).restoreAt) (fun _ ht => restoreAll_memWf ht)

theorem State.memWf.passContext {p} (h : s.memWf) : (s.passContext p).memWf := by
  unfold State.passContext
  split
  · exact h
  · split
    · exact h
    · split
      · exact h
      · exact restoreAll_memWf h

theorem execRestore_memWf {c p} (h : s.memWf) : nextWf (execRestore c p s) := by
  refine stepOr_memWf h (fun _ e => ?_)
  obtain ⟨u, hu, e⟩ := Option.bind_eq_some_iff.1 e
  split at e
  · obtain ⟨v, e, rfl⟩ := Option.map_eq_some_iff.1 e
    exact restoreAll_memWf h
  · cases e

/-! #### Canonical memory: Pre-emption and slices (R153, R216) -/

theorem drainAll_memWf {s : State} {a} {x2 : State → Res Unit} (h : s.memWf) (hx2 : ∀ s, s.memWf → (x2 s).memWf) : (drainAll a s x2).memWf := by
  unfold drainAll
  split
  · exact hx2 _ h
  · split
    · exact drainAll_memWf h (fun _ ht => hx2 _ ht)
    · rename_i e
      split
      · split
        · rename_i e₁
          exact drainAll_memWf (Res.memWf_of_ok (drain_memWf (h.focus e)) e₁) (fun _ ht => hx2 _ ht)
        · rename_i e₁
          exact Res.memWf_of_wait (drain_memWf (h.focus e)) e₁
        · rename_i e₁
          exact Res.seq_memWf ((Res.memWf_of_trap (drain_memWf (h.focus e)) e₁).deliver) (fun _ ht => drainAll_memWf ht (fun _ hu => hx2 _ hu))
        · exact trivial
      · exact drainAll_memWf (h.focus e) (fun _ ht => hx2 _ ht)

theorem saveAll_memWf {s : State} {a} (h : s.memWf) : (saveAll a s).memWf := by
  unfold saveAll
  split
  · exact h
  · split
    · exact saveAll_memWf h
    · rename_i e
      refine Res.seq_memWf ?_ (fun _ ht => saveAll_memWf ht)
      split
      · exact (h.focus e).saveDrained
      · exact h.focus e

theorem vacateAll_memWf {l} {f : State → Res Unit} (h : s.memWf) (hf : ∀ s, s.memWf → (f s).memWf) : (vacateAll l s f).memWf :=
  drainAll_memWf h (fun _ ht => Res.seq_memWf (saveAll_memWf ht) (fun _ hu => hf _ hu))

theorem State.memWf.withoutGang (h : s.memWf) : (s.withoutGang).memWf := foldl_memWf (fun _ _ h => h.modThread) _ h

theorem State.memWf.endSlice (h : s.memWf) : (s.endSlice).memWf :=
  vacateAll_memWf h fun _ ht => (foldl_memWf (fun _ _ h => h.modThread) _ ht).passContext

theorem execTimeSliceEnd_memWf {c} (h : s.memWf) : nextWf (execTimeSliceEnd c s) := by
  refine stepOr_memWf h (fun _ e => ?_)
  obtain ⟨u, hu, e⟩ := Option.bind_eq_some_iff.1 e
  split at e
  · cases e
    exact (h.focus hu).endSlice
  · cases e

theorem execPreemption_memWf {c} (h : s.memWf) : nextWf (execPreemption c s) := by
  refine stepOr_memWf h (fun _ e => ?_)
  obtain ⟨u, hu, e⟩ := Option.bind_eq_some_iff.1 e
  split at e
  · cases e
    exact vacateAll_memWf (h.focus hu) (fun _ ht => ht)
  · cases e

/-! #### Canonical memory: The lanes (R154, R155, R164) -/

theorem State.memWf.yieldLanes {again} (h : s.memWf) : (s.yieldLanes again).memWf := h.drained fun _ ht => ht.setCore.passLanes

theorem execLaneSliceEnd_memWf {c} (h : s.memWf) : nextWf (execLaneSliceEnd c s) := by
  unfold execLaneSliceEnd
  dsimp only
  refine stepOr_memWf h (fun _ e => ?_)
  obtain ⟨u, hu, e⟩ := Option.bind_eq_some_iff.1 e
  split at e
  · cases e
    exact (h.focus hu).yieldLanes
  · cases e

theorem execLaneHandover_memWf {c} (h : s.memWf) : nextWf (execLaneHandover c s) := by
  refine stepOr_memWf h (fun _ e => ?_)
  obtain ⟨u, hu, e⟩ := Option.bind_eq_some_iff.1 e
  split at e
  · cases e
    exact (h.focus hu).yieldLanes
  · cases e

theorem execLaneGrantChange_memWf {k n} (h : s.memWf) : nextWf (execLaneGrantChange k n s) := by
  unfold execLaneGrantChange
  dsimp only
  refine stepOr_memWf h (fun _ e => ?_)
  split at e
  · split at e
    · cases e
      exact h
    · cases e
  · split at e
    · cases e
      exact h
    · cases e

theorem execNop_memWf (h : s.memWf) : nextWf (execNop s) := finish_memWf (h.retire)

theorem execYield_memWf (h : s.memWf) : nextWf (execYield s) := by
  refine finish_memWf (h.drained (fun _ hu => ?_))
  split
  · exact drainAll_memWf hu (fun _ ht => ht.retire.endSlice)
  · exact hu.retire

theorem execBrk_memWf (h : s.memWf) : nextWf (execBrk s) := finish_memWf (h.trapHere)

theorem execTrap_memWf {a} (h : s.memWf) : nextWf (execTrap a s) := finish_memWf (readG_memWf h fun _ => h.trapHere)

/-! #### Canonical memory: EXIT (R368) -/

theorem State.memWf.comparePath (h : s.memWf) : (s.comparePath).memWf := by
  unfold State.comparePath
  dsimp only
  split
  · exact h
  · split
    · exact h
    · split
      · split
        · exact h
        · exact h.modPart
      · exact h.modPart

theorem execExit_memWf (h : s.memWf) : nextWf (execExit s) := by
  have hs := (h.abandon (why := 0x01)).comparePath
  refine finish_memWf ?_
  dsimp only
  split
  · exact h.stall
  · split
    · exact h
    · refine State.memWf.gone ?_
      split
      · exact (finishAll_memWf hs).detach
      · exact hs

/-! #### Canonical memory: The heap (R87, R369) -/

theorem execAlloc_memWf {d a} (h : s.memWf) : nextWf (execAlloc d a s) := by
  unfold execAlloc
  dsimp only
  refine finish_memWf (regs2_memWf h (fun _ => ?_))
  split
  · exact h.result
  · split
    · exact h.result
    · exact h.modLaunch.result

theorem execFree_memWf {d a} (h : s.memWf) : nextWf (execFree d a s) := by
  refine finish_memWf (regs2_memWf h (fun _ => ?_))
  split
  · exact h.result
  · split
    · exact h.result
    · split
      · exact h.result
      · exact h.modLaunch.result

/-! #### Canonical memory: LAUNCH (R370) -/

theorem State.memWf.addLaunch {part asid r ts host} (h : s.memWf) : (s.addLaunch part asid r ts host).memWf := State.memWf.modPart h

theorem loadEach_memWf {s : State} {a} (h : s.memWf) : (loadEach s a).2.memWf := by
  unfold loadEach
  split
  · exact h
  · dsimp only
    exact loadEach_memWf h.load

theorem loadSettled_memWf {a x2} (h : s.memWf) : (loadSettled a s x2).2.memWf := by
  induction a generalizing s with
  | zero => exact loadEach_memWf h
  | succ a ih =>
    unfold loadSettled
    dsimp only
    split
    · exact loadEach_memWf h
    · exact ih (loadEach_memWf h)

theorem loadLinesAt_memWf {ps} (h : s.memWf) : (loadLinesAt s ps).2.memWf := loadSettled_memWf h

theorem execLaunch_memWf {d a} (h : s.memWf) : nextWf (execLaunch d a s) := by
  unfold execLaunch
  dsimp only
  refine finish_memWf (regs2_memWf h (fun _ => ?_))
  split
  · exact h.trapHere
  · split
    · split
      · exact h.stall
      · exact h.trapHere
    · split
      · exact h.stall
      · split
        · exact (loadLinesAt_memWf h).result
        · split
          · exact (loadLinesAt_memWf h).result
          · exact ((loadLinesAt_memWf h).addLaunch).result

/-! #### Canonical memory: DEAL and PRIO (R371, R372) -/

theorem execPrio_memWf {a} (h : s.memWf) : nextWf (execPrio a s) :=
  finish_memWf (readG_memWf h fun _ => State.memWf.retire (State.memWf.inherit h))

/-! #### Canonical memory: Kills (R112, R225) -/

theorem killAll_memWf {a} (h : s.memWf) : (killAll a s).memWf := by
  induction a generalizing s with
  | nil => exact h
  | cons x l ih =>
    unfold killAll
    split
    · exact ih h
    · rename_i t ht
      generalize e : State.kill t = r
      exact Res.seq_memWf ((h.focus ht).kill e) fun _ h => ih h

theorem State.memWf.killLaunch {id} (h : s.memWf) : (s.killLaunch id).memWf := by
  unfold State.killLaunch
  dsimp only
  split
  · exact h
  · exact Res.seq_memWf (killAll_memWf h.modLaunch) (fun _ ht => foldl_memWf (fun _ _ hu => hu.countEnded) _ ht)

/-! #### Canonical memory: KCMD (R213) -/

theorem State.memWf.kcmdFlags {p busy ref} (h : s.memWf) : (s.kcmdFlags p busy ref).memWf := h.modPart

theorem State.memWf.kcmdAct {p v} (h : s.memWf) : (s.kcmdAct p v).memWf := by
  have hk : ∀ a b c, (s.kcmdFlags a b c).memWf := fun _ _ _ => h.kcmdFlags
  unfold State.kcmdAct
  generalize hr : State.kill = kill
  have hkill : ∀ t : State, t.memWf → (kill t).memWf := fun t ht => ht.kill (congrFun hr t)
  dsimp only
  split
  · split
    · rename_i e
      obtain ⟨t, -, e⟩ := Option.bind_eq_some_iff.1 e
      split at e
      · split
        · exact hk _ _ _
        · exact ((hk _ _ _).focus e).resumeCur
      · cases e
    · exact hk _ _ _
  · split
    · rename_i u e
      obtain ⟨t, -, e⟩ := Option.bind_eq_some_iff.1 e
      exact hkill _ ((hk _ _ _).focus e)
    · exact hk _ _ _
  · split
    · rename_i e
      obtain ⟨t, -, e⟩ := Option.bind_eq_some_iff.1 e
      split at e
      · exact vacateAll_memWf ((hk _ _ _).focus e) fun _ h => h.kcmdFlags
      · cases e
    · exact hk _ _ _
  · split
    · exact (hk _ _ _).putCmd
    · split
      · exact hk p.idx false false
      · exact hk _ _ _
  · split
    · exact (hk _ _ _).abortCmd
    · split
      · exact (hk _ _ _).abortPush
      · exact hk _ _ _
  · exact hk _ _ _

theorem State.memWf.command {p v} (h : s.memWf) : (s.command p v).memWf := h.modPart.kcmdAct

theorem kcmdStep_memWf {p op c ch} (h : s.memWf) : nextWf (kcmdStep s p op c ch) := by
  refine stepOr_memWf h (fun _ e => ?_)
  obtain ⟨u, hu, e⟩ := Option.bind_eq_some_iff.1 e
  split at e
  · cases e
    exact h.command
  · split at e
    · cases e
      exact h.kcmdAct
    · cases e

theorem execContextStateError_memWf {c} (h : s.memWf) : nextWf (execContextStateError c s) := by
  refine stepOr_memWf h fun r e => ?_
  obtain ⟨u, hu, e⟩ := Option.bind_eq_some_iff.1 e
  split at e
  · cases e
  · exact (h.focus hu).kill (Option.some.inj e)

/-! #### Canonical memory: Events (R212, R214) -/

theorem execEventRecordWrite_memWf {p} (h : s.memWf) : nextWf (execEventRecordWrite p s) := by
  have hw : ∀ pa bs, (s.sysStore pa bs).memWf := fun _ _ => h.sysStore
  unfold execEventRecordWrite
  refine stepOr_memWf h fun _ e => ?_
  obtain ⟨q, -, e⟩ := Option.bind_eq_some_iff.1 e
  split at e
  · cases e
  · dsimp only at e
    split at e
    · cases e
    · split at e
      · cases e
        trivial
      · cases e
        exact memWf_set_host (hw _ _).modPart.wake

theorem execThreadTableResSet_memWf {p c} (h : s.memWf) : nextWf (execThreadTableResSet p c s) := by
  unfold execThreadTableResSet
  refine stepOr_memWf h fun _ e => ?_
  obtain ⟨q, -, rfl⟩ := Option.map_eq_some_iff.1 e
  extract_lets +onlyGivenNames a
  split
  · trivial
  · extract_lets +onlyGivenNames woken t
    have ht : t.memWf := h.sysStore.withThread fun _ h => h.addPtsSlot
    clear_value t
    split
    · split
      · extract_lets +onlyGivenNames u
        have hu : u.memWf := ht.sysStore
        exact Res.seq_memWf hu.putTState fun _ h => State.memWf.withThread h.modThread fun _ h => h.joined
      · exact ht
    · exact ht

/-! #### Canonical memory: Translations and timestamps (R101, R202, R374) -/

theorem State.memWf.writeTinvc {p v} (h : s.memWf) : (s.writeTinvc p v).memWf := by
  unfold State.writeTinvc
  split
  · exact h.modPart
  · exact h

theorem execTlbInvalidate_memWf {p v} (h : s.memWf) : nextWf (execTlbInvalidate p v s) := by
  refine stepOr_memWf h (fun _ e => ?_)
  obtain ⟨u, e, rfl⟩ := Option.map_eq_some_iff.1 e
  exact h.writeTinvc

theorem State.memWf.writeTsdpre {p v} (h : s.memWf) : (s.writeTsdpre p v).memWf := by
  unfold State.writeTsdpre
  split
  · exact h
  · split
    · exact h.modPart
    · exact foldl_memWf (fun _ _ ht => ht.withThread (fun _ hu => hu.addPtsSlot)) _ h.modPart.shiftTs.modPart

theorem execTsdprePreset_memWf {p v} (h : s.memWf) : nextWf (execTsdprePreset p v s) := by
  refine stepOr_memWf h (fun _ e => ?_)
  obtain ⟨u, e, rfl⟩ := Option.map_eq_some_iff.1 e
  exact h.writeTsdpre

/-! #### Canonical memory: Format windows (R59) -/

theorem State.memWf.modWindow {n f} (h : s.memWf) : (s.modWindow n f).memWf := h

theorem execFormatWindowEnable_memWf {n v} (h : s.memWf) : nextWf (execFormatWindowEnable n v s) := by
  refine stepOr_memWf h (fun _ e => ?_)
  split at e
  · cases e
    exact h.modWindow
  · cases e

/-! #### Canonical memory: Debug (R227, R228) -/

theorem execCheckpoint_memWf {c} (h : s.memWf) : nextWf (execCheckpoint c s) := by
  refine stepOr_memWf h (fun _ e => ?_)
  obtain ⟨u, hu, e⟩ := Option.bind_eq_some_iff.1 e
  split at e
  · cases e
    exact (h.focus hu).modPart
  · cases e

theorem State.memWf.compareReplay (h : s.memWf) : (s.compareReplay).memWf := by
  unfold State.compareReplay
  split
  · exact h
  · split
    · exact h
    · exact State.memWf.modPart h

theorem execRetiredCountStop_memWf {c} (h : s.memWf) : nextWf (execRetiredCountStop c s) := by
  refine stepOr_memWf h (fun _ e => ?_)
  obtain ⟨u, hu, e⟩ := Option.bind_eq_some_iff.1 e
  split at e
  · cases e
    exact ((h.focus hu).compareReplay).trapHere
  · cases e

theorem State.memWf.imageOver {p} (h : s.memWf) : (s.imageOver p).memWf := by
  unfold State.imageOver
  dsimp only
  split
  · rename_i he
    exact Res.memWf_of_ok (State.memWf.writeImage (by exact h)) he
  · exact h

theorem State.memWf.putOldLines {ls} (h : s.memWf) : (s.putOldLines ls).memWf := foldl_memWf (fun _ _ h => h.sysStore) _ h

theorem State.memWf.putOldShadows {xs} (h : s.memWf) : (s.putOldShadows xs).memWf := foldl_memWf (fun _ _ h => h.modShadow) _ h

theorem State.memWf.uncapture {ks} (h : s.memWf) : (s.uncapture ks).memWf :=
  foldl_memWf (fun _ _ h => (foldl_memWf (fun _ _ h => h.modLaunch) _ h.putOldLines.putOldShadows)) _ h

theorem State.memWf.reenterLoop {k} (h : s.memWf) : (s.reenterLoop k).memWf := by
  unfold State.reenterLoop
  dsimp only
  split
  · split
    · exact h
    · exact h
  · split
    · split
      · exact h
      · exact State.memWf.setLoop h
    · split
      · exact h
      · exact State.memWf.setLoop h

theorem State.memWf.rewind_ {c} (h : s.memWf) : (s.rewind_ c).memWf := by
  unfold State.rewind_
  dsimp only
  split
  · exact h
  · split
    · exact h
    · split
      · exact h
      · exact h.uncapture.modPart.setCore.withThread (fun _ ht => ht.reenterLoop.imageOver)

theorem State.memWf.newPass {p} (h : s.memWf) : (s.newPass p).memWf :=
  foldl_memWf (fun _ _ h => h.evictLine) _ h.putOldLines.putOldShadows.modPart

/-! #### Canonical memory: Boot (R205, R206) -/

theorem State.memWf.boot (h : s.memWf) : (s.boot).memWf := by
  unfold State.boot
  dsimp only
  split
  · exact h
  · split
    · exact h
    · split
      · exact h
      · exact h

theorem execPackageBoot_memWf (h : s.memWf) : nextWf (execPackageBoot s) := by
  refine stepOr_memWf h (fun _ e => ?_)
  split at e
  · cases e
  · cases e
    exact h.boot

/-! #### Canonical memory: Mailbox (R209) -/

theorem State.memWf.setMbstat {v} (h : s.memWf) : (s.setMbstat v).memWf := h

theorem State.memWf.mailboxCmd {code} (h : s.memWf) : (s.mailboxCmd code).memWf := by
  unfold State.mailboxCmd
  dsimp only
  split
  · exact h.setMbstat
  · split
    · exact trivial
    · split
      · exact h.setMbstat
      · split
        · split
          · exact h.setMbstat
          · exact State.memWf.setMbstat h
        · exact h.sysStore.setMbstat
        · exact h.sysStore.setMbstat
        · exact h.setMbstat

theorem execMailboxExtend_memWf (h : s.memWf) : nextWf (execMailboxExtend s) := finish_memWf (h.mailboxCmd)

theorem execMailboxQuote_memWf (h : s.memWf) : nextWf (execMailboxQuote s) := finish_memWf (h.mailboxCmd)

theorem execMailboxDevcert_memWf (h : s.memWf) : nextWf (execMailboxDevcert s) := finish_memWf (h.mailboxCmd)

/-! #### Canonical memory: Resets (R204, R221) -/

theorem State.packageReset_memWf : (s.packageReset).memWf := by
  show Mem.wf []
  exact ⟨List.Pairwise.nil, by simp⟩

theorem execSpineError_memWf {fatal} (h : s.memWf) : nextWf (execSpineError fatal s) := by
  unfold execSpineError
  split
  · exact State.packageReset_memWf
  · exact h

theorem killLaunches_memWf {s : State} {a} (h : s.memWf) : (killLaunches a s).memWf := by
  unfold killLaunches
  split
  · exact h
  · exact Res.seq_memWf h.killLaunch (fun _ ht => killLaunches_memWf ht)

theorem State.memWf.clearPart {p} (h : s.memWf) : (s.clearPart p).memWf := h

theorem State.memWf.serveAll {p} (h : s.memWf) : (s.serveAll p).memWf := foldl_memWf (fun _ _ h => h.serve) _ h

theorem execPartitionReset_memWf {p} (h : s.memWf) : nextWf (execPartitionReset p s) := by
  refine stepOr_memWf h (fun _ e => ?_)
  obtain ⟨u, e, rfl⟩ := Option.map_eq_some_iff.1 e
  exact Res.seq_memWf (killLaunches_memWf h) (fun _ ht => ht.serveAll.clearPart.hostEvent)

/-! #### Canonical memory: The window (R385) -/

theorem State.memWf.kernelWrite {p pa bs} (h : s.memWf) : (s.kernelWrite p pa bs).memWf := h.unitWrite

theorem execHostWindowWrite_memWf {a n v} (h : s.memWf) : nextWf (execHostWindowWrite a n v s) := by
  refine stepOr_memWf h (fun _ e => ?_)
  obtain ⟨u, hu, e⟩ := Option.bind_eq_some_iff.1 e
  split at e
  · cases e
  · cases e
    exact h.wake.kernelWrite

theorem execHostWindowRead_memWf {a n} (h : s.memWf) : nextWf (execHostWindowRead a n s) := by
  refine stepOr_memWf h (fun _ e => ?_)
  split at e
  · cases e
  · cases e
    exact h.wake

theorem State.memWf.doorbell {v} (h : s.memWf) : (s.doorbell v).memWf := h.wake

theorem execHostDoorbell_memWf {v} (h : s.memWf) : nextWf (execHostDoorbell v s) := finish_memWf (h.doorbell)

/-! #### Canonical memory: Events (R387) -/

theorem execHostEventWrite_memWf (h : s.memWf) : nextWf (execHostEventWrite s) := by
  refine stepOr_memWf h fun _ e => ?_
  split at e
  · dsimp only at e
    split at e
    · cases e
    · cases e
      exact memWf_set_host (State.memWf.wake h.kernelWrite.kernelWrite)
  · cases e

/-! #### Canonical memory: Requests (R386, R388) -/

theorem State.memWf.answer {r status note} (h : s.memWf) : (s.answer r status note).memWf := by
  have hk : ∀ p pa bs, (s.kernelWrite p pa bs).memWf := fun _ _ _ => h.kernelWrite
  unfold State.answer
  refine State.memWf.hostEvent (memWf_set_host ?_)
  split
  · exact hk _ _ _
  · exact h

theorem requestStep_memWf {op} {act : List Byte → ℕ → Word → Option (Res Unit)} (h : s.memWf)
    (hact : ∀ x y z r, act x y z = some r → r.memWf) : nextWf (requestStep s op act) := by
  unfold requestStep
  dsimp only
  refine stepOr_memWf h (fun _ e => ?_)
  obtain ⟨u, hu, e⟩ := Option.bind_eq_some_iff.1 e
  split at e
  · cases e
    exact h.answer
  · split at e
    · cases e
    · exact hact _ _ _ _ e

theorem hostStep_memWf {op} {act : List Byte → Part → Word → Option (Res Unit)} (h : s.memWf)
    (hact : ∀ x y z r, act x y z = some r → r.memWf) : nextWf (hostStep s op act) := by
  refine requestStep_memWf h (fun _ _ _ _ e => ?_)
  split at e
  · cases e
    exact h.answer
  · exact hact _ _ _ _ e

/-! #### Canonical memory: LOAD (R253 to R255) -/

theorem State.memWf.putTables {x} (h : s.memWf) : (s.putTables x).memWf := foldl_memWf (fun _ _ h => h.sysStore) _ h

theorem State.memWf.dropCode {ps} (h : s.memWf) : (s.dropCode ps).memWf := h

theorem State.memWf.putPages {p m x bs} (h : s.memWf) : (s.putPages p m x bs).memWf := by
  refine (foldl_memWf (fun _ _ ht => ?_) _ h).dropCode
  split
  · exact ht.kernelWrite
  · exact ht

theorem execHostLoad_memWf {x} (h : s.memWf) : nextWf (execHostLoad x s) := by
  unfold execHostLoad
  dsimp only
  refine hostStep_memWf h (fun _ _ _ _ e => ?_)
  split at e
  · cases e
    exact h.answer
  · split at e
    · cases e
    · cases e
      refine State.memWf.answer (foldl_memWf (fun _ _ ht => ?_) _ h.putTables.putPages)
      split
      · exact ht.modWindow
      · exact ht

/-! #### Canonical memory: SUBMIT, KILL and QUOTE (R388) -/

theorem execHostSubmit_memWf (h : s.memWf) : nextWf (execHostSubmit s) := by
  unfold execHostSubmit
  dsimp only
  refine hostStep_memWf h (fun _ _ _ _ e => ?_)
  cases e
  split
  · exact h.answer
  · split
    · exact h.answer
    · split
      · exact h.answer
      · exact h.cleanImage.wake.addLaunch.answer

theorem execHostKill_memWf (h : s.memWf) : nextWf (execHostKill s) := by
  refine hostStep_memWf h (fun _ _ _ _ e => ?_)
  split at e
  · cases e
    exact h.answer
  · cases e
    exact Res.seq_memWf h.killLaunch (fun _ ht => ht.answer)

theorem execHostQuote_memWf (h : s.memWf) : nextWf (execHostQuote s) := by
  unfold execHostQuote
  dsimp only
  refine requestStep_memWf h (fun _ _ _ _ e => ?_)
  split at e
  · cases e
    exact h.answer
  · split at e
    · cases e
    · cases e
      split
      · exact State.memWf.answer (State.memWf.kernelWrite (memWf_of_mem h.kernelWrite rfl))
      · exact State.memWf.answer (memWf_of_mem h.kernelWrite rfl)

/-! #### Canonical memory: Bring-up (R389) -/

theorem State.memWf.trainLinks {ups ok} (h : s.memWf) : (s.trainLinks ups ok).memWf := by
  unfold State.trainLinks
  split
  · exact h
  · exact h

theorem State.memWf.fillTables {r g} (h : s.memWf) : (s.fillTables r g).memWf := by
  unfold State.fillTables
  split
  · exact h
  · exact h

theorem State.memWf.openWindow {w} (h : s.memWf) : (s.openWindow w).memWf := by
  have hw : ∀ (t : State) p pa bs, t.memWf → (t.kernelWrite p pa bs).memWf := fun _ _ _ _ ht => ht.kernelWrite
  unfold State.openWindow
  generalize w &&& 0xFF0FFFFFFFF00000 = v, [(0, 0x40000), (0x40000, 0x40000), (0x80000, 16)] = l
  dsimp only
  split
  · exact h
  · split
    · exact memWf_set_host h
    · exact memWf_set_host (foldl_memWf (fun _ _ h => hw _ _ _ _ h) l (memWf_set_host h))

theorem execSettle_memWf {l} (h : s.memWf) : nextWf (execSettle l s) := by
  refine finish_memWf ?_
  split
  · exact h.illegal
  · split
    · exact h.stall
    · split
      · exact h.retire
      · exact h.stall

/-! #### Canonical memory: Corrections (R73, R75) -/

theorem State.memWf.chase {ln l root} (h : s.memWf) : (s.chase ln l root).memWf := State.memWf.dropLin (State.memWf.accrue h)

theorem execChase_memWf {k n} (h : s.memWf) : nextWf (execChase k n s) := by
  refine stepOr_memWf h (fun _ e => ?_)
  obtain ⟨u, hu, e⟩ := Option.bind_eq_some_iff.1 e
  obtain ⟨v, hu, e⟩ := Option.bind_eq_some_iff.1 e
  obtain ⟨w, hu, e⟩ := Option.bind_eq_some_iff.1 e
  obtain ⟨y, hu, e⟩ := Option.bind_eq_some_iff.1 e
  split at e
  · cases e
    exact (h.focus hu).chase
  · cases e

/-! #### Canonical memory: Crenor Link (R223, R391) -/

theorem State.memWf.takeReport {r} (h : s.memWf) : (s.takeReport r).memWf := by
  unfold State.takeReport
  split
  · exact h
  · exact h

theorem execFlitReceive_memWf {x} (h : s.memWf) : nextWf (execFlitReceive x s) := by
  refine stepOr_memWf h (fun _ e => ?_)
  obtain ⟨p, -, e⟩ := Option.bind_eq_some_iff.1 e
  split at e
  · cases e
  · dsimp only at e
    split at e
    · cases e
      exact State.memWf.modPort h.wake
    · split at e
      · cases e
        exact memWf_set_link h.wake
      · cases e
        exact State.memWf.takeReport (memWf_set_link (State.memWf.pumpPort (State.memWf.modPort (memWf_set_link h.wake))))

theorem execLinkRetrain_memWf {n ok acks} (h : s.memWf) : nextWf (execLinkRetrain n ok acks s) := by
  refine stepOr_memWf h (fun _ e => ?_)
  obtain ⟨u, hu, e⟩ := Option.bind_eq_some_iff.1 e
  split at e
  · cases e
  · split at e
    · cases e
      exact h.modPort.pumpPort
    · cases e
      refine State.memWf.hostEvent (memWf_of_mem (foldl_memWf (fun _ _ ht => ?_) _ h.modPort) rfl)
      split
      · exact ht.abortCmd
      · exact ht

/-! #### Canonical memory: Power (R392) -/

theorem execPowerStateEntry_memWf (h : s.memWf) : nextWf (execPowerStateEntry s) := by
  refine stepOr_memWf h (fun _ e => ?_)
  split at e
  · cases e
  · split at e
    · cases e
    · split at e
      · cases e
      · cases e
        exact h

theorem execPowerWake_memWf (h : s.memWf) : nextWf (execPowerWake s) := by
  refine stepOr_memWf h (fun _ e => ?_)
  split at e
  · cases e
  · cases e
    exact h.wake

/-! #### Canonical memory: Lines (R62, R134, R204) -/

theorem execLinePoison_memWf {a} (h : s.memWf) : nextWf (execLinePoison a s) := by
  refine stepOr_memWf h (fun _ e => ?_)
  split at e
  · cases e
    exact h.setLine
  · cases e

theorem execLineEviction_memWf {a} (h : s.memWf) : nextWf (execLineEviction a s) := by
  refine stepOr_memWf h (fun _ e => ?_)
  split at e
  · cases e
    exact h.evictLine
  · cases e

/-! #### Canonical memory: The package control space (R3) -/

theorem State.memWf.putTrans {p o v} (h : s.memWf) : (s.putTrans p o v).memWf := by
  unfold State.putTrans
  split
  · exact h.modPart
  · exact h.modPart
  · exact h.writeTinvc
  · exact h.modPart
  · exact h

theorem State.memWf.putKernel {p o v} (h : s.memWf) : (s.putKernel p o v).memWf := by
  unfold State.putKernel
  split
  · exact h.modPart
  · exact h.modPart
  · exact h.modPart
  · split
    · exact h.command
    · exact h.modPart
  · exact h.modPart
  · exact h

theorem State.memWf.putDebug {p o v} (h : s.memWf) : (s.putDebug p o v).memWf := by
  unfold State.putDebug
  dsimp only
  split
  · split
    · exact h.modPart
    · exact h
  · split
    · exact h.modPart
    · exact h
  · split
    · exact h.modPart
    · exact h
  · split
    · exact h.modPart
    · exact h
  · split
    · exact h.modPart
    · exact h
  · split
    · exact h.modPart
    · exact h
  · split
    · exact h.modPart
    · exact h
  · exact h

theorem State.memWf.putPackage {a v} (h : s.memWf) : (s.putPackage a v).memWf := by
  unfold State.putPackage
  dsimp only
  split
  · exact h.modWindow
  · split
    · split
      · split
        · exact h.writeTsdpre
        · exact h
      · exact h
    · split
      · split
        · exact h.putTrans
        · exact h
      · split
        · exact h
        · split
          · exact h.mailboxCmd
          · split
            · split
              · exact h.putKernel
              · exact h
            · split
              · split
                · exact h.putDebug
                · exact h
              · exact h

theorem State.memWf.putBar0 {a v} (h : s.memWf) : (s.putBar0 a v).memWf := by
  unfold State.putBar0
  split
  · exact h.doorbell
  · exact h.wake
  · exact h.wake
  · exact h.wake

theorem execRegisterWrite_memWf {sp a v} (h : s.memWf) : nextWf (execRegisterWrite sp a v s) := by
  refine finish_memWf ?_
  split
  · exact h.putPackage
  · exact h.putBar0
  · exact h.wake

theorem State.memWf.readBar {bar o} (h : s.memWf) : (s.readBar bar o).memWf := by
  unfold State.readBar
  dsimp only
  split
  · exact h
  · exact h.wake

theorem State.memWf.waitSaved {x1} (h : s.memWf) : (s.waitSaved x1).memWf := by
  unfold State.waitSaved
  split
  · split
    · exact h
    · exact vacateAll_memWf h (fun _ ht => ht.passContext)
  · exact h

theorem takeLock_memWf {p try_} {f : Word → State → Res Unit} (h : s.memWf) (hf : ∀ x s, s.memWf → (f x s).memWf) :
    (takeLock s p try_ f).memWf := by
  unfold takeLock
  dsimp only
  split
  · exact hf _ _ h.rmwWrite.inherit
  · split
    · exact hf _ _ h.rmwLoad
    · split
      · exact hf _ _ h.rmwWrite.inherit
      · split
        · exact hf _ _ h.rmwLoad
        · exact State.memWf.waitSaved h.rmwWrite.setLockQueue.inherit

theorem execLock_memWf {d a} (h : s.memWf) : nextWf (execLock d a s) := by
  refine finish_memWf (regs2_memWf h (fun _ => ?_))
  split
  · exact h.rmwLoad.note.result
  · exact h
  · exact scalarAccess_memWf h (fun _ => takeLock_memWf h (fun _ _ ht => ht.note.result))

theorem execTrylock_memWf {d a} (h : s.memWf) : nextWf (execTrylock d a s) :=
  finish_memWf (regs2_memWf h fun _ => (scalarAccess_memWf h fun _ => (takeLock_memWf h fun _ _ ht => ht.note.result)))

theorem execUnlock_memWf {a} (h : s.memWf) : nextWf (execUnlock a s) := by
  refine finish_memWf (readG_memWf h (fun _ => scalarAccess_memWf h (fun _ => ?_)))
  split
  · exact h.trapHere
  · exact h.handOver.reinherit.retire

theorem State.memWf.tick (h : s.memWf) : (s.tick).memWf := h

theorem State.memWf.noSlice {n} (h : s.memWf) : (s.noSlice n).memWf := h.modThreads

theorem driftCurs_memWf {n} (h : s.memWf) : (Nat.repeat State.driftCur n s).memWf := by
  induction n with
  | zero => exact h
  | succ n ih => exact ih.driftCur

/-! #### Canonical memory: Steps that are due -/

theorem State.memWf.drifts (h : s.memWf) : (s.drifts).memWf := by
  refine foldl_memWf (fun s t h => ?_) _ h
  split
  · exact h
  · exact h.withThread fun _ h => driftCurs_memWf h

theorem State.memWf.stayUp (h : s.memWf) : (s.stayUp).memWf := by
  unfold State.stayUp
  split
  · exact h
  · exact h.wake

theorem State.memWf.begin_ (h : s.memWf) : (s.begin_).memWf := h.tick.drifts.noSlice.settleInvals.stayUp

/-! #### Canonical memory: Steps of the other agents that can be taken -/

theorem State.memWf.afterIssue {w i} {t : State} (ht : t.memWf) : (s.afterIssue w i t).memWf := by
  unfold State.afterIssue
  split
  · exact ht.traceInstr
  · exact ht

/-! #### Canonical memory: What the environment does besides steps -/

theorem State.memWf.gatherFor {first n} (h : s.memWf) : (s.gatherFor first n).memWf := by
  unfold State.gatherFor
  dsimp only
  split
  · split
    · split
      · exact h
      · exact h.regather
    · exact h
  · exact h

theorem State.memWf.fillTlb {c va} (h : s.memWf) : (s.fillTlb c va).memWf := by
  unfold State.fillTlb
  dsimp only
  split
  · exact h
  · split
    · exact h
    · split
      · exact h
      · exact h

theorem State.memWf.fillWalk {c va} (h : s.memWf) : (s.fillWalk c va).memWf := by
  unfold State.fillWalk
  dsimp only
  split
  · exact h
  · split
    · exact h
    · split
      · exact h
      · exact h

theorem State.memWf.fillFetch {k l} (h : s.memWf) : (s.fillFetch k l).memWf := by
  unfold State.fillFetch
  split
  · exact h
  · exact h

theorem State.memWf.fillCopy {l1 home l} (h : s.memWf) : (s.fillCopy l1 home l).memWf := by
  unfold State.fillCopy
  split
  · exact h.fillLine.putCopy
  · exact h

theorem State.memWf.kernelResume {c pc} (h : s.memWf) : (s.kernelResume c pc).memWf := by
  unfold State.kernelResume
  split
  · exact h
  · split
    · split
      · exact h.sysStore
      · exact h
    · exact h

theorem State.memWf.stimulate {x} (h : s.memWf) : (s.stimulate x).memWf := by
  unfold State.stimulate
  split
  · exact h
  · exact h
  · exact State.memWf.noSlice h
  · exact h.fillLine
  · exact h.fillCopy
  · exact h
  · exact h.withThread (fun _ ht => ht.gatherFor)
  · exact h.fillTlb
  · exact h
  · exact h.fillWalk
  · exact h
  · exact h.fillFetch
  · split
    · exact h.sysStore
    · exact h
  · exact h.kernelResume
  · exact h.rewind_
  · split
    · exact h.newPass
    · exact h
  · exact h.fillTables
  · exact h.openWindow
  · exact h.trainLinks
  · exact h.readBar
  · exact h

theorem mapNext_memWf {o} {f : State → State} (ho : nextWf o) (hf : ∀ s, s.memWf → (f s).memWf) : nextWf (mapNext o f) := by
  cases o with
  | next t => exact hf t ho
  | fault | refused => trivial
theorem exec_memWf {i} (h : s.memWf) : nextWf (exec i s) := by
  cases i with
  | add | sub | and | or | xor | andn | sll | srl | sra | mul | mulh | mulhu | div | divu | rem | remu | min | max | minu | maxu | slt | sltu |
    deal =>
    exact finish_memWf (regs3_memWf h fun _ _ => h.result)
  | clz | popc | addi | andi | ori | xori | slli | srli | srai | slti =>
    exact finish_memWf (regs2_memWf h fun _ => h.result)
  | beq | bne | blt | bge | bltu | bgeu =>
    exact finish_memWf (branch_memWf h)
  | vld | vlds | vldx | vldseg | vldff | vldsc | vst | vsts | vstx | vstseg | vamoAdd | vamoMin | vamoMax | vamoFadd | pldaMem | pldaReg |
    pldbMem | pldbReg | pmma | pmmas | pzero | prdacc | pwracc | ppub | pfin | tkarm | tkdisarm | tkemit | tkemitDraft | tkconf | vslideup |
    vslidedn | vmrgk | vmand | vmor | vmxor | vmandn | vmvxs | vid | vmpop | vmfirst | vmnot | vmbefore | vmincl | pdetach =>
    exact finish_memWf (pushed_memWf h)
  | amoAdd | amoAnd | amoOr | amoXor | amoMin | amoMax | amoMinu | amoMaxu | amoSwap =>
    exact finish_memWf (amo_memWf h)
  | waitwEq | waitwNe | waitwLt | waitwGe | waitwLtu | waitwGeu =>
    exact finish_memWf (waitw_memWf h)
  | cpy | cpyf | cptile | cprem | coll =>
    exact finish_memWf (copyIssue_memWf h)
  | kcmdResume | kcmdKill | kcmdSave | kcmdEngres | kcmdEngabt =>
    exact kcmdStep_memWf h
  | vadd | vsub | vmul | vmulh | vmulhu | vmacc | vdiv | vrem | vmin | vmax | vminu | vmaxu | vand | vor | vxor | vsll | vsrl | vsra | vsadd |
    vssub | vaadd | vsmul | vwadd | vwaddu | vwmul | vwmulu | vwmacc | vwmaccu | vnclip | vnclipu | vfadd | vfsub | vfmul | vfdiv | vfma | vfnma
    | vfmin | vfmax | vfsgnj | vfsgnjn | vcmpeq | vcmpne | vcmplt | vcmpltu | vcmple | vcmpleu | vfcmpeq | vfcmplt | vfcmple | vfcmpun | vsel |
    vgatherr =>
    exact finish_memWf (issueV_memWf h)
  | vmv | vsplat | vmvsx | viota | vcompress | vneg | vabs | vnot | vfneg | vfabs | vfsqrt | vfrecip | vfexp2 | vfclass | vredsum | vredmin |
    vredmax | vredminu | vredmaxu | vredand | vredor | vredxor | vfredsum | vfredmin | vfredmax | vsortk | vuniq | vtosf | vtobf | vtohf | vtoe4
    | vtoe4s | vtoe5 | vtoe5s | vtof4 | vfromf4 | vtoinr | vtoinz | vintof | vwiden | vwidenu =>
    exact finish_memWf (issueU_memWf h)
  | sext => exact execSext_memWf h
  | zext => exact execZext_memWf h
  | lih => exact execLih_memWf h
  | addpc => exact execAddpc_memWf h
  | lds => exact execLds_memWf h
  | ldz => exact execLdz_memWf h
  | st => exact execSt_memWf h
  | jalr => exact execJalr_memWf h
  | j => exact execJ_memWf h
  | jal => exact execJal_memWf h
  | trap => exact execTrap_memWf h
  | alloc => exact execAlloc_memWf h
  | free => exact execFree_memWf h
  | launch => exact execLaunch_memWf h
  | prio => exact execPrio_memWf h
  | srd => exact execSrd_memWf h
  | swr => exact execSwr_memWf h
  | frame => exact execFrame_memWf h
  | vconf => exact execVconf_memWf h
  | vsetl => exact execVsetl_memWf h
  | vstreamBind => exact execVstreamBind_memWf h
  | vstreamUnbind => exact execVstreamUnbind_memWf h
  | vstreamRewind => exact execVstreamRewind_memWf h
  | cas => exact execCas_memWf h
  | lock => exact execLock_memWf h
  | trylock => exact execTrylock_memWf h
  | unlock => exact execUnlock_memWf h
  | fence => exact execFence_memWf h
  | vfence => exact execVfence_memWf h
  | barArrive => exact execBarArrive_memWf h
  | barWait => exact execBarWait_memWf h
  | barArrwait => exact execBarArrwait_memWf h
  | post => exact execPost_memWf h
  | waiti => exact execWaiti_memWf h
  | waitv => exact execWaitv_memWf h
  | publish => exact execPublish_memWf h
  | shadow => exact execShadow_memWf h
  | shadowRelease => exact execShadowRelease_memWf h
  | syncw => exact execSyncw_memWf h
  | cleanr => exact execCleanr_memWf h
  | invalr => exact execInvalr_memWf h
  | bankcmd => exact execBankcmd_memWf h
  | xfwait => exact execXfwait_memWf h
  | syncwait => exact execSyncwait_memWf h
  | bankwait => exact execBankwait_memWf h
  | pattach => exact execPattach_memWf h
  | settle => exact execSettle_memWf h
  | lmark => exact execLmark_memWf h
  | lend => exact execLend_memWf h
  | tksync => exact execTksync_memWf h
  | ptsDrift => exact execPtsDrift_memWf h
  | waitwRecheck => exact execWaitwRecheck_memWf h
  | savedWaiterWake => exact execSavedWaiterWake_memWf h
  | launchAdmit => exact execLaunchAdmit_memWf h
  | threadCreate => exact execThreadCreate_memWf h
  | timeSliceEnd => exact execTimeSliceEnd_memWf h
  | preemption => exact execPreemption_memWf h
  | restore => exact execRestore_memWf h
  | laneSliceEnd => exact execLaneSliceEnd_memWf h
  | laneHandover => exact execLaneHandover_memWf h
  | laneGrantChange => exact execLaneGrantChange_memWf h
  | trapDelivery => exact execTrapDelivery_memWf h
  | eventRecordWrite => exact execEventRecordWrite_memWf h
  | barMarkerFire => exact execBarMarkerFire_memWf h
  | postMarkerFire => exact execPostMarkerFire_memWf h
  | detEpochDrain => exact execDetEpochDrain_memWf h
  | chase => exact execChase_memWf h
  | replayIteration => exact execReplayIteration_memWf h
  | catchwordVerdict => exact execCatchwordVerdict_memWf h
  | catchwordDraft => exact execCatchwordDraft_memWf h
  | catchwordArmWrite => exact execCatchwordArmWrite_memWf h
  | catchwordRecordTransfer => exact execCatchwordRecordTransfer_memWf h
  | syncCount => exact execSyncCount_memWf h
  | engineCommandComplete => exact execEngineCommandComplete_memWf h
  | engineFaultPause => exact execEngineFaultPause_memWf h
  | remotePartReceive => exact execRemotePartReceive_memWf h
  | collContributionReceive => exact execCollContributionReceive_memWf h
  | flitReceive => exact execFlitReceive_memWf h
  | linkRetrain => exact execLinkRetrain_memWf h
  | bankCommandComplete => exact execBankCommandComplete_memWf h
  | bankCommandPause => exact execBankCommandPause_memWf h
  | bankCommandContinue => exact execBankCommandContinue_memWf h
  | pinTimeoutAbort => exact execPinTimeoutAbort_memWf h
  | pressErrorRerun => exact execPressErrorRerun_memWf h
  | linePoison => exact execLinePoison_memWf h
  | lineEviction => exact execLineEviction_memWf h
  | streamReadahead => exact execStreamReadahead_memWf h
  | checkpoint => exact execCheckpoint_memWf h
  | retiredCountStop => exact execRetiredCountStop_memWf h
  | tlbInvalidate => exact execTlbInvalidate_memWf h
  | tsdprePreset => exact execTsdprePreset_memWf h
  | formatWindowEnable => exact execFormatWindowEnable_memWf h
  | hostDoorbell => exact execHostDoorbell_memWf h
  | hostLoad => exact execHostLoad_memWf h
  | hostWindowWrite => exact execHostWindowWrite_memWf h
  | hostWindowRead => exact execHostWindowRead_memWf h
  | partitionReset => exact execPartitionReset_memWf h
  | registerWrite => exact execRegisterWrite_memWf h
  | vectorInstructionComplete => exact execVectorInstructionComplete_memWf h
  | engineErrorRepair => exact execEngineErrorRepair_memWf h
  | bankUnitError => exact execBankUnitError_memWf h
  | spineError => exact execSpineError_memWf h
  | contextStateError => exact execContextStateError_memWf h
  | threadTableResSet => exact execThreadTableResSet_memWf h
  | barrierArrivalDelivery => exact execBarrierArrivalDelivery_memWf h
  | nop => exact execNop_memWf h
  | yield => exact execYield_memWf h
  | exit => exact execExit_memWf h
  | brk => exact execBrk_memWf h
  | vrel => exact execVrel_memWf h
  | mailboxExtend => exact execMailboxExtend_memWf h
  | mailboxQuote => exact execMailboxQuote_memWf h
  | mailboxDevcert => exact execMailboxDevcert_memWf h
  | hostSubmit => exact execHostSubmit_memWf h
  | hostKill => exact execHostKill_memWf h
  | hostQuote => exact execHostQuote_memWf h
  | hostEventWrite => exact execHostEventWrite_memWf h
  | powerStateEntry => exact execPowerStateEntry_memWf h
  | powerWake => exact execPowerWake_memWf h
  | packageBoot => exact execPackageBoot_memWf h

theorem issue_memWf (h : s.memWf) : nextWf (issue s) := by
  unfold issue
  split
  · exact finish_memWf h
  · split
    · exact reservedWord_memWf h.setIr
    · exact mapNext_memWf (exec_memWf h.setIr) fun _ ht => ht.afterIssue

theorem step_memWf (h : s.memWf) : nextWf (step s) := by
  have hb (l) : State.memWf { s.begin_ with agenda := l } := h.begin_
  unfold step
  split
  · exact issueOf_memWf (hb _) (fun _ _ ht => exec_memWf ht) fun _ ht => issue_memWf ht
  · split
    · trivial
    · split
      · exact exec_memWf (hb _)
      · exact hb _
  · dsimp only
    split
    · exact (hb _).stimulate
    · exact hb _
  · split
    · exact mapNext_memWf (exec_memWf h.begin_) fun _ ht => ht.afterEvent
    · split
      · exact mapNext_memWf (issue_memWf h.begin_) fun _ ht => ht.rotate
      · exact h.begin_.rotate

end

/-- Settles O7: each state that a part of the model hands on has canonical memory where the state before it has, from the one
memory write up to the step. -/
theorem stepKeepsMemoryCanonical : Obligations.StepKeepsMemoryCanonical := by
  unfold Obligations.StepKeepsMemoryCanonical
  intro s t h e
  have hn := step_memWf h
  rw [e] at hn
  exact hn

end Sys2Proof.Machine

namespace Sys2Proof.Machine

/-! ### The state after package reset -/

/-- No measurement is taken before the Colophon has run (R207). -/
theorem measurements_reset (n : Nat) : State.reset.colophon.meas.getD n 0 = 0 := by
  have h : State.reset.colophon.meas = Vector.replicate 8 0 := rfl
  rw [h, Vector.getD]
  by_cases hn : n < 8 <;> simp [hn]

/-- No cell of memory is listed after reset, so memory is canonical. -/
theorem reset_memWf : State.reset.memWf := by
  have h : State.reset.mem = [] := rfl
  simp [State.memWf, h, Mem.wf]

/-- Settles O6: the values of reset are those that `State.reset` writes out. -/
theorem resetLeavesTheStatedValues : Obligations.ResetLeavesTheStatedValues :=
  ⟨measurements_reset, rfl, rfl, rfl, rfl, rfl, rfl, rfl, rfl, rfl, reset_memWf⟩

end Sys2Proof.Machine

namespace Sys2Proof.Machine

/-! ### No program reaches the trusted state (R59, R202, R209, R384)

The rules follow the model's own functions, in the order of its files, as those of canonical memory do; those speak of memory alone, these of
everything that the kernel, the Colophon and the host keep for themselves. -/

/-- The state that the resident kernel, the Colophon and the host alone write (R59, R202, R209, R384). -/
structure Trusted where
  colophon : Colophon
  flash : Flash
  windows : List Window
  hbm : List Nat
  routes : List Route
  hwin : Word
  hrqt : BitVec 32
  heqh : BitVec 32
  hltr : BitVec 32
  ready : Bool

/-- The trusted part of a state. -/
def State.trusted (s : State) : Trusted :=
  ⟨s.colophon, s.flash, s.windows, s.hbm, s.link.routes, s.host.hwin, s.host.hrqt, s.host.heqh, s.host.hltr, s.host.ready⟩

/-- The trusted part of the state is τ. Each rule below says that an operation keeps it: where `s.trusts τ` holds of the state before, it holds of
every state that the operation hands on. -/
def State.trusts (τ : Trusted) (s : State) : Prop := s.trusted = τ

/-- The trusted part is τ in whatever state a part of a meaning hands on. -/
def Res.trusts {α : Type} (τ : Trusted) : Res α → Prop
  | .ok _ s => s.trusts τ
  | .trap _ s => s.trusts τ
  | .wait _ s => s.trusts τ
  | .hole _ => True

/-- The trusted part is τ in the next state of an outcome, where there is one. -/
def nextTrusts (τ : Trusted) : Host.Outcome State Fault Refusal → Prop
  | .next s => s.trusts τ
  | _ => True

/-- The trusted part is τ in the state in which a step of a command ends. -/
def EngStep.trusts (τ : Trusted) : EngStep → Prop
  | .part s => s.trusts τ
  | .ended s => s.trusts τ
  | .fault r _ _ _ => r.2.trusts τ
  | .waits => True

section
variable {s : State} {τ : Trusted}

theorem trusts_set_cur {x : State} {y} (h : x.trusts τ) : State.trusts τ { x with cur := y } := h

theorem State.trusts.set_owned {x : State} {a b c} (h : x.trusts τ) : State.trusts τ { x with sends := a, cmds := b, banks := c } := h

/-- A state with the same trusted part. -/
theorem trusts_of_eq {t : State} (h : s.trusts τ) (e : t.trusted = s.trusted) : t.trusts τ := e.trans h

theorem Res.trusts_of_ok {α : Type} {r : Res α} {v : α} {t : State} (h : r.trusts τ) (e : r = .ok v t) : t.trusts τ := by
  subst e
  exact h

theorem Res.trusts_of_trap {α : Type} {r : Res α} {c : Trap} {t : State} (h : r.trusts τ) (e : r = .trap c t) : t.trusts τ := by
  subst e
  exact h

theorem Res.trusts_of_wait {α : Type} {r : Res α} {w : Watch} {t : State} (h : r.trusts τ) (e : r = .wait w t) : t.trusts τ := by
  subst e
  exact h

theorem EngStep.trusts_of_ended {x : EngStep} {t : State} (h : x.trusts τ) (e : x = .ended t) : t.trusts τ := by
  subst e
  exact h

theorem EngStep.trusts_of_fault {x : EngStep} {r : Run} {k d v} (h : x.trusts τ) (e : x = .fault r k d v) : r.2.trusts τ := by
  subst e
  exact h

theorem foldl_trusts {α : Type} {f : State → α → State} (hf : ∀ s x, s.trusts τ → (f s x).trusts τ) (l : List α) (h : s.trusts τ) :
    (l.foldl f s).trusts τ :=
  List.foldlRecOn l f h fun s hs x _ => hf s x hs

/-! #### Trusted state: Partitions and their ranges (R9, R197) -/

theorem State.trusts.modPart {p f} (h : s.trusts τ) : (s.modPart p f).trusts τ := h

/-! #### Trusted state: Lines (R92, R134) -/

theorem State.trusts.setLine {l r} (h : s.trusts τ) : (s.setLine l r).trusts τ := h

theorem State.trusts.mendScales {pa n} (h : s.trusts τ) : (s.mendScales pa n).trusts τ := by
  unfold State.mendScales
  split <;> exact h

theorem State.trusts.cleanLine {l} (h : s.trusts τ) : (s.cleanLine l).trusts τ := by
  unfold State.cleanLine
  dsimp only
  split
  · exact h.setLine
  · exact h

theorem State.trusts.evictLine {l} (h : s.trusts τ) : (s.evictLine l).trusts τ := by
  unfold State.evictLine
  dsimp only
  split <;> exact h

/-! #### Trusted state: Threads -/

theorem State.trusts.focus {c} {t} (h : s.trusts τ) (e : s.focus c = some t) : t.trusts τ := by
  unfold State.focus at e
  split at e
  · cases e
    exact h
  · split at e
    · cases e
    · cases e
      exact h

theorem State.trusts.withThread {c} {f : State → State} (h : s.trusts τ) (hf : ∀ s, s.trusts τ → (f s).trusts τ) : (s.withThread c f).trusts τ := by
  unfold State.withThread
  split
  · exact h
  · rename_i t ht
    have hu := hf t (h.focus ht)
    cases hc : (f t).focus s.cur.id.ctxid with
    | none => exact hu
    | some u => exact hu.focus hc

theorem State.trusts.modThread {c f} (h : s.trusts τ) : (s.modThread c f).trusts τ := by
  unfold State.modThread
  split <;> exact h

theorem State.trusts.modThreads {f} (h : s.trusts τ) : (s.modThreads f).trusts τ := h

theorem State.trusts.accrue {f} (h : s.trusts τ) : (s.accrue f).trusts τ := h

/-! #### Trusted state: Partitions, cores and launches -/

theorem State.trusts.modLaunch {l f} (h : s.trusts τ) : (s.modLaunch l f).trusts τ := h

theorem State.trusts.setCore {p c} (h : s.trusts τ) : (s.setCore p c).trusts τ := h

theorem State.trusts.setCluster {k c} (h : s.trusts τ) : (s.setCluster k c).trusts τ := h

/-! #### Trusted state: The rounds of a rotation (R153) -/

theorem State.trusts.joined (h : s.trusts τ) : (s.joined).trusts τ := h

/-! #### Trusted state: Timestamp domains (R93, R99, R101) -/

theorem State.trusts.shiftTs {p up down} (h : s.trusts τ) : (s.shiftTs p up down).trusts τ := h

theorem State.trusts.rebase {p} (h : s.trusts τ) : (s.rebase p).trusts τ := by
  unfold State.rebase
  split
  · exact h
  · exact h.shiftTs.modPart

theorem State.trusts.rebaseFor {p ts} (h : s.trusts τ) : (s.rebaseFor p ts).trusts τ := by
  unfold State.rebaseFor
  split
  · exact h.rebase
  · exact h

/-! #### Trusted state: Fills (R61 to R63) -/

theorem State.trusts.fillLine {l} (h : s.trusts τ) : (s.fillLine l).trusts τ := by
  unfold State.fillLine
  split
  · exact h
  · split
    · exact h.evictLine.setLine
    · exact h.setLine

theorem State.trusts.cacheWrite {pa bs} (h : s.trusts τ) : (s.cacheWrite pa bs).trusts τ := State.trusts.mendScales h.fillLine

/-! #### Trusted state: Private copies -/

theorem State.trusts.evictL1 {cl l} (h : s.trusts τ) : (s.evictL1 cl l).trusts τ := h

theorem State.trusts.putCopy {al c} (h : s.trusts τ) : (s.putCopy al c).trusts τ := by
  unfold State.putCopy
  dsimp only
  repeat' split
  all_goals exact h

theorem State.trusts.install {vec al l wts rts} (h : s.trusts τ) : (s.install vec al l wts rts).trusts τ := by
  unfold State.install
  split
  · exact h.putCopy
  · exact h.putCopy.putCopy

theorem State.trusts.setPts {t} (h : s.trusts τ) : (s.setPts t).trusts τ := h

theorem State.trusts.raisePts {t} (h : s.trusts τ) : (s.raisePts t).trusts τ := h.setPts

theorem State.trusts.extend {l} (h : s.trusts τ) : (s.extend l).trusts τ := by
  unfold State.extend
  dsimp only
  split
  · split
    · exact h.fillLine.setLine
    · exact h.fillLine.setLine.putCopy
  · exact h.fillLine.setLine

theorem State.trusts.leaseRenew {vec l} (h : s.trusts τ) : (s.leaseRenew vec l).trusts τ := h.rebaseFor.extend.install.raisePts

/-! #### Trusted state: Gathered lines (R105) -/

theorem State.trusts.regather {g} (h : s.trusts τ) :
    (s.regather g).2.trusts τ := trusts_of_eq (foldl_trusts (fun _ _ ht => ht.extend) _ h.rebaseFor) rfl

theorem State.trusts.leaseRead {vec pa n} (h : s.trusts τ) : (s.leaseRead vec pa n).2.trusts τ := by
  unfold State.leaseRead
  dsimp only
  split
  · rename_i e
    split at e
    · split <;> exact h.evictL1.raisePts
    · split
      · dsimp only
        exact h.evictL1.raisePts
      · dsimp only
        exact h.raisePts
  · split
    · rename_i e₁
      split at e₁
      · split
        · split
          · dsimp only
            exact h.evictL1.raisePts
          · dsimp only
            exact h.evictL1.regather.raisePts
        · split
          · dsimp only
            exact h.evictL1.raisePts
          · dsimp only
            exact h.evictL1.regather.raisePts
      · cases e₁
    · split
      · dsimp only
        exact h.evictL1.leaseRenew
      · dsimp only
        exact h.leaseRenew

theorem State.trusts.waitRead {pa n} (h : s.trusts τ) : (s.waitRead pa n).2.trusts τ := h.rebaseFor.raisePts.leaseRead

/-! #### Trusted state: The write set (R228, R229; log entry 60) -/

theorem State.trusts.record {p o f} (h : s.trusts τ) : (s.record p o f).trusts τ := by
  unfold State.record
  dsimp only
  split
  · exact h
  · split
    · exact h
    · rename_i e
      split at e
      · split
        · exact h.modPart
        · split
          · exact h.modPart.cacheWrite
          · exact h.modPart
      · cases e

theorem State.trusts.captureOld {launch o} (h : s.trusts τ) : (s.captureOld launch o).trusts τ := by
  unfold State.captureOld
  split
  · exact h
  · exact h.record.record

theorem State.trusts.capture {launch l} (h : s.trusts τ) : (s.capture launch l).trusts τ := h.captureOld

theorem State.trusts.storeAt {launch cl pa bs ts} (h : s.trusts τ) : (s.storeAt launch cl pa bs ts).trusts τ := trusts_of_eq h.capture.cacheWrite rfl

theorem State.trusts.leaseWriteBy {vec pol pa bs} (h : s.trusts τ) : (s.leaseWriteBy vec pol pa bs).trusts τ := by
  unfold State.leaseWriteBy
  split
  · exact h.rebaseFor.evictL1.storeAt.setLine.install.setPts
  · exact h.rebaseFor.storeAt.setLine.install.setPts

theorem State.trusts.leaseWrite {vec pa bs} (h : s.trusts τ) : (s.leaseWrite vec pa bs).trusts τ := h.leaseWriteBy

/-! #### Trusted state: Answers -/

theorem Res.andThen_trusts {α : Type} {β : Type} {r : Res α} {f : α → State → Res β} (hr : r.trusts τ) (hf : ∀ x s, s.trusts τ → (f x s).trusts τ) :
    (Res.andThen r f).trusts τ := by
  cases r with
  | ok v t => exact hf v t hr
  | trap | wait => exact hr
  | hole => trivial

theorem Res.seq_trusts {β : Type} {r : Res Unit} {f : State → Res β} (hr : r.trusts τ) (hf : ∀ s, s.trusts τ → (f s).trusts τ) :
    (Res.seq r f).trusts τ :=
  Res.andThen_trusts hr (fun _ => hf)

/-! #### Trusted state: Scalar registers and the program counter -/

theorem State.trusts.setX {n v} (h : s.trusts τ) : (s.setX n v).trusts τ := by
  unfold State.setX
  split <;> exact h

theorem State.trusts.goto {a} (h : s.trusts τ) : (s.goto a).trusts τ := h

theorem State.trusts.retire (h : s.trusts τ) : (s.retire).trusts τ := h.goto

theorem State.trusts.trapHere {α : Type} {code detail badva next} (h : s.trusts τ) : (s.trapHere code detail badva next : Res α).trusts τ := h

theorem State.trusts.regTrap {α : Type} {detail} (h : s.trusts τ) : (s.regTrap detail : Res α).trusts τ := h.trapHere

theorem State.trusts.illegal {α : Type} (h : s.trusts τ) : (s.illegal : Res α).trusts τ := h.trapHere

theorem State.trusts.illegalOp {α : Type} (h : s.trusts τ) : (s.illegalOp : Res α).trusts τ := h.trapHere

theorem State.trusts.stall {α : Type} (h : s.trusts τ) : (s.stall : Res α).trusts τ := h

theorem readG_trusts {β : Type} {n detail} {f : Word → Res β} (h : s.trusts τ) (hf : ∀ x, (f x).trusts τ) : (readG s n detail f).trusts τ := by
  unfold readG
  split
  · exact h.regTrap
  · split
    · exact h.stall
    · exact hf _

theorem checkG_trusts {β : Type} {n detail} {f : Res β} (h : s.trusts τ) (hf : f.trusts τ) : (checkG s n detail f).trusts τ := by
  unfold checkG
  split
  · exact h.regTrap
  · split
    · exact h.stall
    · exact hf

theorem regs3_trusts {d a b} {f : Word → Word → Res Unit} (h : s.trusts τ) (hf : ∀ x y, (f x y).trusts τ) : (regs3 s d a b f).trusts τ :=
  checkG_trusts h (readG_trusts h (fun _ => readG_trusts h (fun _ => hf _ _)))

theorem regs2_trusts {d a} {f : Word → Res Unit} (h : s.trusts τ) (hf : ∀ x, (f x).trusts τ) : (regs2 s d a f).trusts τ :=
  checkG_trusts h (readG_trusts h (fun _ => hf _))

theorem State.trusts.result {d v} (h : s.trusts τ) : (s.result d v).trusts τ := h.setX.retire

/-! #### Trusted state: Writes that no thread makes (R212, R216, R220) -/

theorem State.trusts.sysStore {pa bs} (h : s.trusts τ) : (s.sysStore pa bs).trusts τ := foldl_trusts (fun _ _ h => h.cacheWrite) _ h

theorem State.trusts.putTState {p c st} (h : s.trusts τ) : (s.putTState p c st).trusts τ := by
  unfold State.putTState
  dsimp only
  split
  · exact h.sysStore
  · exact trivial

/-! #### Trusted state: Debug (R226 to R230) -/

theorem State.trusts.note {v} (h : s.trusts τ) : (s.note v).trusts τ := by
  unfold State.note
  repeat' split
  all_goals exact h

/-! #### Trusted state: The save image (R216, R217, R219) -/

theorem State.trusts.writeImage {p} (h : s.trusts τ) : (s.writeImage p).trusts τ := by
  unfold State.writeImage
  dsimp only
  split
  · exact trusts_set_cur (foldl_trusts (fun _ _ ht => ht.sysStore) _ h)
  · exact trivial

/-! #### Trusted state: The lanes of a core (R11, R154, R155) -/

theorem State.trusts.passLanes {p} (h : s.trusts τ) : (s.passLanes p).trusts τ := by
  unfold State.passLanes
  dsimp only
  split
  · exact h.setCore
  · exact h

theorem State.trusts.releaseLanes (h : s.trusts τ) : (s.releaseLanes).trusts τ := h.setCore.passLanes

theorem State.trusts.freeSlot {slot} (h : s.trusts τ) : (s.freeSlot slot).trusts τ := h

theorem State.trusts.abandon {why} (h : s.trusts τ) : (s.abandon why).trusts τ := by
  unfold State.abandon
  repeat' split
  all_goals exact h

theorem State.trusts.saveCur {st} (h : s.trusts τ) : (s.saveCur st).trusts τ := by
  unfold State.saveCur
  split
  · exact h
  · exact Res.seq_trusts (State.trusts.writeImage h.abandon) (fun _ ht => Res.seq_trusts ht.putTState (fun _ hu => hu.releaseLanes))

theorem State.trusts.raiseEvent {p y} (h : s.trusts τ) : (s.raiseEvent p y).trusts τ := h.modPart

/-! #### Trusted state: Taking an exception (R31, R212) -/

theorem State.trusts.deliver {t} (h : s.trusts τ) : (s.deliver t).trusts τ := Res.seq_trusts (State.trusts.saveCur h) (fun _ ht => ht.raiseEvent)

theorem State.trusts.takeTrap {t} (h : s.trusts τ) : (s.takeTrap t).trusts τ := by
  unfold State.takeTrap
  split
  · exact h.deliver
  · exact h

theorem State.trusts.resumeCur (h : s.trusts τ) : (s.resumeCur).trusts τ := by
  unfold State.resumeCur
  split
  · exact h
  · exact Res.seq_trusts h.putTState (fun _ ht => State.trusts.joined ht)

theorem finish_trusts {r : Res Unit} (hr : r.trusts τ) : nextTrusts τ (finish r) := by
  cases r with
  | ok _ t => exact hr
  | hole => trivial
  | wait _ t => exact hr
  | trap c t =>
    have ht := State.trusts.takeTrap (t := c) hr
    unfold finish
    dsimp only
    split
    · exact Res.trusts_of_ok ht ‹_›
    · trivial
    · exact Res.trusts_of_wait ht ‹_›
    · exact Res.trusts_of_trap ht ‹_›

/-! #### Trusted state: Local store -/

theorem State.trusts.captureLoc {launch cl off n} (h : s.trusts τ) : (s.captureLoc launch cl off n).trusts τ :=
  foldl_trusts (fun _ _ h => h.captureOld) _ h

theorem State.trusts.locWriteAt {launch cl off bs} (h : s.trusts τ) : (s.locWriteAt launch cl off bs).trusts τ := h.captureLoc.modLaunch

theorem State.trusts.locWrite {off bs} (h : s.trusts τ) : (s.locWrite off bs).trusts τ := h.locWriteAt

theorem State.trusts.seeLoc {off n} (h : s.trusts τ) : (s.seeLoc off n).trusts τ := by
  unfold State.seeLoc
  split
  · exact h
  · exact h.raisePts

theorem State.trusts.stampLoc {launch cl off ts} (h : s.trusts τ) : (s.stampLoc launch cl off ts).trusts τ := h.modLaunch

/-! #### Trusted state: Buffered stores of a DET thread (R110, R218) -/

theorem State.trusts.buffer {x} {t} (h : s.trusts τ) (e : s.buffer x = some t) : t.trusts τ := by
  unfold State.buffer at e
  dsimp only at e
  split at e
  · cases e
    exact h
  · split at e
    · cases e
    · split at e
      · cases e
      · split at e
        · cases e
          exact State.trusts.sysStore (State.trusts.sysStore h)
        · cases e

/-! #### Trusted state: Performing an access -/

theorem State.trusts.load {vec wid n} (h : s.trusts τ) : (s.load vec wid n).2.trusts τ := by
  unfold State.load
  split
  · split
    · split
      · dsimp only
        exact h.evictL1
      · exact h
    · dsimp only
      exact h.leaseRead
  · split
    · exact h
    · dsimp only
      exact h.seeLoc
  · exact h

theorem State.trusts.store {vec va wid n v} {t} (h : s.trusts τ) (e : s.store vec va wid n v = some t) : t.trusts τ := by
  unfold State.store at e
  split at e
  · split at e
    · exact h.buffer e
    · cases e
      exact h.leaseWrite
  · split at e
    · exact h.buffer e
    · cases e
      exact h.locWrite
  · cases e
    exact h

theorem State.trusts.rmwWrite {vec wid n v} (h : s.trusts τ) : (s.rmwWrite vec wid n v).trusts τ := by
  unfold State.rmwWrite
  split
  · exact h.leaseWrite
  · exact h.seeLoc.locWrite
  · exact h

theorem State.trusts.rmwLoad {wid n} (h : s.trusts τ) : (s.rmwLoad wid n).2.trusts τ := by
  unfold State.rmwLoad
  split
  · dsimp only
    exact h.leaseRenew
  · dsimp only
    exact h.seeLoc
  · exact h

/-! #### Trusted state: The queue and the scalar stream -/

theorem scalarAccess_trusts {n ea wid} {f : Where → Res Unit} (h : s.trusts τ) (hf : ∀ x, (f x).trusts τ) : (scalarAccess s n ea wid f).trusts τ := by
  unfold scalarAccess
  split
  · split
    · exact h.stall
    · exact h.trapHere
  · split
    · exact h.stall
    · exact hf _

theorem execLds_trusts {d a wid o} (h : s.trusts τ) : nextTrusts τ (execLds d a wid o s) :=
  finish_trusts (regs2_trusts h fun _ => (scalarAccess_trusts h fun _ => h.load.result))

theorem execLdz_trusts {d a wid o} (h : s.trusts τ) : nextTrusts τ (execLdz d a wid o s) :=
  finish_trusts (regs2_trusts h fun _ => (scalarAccess_trusts h fun _ => h.load.result))

theorem execSt_trusts {d a wid o} (h : s.trusts τ) : nextTrusts τ (execSt d a wid o s) := by
  refine finish_trusts (readG_trusts h (fun _ => readG_trusts h (fun _ => scalarAccess_trusts h (fun _ => ?_))))
  split
  · exact h.stall
  · split
    · rename_i e
      exact (h.store e).retire
    · exact h.trapHere

/-! #### Trusted state: The ALU family -/

theorem execSext_trusts {d a wid} (h : s.trusts τ) : nextTrusts τ (execSext d a wid s) := by
  refine finish_trusts ?_
  split
  · exact h.illegal
  · exact regs2_trusts h (fun _ => h.result)

theorem execZext_trusts {d a wid} (h : s.trusts τ) : nextTrusts τ (execZext d a wid s) := by
  refine finish_trusts ?_
  split
  · exact h.illegal
  · exact regs2_trusts h (fun _ => h.result)

/-! #### Trusted state: Long immediates (R263) -/

theorem execLih_trusts {d i} (h : s.trusts τ) : nextTrusts τ (execLih d i s) := finish_trusts (checkG_trusts h (h.result))

theorem execAddpc_trusts {d i} (h : s.trusts τ) : nextTrusts τ (execAddpc d i s) := finish_trusts (checkG_trusts h (h.result))

/-! #### Trusted state: AMO and CAS (R335, R336) -/

theorem amo_trusts {d a b f} (h : s.trusts τ) : (amo s d a b f).trusts τ :=
  regs3_trusts h fun _ _ => (scalarAccess_trusts h fun _ => h.rmwWrite.note.result)

theorem execCas_trusts {d a b} (h : s.trusts τ) : nextTrusts τ (execCas d a b s) := by
  unfold execCas
  dsimp only
  refine finish_trusts (readG_trusts h (fun _ => readG_trusts h (fun _ => readG_trusts h (fun _ => scalarAccess_trusts h (fun _ => ?_)))))
  split
  · exact h.rmwWrite.note.result
  · exact h.rmwLoad.note.result

/-! #### Trusted state: Lock words (R156) -/

theorem State.trusts.keyWrite {k v} (h : s.trusts τ) : (s.keyWrite k v).trusts τ := by
  unfold State.keyWrite
  split
  · exact h.rmwWrite
  · split
    · exact h.rmwWrite
    · exact h.locWriteAt

theorem State.trusts.setLockQueue {k l} (h : s.trusts τ) : (s.setLockQueue k l).trusts τ := h

/-! #### Trusted state: Inheritance (R157) -/

theorem State.trusts.inheritOnce (h : s.trusts τ) : (s.inheritOnce).trusts τ := h.modThreads

theorem State.trusts.inherit (h : s.trusts τ) : (s.inherit).trusts τ := foldl_trusts (fun _ _ h => h.inheritOnce) _ h

theorem State.trusts.reinherit (h : s.trusts τ) : (s.reinherit).trusts τ := State.trusts.inherit h

theorem State.trusts.handOver {k code} (h : s.trusts τ) : (s.handOver k code).trusts τ := by
  unfold State.handOver
  split
  · exact h.keyWrite
  · exact h.keyWrite.setLockQueue.modThread

theorem State.trusts.passLocks (h : s.trusts τ) : (s.passLocks).trusts τ := by
  refine State.trusts.inherit (foldl_trusts (fun _ _ h => ?_) _ ?_)
  · split
    · exact h.handOver
    · exact h
  · exact h

/-! #### Trusted state: Elements -/

theorem State.trusts.putV {n y vals} (h : s.trusts τ) : (s.putV n y vals).trusts τ := h

/-! #### Trusted state: Masks (R15) -/

theorem State.trusts.putMask {n bs} (h : s.trusts τ) : (s.putMask n bs).trusts τ := by
  unfold State.putMask
  split <;> exact h

/-! #### Trusted state: The head of the queue -/

theorem State.trusts.popQueue (h : s.trusts τ) : (s.popQueue).trusts τ := h

theorem State.trusts.setProg {k} (h : s.trusts τ) : (s.setProg k).trusts τ := h

theorem State.trusts.setRegProg {regs k} (h : s.trusts τ) : (s.setRegProg regs k).trusts τ := h

theorem State.trusts.endEntry {q dsts} (h : s.trusts τ) : (s.endEntry q dsts).trusts τ := by
  unfold State.endEntry
  split
  · exact h.popQueue
  · exact h.setProg.setRegProg

theorem vtrap_trusts {α : Type} {q code detail badva} (h : s.trusts τ) : (vtrap s q code detail badva : Res α).trusts τ := h

/-! #### Trusted state: Streams as operands (R289, R290) -/

theorem State.trusts.popStream {x bytes} (h : s.trusts τ) : (s.popStream x bytes).trusts τ := h

/-! #### Trusted state: Provisional operands (R72 to R76) -/

theorem popAll.go_trusts {s : State} {q a} {f : State → Res Unit} {t : State} (h : s.trusts τ) (hf : ∀ s, s.trusts τ → (f s).trusts τ)
    (ht : t.trusts τ) : (popAll.go s q f a t).trusts τ := by
  unfold popAll.go
  split
  · exact hf _ ht
  · split
    · split
      · exact h
      · exact popAll.go_trusts h hf ht.popStream
    · exact h
    · exact vtrap_trusts h

theorem popAll_trusts {q regs} {f : State → Res Unit} (h : s.trusts τ) (hf : ∀ s, s.trusts τ → (f s).trusts τ) : (popAll s q regs f).trusts τ :=
  popAll.go_trusts h hf h

theorem State.trusts.logLinear {ln q dsts srcs defs wrote} {s₀ : State} (h : s.trusts τ) :
    (s.logLinear s₀ ln q dsts srcs defs wrote).trusts τ := by
  unfold State.logLinear
  split <;> exact h

theorem execSrd_trusts {d n} (h : s.trusts τ) : nextTrusts τ (execSrd d n s) := by
  refine finish_trusts ?_
  split
  · exact h.illegalOp
  · refine checkG_trusts h ?_
    split
    · exact h.result
    · exact h.stall

theorem execSwr_trusts {a n} (h : s.trusts τ) : nextTrusts τ (execSwr a n s) := by
  refine finish_trusts ?_
  split
  · exact h.illegalOp
  · refine readG_trusts h (fun _ => ?_)
    split
    · exact State.trusts.retire h
    · split
      · exact h
      · exact h.stall

/-! #### Trusted state: Lanes (R11, R154, R155) -/

theorem State.trusts.takeLanes (h : s.trusts τ) : (s.takeLanes).trusts τ := h.setCore

theorem State.trusts.queueForLanes (h : s.trusts τ) : (s.queueForLanes).trusts τ := by
  unfold State.queueForLanes
  dsimp only
  split
  · exact h
  · exact h.setCore

theorem State.trusts.lanes {t} (h : s.trusts τ) (e : s.lanes = some t) : t.trusts τ := by
  unfold State.lanes at e
  dsimp only at e
  split at e
  · cases e
    exact h
  · split at e
    · cases e
    · split at e
      · split at e
        · cases e
          exact h.takeLanes
        · cases e
      · cases e
        exact h.takeLanes

theorem needLanes_trusts {f : State → Res Unit} (h : s.trusts τ) (hf : ∀ s, s.trusts τ → (f s).trusts τ) : (needLanes s f).trusts τ := by
  unfold needLanes
  split
  · rename_i e
    exact hf _ (h.lanes e)
  · exact h.queueForLanes.stall

/-! #### Trusted state: The push (R20, R29) -/

theorem capture_trusts {β : Type} {want n} {f : Word → Res β} (h : s.trusts τ) (hf : ∀ x, (f x).trusts τ) : (capture s want n f).trusts τ := by
  unfold capture
  split
  · exact hf _
  · split
    · exact h.stall
    · exact hf _

theorem State.trusts.enqueue {q} (h : s.trusts τ) : (s.enqueue q).trusts τ := h

theorem pushAt_trusts {pc word p} {f : State → Res Unit} (h : s.trusts τ) (hf : ∀ s, s.trusts τ → (f s).trusts τ) :
    (pushAt s pc word p f).trusts τ := by
  refine capture_trusts h (fun _ => capture_trusts h (fun _ => needLanes_trusts h (fun _ ht => ?_)))
  split
  · exact ht.stall
  · exact hf _ ht.enqueue

theorem pushed_trusts {p} (h : s.trusts τ) : (pushed s p).trusts τ := pushAt_trusts h fun _ ht => ht.retire

/-! #### Trusted state: Strip records (R226) -/

theorem State.trusts.closeStrip (h : s.trusts τ) : (s.closeStrip).trusts τ := by
  unfold State.closeStrip
  dsimp only
  split
  · split
    · split
      · exact trivial
      · exact h.sysStore.modPart
    · exact h
  · exact h

theorem State.trusts.openStrip {rp va gl} (h : s.trusts τ) : (s.openStrip rp va gl).trusts τ := h

theorem State.trusts.modPort {n f} (h : s.trusts τ) : (s.modPort n f).trusts τ := h

theorem State.trusts.pumpPort {n} (h : s.trusts τ) : (s.pumpPort n).trusts τ := by
  unfold State.pumpPort
  dsimp only
  split
  · exact h
  · split
    · exact h.modPort
    · exact h

theorem State.trusts.sendFlits {port key n} (h : s.trusts τ) : (s.sendFlits port key n).trusts τ := h.modPort.pumpPort

theorem State.trusts.sendNotice {ports} (h : s.trusts τ) : (s.sendNotice ports).trusts τ := foldl_trusts (fun _ _ h => h.sendFlits) _ h

/-! #### Trusted state: Barrier instances (R160, R161) -/

theorem State.trusts.releaseBar {launch b node ts} (h : s.trusts τ) : (s.releaseBar launch b node ts).trusts τ := h.modThreads

theorem State.trusts.countArrival {launch b lvl pcnt node pts} (h : s.trusts τ) : (s.countArrival launch b lvl pcnt node pts).trusts τ := by
  unfold State.countArrival
  dsimp only
  split
  · split
    · exact h.modLaunch.releaseBar.sendNotice
    · exact h.modLaunch
  · split
    · exact h.modLaunch.releaseBar.sendNotice
    · exact h.modLaunch

theorem State.trusts.fireBar {b} (h : s.trusts τ) : (s.fireBar b).trusts τ := by
  unfold State.fireBar
  dsimp only
  split
  · exact h
  · split
    · exact State.trusts.sendNotice h
    · exact State.trusts.countArrival h

theorem checkBar_trusts {n} {f : Res Unit} (h : s.trusts τ) (hf : f.trusts τ) : (checkBar s n f).trusts τ := by
  unfold checkBar
  split
  · split
    · exact hf
    · exact h.regTrap
  · exact h.regTrap

theorem putMarker_trusts {op can} {fire : State → State} {f : State → Res Unit} (h : s.trusts τ) (hfire : ∀ s, s.trusts τ → (fire s).trusts τ)
    (hf : ∀ s, s.trusts τ → (f s).trusts τ) : (putMarker s op can fire f).trusts τ := by
  unfold putMarker
  dsimp only
  split
  · exact hf _ (hfire _ h)
  · split
    · exact h.stall
    · exact hf _ h.enqueue

theorem waitBar_trusts {b} (h : s.trusts τ) : (waitBar s b).trusts τ := by
  unfold waitBar
  split
  · exact h
  · split
    · exact h.retire
    · split
      · exact h.raisePts.retire
      · exact h

theorem execBarArrive_trusts {n} (h : s.trusts τ) : nextTrusts τ (execBarArrive n s) :=
  finish_trusts (checkBar_trusts h (putMarker_trusts h (fun _ ht => ht.fireBar) fun _ ht => ht.retire))

theorem execBarWait_trusts {n} (h : s.trusts τ) : nextTrusts τ (execBarWait n s) := finish_trusts (checkBar_trusts h (waitBar_trusts h))

theorem execBarArrwait_trusts {n} (h : s.trusts τ) : nextTrusts τ (execBarArrwait n s) := by
  refine finish_trusts (checkBar_trusts h ?_)
  split
  · exact waitBar_trusts h
  · exact putMarker_trusts h (fun _ ht => ht.fireBar) (fun _ ht => waitBar_trusts ht)

/-! #### Trusted state: The iteration ring (R162, R163) -/

theorem State.trusts.firePost {k i} (h : s.trusts τ) : (s.firePost k i).trusts τ := h.modLaunch.modThreads

theorem checkRing_trusts {k} {f : Res Unit} (h : s.trusts τ) (hf : f.trusts τ) : (checkRing s k f).trusts τ := by
  unfold checkRing
  split
  · exact h.regTrap
  · exact hf

theorem execPost_trusts {k a} (h : s.trusts τ) : nextTrusts τ (execPost k a s) :=
  finish_trusts (checkRing_trusts h (readG_trusts h fun _ => (putMarker_trusts h (fun _ ht => ht.firePost) fun _ ht => ht.retire)))

theorem waitRing_trusts {k n its} {f : State → Res Unit} (h : s.trusts τ) (hf : ∀ s, s.trusts τ → (f s).trusts τ) :
    (waitRing s k n its f).trusts τ := by
  unfold waitRing
  dsimp only
  split
  · exact hf _ h.raisePts
  · exact h

theorem execWaiti_trusts {k a} (h : s.trusts τ) : nextTrusts τ (execWaiti k a s) := by
  refine finish_trusts (checkRing_trusts h (readG_trusts h (fun _ => ?_)))
  split
  · exact waitRing_trusts h (fun _ ht => ht.retire)
  · split
    · exact h.raisePts.retire
    · split <;> exact h

theorem popScalar_trusts {r} {f : State → Res Unit} (h : s.trusts τ) (hf : ∀ s, s.trusts τ → (f s).trusts τ) : (popScalar s r f).trusts τ := by
  unfold popScalar
  split
  · split
    · exact h.trapHere
    · exact hf _ h
  · split
    · split
      · exact h.stall
      · exact hf _ h.popStream
    · exact h.stall
    · exact h.trapHere

theorem execWaitv_trusts {d k b} (h : s.trusts τ) : nextTrusts τ (execWaitv d k b s) := by
  refine finish_trusts (checkG_trusts h (checkRing_trusts h ?_))
  split
  · exact h.regTrap
  · split
    · exact waitRing_trusts h (fun _ ht => ht.retire)
    · split
      · exact h.stall
      · split
        · exact h.raisePts.result
        · split
          · exact h.stall
          · split
            · exact h
            · exact popScalar_trusts h (fun _ ht => waitRing_trusts ht.setX (fun _ hu => hu.retire))

/-! #### Trusted state: The markers as steps of their own -/

theorem doBar_trusts {b} (h : s.trusts τ) : (doBar s b).trusts τ := by
  unfold doBar
  split
  · exact h.fireBar.popQueue
  · exact h

theorem doPost_trusts {k i} (h : s.trusts τ) : (doPost s k i).trusts τ := by
  unfold doPost
  split
  · exact h.firePost.popQueue
  · exact h

/-! #### Trusted state: WAITW (R338, R98) -/

theorem readWatched_trusts {c p} (h : s.trusts τ) : (readWatched s c p).2.trusts τ := by
  unfold readWatched
  split
  · dsimp only
    exact h.rmwLoad
  · split
    · dsimp only
      exact h.waitRead
    · dsimp only
      exact h.seeLoc
    · exact h

theorem checkWatched_trusts {d va c p y} (h : s.trusts τ) : (checkWatched s d va c p y).trusts τ := by
  unfold checkWatched
  dsimp only
  split
  · exact (((readWatched_trusts h).note).setX).retire
  · exact readWatched_trusts h

theorem waitWatched_trusts {f : Res Unit} (h : s.trusts τ) (hf : f.trusts τ) : (waitWatched s f).trusts τ := by
  unfold waitWatched
  split
  · split
    · exact hf
    · exact checkWatched_trusts h
    · exact h
  · exact hf

theorem waitw_trusts {d a b c} (h : s.trusts τ) : (waitw s d a b c).trusts τ :=
  regs3_trusts h fun _ _ => (waitWatched_trusts h (scalarAccess_trusts h fun _ => (checkWatched_trusts h)))

/-! #### Trusted state: FENCE (R107, R108, R339) -/

theorem State.trusts.dropFetch {n} (h : s.trusts τ) : (s.dropFetch n).trusts τ := h

theorem execFence_trusts {f p v k y l} (h : s.trusts τ) : nextTrusts τ (execFence f p v k y l s) := by
  unfold execFence
  dsimp only
  refine finish_trusts ?_
  split
  · exact h
  · split
    · exact h.dropFetch.retire
    · exact h.retire

/-! #### Trusted state: VFENCE and epochs (R109 to R111, R85) -/

theorem execVfence_trusts {l} (h : s.trusts τ) : nextTrusts τ (execVfence l s) := by
  unfold execVfence
  dsimp only
  refine finish_trusts ?_
  split
  · split
    · exact h.retire
    · exact h.stall
  · split
    · exact h.retire
    · split
      · exact h
      · split
        · exact h.stall
        · split
          · exact h.trapHere
          · exact h.modLaunch.sendNotice

/-! #### Trusted state: Sending (R362 to R364, R381) -/

theorem State.trusts.send {q pa op} (h : s.trusts τ) : (s.send q pa op).trusts τ := h

theorem tokenFrame_trusts {q uses lim} {f : Unit → Res Unit} (h : s.trusts τ) (hf : ∀ x, (f x).trusts τ) : (tokenFrame s q uses lim f).trusts τ := by
  unfold tokenFrame
  split
  · exact vtrap_trusts h
  · split
    · exact vtrap_trusts h
    · split
      · exact vtrap_trusts h
      · split
        · exact vtrap_trusts h
        · exact hf _

theorem doTkarm_trusts {q} (h : s.trusts τ) : (doTkarm s q).trusts τ := by
  unfold doTkarm
  dsimp only
  split
  · refine tokenFrame_trusts h (fun _ => ?_)
    split
    · exact vtrap_trusts h
    · split
      · split <;> exact vtrap_trusts h
      · exact vtrap_trusts h
      · exact vtrap_trusts h
      · split
        · exact h.load.setX.popQueue
        · exact h.load.send.setProg
  · split
    · exact h
    · exact h.setX.popQueue

theorem doTkdisarm_trusts {q} (h : s.trusts τ) : (doTkdisarm s q).trusts τ := by
  refine tokenFrame_trusts h (fun _ => ?_)
  split
  · exact vtrap_trusts h
  · exact h.send.popQueue

theorem sendElems_trusts {s : State} {op a} (h : s.trusts τ) : (sendElems s op a).1.trusts τ := by
  unfold sendElems
  split
  · exact h
  · split
    · exact h
    · exact sendElems_trusts h.send

theorem doSends_trusts {q emit op} (h : s.trusts τ) : (doSends s q emit op).trusts τ := by
  unfold doSends
  dsimp only
  refine tokenFrame_trusts h (fun _ => ?_)
  split
  · refine popAll_trusts h (fun _ ht => ?_)
    split
    · exact vtrap_trusts (State.trusts.setProg h)
    · split
      · exact State.trusts.popQueue (sendElems_trusts ht)
      · exact (sendElems_trusts ht).popQueue
  · exact h

theorem doTkemit_trusts {q draft} (h : s.trusts τ) : (doTkemit s q draft).trusts τ := doSends_trusts h

theorem doTkconf_trusts {q} (h : s.trusts τ) : (doTkconf s q).trusts τ := doSends_trusts h

/-! #### Trusted state: The units (R185, R186) -/

theorem State.trusts.unitWrite {p launch pts ws} (h : s.trusts τ) : (s.unitWrite p launch pts ws).2.trusts τ :=
  foldl_trusts (fun _ _ ht => ht.storeAt.setLine) _ h.rebaseFor

/-! #### Trusted state: TKSYNC (R189, R190, R365) -/

theorem State.trusts.seeLines {ls} (h : s.trusts τ) : (s.seeLines ls).trusts τ := by
  unfold State.seeLines
  split <;> exact h

theorem execTksync_trusts {d} (h : s.trusts τ) : nextTrusts τ (execTksync d s) := by
  unfold execTksync
  dsimp only
  refine finish_trusts ?_
  split
  · exact h.illegalOp
  · split
    · exact h.regTrap
    · split
      · exact h
      · split
        · exact State.trusts.retire h.putMask.raisePts.seeLines
        · exact State.trusts.trapHere h.putMask.raisePts.seeLines

/-! #### Trusted state: The common frame (R297, R316) -/

theorem vexec_trusts {q linear defs wrote} {f : State → State} (h : s.trusts τ) (hf : ∀ s, s.trusts τ → (f s).trusts τ) :
    (vexec s q linear defs wrote f).trusts τ := by
  unfold vexec
  split
  · exact vtrap_trusts h
  · refine popAll_trusts h (fun _ ht => ?_)
    split
    · exact h
    · exact (hf _ ht).endEntry
    · exact (hf _ ht).logLinear.endEntry

theorem vplain_trusts {q} {f : State → State} (h : s.trusts τ) (hf : ∀ s, s.trusts τ → (f s).trusts τ) : (vplain s q f).trusts τ :=
  vexec_trusts h hf

theorem State.trusts.putRes {n y rs} (h : s.trusts τ) : (s.putRes n y rs).trusts τ := h.putV.accrue

/-! #### Trusted state: Corrections (R73) -/

theorem vmove_trusts {q t settled f} (h : s.trusts τ) : (vmove s q t settled f).trusts τ := vexec_trusts h fun _ ht => ht.putV

/-! #### Trusted state: Integer, widening, narrowing and floating-point majors (R299 to R302) -/

theorem doInt_trusts {q f m sc t} (h : s.trusts τ) : (doInt s q f m sc t).trusts τ := vplain_trusts h fun _ ht => ht.putRes

theorem doWide_trusts {q f m sc t} (h : s.trusts τ) : (doWide s q f m sc t).trusts τ := vplain_trusts h fun _ ht => ht.putRes

theorem doNclip_trusts {q signed m sc t} (h : s.trusts τ) : (doNclip s q signed m sc t).trusts τ := vplain_trusts h fun _ ht => ht.putRes

theorem doFp_trusts {q f m sc t} (h : s.trusts τ) : (doFp s q f m sc t).trusts τ := vexec_trusts h fun _ ht => ht.putRes

/-! #### Trusted state: Compares and select (R303, R304) -/

theorem doCmp_trusts {q f m sc t} (h : s.trusts τ) : (doCmp s q f m sc t).trusts τ := vplain_trusts h fun _ ht => ht.putMask.accrue

theorem doSel_trusts {q m sc t} (h : s.trusts τ) : (doSel s q m sc t).trusts τ := vexec_trusts h fun _ ht => ht.putV

/-! #### Trusted state: Slides, gather, compress, moves (R305, R306, R309, R310) -/

theorem doSlide_trusts {q up m t} (h : s.trusts τ) : (doSlide s q up m t).trusts τ := vmove_trusts h

theorem doGather_trusts {q m sc t} (h : s.trusts τ) : (doGather s q m sc t).trusts τ := vmove_trusts h

theorem doCompress_trusts {q m t} (h : s.trusts τ) : (doCompress s q m t).trusts τ := vmove_trusts h

/-! #### Trusted state: Key merge (R307) -/

theorem doMerge_trusts {q t} (h : s.trusts τ) : (doMerge s q t).trusts τ := vplain_trusts h fun _ ht => ht.putV.putV.accrue

/-! #### Trusted state: Masks (R308, R313) -/

theorem doMlog_trusts {q f} (h : s.trusts τ) : (doMlog s q f).trusts τ := vplain_trusts h fun _ ht => ht.putMask

theorem doMnot_trusts {q m} (h : s.trusts τ) : (doMnot s q m).trusts τ := vplain_trusts h fun _ ht => ht.putMask

theorem doMpart_trusts {q f m} (h : s.trusts τ) : (doMpart s q f m).trusts τ := vplain_trusts h fun _ ht => ht.putMask

theorem doMpop_trusts {q m} (h : s.trusts τ) : (doMpop s q m).trusts τ := vplain_trusts h fun _ ht => ht.setX

theorem doMfirst_trusts {q m} (h : s.trusts τ) : (doMfirst s q m).trusts τ := vplain_trusts h fun _ ht => ht.setX

/-! #### Trusted state: VUNARY functions 0 to 15 (R309) -/

theorem doOne_trusts {q f m t} (h : s.trusts τ) : (doOne s q f m t).trusts τ := by
  unfold doOne
  split
  · exact vmove_trusts h
  · exact vexec_trusts h (fun _ ht => ht.putRes)

theorem doSplat_trusts {q m t} (h : s.trusts τ) : (doSplat s q m t).trusts τ := vplain_trusts h fun _ ht => ht.putV

theorem doMvsx_trusts {q m t} (h : s.trusts τ) : (doMvsx s q m t).trusts τ := by
  refine vplain_trusts h (fun _ ht => ?_)
  split
  · exact ht.putV
  · exact ht

theorem doMvxs_trusts {q t} (h : s.trusts τ) : (doMvxs s q t).trusts τ := vplain_trusts h fun _ ht => ht.setX

theorem doVid_trusts {q m t} (h : s.trusts τ) : (doVid s q m t).trusts τ := vplain_trusts h fun _ ht => ht.putV

theorem doIota_trusts {q m t} (h : s.trusts τ) : (doIota s q m t).trusts τ := vplain_trusts h fun _ ht => ht.putV

/-! #### Trusted state: Reductions (R57, R58, R312) -/

theorem doRed_trusts {q f m t} (h : s.trusts τ) : (doRed s q f m t).trusts τ := by
  unfold doRed
  dsimp only
  refine vplain_trusts h (fun _ ht => ?_)
  split
  · exact ht
  · exact ht.putV.accrue

/-! #### Trusted state: Sorting (R314) -/

theorem doSortk_trusts {q m t} (h : s.trusts τ) : (doSortk s q m t).trusts τ := vplain_trusts h fun _ ht => ht.putV

theorem doUniq_trusts {q m t} (h : s.trusts τ) : (doUniq s q m t).trusts τ := vplain_trusts h fun _ ht => ht.putMask

/-! #### Trusted state: Conversions (R51, R315) -/

theorem doToF4_trusts {q m t} (h : s.trusts τ) : (doToF4 s q m t).trusts τ := vplain_trusts h fun _ ht => ht.putV.putV.accrue

theorem doFromF4_trusts {q m t} (h : s.trusts τ) : (doFromF4 s q m t).trusts τ := vplain_trusts h fun _ ht => ht.putRes

theorem doCvt_trusts {q f m t} (h : s.trusts τ) : (doCvt s q f m t).trusts τ := by
  unfold doCvt
  split
  · exact doToF4_trusts h
  · exact doFromF4_trusts h
  · exact vplain_trusts h (fun _ ht => ht.putRes)

theorem issueV_trusts {op x} (h : s.trusts τ) : (issueV s op x).trusts τ := pushed_trusts h

theorem issueU_trusts {op x ca} (h : s.trusts τ) : (issueU s op x ca).trusts τ := pushed_trusts h

/-! #### Trusted state: VCONF, VSETL, VREL -/

theorem execVconf_trusts {n} (h : s.trusts τ) : nextTrusts τ (execVconf n s) := by
  refine finish_trusts (needLanes_trusts h (fun _ ht => ?_))
  split
  · exact ht.stall
  · split
    · exact ht.trapHere
    · split
      · exact ht.retire
      · exact State.trusts.retire ht

theorem execVsetl_trusts {d a b wid} (h : s.trusts τ) : nextTrusts τ (execVsetl d a b wid s) := by
  refine finish_trusts (regs3_trusts h (fun _ _ => ?_))
  split
  · split
    · exact h.trapHere
    · exact h.stall
  · refine needLanes_trusts h (fun _ ht => ?_)
    split
    · exact ht.stall
    · exact Res.seq_trusts ht.closeStrip (fun _ ht => State.trusts.result ht.openStrip.enqueue.note)

theorem execVrel_trusts (h : s.trusts τ) : nextTrusts τ (execVrel s) := by
  refine finish_trusts ?_
  split
  · exact h.stall
  · exact State.trusts.retire (State.trusts.releaseLanes h)

/-! #### Trusted state: FRAME (R278) -/

theorem State.trusts.setFrame {f} (h : s.trusts τ) : (s.setFrame f).trusts τ := h

theorem frameCopies_trusts {ps sd sa sb last a} (h : s.trusts τ) : (frameCopies ps sd sa sb last a s).trusts τ := by
  delta frameCopies frameCopies._f
  induction State.frameBad using of_forall with
  | all bad =>
    induction a generalizing s with
    | nil => exact h.setFrame.goto
    | cons x l ih =>
      dsimp -zeta only
      extract_lets +onlyGivenNames t
      have ht : t.trusts τ := h.setFrame
      clear_value t
      split
      · exact ht
      · extract_lets +onlyGivenNames pc p
        split
        · split
          · exact ht
          · exact ht.stall
        · exact pushAt_trusts ht fun _ h => ih h

theorem execFrame_trusts {r n x y z} (h : s.trusts τ) : nextTrusts τ (execFrame r n x y z s) := by
  refine finish_trusts ?_
  split
  · exact h
  · exact frameCopies_trusts h

/-! #### Trusted state: Streams (R287 to R293) -/

theorem State.trusts.setStreams {l} (h : s.trusts τ) : (s.setStreams l).trusts τ := h

theorem State.trusts.streamTrap {α : Type} {d} (h : s.trusts τ) : (s.streamTrap d : Res α).trusts τ := h.trapHere

theorem checkV_trusts {d} {f : Res Unit} (h : s.trusts τ) (hf : f.trusts τ) : (checkV s d f).trusts τ := by
  unfold checkV
  split
  · exact h.regTrap
  · exact hf

theorem State.trusts.gangMap {x f} (h : s.trusts τ) : (s.gangMap x f).trusts τ := foldl_trusts (fun _ _ h => h.modThread) _ h

theorem State.trusts.markStale {x} (h : s.trusts τ) : (s.markStale x).trusts τ := by
  unfold State.markStale
  split
  · exact h
  · exact h.gangMap

theorem execVstreamBind_trusts {d a b} (h : s.trusts τ) : nextTrusts τ (execVstreamBind d a b s) := by
  unfold execVstreamBind
  dsimp only
  refine finish_trusts (checkV_trusts h (readG_trusts h (fun _ => readG_trusts h (fun _ => ?_))))
  split
  · exact h.streamTrap
  · split
    · exact h.streamTrap
    · split
      · split
        · exact h.stall
        · exact h.trapHere
      · split
        · exact h.stall
        · split
          · exact h.streamTrap
          · split
            · exact h.streamTrap
            · split
              · exact h.stall
              · exact State.trusts.retire (State.trusts.markStale (trusts_of_eq h.load rfl))

theorem State.trusts.unbind {x} (h : s.trusts τ) : (s.unbind x).trusts τ := h

theorem State.trusts.rewind {x} (h : s.trusts τ) : (s.rewind x).trusts τ := h.setStreams

theorem unbindOr_trusts {d rewind} (h : s.trusts τ) : (unbindOr s d rewind).trusts τ := by
  have hone : ∀ (t : State) (x : Stream), t.trusts τ → (if rewind then t.rewind x else t.unbind x).trusts τ := by
    intro t x ht
    split
    · exact ht.rewind
    · exact ht.unbind
  have hact : ∀ (t : State) (x : Stream), t.trusts τ → (match t.cur.vec.streams.find? x.gangOf with
      | none => t
      | some y => if rewind then t.rewind y else t.unbind y).trusts τ := by
    intro t x ht
    split
    · exact ht
    · exact hone _ _ ht
  unfold unbindOr
  refine checkV_trusts h ?_
  dsimp only
  split
  · exact h.retire
  · rw [if_neg Bool.false_ne_true]
    split
    · exact h.streamTrap
    · split
      · exact h.stall
      · split
        · exact State.trusts.retire (hone _ _ h)
        · split
          · exact h
          · exact State.trusts.retire (hact _ _ (foldl_trusts (fun _ _ h => (h.withThread fun _ h => hact _ _ h).modThread) _ h))

theorem execVstreamUnbind_trusts {d} (h : s.trusts τ) : nextTrusts τ (execVstreamUnbind d s) := finish_trusts (unbindOr_trusts h)

theorem execVstreamRewind_trusts {d} (h : s.trusts τ) : nextTrusts τ (execVstreamRewind d s) := finish_trusts (unbindOr_trusts h)

/-! #### Trusted state: Shadowed buffers (R113 to R116) -/

theorem State.trusts.modShadow {p y f} (h : s.trusts τ) : (s.modShadow p y f).trusts τ := h

theorem State.trusts.captureShadow {launch b ns} (h : s.trusts τ) :
    (s.captureShadow launch b ns).trusts τ := foldl_trusts (fun _ _ h => h.captureOld) _ h

theorem State.trusts.rebaseWith {p high pts} (h : s.trusts τ) : (s.rebaseWith p high pts).2.trusts τ := by
  unfold State.rebaseWith
  split
  · dsimp only
    exact h.rebase
  · exact h

theorem State.trusts.publish {p launch z pts} (h : s.trusts τ) : (s.publish p launch z pts).2.trusts τ := by
  unfold State.publish
  dsimp only
  split
  · exact h
  · split
    · exact h
    · dsimp only
      exact (foldl_trusts (fun _ _ ht => ht.setLine) _ h.captureShadow.unitWrite).modShadow

theorem State.trusts.cancelLines {writer} (h : s.trusts τ) : (s.cancelLines writer).trusts τ := h

theorem execPublish_trusts {a} (h : s.trusts τ) : nextTrusts τ (execPublish a s) := by
  unfold execPublish
  dsimp only
  refine finish_trusts (readG_trusts h (fun _ => ?_))
  split
  · exact h.publish.setPts.retire
  · exact h.publish.retire

/-! #### Trusted state: Sync words (R121, R122) -/

theorem execSyncw_trusts {a b} (h : s.trusts τ) : nextTrusts τ (execSyncw a b s) := by
  refine finish_trusts (readG_trusts h (fun _ => readG_trusts h (fun _ => ?_)))
  split
  · split
    · exact h.stall
    · exact h.trapHere
  · split
    · exact h.stall
    · exact h.rmwWrite.retire

theorem execSyncwait_trusts {d a b} (h : s.trusts τ) : nextTrusts τ (execSyncwait d a b s) := by
  refine finish_trusts (regs3_trusts h (fun _ _ => waitWatched_trusts h ?_))
  split
  · split
    · exact h.stall
    · exact h.trapHere
  · split
    · exact h.stall
    · exact checkWatched_trusts h

/-! #### Trusted state: Engine accesses (R127, R222) -/

theorem syncUpdate_trusts {x launch pts sync f} {z} (h : s.trusts τ) (e : syncUpdate s x launch pts sync f = .ok z) : z.2.2.trusts τ := by
  unfold syncUpdate at e
  dsimp only at e
  split at e
  · cases e
  · cases e
  · split at e
    · cases e
    · split at e
      · cases e
        exact h.rebaseWith.unitWrite
      · split at e
        · cases e
          exact h.rebaseWith.unitWrite.publish
        · cases e
          exact h.rebaseWith.unitWrite.publish.setLine
  · split at e
    · cases e
      exact h.locWriteAt
    · split at e
      · cases e
        exact h.locWriteAt.publish
      · cases e
        exact h.locWriteAt.publish.stampLoc

/-! #### Trusted state: The end of a command (R125, R346, R347) -/

theorem State.trusts.sendEnd {c} (h : s.trusts τ) : (s.sendEnd c).trusts τ := by
  unfold State.sendEnd
  split
  · exact h
  · split
    · split
      · exact h
      · exact h.sendFlits
    · exact h

theorem State.trusts.advanceXfd {owner ch} (h : s.trusts τ) : (s.advanceXfd owner ch).trusts τ := h.modThread

theorem State.trusts.putCmd {c} (h : s.trusts τ) : (s.putCmd c).trusts τ := h

theorem State.trusts.endCmd {c} (h : s.trusts τ) : (s.endCmd c).trusts τ := h.putCmd.advanceXfd

theorem setErr_trusts {bad} {r : Run} {z} (hr : r.2.trusts τ) (e : setErr r bad = .ok z) : z.2.trusts τ := by
  unfold setErr at e
  dsimp only at e
  split at e
  · cases e
    dsimp only
    exact hr.sendEnd
  · split at e
    · cases e
      exact hr
    · split at e
      · rename_i e₁
        cases e
        split <;> exact syncUpdate_trusts hr e₁
      · split at e
        · cases e
          exact hr
        · cases e
      · cases e
        exact hr

theorem writeRecord_trusts {bad} {r : Run} {z} (hr : r.2.trusts τ) (e : writeRecord r bad = .ok z) : z.2.trusts τ := by
  unfold writeRecord at e
  dsimp only at e
  split at e
  · cases e
    exact hr
  · split at e
    · split at e
      · cases e
        exact hr
      · cases e
    · split at e
      · cases e
        exact hr
      · cases e
    · cases e
      split <;> exact hr.locWriteAt
    · split at e
      · cases e
        exact hr
      · cases e
        split <;> exact hr.unitWrite

theorem publishEnd_trusts {r : Run} (hr : r.2.trusts τ) : (publishEnd r).2.trusts τ := by
  unfold publishEnd
  dsimp only
  split
  · exact hr
  · split
    · rename_i e
      split at e
      · split <;> exact hr.publish
      · split <;> exact hr.publish
    · split <;> exact hr.publish

theorem endWith_trusts {status bad} {r : Run} (hr : r.2.trusts τ) : (endWith r status bad).trusts τ := by
  unfold endWith
  extract_lets +onlyGivenNames c₀ c t e
  have ht : t.trusts τ := by
    unfold t
    split
    · exact hr
    · exact hr.cancelLines
  have he : ∀ z, e = .ok z → z.2.trusts τ := by
    intro z hz
    unfold e at hz
    split at hz
    · cases hz
      exact ht
    · split at hz
      · cases hz
        exact publishEnd_trusts ht
      · exact setErr_trusts ht hz
  clear_value e t
  split
  · exact ht
  · trivial
  · rename_i z
    have hz := he z rfl
    extract_lets +onlyGivenNames y₀ y
    have hy : y.2.trusts τ := hz
    clear_value y
    split
    · rename_i w hw
      exact (writeRecord_trusts hy hw).endCmd
    · exact hy
    · trivial

/-! #### Trusted state: Remote pushes (R131, R221, R350) -/

theorem State.trusts.pushErr {x} {t} (h : s.trusts τ) (e : s.pushErr x = .ok t) : t.trusts τ := by
  unfold State.pushErr at e
  split at e
  · cases e
    exact h
  · split at e
    · rename_i e₁
      cases e
      exact syncUpdate_trusts h e₁
    · cases e
    · cases e
      exact h

theorem State.trusts.closePush {x status} (h : s.trusts τ) : (s.closePush x status).trusts τ := h

theorem State.trusts.abortPush {x} (h : s.trusts τ) : (s.abortPush x).trusts τ := by
  unfold State.abortPush
  split
  · rename_i e
    exact (h.pushErr e).closePush
  · exact h.closePush

/-! #### Trusted state: Contributions -/

theorem State.trusts.sendContribution {c} (h : s.trusts τ) : (s.sendContribution c).trusts τ := by
  unfold State.sendContribution
  split
  · split
    · exact foldl_trusts (fun _ _ ht => ht.sendFlits) _ h
    · exact h
  · exact h

/-! #### Trusted state: The parts of a command -/

theorem State.trusts.pauseCmd {k d v} {r : Run} (hr : r.2.trusts τ) : (s.pauseCmd r k d v).trusts τ := hr.putCmd.raiseEvent

theorem State.trusts.abortCmd {c status} (h : s.trusts τ) : (s.abortCmd c status).trusts τ := by
  unfold State.abortCmd
  split
  · rename_i e
    exact EngStep.trusts_of_ended (endWith_trusts h) e
  · rename_i e₁
    exact State.trusts.pauseCmd (EngStep.trusts_of_fault (endWith_trusts h) e₁)
  · exact h

theorem State.trusts.cancelCmds {owner} (h : s.trusts τ) :
    (s.cancelCmds owner).trusts τ := foldl_trusts (fun _ _ h => h.cancelLines.sendEnd.endCmd) _ h

/-! #### Trusted state: Issue (R344) -/

theorem copyIssue_trusts {fn d a b} (h : s.trusts τ) : (copyIssue s fn d a b).trusts τ := by
  refine checkG_trusts h (readG_trusts h (fun _ => ?_))
  split
  · exact h.regTrap
  · split
    · split
      · exact h.stall
      · exact h.trapHere
    · split
      · exact h.stall
      · exact State.trusts.result (State.trusts.sendContribution (trusts_of_eq h.load rfl))

theorem execXfwait_trusts {a b} (h : s.trusts τ) : nextTrusts τ (execXfwait a b s) := by
  unfold execXfwait
  dsimp only
  refine finish_trusts ?_
  split
  · exact h.regTrap
  · refine readG_trusts h (fun _ => ?_)
    split
    · exact h.raisePts.retire
    · exact h

/-! #### Trusted state: SHADOW (R352) -/

theorem execShadow_trusts {d a} (h : s.trusts τ) : nextTrusts τ (execShadow d a s) := by
  have hl : ∀ p, (s.load false p 32).2.trusts τ := fun _ => h.load
  unfold execShadow
  generalize s.load false = f at hl ⊢
  generalize natBytes = g
  refine finish_trusts (regs2_trusts h fun x => ?_)
  split
  · split
    · exact h.stall
    · exact h.trapHere
  · split
    · exact h.stall
    · dsimp only
      split
      · exact (hl _).result
      · split
        · exact (hl _).trapHere
        · split
          · exact (hl _).trapHere
          · split
            · exact (hl _).result
            · split
              · exact (hl _).result
              · exact State.trusts.result (hl _)

theorem execShadowRelease_trusts {d b} (h : s.trusts τ) : nextTrusts τ (execShadowRelease d b s) := by
  unfold execShadowRelease
  dsimp only
  refine finish_trusts (checkG_trusts h (readG_trusts h (fun _ => ?_)))
  split
  · exact h.result
  · split
    · exact h.stall
    · exact State.trusts.result h

theorem loadFields_trusts {s : State} {n a} (h : s.trusts τ) : (loadFields s n a).2.trusts τ := by
  unfold loadFields
  split
  · exact h
  · dsimp only
    exact loadFields_trusts h.load

theorem loadElems_trusts {s : State} {n a} (h : s.trusts τ) : (loadElems s n a).2.trusts τ := by
  unfold loadElems
  split
  · exact h
  · dsimp only
    exact loadElems_trusts (loadFields_trusts h)

theorem storeFields_trusts {s : State} {n a z} {t} (h : s.trusts τ) (e : storeFields s n a z = .ok t) : t.trusts τ := by
  unfold storeFields at e
  split at e
  · cases e
    exact h
  · cases e
    exact h
  · split at e
    · rename_i e₁
      exact storeFields_trusts (h.store e₁) e
    · cases e

theorem storeElems_trusts {s : State} {n value loses a} (h : s.trusts τ) : (storeElems s n value loses a).1.trusts τ := by
  unfold storeElems
  split
  · exact h
  · split
    · exact storeElems_trusts h
    · split
      · rename_i e
        exact storeElems_trusts (storeFields_trusts h e)
      · exact h

theorem memFrame_trusts {q lim uses} {f : Unit → Res Unit} (h : s.trusts τ) (hf : ∀ x, (f x).trusts τ) : (memFrame s q lim uses f).trusts τ := by
  unfold memFrame
  split
  · exact vtrap_trusts h
  · split
    · exact vtrap_trusts h
    · split
      · exact hf _
      · exact h

theorem putLoaded_trusts {q size nf vals} (h : s.trusts τ) : (putLoaded s q size nf vals).trusts τ := foldl_trusts (fun _ _ h => h.putV) _ h

theorem State.trusts.stopAt {i offs} (h : s.trusts τ) : (s.stopAt i offs).trusts τ := h

theorem State.trusts.loadStopAt {q f wid i offs} (h : s.trusts τ) : (s.loadStopAt q f wid i offs).trusts τ := h.setRegProg.stopAt

theorem State.trusts.setFstat {n} (h : s.trusts τ) : (s.setFstat n).trusts τ := h

theorem putScales_trusts {q bs} (h : s.trusts τ) : (putScales s q bs).trusts τ := h.putV.accrue

theorem doLoad_trusts {q f m wid} (h : s.trusts τ) : (doLoad s q f m wid).trusts τ := by
  unfold doLoad
  dsimp only
  refine memFrame_trusts h (fun _ => ?_)
  split
  · exact vtrap_trusts h
  · split
    · split
      · split
        · exact ((putScales_trusts (putLoaded_trusts (loadElems_trusts h))).setFstat).popQueue
        · exact ((putLoaded_trusts (loadElems_trusts h)).setFstat).popQueue
      · split
        · exact (putScales_trusts (putLoaded_trusts (loadElems_trusts h))).popQueue
        · exact (putLoaded_trusts (loadElems_trusts h)).popQueue
    · rename_i e
      split at e
      · split
        · exact ((putLoaded_trusts (loadElems_trusts h)).setFstat).popQueue
        · split
          · exact vtrap_trusts ((putScales_trusts (putLoaded_trusts (loadElems_trusts h))).loadStopAt)
          · exact vtrap_trusts ((putLoaded_trusts (loadElems_trusts h)).loadStopAt)
      · split
        · exact ((putLoaded_trusts (loadElems_trusts h)).setFstat).popQueue
        · split
          · exact vtrap_trusts ((putScales_trusts (putLoaded_trusts (loadElems_trusts h))).loadStopAt)
          · exact vtrap_trusts ((putLoaded_trusts (loadElems_trusts h)).loadStopAt)

theorem doStore_trusts {q f m wid} (h : s.trusts τ) : (doStore s q f m wid).trusts τ := by
  unfold doStore
  dsimp only
  refine memFrame_trusts h (fun _ => ?_)
  split
  · exact vtrap_trusts ((storeElems_trusts h).stopAt)
  · exact vtrap_trusts ((storeElems_trusts h).stopAt)
  · exact (storeElems_trusts h).popQueue

/-! #### Trusted state: VAMO (R84, R294) -/

theorem doAmo_trusts {q f m wid} (h : s.trusts τ) : (doAmo s q f m wid).trusts τ := by
  unfold doAmo
  refine memFrame_trusts h fun _ => ?_
  dsimp only
  split
  · exact vtrap_trusts h
  · refine State.trusts.popQueue (State.trusts.putV ?_)
    refine List.foldlRecOn _ _ (motive := fun a : State × List (Word × Nat) => a.1.trusts τ) h fun a ha x _ => ?_
    exact (ha.rmwWrite.accrue).note

theorem doMem_trusts {q f m wid} (h : s.trusts τ) : (doMem s q f m wid).trusts τ := by
  unfold doMem
  split
  · exact doStore_trusts h
  · exact doLoad_trusts h

/-! #### Trusted state: Shares (R317, R320, R321) -/

theorem State.trusts.setShare {x1} (h : s.trusts τ) : (s.setShare x1).trusts τ := h

theorem State.trusts.setAcc {x1 c a} (h : s.trusts τ) : (s.setAcc x1 c a).trusts τ := h.setShare

theorem State.trusts.setGrant {n} (h : s.trusts τ) : (s.setGrant n).trusts τ := h

theorem pressFrame_trusts {q uses own} {f : Share → Res Unit} (h : s.trusts τ) (hf : ∀ x, (f x).trusts τ) : (pressFrame s q uses own f).trusts τ := by
  unfold pressFrame
  split
  · exact vtrap_trusts h
  · split
    · exact vtrap_trusts h
    · split
      · exact vtrap_trusts h
      · split
        · exact vtrap_trusts h
        · split
          · exact vtrap_trusts h
          · exact hf _

theorem doAttach_trusts {q rows} (h : s.trusts τ) : (doAttach s q rows).trusts τ := by
  unfold doAttach
  dsimp only
  split
  · exact vtrap_trusts h
  · split
    · exact vtrap_trusts h
    · split
      · exact h.setGrant.popQueue
      · exact State.trusts.popQueue h

/-! #### Trusted state: Finishing a contraction (R70, R331) -/

theorem State.trusts.setLin {ln l} (h : s.trusts τ) : (s.setLin ln l).trusts τ := h.setCore

theorem finishAcc_trusts {c} (h : s.trusts τ) : (finishAcc s c).trusts τ := by
  unfold finishAcc
  dsimp only
  split
  · exact h
  · split
    · exact h
    · split
      · exact h.setAcc.accrue
      · exact h.setAcc.accrue.setLin

theorem doPfin_trusts {q c} (h : s.trusts τ) : (doPfin s q c).trusts τ := pressFrame_trusts h fun _ => (finishAcc_trusts h).popQueue

theorem State.trusts.detach (h : s.trusts τ) : (s.detach).trusts τ := by
  unfold State.detach
  dsimp only
  split
  · exact h.setCluster.setShare.setGrant
  · exact h.setShare.setGrant

theorem finishAll_trusts (h : s.trusts τ) : (finishAll s).trusts τ := foldl_trusts (fun _ _ ht => finishAcc_trusts ht) _ h

theorem doDetach_trusts {q} (h : s.trusts τ) : (doDetach s q).trusts τ := by
  unfold doDetach
  dsimp only
  refine pressFrame_trusts h (fun _ => ?_)
  split
  · exact ((finishAll_trusts h).detach).popQueue
  · exact finishAll_trusts h

/-! #### Trusted state: Operand loads (R322 to R325) -/

theorem loadGroup_trusts {code p} (h : s.trusts τ) : (loadGroup s code p).2.trusts τ := h.load

theorem loadGroups_trusts {s : State} {code a} (h : s.trusts τ) : (loadGroups s code a).2.trusts τ := by
  unfold loadGroups
  split
  · exact h
  · dsimp only
    exact loadGroups_trusts (loadGroup_trusts h)

theorem loadLine_trusts {code eas} (h : s.trusts τ) : (loadLine s code eas).2.1.trusts τ := by
  unfold loadLine
  dsimp only
  split
  · exact h
  · dsimp only
    exact loadGroups_trusts h

theorem loadLines_trusts {s : State} {q code kgroups a} (h : s.trusts τ) : (loadLines s q code kgroups a).2.1.trusts τ := by
  unfold loadLines
  dsimp only
  split
  · exact h
  · split
    · exact h
    · dsimp only
      exact loadLines_trusts (loadLine_trusts h)

theorem doPldaMem_trusts {q code k} (h : s.trusts τ) : (doPldaMem s q code k).trusts τ := by
  unfold doPldaMem
  dsimp only
  refine pressFrame_trusts h (fun _ => ?_)
  split
  · exact vtrap_trusts h
  · split
    · exact vtrap_trusts h
    · split
      · exact h
      · split
        · exact vtrap_trusts (((loadLines_trusts h).setShare).setProg)
        · exact ((loadLines_trusts h).setShare).popQueue

theorem doPldbMem_trusts {q code k} (h : s.trusts τ) : (doPldbMem s q code k).trusts τ := by
  unfold doPldbMem
  dsimp only
  refine pressFrame_trusts h (fun _ => ?_)
  split
  · exact vtrap_trusts h
  · split
    · exact vtrap_trusts h
    · split
      · exact h
      · split
        · exact vtrap_trusts (((loadLines_trusts h).setCluster).setProg)
        · exact ((loadLines_trusts h).setCluster).popQueue

theorem doPldaReg_trusts {q code k} (h : s.trusts τ) : (doPldaReg s q code k).trusts τ := by
  unfold doPldaReg
  dsimp only
  refine pressFrame_trusts h (fun _ => ?_)
  split
  · exact h
  · split
    · exact h
    · exact popAll_trusts h (fun _ ht => ht.setShare.popQueue)
    · exact h.setShare.logLinear.popQueue

theorem doPldbReg_trusts {q code k} (h : s.trusts τ) : (doPldbReg s q code k).trusts τ := by
  unfold doPldbReg
  dsimp only
  refine pressFrame_trusts h (fun _ => ?_)
  split
  · exact h
  · split
    · exact popAll_trusts h (fun _ ht => ht.setCluster.popQueue)
    · exact h

/-! #### Trusted state: Multiply-accumulate (R64 to R69, R326, R379) -/

theorem State.trusts.addEntry {ln y} (h : s.trusts τ) : (s.addEntry ln y).trusts τ := by
  unfold State.addEntry
  split
  · exact h
  · exact h.setLin

theorem pmmaRun_trusts {q y cl scaled c koff k} (h : s.trusts τ) : (pmmaRun s q y cl scaled c koff k).trusts τ := h

theorem State.trusts.logAcc {ln q c defs held} (h : s.trusts τ) : (s.logAcc ln q c defs held).trusts τ := by
  unfold State.logAcc
  dsimp only
  split
  · exact h.addEntry
  · exact h.addEntry.setAcc

theorem doPmma_trusts {q scaled c koff k} (h : s.trusts τ) : (doPmma s q scaled c koff k).trusts τ := by
  unfold doPmma
  dsimp only
  refine pressFrame_trusts h (fun _ => ?_)
  split
  · exact h
  · split
    · split
      · exact vtrap_trusts h
      · exact (pmmaRun_trusts h).popQueue
    · split
      · split
        · exact vtrap_trusts h
        · exact ((pmmaRun_trusts h).logAcc).popQueue
      · exact h
    · exact h

/-! #### Trusted state: Zeroing, reading and writing accumulators (R327 to R329) -/

theorem doPzero_trusts {q c} (h : s.trusts τ) : (doPzero s q c).trusts τ := by
  unfold doPzero
  dsimp only
  refine pressFrame_trusts h (fun _ => ?_)
  split
  · exact h
  · exact State.trusts.popQueue h

theorem doPrdacc_trusts {q c} (h : s.trusts τ) : (doPrdacc s q c).trusts τ := by
  unfold doPrdacc
  dsimp only
  refine pressFrame_trusts h (fun _ => ?_)
  split
  · exact h
  · split
    · exact h
    · split
      · exact h
      · split
        · exact h.putV.popQueue
        · exact State.trusts.popQueue h

theorem doPwracc_trusts {q c} (h : s.trusts τ) : (doPwracc s q c).trusts τ := by
  unfold doPwracc
  dsimp only
  refine pressFrame_trusts h (fun _ => ?_)
  split
  · exact h
  · split
    · exact h
    · exact popAll_trusts h (fun _ ht => ht.setAcc.popQueue)
  · split
    · exact h
    · exact h.setAcc.logAcc.popQueue

/-! #### Trusted state: Publishing (R330) -/

theorem State.trusts.setLnact {n b} (h : s.trusts τ) : (s.setLnact n b).trusts τ := h

theorem doPpub_trusts {q c ln} (h : s.trusts τ) : (doPpub s q c ln).trusts τ := by
  unfold doPpub
  dsimp only
  split
  · exact vtrap_trusts h
  · split
    · exact vtrap_trusts h
    · refine pressFrame_trusts h (fun _ => ?_)
      split
      · exact h
      · exact h.setAcc.setLin.setLnact.popQueue

/-! #### Trusted state: Errors in a multiply (R221, R224) -/

theorem State.trusts.dropLin {ln} (h : s.trusts τ) : (s.dropLin ln).trusts τ := State.trusts.setLnact h

/-! #### Trusted state: CLEANR and INVALR (R135, R355, R378) -/

theorem maintain_trusts {n a b} {f : List ℕ → State} (h : s.trusts τ) (hf : ∀ x, (f x).trusts τ) : (maintain s n a b f).trusts τ := by
  unfold maintain
  dsimp only
  refine readG_trusts h (fun _ => readG_trusts h (fun _ => ?_))
  split
  · exact h.trapHere
  · rename_i e
    split at e
    · split
      · exact h.stall
      · exact (hf _).retire
    · split
      · exact h.stall
      · exact (hf _).retire

theorem execCleanr_trusts {a b} (h : s.trusts τ) : nextTrusts τ (execCleanr a b s) :=
  finish_trusts (maintain_trusts h fun _ => (foldl_trusts (fun _ _ h => h.cleanLine) _ h))

theorem State.trusts.invalidate {ts l} (h : s.trusts τ) : (s.invalidate ts l).trusts τ := h

theorem execInvalr_trusts {a b} (h : s.trusts τ) : nextTrusts τ (execInvalr a b s) := by
  refine finish_trusts (maintain_trusts h (fun _ => ?_))
  split
  · exact h
  · exact (foldl_trusts (fun _ _ ht => ht.invalidate) _ h.rebaseFor).setPts

/-! #### Trusted state: Bank descriptors (R356, R375, R376) -/

theorem execBankcmd_trusts {d a} (h : s.trusts τ) : nextTrusts τ (execBankcmd d a s) := by
  unfold execBankcmd
  dsimp only
  refine finish_trusts (regs2_trusts h (fun _ => ?_))
  split
  · split
    · exact h.stall
    · exact h.trapHere
  · split
    · exact h.stall
    · split
      · exact h.load.trapHere
      · exact h.load.trapHere
      · exact State.trusts.result h.load

theorem execBankwait_trusts {d a} (h : s.trusts τ) : nextTrusts τ (execBankwait d a s) := by
  refine finish_trusts (regs2_trusts h (fun _ => ?_))
  split
  · exact h.result
  · split
    · exact h.result
    · exact h

/-! #### Trusted state: Invalidations and pins (R202, R203) -/

theorem State.trusts.cancelBanks {owner} (h : s.trusts τ) : (s.cancelBanks owner).trusts τ := h

/-! #### Trusted state: The end of waiting for pins (R202, R203) -/

theorem doSetvl_trusts {vl sew} (h : s.trusts τ) : (doSetvl s vl sew).trusts τ := h.popQueue

theorem doPload_trusts {q isB reg fmt k} (h : s.trusts τ) : (doPload s q isB reg fmt k).trusts τ := by
  unfold doPload
  split
  · exact doPldaMem_trusts h
  · exact doPldaReg_trusts h
  · exact doPldbMem_trusts h
  · exact doPldbReg_trusts h

theorem perform_trusts {q} (h : s.trusts τ) : (perform s q).trusts τ := by
  unfold perform
  split
  · exact doInt_trusts h
  · exact doWide_trusts h
  · exact doNclip_trusts h
  · exact doFp_trusts h
  · exact doCmp_trusts h
  · exact doSel_trusts h
  · exact doSlide_trusts h
  · exact doGather_trusts h
  · exact doMerge_trusts h
  · exact doMlog_trusts h
  · exact doOne_trusts h
  · exact doSplat_trusts h
  · exact doMvsx_trusts h
  · exact doMvxs_trusts h
  · exact doVid_trusts h
  · exact doIota_trusts h
  · exact doCompress_trusts h
  · exact doRed_trusts h
  · exact doMpop_trusts h
  · exact doMfirst_trusts h
  · exact doMnot_trusts h
  · exact doMpart_trusts h
  · exact doSortk_trusts h
  · exact doUniq_trusts h
  · exact doCvt_trusts h
  · exact doMem_trusts h
  · exact doAmo_trusts h
  · exact doSetvl_trusts h
  · exact doBar_trusts h
  · exact doPost_trusts h
  · exact doAttach_trusts h
  · exact doDetach_trusts h
  · exact doPload_trusts h
  · exact doPmma_trusts h
  · exact doPzero_trusts h
  · exact doPrdacc_trusts h
  · exact doPwracc_trusts h
  · exact doPpub_trusts h
  · exact doPfin_trusts h
  · exact doTkarm_trusts h
  · exact doTkdisarm_trusts h
  · exact doTkemit_trusts h
  · exact doTkconf_trusts h
  · exact vtrap_trusts h

theorem performWhole_trusts {q} (h : s.trusts τ) : (performWhole s q).trusts τ := by
  refine Res.seq_trusts (perform_trusts h) (fun _ ht => ?_)
  split
  · exact ht.setRegProg
  · exact ht

/-! #### Trusted state: Element-wise chaining (R33; log entry 30) -/

theorem State.trusts.ahead {q n} {r} (h : s.trusts τ) (e : s.ahead q n = some r) : r.2.trusts τ := by
  unfold State.ahead at e
  split at e
  · cases e
    exact h
  · dsimp only at e
    split at e
    · cases e
      rename_i ht
      exact trusts_of_eq (Res.trusts_of_ok (perform_trusts (by exact h)) ht) rfl
    · cases e

theorem chainOn_trusts {s : State} {old a} (h : s.trusts τ) : (chainOn s old a).2.trusts τ := by
  unfold chainOn
  dsimp only
  split
  · exact h
  · split
    · exact h
    · split
      · split
        · exact h
        · rename_i e
          dsimp only
          exact chainOn_trusts (h.ahead e)
      · exact h

theorem flightOn_trusts {s : State} {a z} {t : State} (h : s.trusts τ) (ht : t.trusts τ) : (flightOn s t a z).trusts τ := by
  unfold flightOn
  split
  · exact ht
  · split <;> exact flightOn_trusts h ht.setRegProg

theorem State.trusts.flight (h : s.trusts τ) : (s.flight).trusts τ := flightOn_trusts h h

theorem State.trusts.chained (h : s.trusts τ) : (s.chained).trusts τ := by
  unfold State.chained
  split
  · exact h
  · split
    · exact h
    · exact chainOn_trusts h

/-! #### Trusted state: The head of the queue and the drain -/

theorem completeHead_trusts (h : s.trusts τ) : (completeHead s).trusts τ := by
  unfold completeHead
  split
  · exact h
  · split
    · exact perform_trusts h
    · split
      · exact h.queueForLanes
      · rename_i e
        split
        · rename_i e₁
          split
          · exact ((Res.trusts_of_trap (performWhole_trusts (h.lanes e)) e₁).chained).flight
          · exact Res.trusts_of_trap (performWhole_trusts (h.lanes e)) e₁
        · exact performWhole_trusts (h.lanes e)

theorem drain_trusts {s : State} {a} (h : s.trusts τ) : (drain a s).trusts τ := by
  unfold drain
  split
  · exact h
  · split
    · exact h
    · split
      · rename_i e
        exact drain_trusts (Res.trusts_of_ok (completeHead_trusts h) e)
      · rename_i e
        exact Res.trusts_of_trap (completeHead_trusts h) e
      · rename_i e
        split
        · exact (Res.trusts_of_wait (completeHead_trusts h) e).flight
        · exact Res.trusts_of_wait (completeHead_trusts h) e
      · exact trivial

theorem State.trusts.drained {f : State → Res Unit} (h : s.trusts τ) (hf : ∀ s, s.trusts τ → (f s).trusts τ) : (s.drained f).trusts τ := by
  unfold State.drained
  split
  · rename_i e
    exact hf _ (Res.trusts_of_ok (drain_trusts h) e)
  · rename_i e
    exact Res.trusts_of_wait (drain_trusts h) e
  · rename_i e
    exact Res.trusts_of_trap (drain_trusts h) e
  · exact trivial

theorem State.trusts.saveDrained (h : s.trusts τ) : (s.saveDrained).trusts τ := by
  unfold State.saveDrained
  split
  · exact h.deliver
  · exact h.saveCur

theorem transfer_trusts {t} {f : State → State} (h : s.trusts τ) (hf : ∀ s, s.trusts τ → (f s).trusts τ) : (transfer s t f).trusts τ := by
  unfold transfer
  split
  · exact h.trapHere
  · split
    · exact h.trapHere
    · exact (hf _ h).goto

theorem branch_trusts {a b d c} (h : s.trusts τ) : (branch s a b d c).trusts τ := by
  refine readG_trusts h (fun _ => readG_trusts h (fun _ => ?_))
  split
  · exact transfer_trusts h (fun _ ht => ht.note)
  · exact h.note.retire

theorem execJ_trusts {d} (h : s.trusts τ) : nextTrusts τ (execJ d s) := finish_trusts (transfer_trusts h (fun _ => id))

theorem execJal_trusts {d} (h : s.trusts τ) : nextTrusts τ (execJal d s) := finish_trusts (checkG_trusts h (transfer_trusts h fun _ ht => ht.setX))

theorem execJalr_trusts {d a i} (h : s.trusts τ) : nextTrusts τ (execJalr d a i s) :=
  finish_trusts (regs2_trusts h fun _ => (transfer_trusts h fun _ ht => ht.setX))

/-! #### Trusted state: LMARK (R166, R359) -/

theorem State.trusts.setLoop {l st why} (h : s.trusts τ) : (s.setLoop l st why).trusts τ := h

theorem execLmark_trusts {a d} (h : s.trusts τ) : nextTrusts τ (execLmark a d s) := by
  unfold execLmark
  dsimp only
  refine finish_trusts (readG_trusts h (fun _ => ?_))
  split
  · exact h.abandon.setLoop.retire
  · exact State.trusts.retire (State.trusts.setLoop (trusts_of_eq h.abandon rfl))

/-! #### Trusted state: LEND (R170, R360) -/

theorem State.trusts.lendLanes (h : s.trusts τ) : (s.lendLanes).trusts τ := by
  unfold State.lendLanes
  dsimp only
  split
  · exact h.setCore.passLanes
  · exact h

theorem State.trusts.confirm {l} (h : s.trusts τ) : (s.confirm l).trusts τ := h.setLoop.lendLanes

theorem lendJump_trusts {a d} {f : State → State} (h : s.trusts τ) (hf : ∀ s, s.trusts τ → (f s).trusts τ) : (lendJump s a d f).trusts τ := by
  unfold lendJump
  dsimp only
  split
  · exact transfer_trusts h (fun _ ht => (hf _ ht).setX)
  · exact ((hf _ h).setX).retire

theorem execLend_trusts {a d} (h : s.trusts τ) : nextTrusts τ (execLend a d s) := by
  refine finish_trusts ?_
  split
  · exact h
  · refine checkG_trusts h ?_
    split
    · split
      · exact lendJump_trusts h (fun _ ht => ht.abandon)
      · split
        · exact lendJump_trusts h (fun _ ht => ht.abandon)
        · split
          · exact lendJump_trusts h (fun _ => id)
          · split
            · exact h.stall
            · exact h.setX.confirm
    · exact lendJump_trusts h (fun _ => id)

/-! #### Trusted state: Replay (R171 to R173) -/

theorem State.trusts.deliverLoop {l st why pc} (h : s.trusts τ) : (s.deliverLoop l st why pc).trusts τ := by
  unfold State.deliverLoop
  dsimp only
  split
  · exact State.trusts.writeImage (State.trusts.passLanes (State.trusts.freeSlot (State.trusts.setX h)))
  · exact State.trusts.passLanes (State.trusts.freeSlot (State.trusts.setX h))

theorem State.trusts.outcome {l st why} (h : s.trusts τ) : (s.outcome l st why).trusts τ := by
  unfold State.outcome
  split
  · exact h.deliverLoop
  · exact h

/-! #### Trusted state: Press (R318 to R331) -/

theorem execPattach_trusts {z} (h : s.trusts τ) : nextTrusts τ (execPattach z s) := by
  refine finish_trusts ?_
  split
  · split
    · exact h
    · exact h.retire
  · exact pushAt_trusts h (fun _ => id)

/-! #### Trusted state: Writes of the dispatcher in a launch's address space (R145, R151) -/

theorem State.trusts.sysRmw {l va f} {t} (h : s.trusts τ) (e : s.sysRmw l va f = .ok t) : t.trusts τ := by
  unfold State.sysRmw at e
  split at e
  · split at e
    · cases e
    · cases e
      exact h.rebaseWith.unitWrite
  · cases e
  · cases e
  · cases e

theorem State.trusts.closeQueues {id stage} (h : s.trusts τ) : (s.closeQueues id stage).trusts τ := by
  refine foldl_trusts (fun _ _ ht => ?_) _ h
  split
  · rename_i e
    exact ht.sysRmw e
  · exact ht

theorem State.trusts.hostEvent {x1} (h : s.trusts τ) : (s.hostEvent x1).trusts τ := h

theorem State.trusts.drainLeft {id} (h : s.trusts τ) : (s.drainLeft id).trusts τ := by
  refine foldl_trusts (fun _ _ ht => ?_) _ h
  split
  · exact ht
  · exact ht.unitWrite.modLaunch

theorem State.trusts.endLaunch {id} (h : s.trusts τ) : (s.endLaunch id).trusts τ := by
  unfold State.endLaunch
  dsimp only
  split
  · split
    · exact h.drainLeft.modLaunch.hostEvent
    · split
      · rename_i e
        exact (h.drainLeft.modLaunch.sysRmw e).hostEvent
      · exact h.drainLeft.modLaunch.raiseEvent.hostEvent
  · split
    · exact h.drainLeft.modLaunch
    · split
      · rename_i e
        exact h.drainLeft.modLaunch.sysRmw e
      · exact h.drainLeft.modLaunch.raiseEvent

theorem State.trusts.countEnded {id stage n} (h : s.trusts τ) : (s.countEnded id stage n).trusts τ := by
  unfold State.countEnded
  dsimp only
  split
  · split
    · exact h.modLaunch.closeQueues.endLaunch
    · exact h.modLaunch.endLaunch
  · split
    · exact h.modLaunch.closeQueues
    · exact h.modLaunch

theorem State.trusts.gone {killed} (h : s.trusts τ) : (s.gone killed).trusts τ := by
  refine Res.seq_trusts ?_ (fun _ ht => State.trusts.countEnded ht)
  split
  · exact State.trusts.putTState (State.trusts.modLaunch (h.setPts.passLocks.releaseLanes.set_owned))
  · exact State.trusts.modLaunch (h.setPts.passLocks.releaseLanes.set_owned)

theorem State.trusts.dropLins {l : List (Nat × Lineage)} (h : s.trusts τ) : (l.foldl (fun (s : State) n => s.dropLin n.1) s).trusts τ :=
  foldl_trusts (fun _ _ h => h.dropLin) l h

theorem State.trusts.kill {r} (h : s.trusts τ) (e : s.kill = r) : r.trusts τ := by
  subst e
  have hc := (h.cancelCmds (owner := s.cur.id.ctxid)).cancelBanks (owner := s.cur.id.ctxid)
  have hs := hc.dropLins (l := ((s.cancelCmds s.cur.id.ctxid).cancelBanks s.cur.id.ctxid).ownLins)
  unfold State.kill
  refine State.trusts.gone ?_
  split
  · refine State.trusts.setLoop (State.trusts.freeSlot ?_)
    split
    · exact hs.detach
    · exact hs
  · split
    · exact hs.detach
    · exact hs

/-! #### Trusted state: A thread takes a context (R13 to R19, R149, R150) -/

theorem State.trusts.enterCluster {l cl} (h : s.trusts τ) : (s.enterCluster l cl).trusts τ := by
  unfold State.enterCluster
  dsimp only
  repeat' split
  all_goals exact h

/-! #### Trusted state: Restore (R216 to R219, R18, R19) -/

theorem State.trusts.reloadLins {image} (h : s.trusts τ) : (s.reloadLins image).trusts τ := by
  unfold State.reloadLins
  dsimp only
  split
  · exact h.setCore
  · exact h

theorem State.trusts.restoreAt {p} (h : s.trusts τ) : (s.restoreAt p).trusts τ := by
  unfold State.restoreAt
  split
  · exact h
  · generalize e : s.kill = r
    dsimp only
    split
    · trivial
    · split
      · exact h.kill e
      · exact State.trusts.putTState (State.trusts.inherit (trusts_set_cur h.enterCluster.reloadLins))

theorem restoreAll_trusts {s : State} {a} (h : s.trusts τ) : (restoreAll a s).trusts τ := by
  unfold restoreAll
  split
  · exact h
  · split
    · exact restoreAll_trusts h
    · rename_i e
      exact Res.seq_trusts ((h.focus e).restoreAt) (fun _ ht => restoreAll_trusts ht)

theorem State.trusts.passContext {p} (h : s.trusts τ) : (s.passContext p).trusts τ := by
  unfold State.passContext
  split
  · exact h
  · split
    · exact h
    · split
      · exact h
      · exact restoreAll_trusts h

/-! #### Trusted state: Pre-emption and slices (R153, R216) -/

theorem drainAll_trusts {s : State} {a} {f : State → Res Unit} (h : s.trusts τ) (hf : ∀ s, s.trusts τ → (f s).trusts τ) :
    (drainAll a s f).trusts τ := by
  unfold drainAll
  split
  · exact hf _ h
  · split
    · exact drainAll_trusts h hf
    · rename_i e
      split
      · split
        · rename_i e₁
          exact drainAll_trusts (Res.trusts_of_ok (drain_trusts (h.focus e)) e₁) hf
        · rename_i e₁
          exact Res.trusts_of_wait (drain_trusts (h.focus e)) e₁
        · rename_i e₁
          exact Res.seq_trusts ((Res.trusts_of_trap (drain_trusts (h.focus e)) e₁).deliver) (fun _ ht => drainAll_trusts ht (fun _ hu => hf _ hu))
        · exact trivial
      · exact drainAll_trusts (h.focus e) hf

theorem saveAll_trusts {s : State} {a} (h : s.trusts τ) : (saveAll a s).trusts τ := by
  unfold saveAll
  split
  · exact h
  · split
    · exact saveAll_trusts h
    · rename_i e
      refine Res.seq_trusts ?_ (fun _ ht => saveAll_trusts ht)
      split
      · exact (h.focus e).saveDrained
      · exact h.focus e

theorem vacateAll_trusts {l} {f : State → Res Unit} (h : s.trusts τ) (hf : ∀ s, s.trusts τ → (f s).trusts τ) : (vacateAll l s f).trusts τ :=
  drainAll_trusts h (fun _ ht => Res.seq_trusts (saveAll_trusts ht) (fun _ hu => hf _ hu))

theorem State.trusts.endSlice (h : s.trusts τ) : (s.endSlice).trusts τ :=
  vacateAll_trusts h fun _ ht => (foldl_trusts (fun _ _ h => h.modThread) _ ht).passContext

/-! #### Trusted state: The lanes (R154, R155, R164) -/

theorem execNop_trusts (h : s.trusts τ) : nextTrusts τ (execNop s) := finish_trusts (h.retire)

theorem execYield_trusts (h : s.trusts τ) : nextTrusts τ (execYield s) := by
  refine finish_trusts (h.drained (fun _ hu => ?_))
  split
  · exact drainAll_trusts hu (fun _ ht => ht.retire.endSlice)
  · exact hu.retire

theorem execBrk_trusts (h : s.trusts τ) : nextTrusts τ (execBrk s) := finish_trusts (h.trapHere)

theorem execTrap_trusts {a} (h : s.trusts τ) : nextTrusts τ (execTrap a s) := finish_trusts (readG_trusts h fun _ => h.trapHere)

/-! #### Trusted state: EXIT (R368) -/

theorem State.trusts.comparePath (h : s.trusts τ) : (s.comparePath).trusts τ := by
  unfold State.comparePath
  dsimp only
  split
  · exact h
  · split
    · exact h
    · split
      · split
        · exact h
        · exact h.modPart
      · exact h.modPart

theorem execExit_trusts (h : s.trusts τ) : nextTrusts τ (execExit s) := by
  have hs := (h.abandon (why := 0x01)).comparePath
  refine finish_trusts ?_
  dsimp only
  split
  · exact h.stall
  · split
    · exact h
    · refine State.trusts.gone ?_
      split
      · exact (finishAll_trusts hs).detach
      · exact hs

/-! #### Trusted state: The heap (R87, R369) -/

theorem execAlloc_trusts {d a} (h : s.trusts τ) : nextTrusts τ (execAlloc d a s) := by
  unfold execAlloc
  dsimp only
  refine finish_trusts (regs2_trusts h (fun _ => ?_))
  split
  · exact h.result
  · split
    · exact h.result
    · exact h.modLaunch.result

theorem execFree_trusts {d a} (h : s.trusts τ) : nextTrusts τ (execFree d a s) := by
  refine finish_trusts (regs2_trusts h (fun _ => ?_))
  split
  · exact h.result
  · split
    · exact h.result
    · split
      · exact h.result
      · exact h.modLaunch.result

/-! #### Trusted state: LAUNCH (R370) -/

theorem State.trusts.addLaunch {part asid r ts host} (h : s.trusts τ) : (s.addLaunch part asid r ts host).trusts τ := State.trusts.modPart h

theorem loadEach_trusts {s : State} {a} (h : s.trusts τ) : (loadEach s a).2.trusts τ := by
  unfold loadEach
  split
  · exact h
  · dsimp only
    exact loadEach_trusts h.load

theorem loadSettled_trusts {a y} (h : s.trusts τ) : (loadSettled a s y).2.trusts τ := by
  induction a generalizing s with
  | zero => exact loadEach_trusts h
  | succ a ih =>
    unfold loadSettled
    dsimp only
    split
    · exact loadEach_trusts h
    · exact ih (loadEach_trusts h)

theorem loadLinesAt_trusts {ps} (h : s.trusts τ) : (loadLinesAt s ps).2.trusts τ := loadSettled_trusts h

theorem execLaunch_trusts {d a} (h : s.trusts τ) : nextTrusts τ (execLaunch d a s) := by
  unfold execLaunch
  dsimp only
  refine finish_trusts (regs2_trusts h (fun _ => ?_))
  split
  · exact h.trapHere
  · split
    · split
      · exact h.stall
      · exact h.trapHere
    · split
      · exact h.stall
      · split
        · exact (loadLinesAt_trusts h).result
        · split
          · exact (loadLinesAt_trusts h).result
          · exact ((loadLinesAt_trusts h).addLaunch).result

/-! #### Trusted state: DEAL and PRIO (R371, R372) -/

theorem execPrio_trusts {a} (h : s.trusts τ) : nextTrusts τ (execPrio a s) :=
  finish_trusts (readG_trusts h fun _ => State.trusts.retire (State.trusts.inherit h))

/-! #### Trusted state: KCMD (R213) -/

theorem State.trusts.kcmdFlags {p busy ref} (h : s.trusts τ) : (s.kcmdFlags p busy ref).trusts τ := h.modPart

theorem State.trusts.kcmdAct {p v} (h : s.trusts τ) : (s.kcmdAct p v).trusts τ := by
  have hk : ∀ a b c, (s.kcmdFlags a b c).trusts τ := fun _ _ _ => h.kcmdFlags
  unfold State.kcmdAct
  generalize hr : State.kill = kill
  have hkill : ∀ t : State, t.trusts τ → (kill t).trusts τ := fun t ht => ht.kill (congrFun hr t)
  dsimp only
  split
  · split
    · rename_i e
      obtain ⟨t, -, e⟩ := Option.bind_eq_some_iff.1 e
      split at e
      · split
        · exact hk _ _ _
        · exact ((hk _ _ _).focus e).resumeCur
      · cases e
    · exact hk _ _ _
  · split
    · rename_i u e
      obtain ⟨t, -, e⟩ := Option.bind_eq_some_iff.1 e
      exact hkill _ ((hk _ _ _).focus e)
    · exact hk _ _ _
  · split
    · rename_i e
      obtain ⟨t, -, e⟩ := Option.bind_eq_some_iff.1 e
      split at e
      · exact vacateAll_trusts ((hk _ _ _).focus e) fun _ h => h.kcmdFlags
      · cases e
    · exact hk _ _ _
  · split
    · exact (hk _ _ _).putCmd
    · split
      · exact hk p.idx false false
      · exact hk _ _ _
  · split
    · exact (hk _ _ _).abortCmd
    · split
      · exact (hk _ _ _).abortPush
      · exact hk _ _ _
  · exact hk _ _ _

theorem State.trusts.command {p v} (h : s.trusts τ) : (s.command p v).trusts τ := h.modPart.kcmdAct

/-! #### Trusted state: Bring-up (R389) -/

theorem execSettle_trusts {l} (h : s.trusts τ) : nextTrusts τ (execSettle l s) := by
  refine finish_trusts ?_
  split
  · exact h.illegal
  · split
    · exact h.stall
    · split
      · exact h.retire
      · exact h.stall

/-! #### Trusted state: The package control space (R3) -/

theorem State.trusts.waitSaved {x1} (h : s.trusts τ) : (s.waitSaved x1).trusts τ := by
  unfold State.waitSaved
  split
  · split
    · exact h
    · exact vacateAll_trusts h (fun _ ht => ht.passContext)
  · exact h

theorem takeLock_trusts {p try_} {f : Word → State → Res Unit} (h : s.trusts τ) (hf : ∀ x s, s.trusts τ → (f x s).trusts τ) :
    (takeLock s p try_ f).trusts τ := by
  unfold takeLock
  dsimp only
  split
  · exact hf _ _ h.rmwWrite.inherit
  · split
    · exact hf _ _ h.rmwLoad
    · split
      · exact hf _ _ h.rmwWrite.inherit
      · split
        · exact hf _ _ h.rmwLoad
        · exact State.trusts.waitSaved h.rmwWrite.setLockQueue.inherit

theorem execLock_trusts {d a} (h : s.trusts τ) : nextTrusts τ (execLock d a s) := by
  refine finish_trusts (regs2_trusts h (fun _ => ?_))
  split
  · exact h.rmwLoad.note.result
  · exact h
  · exact scalarAccess_trusts h (fun _ => takeLock_trusts h (fun _ _ ht => ht.note.result))

theorem execTrylock_trusts {d a} (h : s.trusts τ) : nextTrusts τ (execTrylock d a s) :=
  finish_trusts (regs2_trusts h fun _ => (scalarAccess_trusts h fun _ => (takeLock_trusts h fun _ _ ht => ht.note.result)))

theorem execUnlock_trusts {a} (h : s.trusts τ) : nextTrusts τ (execUnlock a s) := by
  refine finish_trusts (readG_trusts h (fun _ => scalarAccess_trusts h (fun _ => ?_)))
  split
  · exact h.trapHere
  · exact h.handOver.reinherit.retire

/-- No instruction of a program reaches the trusted state; the constructors of other agents are no instructions of a program. -/
theorem exec_trusts {i : Instr} (hi : i.isEvent = false) (h : s.trusts τ) : nextTrusts τ (exec i s) := by
  cases i with
  | add | sub | and | or | xor | andn | sll | srl | sra | mul | mulh | mulhu | div | divu | rem | remu | min | max | minu | maxu | slt | sltu |
    deal =>
    exact finish_trusts (regs3_trusts h fun _ _ => h.result)
  | clz | popc | addi | andi | ori | xori | slli | srli | srai | slti =>
    exact finish_trusts (regs2_trusts h fun _ => h.result)
  | beq | bne | blt | bge | bltu | bgeu =>
    exact finish_trusts (branch_trusts h)
  | vld | vlds | vldx | vldseg | vldff | vldsc | vst | vsts | vstx | vstseg | vamoAdd | vamoMin | vamoMax | vamoFadd | pldaMem | pldaReg |
    pldbMem | pldbReg | pmma | pmmas | pzero | prdacc | pwracc | ppub | pfin | tkarm | tkdisarm | tkemit | tkemitDraft | tkconf | vslideup |
    vslidedn | vmrgk | vmand | vmor | vmxor | vmandn | vmvxs | vid | vmpop | vmfirst | vmnot | vmbefore | vmincl | pdetach =>
    exact finish_trusts (pushed_trusts h)
  | amoAdd | amoAnd | amoOr | amoXor | amoMin | amoMax | amoMinu | amoMaxu | amoSwap =>
    exact finish_trusts (amo_trusts h)
  | waitwEq | waitwNe | waitwLt | waitwGe | waitwLtu | waitwGeu =>
    exact finish_trusts (waitw_trusts h)
  | cpy | cpyf | cptile | cprem | coll =>
    exact finish_trusts (copyIssue_trusts h)
  | vadd | vsub | vmul | vmulh | vmulhu | vmacc | vdiv | vrem | vmin | vmax | vminu | vmaxu | vand | vor | vxor | vsll | vsrl | vsra | vsadd |
    vssub | vaadd | vsmul | vwadd | vwaddu | vwmul | vwmulu | vwmacc | vwmaccu | vnclip | vnclipu | vfadd | vfsub | vfmul | vfdiv | vfma | vfnma
    | vfmin | vfmax | vfsgnj | vfsgnjn | vcmpeq | vcmpne | vcmplt | vcmpltu | vcmple | vcmpleu | vfcmpeq | vfcmplt | vfcmple | vfcmpun | vsel |
    vgatherr =>
    exact finish_trusts (issueV_trusts h)
  | vmv | vsplat | vmvsx | viota | vcompress | vneg | vabs | vnot | vfneg | vfabs | vfsqrt | vfrecip | vfexp2 | vfclass | vredsum | vredmin |
    vredmax | vredminu | vredmaxu | vredand | vredor | vredxor | vfredsum | vfredmin | vfredmax | vsortk | vuniq | vtosf | vtobf | vtohf | vtoe4
    | vtoe4s | vtoe5 | vtoe5s | vtof4 | vfromf4 | vtoinr | vtoinz | vintof | vwiden | vwidenu =>
    exact finish_trusts (issueU_trusts h)
  | sext => exact execSext_trusts h
  | zext => exact execZext_trusts h
  | lih => exact execLih_trusts h
  | addpc => exact execAddpc_trusts h
  | lds => exact execLds_trusts h
  | ldz => exact execLdz_trusts h
  | st => exact execSt_trusts h
  | jalr => exact execJalr_trusts h
  | j => exact execJ_trusts h
  | jal => exact execJal_trusts h
  | trap => exact execTrap_trusts h
  | alloc => exact execAlloc_trusts h
  | free => exact execFree_trusts h
  | launch => exact execLaunch_trusts h
  | prio => exact execPrio_trusts h
  | srd => exact execSrd_trusts h
  | swr => exact execSwr_trusts h
  | frame => exact execFrame_trusts h
  | vconf => exact execVconf_trusts h
  | vsetl => exact execVsetl_trusts h
  | vstreamBind => exact execVstreamBind_trusts h
  | vstreamUnbind => exact execVstreamUnbind_trusts h
  | vstreamRewind => exact execVstreamRewind_trusts h
  | cas => exact execCas_trusts h
  | lock => exact execLock_trusts h
  | trylock => exact execTrylock_trusts h
  | unlock => exact execUnlock_trusts h
  | fence => exact execFence_trusts h
  | vfence => exact execVfence_trusts h
  | barArrive => exact execBarArrive_trusts h
  | barWait => exact execBarWait_trusts h
  | barArrwait => exact execBarArrwait_trusts h
  | post => exact execPost_trusts h
  | waiti => exact execWaiti_trusts h
  | waitv => exact execWaitv_trusts h
  | publish => exact execPublish_trusts h
  | shadow => exact execShadow_trusts h
  | shadowRelease => exact execShadowRelease_trusts h
  | syncw => exact execSyncw_trusts h
  | cleanr => exact execCleanr_trusts h
  | invalr => exact execInvalr_trusts h
  | bankcmd => exact execBankcmd_trusts h
  | xfwait => exact execXfwait_trusts h
  | syncwait => exact execSyncwait_trusts h
  | bankwait => exact execBankwait_trusts h
  | pattach => exact execPattach_trusts h
  | settle => exact execSettle_trusts h
  | lmark => exact execLmark_trusts h
  | lend => exact execLend_trusts h
  | tksync => exact execTksync_trusts h
  | nop => exact execNop_trusts h
  | yield => exact execYield_trusts h
  | exit => exact execExit_trusts h
  | brk => exact execBrk_trusts h
  | vrel => exact execVrel_trusts h
  | _ => cases hi

end

/-- Settles O8: the trusted part of the state before is that of each state that a part of an instruction hands on, from the one write of a
field up to the meaning of the instruction. -/
theorem programsLeaveTheTrustedStateAlone : Obligations.ProgramsLeaveTheTrustedStateAlone := by
  unfold Obligations.ProgramsLeaveTheTrustedStateAlone
  intro i s t hi e
  have ht : nextTrusts s.trusted (exec i s) := exec_trusts hi rfl
  rw [e] at ht
  simpa [nextTrusts, State.trusts, State.trusted, and_assoc] using ht

end Sys2Proof.Machine

namespace Sys2Proof.Machine

/-! ### The numbers that codes stand for (R43) -/

/-- The number that a value stands for; an infinity lies beyond every finite code. -/
noncomputable def Fv.value : Fv → ℝ
  | .nan _ => 0
  | .inf n => if n then -2 ^ 129 else 2 ^ 129
  | .fin n m e => (if n then -1 else 1) * m * 2 ^ e

theorem Fv.value_neg (x : Fv) : x.neg.value = -x.value := by
  cases x with
  | nan q => simp [Fv.neg, Fv.value]
  | inf n => cases n <;> simp [Fv.neg, Fv.value]
  | fin n m e => cases n <;> simp [Fv.neg, Fv.value]

theorem Fv.value_fin_not (n : Bool) (m : ℕ) (e : ℤ) : (Fv.fin (!n) m e).value = -(Fv.fin n m e).value := Fv.value_neg (.fin n m e)

theorem Fv.abs_value_fin (n : Bool) (m : ℕ) (e : ℤ) : |(Fv.fin n m e).value| = m * 2 ^ e := by
  cases n <;> simp [Fv.value]

theorem Fv.value_fin_eq_zero {n : Bool} {m : ℕ} {e : ℤ} : (Fv.fin n m e).value = 0 ↔ m = 0 := by
  rw [← abs_eq_zero, Fv.abs_value_fin]
  simp [zpow_ne_zero]

theorem Fv.value_fin_lt_zero {n : Bool} {m : ℕ} {e : ℤ} : (Fv.fin n m e).value < 0 ↔ n = true ∧ m ≠ 0 := by
  have hp : (0 : ℝ) < 2 ^ e := by positivity
  cases n
  · have h : (0 : ℝ) ≤ m * 2 ^ e := by positivity
    simpa [Fv.value] using h
  · simp [Fv.value, hp, Nat.pos_iff_ne_zero]

theorem Fv.value_fin_pos {n : Bool} {m : ℕ} {e : ℤ} : 0 < (Fv.fin n m e).value ↔ n = false ∧ m ≠ 0 := by
  have h := Fv.value_fin_lt_zero (n := !n) (m := m) (e := e)
  rw [Fv.value_fin_not, neg_lt_zero] at h
  simpa using h

/-- The product of two finite values is the value of the product's fields. -/
theorem Fv.value_mul (n k : Bool) (m g : ℕ) (e h : ℤ) :
    (Fv.fin (n != k) (m * g) (e + h)).value = (Fv.fin n m e).value * (Fv.fin k g h).value := by
  simp only [Fv.value, zpow_add₀ (two_ne_zero (α := ℝ))]
  cases n <;> cases k <;> push_cast <;> simp <;> ring

/-- A sign and a magnitude are the integer they are taken from. -/
theorem sign_mul_natAbs {n : Bool} {i : ℤ} (h : i ≠ 0 → (n = true ↔ i < 0)) : (if n then -1 else 1) * (i.natAbs : ℝ) = i := by
  rw [Nat.cast_natAbs, Int.cast_abs]
  rcases lt_trichotomy i 0 with hi | rfl | hi
  · rw [if_pos ((h hi.ne).2 hi), abs_of_neg (by exact_mod_cast hi)]; ring
  · simp
  · rw [if_neg (by rw [h hi.ne']; omega), abs_of_pos (by exact_mod_cast hi), one_mul]

/-- The sum of two finite values is an integer at the lower of the two exponents. -/
theorem addFin_eq (n k : Bool) (m g : ℕ) (e h : ℤ) :
    ∃ i : ℤ, addFin n m e k g h = (if i = 0 then n && k else decide (i < 0), i.natAbs, min e h) ∧
      i * (2 : ℝ) ^ min e h = (Fv.fin n m e).value + (Fv.fin k g h).value := by
  refine ⟨_, rfl, ?_⟩
  simp only [Fv.value]
  rw [two_zpow_split e _ (min_le_left e h), two_zpow_split h _ (min_le_right e h)]
  cases n <;> cases k <;> simp <;> ring

/-- The sum of two finite values, by its fields. -/
theorem addFin_value (n k : Bool) (m g : ℕ) (e h : ℤ) :
    let r := addFin n m e k g h
    (Fv.fin r.1 r.2.1 r.2.2).value = (Fv.fin n m e).value + (Fv.fin k g h).value := by
  obtain ⟨i, hi, hv⟩ := addFin_eq n k m g e h
  rw [hi, ← hv]
  simp only [Fv.value]
  rw [sign_mul_natAbs]
  intro h0
  simp [h0]

/-- The sum that is zero, with its sign (R47). -/
theorem addFin_of_sum_eq_zero {n k : Bool} {m g : ℕ} {e h : ℤ} (hz : (Fv.fin n m e).value + (Fv.fin k g h).value = 0) :
    addFin n m e k g h = (n && k, 0, min e h) := by
  obtain ⟨i, hi, hv⟩ := addFin_eq n k m g e h
  have h0 : i = 0 := by
    rw [hz] at hv
    simpa [zpow_ne_zero] using hv
  simp [hi, h0]

/-! ### Rounding to a format (R46, R48) -/

/-- The overflow threshold of a format (R43). -/
noncomputable def Fmt.limit (f : Fmt) : ℝ :=
  match f with
  | .sf => (2 : ℝ) ^ 128 - 2 ^ 103
  | .hf => 65520
  | .bf => 2 ^ 128 - 2 ^ 119
  | .e4 => 464
  | .e5 => 61440
  | .e2 => 7

/-- From where on a number rounds, with an unbounded exponent, to the smallest normal number or above it (R48). -/
noncomputable def Fmt.least (f : Fmt) : ℝ :=
  match f with
  | .sf => (1 - 2 ^ (-25 : ℤ) : ℝ) * 2 ^ (-126 : ℤ)
  | .hf => (1 - 2 ^ (-12 : ℤ)) * 2 ^ (-14 : ℤ)
  | .bf => (1 - 2 ^ (-9 : ℤ)) * 2 ^ (-126 : ℤ)
  | .e4 => (1 - 2 ^ (-5 : ℤ)) * 2 ^ (-6 : ℤ)
  | .e5 => (1 - 2 ^ (-4 : ℤ)) * 2 ^ (-14 : ℤ)
  | .e2 => 0

/-- The code that overflow delivers (R46, R51). -/
def Fmt.most (f : Fmt) (sat n : Bool) : ℕ :=
  match f, sat with
  | .sf, _ => 0x7F800000 + f.signBit n
  | .hf, _ => 0x7C00 + f.signBit n
  | .bf, _ => 0x7F80 + f.signBit n
  | .e4, false => 0x7F
  | .e4, true => 0x7E + f.signBit n
  | .e5, false => 0x7C + f.signBit n
  | .e5, true => 0x7B + f.signBit n
  | .e2, _ => 7 + f.signBit n

/-- A result is the number v rounded once to the format (R46, R48): below the threshold the nearest finite code, of two the even one, with the flags of
what the rounding lost; at or above it what overflow delivers. -/
def RoundsTo (f : Fmt) (sat : Bool) (v : ℝ) (r : FRes) : Prop :=
  (v ≠ 0 → |v| < f.limit → ∃ n m e, f.decode r.code = .fin n m e ∧ (n = true ↔ v < 0) ∧ r.code < 2 ^ f.bits ∧
    let w := (Fv.fin n m e).value
    (w = v → r.flags = 0) ∧ (w ≠ v → (|v| < f.least → r.flags = fNX ||| fUF) ∧ (f.least ≤ |v| → r.flags = fNX)) ∧
    ∀ c k g h, c < 2 ^ f.bits → f.decode c = .fin k g h →
      let u := (Fv.fin k g h).value
      |v - w| ≤ |v - u| ∧ (|v - w| = |v - u| → u ≠ w → r.code % 2 = 0)) ∧
  (f.limit ≤ |v| → ∀ n, (n = true ↔ v < 0) → r = ⟨f.most sat n, fOF ||| fNX ||| if sat then fSAT else 0⟩)

/-- The threshold of R43 is the one that the model compares with. -/
theorem Fmt.limit_eq (f : Fmt) : f.limit = f.threshold := by
  cases f <;> simp only [Fmt.limit, Fmt.threshold] <;> norm_num

theorem Fmt.limit_pos (f : Fmt) : 0 < f.limit := by
  cases f <;> norm_num [Fmt.limit]

theorem Fmt.limit_lt (f : Fmt) : f.limit < 2 ^ 129 := by
  cases f <;> norm_num [Fmt.limit]

theorem Fmt.least_eq {f : Fmt} (hf : f ≠ .e2) : f.least = (1 - 1 / 2 ^ (f.fbits + 2)) * 2 ^ (1 - f.bias : ℤ) := by
  cases f with
  | e2 => exact absurd rfl hf
  | sf | hf | bf | e4 | e5 => norm_num [Fmt.least, Fmt.fbits, Fmt.bias]

/-- The formats and forms that round (R46, R51): E2M1 is no destination of them, and the saturating forms have an FP8 destination. -/
def Fmt.roundsBy (f : Fmt) (sat : Bool) : Prop := f ≠ .e2 ∧ (sat = true → f = .e4 ∨ f = .e5)

/-- Overflow delivers the code of R46 and R51, with its flags. -/
theorem Fmt.overflow_eq {f : Fmt} {sat : Bool} (hf : f.roundsBy sat) (n : Bool) :
    f.overflow sat n = ⟨f.most sat n, fOF ||| fNX ||| if sat then fSAT else 0⟩ := by
  obtain ⟨h2, hsat⟩ := hf
  cases sat with
  | false =>
    cases f with
    | e2 => exact absurd rfl h2
    | sf | hf | bf | e4 | e5 => cases n <;> rfl
  | true => obtain rfl | rfl := hsat rfl <;> cases n <;> rfl

/-- Every result is zero rounded, as far as this speaks of it. -/
theorem roundsTo_zero (f : Fmt) (sat : Bool) (r : FRes) : RoundsTo f sat 0 r :=
  ⟨fun h => absurd rfl h, fun h => absurd h (by simpa using f.limit_pos)⟩

/-- A signed number by the sign of another. -/
theorem Fv.value_fin_signed (n k : Bool) (g : ℕ) (h : ℤ) :
    (Fv.fin k g h).value = (if n then -1 else 1) * ((if k = n then 1 else -1) * g * 2 ^ h) := by
  cases n <;> cases k <;> simp [Fv.value]

/-- A number with a sign is as far from another as the numbers without it. -/
theorem abs_sub_value {v : ℝ} {n : Bool} (hn : n = true ↔ v < 0) (k : Bool) (g : ℕ) (h : ℤ) :
    |v - (Fv.fin k g h).value| = abs (|v| - (if k = n then 1 else -1) * g * 2 ^ h) := by
  rw [Fv.value_fin_signed n]
  cases n with
  | false =>
    have hv : 0 ≤ v := by simpa using hn
    simp [abs_of_nonneg hv]
  | true =>
    have hv : v < 0 := by simpa using hn
    rw [abs_of_neg hv, ← abs_neg, if_pos rfl]
    congr 1
    ring

theorem abs_sub_value_same {v : ℝ} {n : Bool} (hn : n = true ↔ v < 0) (m : ℕ) (e : ℤ) :
    |v - (Fv.fin n m e).value| = abs (|v| - m * 2 ^ e) := by
  rw [abs_sub_value hn, if_pos rfl, one_mul]

theorem Fv.value_eq_iff_abs {v : ℝ} {n : Bool} (hn : n = true ↔ v < 0) (m : ℕ) (e : ℤ) : (Fv.fin n m e).value = v ↔ (m : ℝ) * 2 ^ e = |v| := by
  rw [eq_comm, ← sub_eq_zero, ← abs_eq_zero, abs_sub_value_same hn, abs_eq_zero, sub_eq_zero, eq_comm]

theorem Sticks.pos_of_ne_zero {v : ℝ} {M : ℕ} {E : ℤ} {fb : ℕ} (hs : Sticks v M E fb) (hM : M ≠ 0) : 0 < v :=
  lt_of_lt_of_le (by positivity) (hs.lead hM).1

theorem Sticks.ne_zero {v : ℝ} {M : ℕ} {E : ℤ} {fb : ℕ} (hs : Sticks v M E fb) (hv : 0 < v) : M ≠ 0 := by
  rintro rfl
  obtain h | ⟨-, hbig, -⟩ := hs
  · simp [h] at hv
  · exact absurd hbig (by simp)

/-- The model's rounding of a number that is known exactly, or by a sticky last bit, is the rounding of R46. -/
theorem Fmt.round_roundsTo {f : Fmt} {sat n : Bool} (hf : f.roundsBy sat) {v : ℝ} {M : ℕ} {E : ℤ} (hM : M ≠ 0) (hs : Sticks |v| M E f.fbits)
    (hn : n = true ↔ v < 0) : RoundsTo f sat v (f.round sat n M E) := by
  obtain ⟨hover, hfin⟩ := f.round_nearest sat n |v| M E hM hs
  rw [← f.limit_eq] at hover hfin
  rw [← Fmt.least_eq hf.1] at hfin
  refine ⟨fun _ hlt => ?_, fun hge k hk => ?_⟩
  · obtain ⟨m, e, hd, hc, hexact, hinexact, hnear⟩ := hfin hlt
    refine ⟨n, m, e, hd, hn, hc, fun hw => hexact ((Fv.value_eq_iff_abs hn m e).1 hw) hf.1,
      fun hw => hinexact (fun h => hw ((Fv.value_eq_iff_abs hn m e).2 h)) hf.1, fun c k g h _ hk => ?_⟩
    obtain ⟨hle, heven⟩ := hnear c k g h hk _ rfl
    dsimp only
    rw [abs_sub_value_same hn, abs_sub_value hn]
    refine ⟨hle, fun heq hne => heven heq fun hu => hne ?_⟩
    rw [Fv.value_fin_signed n, hu, Fv.value_fin_signed n n, if_pos rfl, one_mul]
  · have hkn : k = n := by rw [Bool.eq_iff_iff, hk, hn]
    rw [hover hge, Fmt.overflow_eq hf, hkn]

/-- Rounding the fields of a finite value rounds its number. -/
theorem Fmt.round_value {f : Fmt} {sat : Bool} (hf : f.roundsBy sat) (n : Bool) (m : ℕ) (e : ℤ) :
    RoundsTo f sat (Fv.fin n m e).value (f.round sat n m e) := by
  by_cases hm : m = 0
  · rw [Fv.value_fin_eq_zero.2 hm]
    exact roundsTo_zero _ _ _
  · exact Fmt.round_roundsTo hf hm (.inl (Fv.abs_value_fin n m e)) (by simp [Fv.value_fin_lt_zero, hm])

@[simp] theorem Fmt.round_zero (f : Fmt) (sat n : Bool) (e : ℤ) : f.round sat n 0 e = ⟨f.signBit n, 0⟩ := rfl

/-! ### Fields of a code (R43, R44) -/

/-- The exponent field of a finite code is below its highest value, but for the formats that have numbers there. -/
theorem Fmt.fields_of_decode {f : Fmt} {c : ℕ} {k : Bool} {m : ℕ} {h : ℤ} (hd : f.decode c = .fin k m h) :
    c / 2 ^ f.fbits % 2 ^ f.ebits ≠ 2 ^ f.ebits - 1 ∨ f = .e2 ∨ (f = .e4 ∧ c % 2 ^ f.fbits ≠ 7) := by
  by_contra hno
  simp only [not_or, not_and, not_not] at hno
  obtain ⟨htop, h2, h4⟩ := hno
  unfold Fmt.decode at hd
  dsimp only at hd
  rw [decide_eq_true htop] at hd
  cases f with
  | e2 => exact h2 rfl
  | e4 => simp [h4 rfl] at hd
  | sf | hf | bf | e5 => dsimp only at hd; split_ifs at hd

/-- A finite code by its fields, from its decoded value. -/
theorem Fmt.decode_fields {f : Fmt} {c : ℕ} {k : Bool} {m : ℕ} {h : ℤ} (hd : f.decode c = .fin k m h) :
    k = decide (c / 2 ^ (f.bits - 1) % 2 = 1) ∧
      (c / 2 ^ f.fbits % 2 ^ f.ebits = 0 ∧ m = c % 2 ^ f.fbits ∧ h = 1 - (f.bias : ℤ) - f.fbits ∨
        0 < c / 2 ^ f.fbits % 2 ^ f.ebits ∧ m = 2 ^ f.fbits + c % 2 ^ f.fbits ∧
          h = 1 - (f.bias : ℤ) - f.fbits + (c / 2 ^ f.fbits % 2 ^ f.ebits : ℕ) - 1) := by
  have ok := Fmt.fields_of_decode hd
  rw [f.decode_fin c ok, Fv.fin.injEq] at hd
  obtain ⟨hk, hm, hh⟩ := hd
  refine ⟨hk.symm, ?_⟩
  by_cases h0 : c / 2 ^ f.fbits % 2 ^ f.ebits = 0
  · rw [if_pos h0] at hm hh
    exact .inl ⟨h0, hm.symm, hh.symm⟩
  · rw [if_neg h0] at hm hh
    exact .inr ⟨Nat.pos_of_ne_zero h0, hm.symm, hh.symm⟩

/-- A code is its sign bit, its exponent and its fraction. -/
theorem Fmt.code_eq {f : Fmt} {c : ℕ} (hc : c < 2 ^ f.bits) :
    c = c / 2 ^ (f.bits - 1) % 2 * 2 ^ (f.bits - 1) + c / 2 ^ f.fbits % 2 ^ f.ebits * 2 ^ f.fbits + c % 2 ^ f.fbits := by
  cases f <;> simp only [Fmt.bits, Fmt.ebits, Fmt.fbits] at * <;> omega

/-- The significand and the exponent of a finite code are those of the least exponent or of a leading one. -/
theorem Fmt.decode_canonical {f : Fmt} {c : ℕ} {k : Bool} {m : ℕ} {h : ℤ} (hd : f.decode c = .fin k m h) :
    m < 2 ^ (f.fbits + 1) ∧ 1 - (f.bias : ℤ) - f.fbits ≤ h ∧ (h = 1 - (f.bias : ℤ) - f.fbits ∨ 2 ^ f.fbits ≤ m) := by
  obtain ⟨hm, hh⟩ := f.decode_bounds c hd
  obtain ⟨-, ⟨-, -, he⟩ | ⟨-, he, -⟩⟩ := Fmt.decode_fields hd
  · exact ⟨hm, hh, .inl he⟩
  · exact ⟨hm, hh, .inr (by omega)⟩

/-- Of two exponents with significands for one number, the lower has the larger significand. -/
theorem exponent_le_of_same_value {m g b : ℕ} {e h q : ℤ} (hm : m < 2 ^ (b + 1)) (hq : q ≤ e) (hc : h = q ∨ 2 ^ b ≤ g)
    (hv : (m : ℝ) * 2 ^ e = g * 2 ^ h) : h ≤ e := by
  obtain rfl | hg := hc
  · exact hq
  by_contra hlt
  rw [two_zpow_split h e (by omega), ← mul_assoc] at hv
  have hmg : m = g * 2 ^ (h - e).toNat := by exact_mod_cast mul_right_cancel₀ (by positivity) hv
  have h2 : 2 ^ 1 ≤ 2 ^ (h - e).toNat := Nat.pow_le_pow_right (by omega) (by omega)
  have := Nat.mul_le_mul hg h2
  rw [pow_succ] at hm
  omega

/-- A finite code is known by its sign and its number. -/
theorem Fmt.decode_injective {f : Fmt} {a c : ℕ} {n : Bool} {m g : ℕ} {e h : ℤ} (ha : a < 2 ^ f.bits) (hc : c < 2 ^ f.bits)
    (hda : f.decode a = .fin n m e) (hdc : f.decode c = .fin n g h) (hv : (m : ℝ) * 2 ^ e = g * 2 ^ h) : a = c := by
  obtain ⟨hm, hqe, hce⟩ := Fmt.decode_canonical hda
  obtain ⟨hg, hqh, hch⟩ := Fmt.decode_canonical hdc
  obtain rfl : e = h := le_antisymm (exponent_le_of_same_value hg hqh hce hv.symm) (exponent_le_of_same_value hm hqe hch hv)
  obtain rfl : m = g := by exact_mod_cast mul_right_cancel₀ (by positivity) hv
  obtain ⟨hsa, hfa⟩ := Fmt.decode_fields hda
  obtain ⟨hsc, hfc⟩ := Fmt.decode_fields hdc
  have hs : a / 2 ^ (f.bits - 1) % 2 = c / 2 ^ (f.bits - 1) % 2 := by
    rw [hsa, decide_eq_decide] at hsc
    omega
  have hla := Nat.mod_lt a (Nat.two_pow_pos f.fbits)
  have hlc := Nat.mod_lt c (Nat.two_pow_pos f.fbits)
  have hx : a / 2 ^ f.fbits % 2 ^ f.ebits = c / 2 ^ f.fbits % 2 ^ f.ebits ∧ a % 2 ^ f.fbits = c % 2 ^ f.fbits := by omega
  rw [Fmt.code_eq ha, Fmt.code_eq hc, hs, hx.1, hx.2]

/-- A zero is its sign bit. -/
theorem Fmt.eq_signBit_of_decode {f : Fmt} {a : ℕ} {n : Bool} {e : ℤ} (ha : a < 2 ^ f.bits) (hd : f.decode a = .fin n 0 e) : a = f.signBit n := by
  obtain ⟨hn, ⟨hx, hm, -⟩ | ⟨-, hm, -⟩⟩ := Fmt.decode_fields hd
  · rw [Fmt.code_eq ha, hx, ← hm, hn, Fmt.signBit]
    obtain h | h := Nat.mod_two_eq_zero_or_one (a / 2 ^ (f.bits - 1)) <;> simp [h]
  · have := Nat.two_pow_pos f.fbits
    omega

/-- The largest finite codes: a significand and an exponent that no finite code exceeds both of, whose number is below the threshold (R43). -/
theorem Fmt.decode_le_top {f : Fmt} {c : ℕ} {k : Bool} {m : ℕ} {h : ℤ} (hd : f.decode c = .fin k m h) :
    ∃ (g : ℕ) (e : ℤ), m ≤ g ∧ h ≤ e ∧ (g : ℝ) * 2 ^ e < f.limit := by
  have ok := Fmt.fields_of_decode hd
  obtain ⟨hm, -⟩ := f.decode_bounds c hd
  obtain ⟨-, hc⟩ := Fmt.decode_fields hd
  have hx := Nat.mod_lt (c / 2 ^ f.fbits) (Nat.two_pow_pos f.ebits)
  have hr := Nat.mod_lt c (Nat.two_pow_pos f.fbits)
  generalize c / 2 ^ f.fbits % 2 ^ f.ebits = ex at ok hc hx
  generalize c % 2 ^ f.fbits = fr at ok hc hr
  cases f <;> simp only [Fmt.ebits, Fmt.fbits, Fmt.bias, reduceCtorEq, false_and, false_or, or_false, true_and, or_true] at ok hm hc hx hr
  case sf => exact ⟨2 ^ 24 - 1, 104, by omega, by omega, by norm_num [Fmt.limit]⟩
  case hf => exact ⟨2 ^ 11 - 1, 5, by omega, by omega, by norm_num [Fmt.limit]⟩
  case bf => exact ⟨2 ^ 8 - 1, 120, by omega, by omega, by norm_num [Fmt.limit]⟩
  case e5 => exact ⟨2 ^ 3 - 1, 13, by omega, by omega, by norm_num [Fmt.limit]⟩
  case e2 => exact ⟨2 ^ 2 - 1, 1, by omega, by omega, by norm_num [Fmt.limit]⟩
  case e4 =>
    by_cases h15 : ex = 15
    · exact ⟨14, 5, by omega, by omega, by norm_num [Fmt.limit]⟩
    · exact ⟨15, 4, by omega, by omega, by norm_num [Fmt.limit]⟩

/-- Finite codes lie below the threshold (R43). -/
theorem Fmt.decode_lt_limit {f : Fmt} {c : ℕ} {k : Bool} {m : ℕ} {h : ℤ} (hd : f.decode c = .fin k m h) : (m : ℝ) * 2 ^ h < f.limit := by
  obtain ⟨g, e, hm, hh, hlt⟩ := Fmt.decode_le_top hd
  refine lt_of_le_of_lt ?_ hlt
  have hp := zpow_le_zpow_right₀ (one_le_two (α := ℝ)) hh
  gcongr

/-- A number that the format holds converts to itself with no flag. -/
theorem Fmt.round_decode {f : Fmt} (hf : f ≠ .e2) (sat : Bool) {a : ℕ} {n : Bool} {m : ℕ} {e : ℤ} (ha : a < 2 ^ f.bits) (hd : f.decode a = .fin n m e) :
    f.round sat n m e = ⟨a, 0⟩ := by
  by_cases hm : m = 0
  · subst hm
    rw [Fmt.round_zero, ← Fmt.eq_signBit_of_decode ha hd]
  · obtain ⟨g, h, hdr, hr, hexact, -, hnear⟩ := (f.round_nearest sat n (m * 2 ^ e) m e hm (.inl rfl)).2 (by
      rw [← f.limit_eq]; exact Fmt.decode_lt_limit hd)
    obtain ⟨hle, -⟩ := hnear a n m e hd (m * 2 ^ e) (by rw [if_pos rfl, one_mul])
    rw [sub_self, abs_zero, abs_nonpos_iff, sub_eq_zero] at hle
    exact congrArg₂ FRes.mk (Fmt.decode_injective hr ha hdr hd hle.symm) (hexact hle.symm hf)

/-- A code with the highest exponent field is an infinity or a NaN (R44). -/
theorem Fmt.decode_top {f : Fmt} {a : ℕ} (hx : a / 2 ^ f.fbits % 2 ^ f.ebits = 2 ^ f.ebits - 1) (hf : f ∉ [Fmt.e2, .e4]) :
    f.decode a = if a % 2 ^ f.fbits = 0 then .inf (decide (a / 2 ^ (f.bits - 1) % 2 = 1)) else .nan (decide (a % 2 ^ f.fbits < 2 ^ (f.fbits - 1))) := by
  unfold Fmt.decode
  dsimp only
  rw [decide_eq_true hx]
  cases f with
  | e2 | e4 => simp at hf
  | sf | hf | bf | e5 => rfl

theorem e4_decode_nan {a : ℕ} (hx : a / 2 ^ Fmt.e4.fbits % 2 ^ Fmt.e4.ebits = 15) (hr : a % 2 ^ Fmt.e4.fbits = 7) : Fmt.e4.decode a = .nan false := by
  unfold Fmt.decode
  dsimp only
  rw [decide_eq_true (show a / 2 ^ Fmt.e4.fbits % 2 ^ Fmt.e4.ebits = 2 ^ Fmt.e4.ebits - 1 from hx)]
  exact if_pos hr

/-! ### Sums, products, quotients and roots (R46, R47) -/

section
variable {f : Fmt} (hf : f ≠ .e2)
include hf

theorem Fmt.roundsBy_plain : f.roundsBy false := ⟨hf, fun h => by cases h⟩

theorem Fmt.addV_roundsTo (n k : Bool) (m g : ℕ) (e h : ℤ) :
    RoundsTo f false ((Fv.fin n m e).value + (Fv.fin k g h).value) (f.addV (.fin n m e) (.fin k g h)) := by
  rw [← addFin_value]
  exact Fmt.round_value (Fmt.roundsBy_plain hf) _ _ _

theorem Fmt.mulF_roundsTo (n k : Bool) (m g : ℕ) (e h : ℤ) :
    RoundsTo f false ((Fv.fin n m e).value * (Fv.fin k g h).value) (f.mulF (.fin n m e) (.fin k g h)) := by
  rw [← Fv.value_mul]
  exact Fmt.round_value (Fmt.roundsBy_plain hf) _ _ _

theorem Fmt.fmaV_roundsTo (n k l : Bool) (m g i : ℕ) (e h j : ℤ) :
    RoundsTo f false ((Fv.fin n m e).value * (Fv.fin k g h).value + (Fv.fin l i j).value) (f.fmaV (.fin n m e) (.fin k g h) (.fin l i j)) := by
  rw [← Fv.value_mul]
  exact Fmt.addV_roundsTo hf _ _ _ _ _ _

/-- A quotient is rounded once: what the model rounds is the quotient with a sticky last bit. -/
theorem Fmt.divV_roundsTo (n k : Bool) (m : ℕ) {g : ℕ} (e h : ℤ) (hg : g ≠ 0) (hlt : g < 2 ^ 64) (hb : f.fbits ≤ 23) :
    RoundsTo f false ((Fv.fin n m e).value / (Fv.fin k g h).value) (f.divV (.fin n m e) (.fin k g h)) := by
  by_cases hm : m = 0
  · rw [Fv.value_fin_eq_zero.2 hm, zero_div]
    exact roundsTo_zero _ _ _
  · have hs := div_sticks m g e h f.fbits hm hg hlt hb
    have hv : |(Fv.fin n m e).value / (Fv.fin k g h).value| = m * 2 ^ e / (g * 2 ^ h) := by
      rw [abs_div, Fv.abs_value_fin, Fv.abs_value_fin]
    have hpos : 0 < |(Fv.fin n m e).value / (Fv.fin k g h).value| := by
      rw [hv]
      have := Nat.pos_of_ne_zero hm
      have := Nat.pos_of_ne_zero hg
      positivity
    rw [← hv] at hs
    have hM := hs.ne_zero hpos
    rw [Fmt.divV, if_neg hg]
    refine Fmt.round_roundsTo (Fmt.roundsBy_plain hf) hM hs ?_
    rw [div_neg_iff, Fv.value_fin_lt_zero, Fv.value_fin_lt_zero, Fv.value_fin_pos, Fv.value_fin_pos]
    cases n <;> cases k <;> simp [hm, hg]

/-- A root is rounded once: what the model rounds is the root with a sticky last bit. -/
theorem Fmt.sqrtV_roundsTo {n : Bool} {m : ℕ} {e : ℤ} (hv : 0 < (Fv.fin n m e).value) (hb : f.fbits ≤ 23) :
    RoundsTo f false (Real.sqrt (Fv.fin n m e).value) (f.sqrtV (.fin n m e)) := by
  obtain ⟨rfl, hm⟩ := Fv.value_fin_pos.1 hv
  have hs := sqrt_sticks m e f.fbits hm hb
  have hroot : |Real.sqrt (Fv.fin false m e).value| = Real.sqrt (m * 2 ^ e) := by
    rw [abs_of_nonneg (Real.sqrt_nonneg _), ← Fv.abs_value_fin false, abs_of_pos hv]
  have hpos : 0 < |Real.sqrt (Fv.fin false m e).value| := abs_pos.2 (Real.sqrt_pos.2 hv).ne'
  rw [← hroot] at hs
  simp only [Fmt.sqrtV, if_neg hm, Bool.false_eq_true, if_false]
  exact Fmt.round_roundsTo (Fmt.roundsBy_plain hf) (hs.ne_zero hpos) hs (by simp [Real.sqrt_nonneg])

end

/-- The exact zero sum and its sign (R47). -/
theorem Fmt.addV_of_sum_eq_zero (f : Fmt) {n k : Bool} {m g : ℕ} {e h : ℤ} (hz : (Fv.fin n m e).value + (Fv.fin k g h).value = 0) :
    f.addV (.fin n m e) (.fin k g h) = ⟨f.signBit (n && k), 0⟩ := by
  simp [Fmt.addV, addFin_of_sum_eq_zero hz, Fmt.rnd]

theorem Fmt.mulF_of_mul_eq_zero (f : Fmt) {n k : Bool} {m g : ℕ} {e h : ℤ} (hz : (Fv.fin n m e).value * (Fv.fin k g h).value = 0) :
    f.mulF (.fin n m e) (.fin k g h) = ⟨f.signBit (n != k), 0⟩ := by
  rw [← Fv.value_mul, Fv.value_fin_eq_zero] at hz
  simp [Fmt.mulF, mulV, Fmt.ofV, Fmt.rnd, hz]

theorem Fmt.fmaV_of_sum_eq_zero (f : Fmt) {n k l : Bool} {m g i : ℕ} {e h j : ℤ}
    (hz : (Fv.fin n m e).value * (Fv.fin k g h).value + (Fv.fin l i j).value = 0) :
    f.fmaV (.fin n m e) (.fin k g h) (.fin l i j) = ⟨f.signBit (n != k && l), 0⟩ := by
  rw [← Fv.value_mul] at hz
  exact f.addV_of_sum_eq_zero hz

/-! ### Order (R47, R303) -/

/-- A finite value lies within the numbers that stand for the infinities. -/
def Fv.bounded (x : Fv) : Prop := ∀ n m e, x = .fin n m e → |x.value| < 2 ^ 129

theorem Fmt.decode_bounded (f : Fmt) (c : ℕ) : (f.decode c).bounded := by
  intro n m e hd
  rw [hd, Fv.abs_value_fin]
  exact (Fmt.decode_lt_limit hd).trans f.limit_lt

theorem ltV_fin_iff (n k : Bool) (m g : ℕ) (e h : ℤ) : ltV (.fin n m e) (.fin k g h) = true ↔ (Fv.fin n m e).value < (Fv.fin k g h).value := by
  have hv := addFin_value n (!k) m g e h
  dsimp only at hv
  rw [Fv.value_fin_not, ← sub_eq_add_neg] at hv
  rw [← sub_neg, ← hv, Fv.value_fin_lt_zero]
  simp [ltV]

section
variable {x y : Fv} (hx : x.isNaN = false) (hy : y.isNaN = false) (hbx : x.bounded) (hby : y.bounded)
include hx hy hbx hby

/-- The order of values that are no NaN is the order of their numbers. -/
theorem ltV_iff : ltV x y = true ↔ x.value < y.value := by
  have h129 : (0 : ℝ) < 2 ^ 129 := by positivity
  cases x with
  | nan => cases hx
  | inf a =>
    cases y with
    | nan => cases hy
    | inf b => cases a <;> cases b <;> simp [ltV, Fv.value]
    | fin k g h =>
      obtain ⟨h1, h2⟩ := abs_lt.1 (hby _ _ _ rfl)
      cases a
      · simpa [ltV, Fv.value] using h2.le
      · simpa [ltV, Fv.value] using h1
  | fin n m e =>
    cases y with
    | nan => cases hy
    | inf b =>
      obtain ⟨h1, h2⟩ := abs_lt.1 (hbx _ _ _ rfl)
      cases b
      · simpa [ltV, Fv.value] using h2
      · simpa [ltV, Fv.value] using h1.le
    | fin k g h => exact ltV_fin_iff n k m g e h

theorem eqV_iff : eqV x y = true ↔ x.value = y.value := by
  simp only [eqV, hx, hy, Bool.not_false, Bool.true_and, Bool.and_eq_true, Bool.not_eq_true', ← Bool.not_eq_true]
  rw [ltV_iff hx hy hbx hby, ltV_iff hy hx hby hbx, not_lt, not_lt, le_antisymm_iff, and_comm]

end

theorem ltV_of_isNaN {x y : Fv} (h : x.isNaN = true ∨ y.isNaN = true) : ltV x y = false := by
  cases x <;> cases y <;> simp_all [ltV, Fv.isNaN]

theorem eqV_of_isNaN {x y : Fv} (h : x.isNaN = true ∨ y.isNaN = true) : eqV x y = false := by
  obtain h | h := h <;> simp [eqV, h]

/-- The flags of signalling operands (R48). -/
def signals (l : List Fv) : BitVec 8 := if Fv.nan true ∈ l then fNV else 0

theorem sigNV_eq (x : Fv) : sigNV x = if x = .nan true then fNV else 0 := by
  cases x with
  | nan q => cases q <;> rfl
  | inf | fin => rfl

theorem signals_one (x : Fv) : signals [x] = sigNV x := by
  simp only [signals, sigNV_eq, List.mem_singleton, eq_comm (a := Fv.nan true)]

theorem signals_two (x y : Fv) : signals [x, y] = sigNV x ||| sigNV y := by
  simp only [signals, sigNV_eq, List.mem_cons, List.not_mem_nil, or_false, eq_comm (a := Fv.nan true)]
  by_cases hx : x = .nan true <;> by_cases hy : y = .nan true <;> simp [hx, hy]

theorem sigNV_of_not_isNaN {x : Fv} (h : x.isNaN = false) : sigNV x = 0 := by
  cases x with
  | nan => cases h
  | inf | fin => rfl

/-! ### NaNs, infinities and zeros (R44, R47, R48) -/

theorem Fmt.addV_code_of_isNaN (f : Fmt) {x y : Fv} (h : x.isNaN = true ∨ y.isNaN = true) : (f.addV x y).code = f.nan := by
  cases x with
  | nan => rfl
  | inf | fin =>
    cases y with
    | nan => rfl
    | inf | fin => simp [Fv.isNaN] at h

theorem mulV_of_isNaN {x y : Fv} (h : x.isNaN = true ∨ y.isNaN = true) : ∃ q, mulV x y = some (.nan q) := by
  cases x with
  | nan => cases y <;> exact ⟨_, rfl⟩
  | inf | fin =>
    cases y with
    | nan => exact ⟨_, rfl⟩
    | inf | fin => simp [Fv.isNaN] at h

theorem Fmt.mulF_code_of_isNaN (f : Fmt) {x y : Fv} (h : x.isNaN = true ∨ y.isNaN = true) : (f.mulF x y).code = f.nan := by
  obtain ⟨q, hq⟩ := mulV_of_isNaN h
  rw [Fmt.mulF, hq]
  rfl

theorem Fmt.fmaV_code_of_isNaN (f : Fmt) {x y : Fv} (z : Fv) (h : x.isNaN = true ∨ y.isNaN = true) : (f.fmaV x y z).code = f.nan := by
  obtain ⟨q, hq⟩ := mulV_of_isNaN h
  rw [Fmt.fmaV, hq]
  rfl

theorem Fmt.divV_code_of_isNaN (f : Fmt) {x y : Fv} (h : x.isNaN = true ∨ y.isNaN = true) : (f.divV x y).code = f.nan := by
  cases x with
  | nan => rfl
  | inf | fin =>
    cases y with
    | nan => rfl
    | inf | fin => simp [Fv.isNaN] at h

theorem Fv.isNaN_neg (x : Fv) : x.neg.isNaN = x.isNaN := by cases x <;> rfl

theorem fpOp_code_of_isNaN {f : Fmt} {a b d : ℕ} {op : VFp} (h : (f.decode a).isNaN = true ∨ (f.decode b).isNaN = true)
    (hop : op ∈ [VFp.add, .sub, .mul, .div, .ma, .nma]) : (fpOp op f a b d).code = f.nan := by
  simp only [List.mem_cons, List.not_mem_nil, or_false] at hop
  obtain rfl | rfl | rfl | rfl | rfl | rfl := hop
  · exact f.addV_code_of_isNaN h
  · exact f.addV_code_of_isNaN (by rwa [Fv.isNaN_neg])
  · exact f.mulF_code_of_isNaN h
  · exact f.divV_code_of_isNaN h
  · exact f.fmaV_code_of_isNaN _ h
  · exact f.fmaV_code_of_isNaN _ (by rwa [Fv.isNaN_neg])

/-- A finite number over zero is infinite, with DZ, in the formats that have infinities. -/
theorem Fmt.divV_zero {f : Fmt} {i : ℕ} (hi : f.inf = some i) {n k : Bool} {m : ℕ} {e h : ℤ} (hm : m ≠ 0) :
    f.divV (.fin n m e) (.fin k 0 h) = ⟨i + f.signBit (n != k), fDZ⟩ := by
  rw [Fmt.divV, if_pos rfl, if_neg hm]
  simp [Fmt.infRes, hi, Nat.add_comm]

/-- The special cases of BF16, FP16 and FP32 (R44, R47, R48). -/
theorem fpSpecialCases {f : Fmt} (hf : f ∈ [Fmt.bf, .hf, .sf]) (a b d : ℕ) (op : VFp) :
    let x := f.decode a
    let y := f.decode b
    ((x.isNaN = true ∨ y.isNaN = true) → op ∈ [VFp.add, .sub, .mul, .div, .ma, .nma] → (fpOp op f a b d).code = f.nan) ∧
    (∀ n, x = .inf n → y = .inf n → fpOp .sub f a b d = ⟨f.nan, fNV⟩) ∧
    (∀ n k e, x = .inf n → y = .fin k 0 e → fpOp .mul f a b d = ⟨f.nan, fNV⟩) ∧
    (∀ m e, x = .fin true m e → m ≠ 0 → f.sqrtV x = ⟨f.nan, fNV⟩) ∧
    (∀ n m e k g, x = .fin n m e → m ≠ 0 → y = .fin k 0 g →
      fpOp .div f a b d = ⟨(if n = k then 0 else 2 ^ (f.bits - 1)) + f.inf.getD 0, fDZ⟩) ∧
    (∀ n m e, x = .fin n m e → fpOp .sub f a a d = ⟨0, 0⟩) ∧
    (a < 2 ^ f.bits → ∀ n m e, x = .fin n m e → f.convert false x = ⟨a, 0⟩) := by
  have h2 : f ≠ .e2 := by rintro rfl; simp at hf
  obtain ⟨i, hi⟩ : ∃ i, f.inf = some i := by
    simp only [List.mem_cons, List.not_mem_nil, or_false] at hf
    obtain rfl | rfl | rfl := hf <;> exact ⟨_, rfl⟩
  refine ⟨fpOp_code_of_isNaN, fun n hx hy => ?_, fun n k e hx hy => ?_, fun m e hx hm => ?_, fun n m e k g hx hm hy => ?_, fun n m e hx => ?_,
    fun ha n m e hx => ?_⟩
  · simp [fpOp, hx, hy, Fv.neg, Fmt.addV]
  · simp [fpOp, hx, hy, Fmt.mulF, mulV]
  · rw [hx, Fmt.sqrtV, if_neg hm, if_pos rfl]
  · rw [fpOp, hx, hy, Fmt.divV_zero hi hm, hi]
    cases n <;> cases k <;> simp [Fmt.signBit, Nat.add_comm]
  · rw [fpOp, hx, Fv.neg, f.addV_of_sum_eq_zero (by rw [Fv.value_fin_not, add_neg_cancel])]
    cases n <;> rfl
  · rw [hx]
    exact Fmt.round_decode h2 false ha hx

/-! ### A code has the value of its fields (R43, R44) -/

theorem Fmt.sign_eq_testBit (f : Fmt) (a : ℕ) : decide (a / 2 ^ (f.bits - 1) % 2 = 1) = a.testBit (f.ebits + f.fbits) := by
  rw [Nat.testBit_eq_decide_div_mod_eq, Fmt.bits]
  congr 3
  rw [Nat.add_assoc, Nat.add_sub_cancel_left]

/-- The value of a code whose exponent field is zero. -/
theorem Fmt.decode_subnormal {f : Fmt} {a : ℕ} (hx : a / 2 ^ f.fbits % 2 ^ f.ebits = 0) :
    ∃ m e, f.decode a = .fin (a.testBit (f.ebits + f.fbits)) m e ∧ (m : ℝ) * 2 ^ e = (a % 2 ^ f.fbits : ℕ) / 2 ^ f.fbits * 2 ^ (1 - f.bias : ℤ) := by
  have htop : 0 ≠ 2 ^ f.ebits - 1 := by cases f <;> decide
  rw [f.decode_fin a (.inl (by rwa [hx])), if_pos hx, if_pos hx, f.sign_eq_testBit]
  refine ⟨_, _, rfl, ?_⟩
  rw [zpow_sub₀ two_ne_zero, zpow_natCast]
  ring

/-- The value of a finite code whose exponent field is not zero. -/
theorem Fmt.decode_normal {f : Fmt} {a : ℕ} (hx : 0 < a / 2 ^ f.fbits % 2 ^ f.ebits)
    (ok : a / 2 ^ f.fbits % 2 ^ f.ebits < 2 ^ f.ebits - 1 ∨ f = .e2 ∨ (f = .e4 ∧ a % 2 ^ f.fbits < 7)) :
    ∃ m e, f.decode a = .fin (a.testBit (f.ebits + f.fbits)) m e ∧
      (m : ℝ) * 2 ^ e = (1 + (a % 2 ^ f.fbits : ℕ) / 2 ^ f.fbits) * 2 ^ ((a / 2 ^ f.fbits % 2 ^ f.ebits : ℕ) - f.bias : ℤ) := by
  rw [f.decode_fin a (ok.imp ne_of_lt (.imp_right fun ⟨h4, hr⟩ => ⟨h4, hr.ne⟩)), if_neg hx.ne', if_neg hx.ne', f.sign_eq_testBit]
  refine ⟨_, _, rfl, ?_⟩
  rw [show 1 - (f.bias : ℤ) - f.fbits + (a / 2 ^ f.fbits % 2 ^ f.ebits : ℕ) - 1 = (a / 2 ^ f.fbits % 2 ^ f.ebits : ℕ) - f.bias - f.fbits by ring,
    zpow_sub₀ two_ne_zero _ (f.fbits : ℤ), zpow_natCast]
  push_cast
  field_simp

/-- What R43 and R44 say of each code, by the widths and the bias of its format. -/
theorem Fmt.fieldsOfCode (f : Fmt) (a : ℕ) :
    let sign := a.testBit (f.ebits + f.fbits)
    let ex := a / 2 ^ f.fbits % 2 ^ f.ebits
    let fr := a % 2 ^ f.fbits
    (ex = 0 → ∃ m e, f.decode a = .fin sign m e ∧ (m : ℝ) * 2 ^ e = fr / 2 ^ f.fbits * 2 ^ (1 - f.bias : ℤ)) ∧
    (0 < ex → (ex < 2 ^ f.ebits - 1 ∨ f = .e2 ∨ (f = .e4 ∧ fr < 7)) →
      ∃ m e, f.decode a = .fin sign m e ∧ (m : ℝ) * 2 ^ e = (1 + fr / 2 ^ f.fbits) * 2 ^ (ex - f.bias : ℤ)) ∧
    (ex = 2 ^ f.ebits - 1 → f ∉ [Fmt.e2, .e4] → f.decode a = if fr = 0 then .inf sign else .nan (decide (fr < 2 ^ (f.fbits - 1)))) ∧
    (f = .e4 → ex = 15 → fr = 7 → f.decode a = .nan false) := by
  refine ⟨Fmt.decode_subnormal, Fmt.decode_normal, fun hx hf => ?_, ?_⟩
  · rw [Fmt.decode_top hx hf, f.sign_eq_testBit]
  · rintro rfl
    exact e4_decode_nan

/-! ### Arithmetic of finite numbers (R46, R47, R302, R309) -/

/-- The element types with a format of their own. -/
theorem fmt_ne_e2 {t : ElTy} : t.fmt ≠ .e2 := by cases t <;> simp [ElTy.fmt]

theorem Fmt.fbits_le (f : Fmt) : f.fbits ≤ 23 := by cases f <;> decide

theorem Fmt.decode_lt_word {f : Fmt} {c : ℕ} {k : Bool} {m : ℕ} {h : ℤ} (hd : f.decode c = .fin k m h) : m < 2 ^ 64 :=
  (f.decode_bounds c hd).1.trans_le (Nat.pow_le_pow_right (by omega) (by have := f.fbits_le; omega))

/-- VFSQRT and VFRECIP of a finite number. -/
theorem fpRoots {t : ElTy} (ht : t ∈ [ElTy.e4, .bf, .hf, .sf]) {a : ℕ} (ha : a < 2 ^ t.fmt.bits) :
    let f := t.fmt
    let x := f.decode a
    ∀ n m e, x = .fin n m e →
      (0 < x.value → RoundsTo f false (Real.sqrt x.value) (oneOp .fsqrt t a)) ∧ (m = 0 → oneOp .fsqrt t a = ⟨a, 0⟩) ∧
      (m ≠ 0 → RoundsTo f false (1 / x.value) (oneOp .frecip t a)) ∧
      (m = 0 → oneOp .frecip t a = if t = .e4 then ⟨0x7F, fNV ||| fDZ⟩ else ⟨f.most false n, fDZ⟩) := by
  intro f x n m e hx
  have hone : (Fv.fin false 1 0).value = 1 := by simp [Fv.value]
  have hroot : oneOp .fsqrt t a = f.sqrtV (.fin n m e) := by rw [← hx]; rfl
  have hrecip : oneOp .frecip t a = f.divV (.fin false 1 0) (.fin n m e) := by rw [← hx]; rfl
  rw [hroot, hrecip]
  refine ⟨fun hv => ?_, fun hm => ?_, fun hm => ?_, fun hm => ?_⟩
  · rw [hx] at hv ⊢
    exact Fmt.sqrtV_roundsTo fmt_ne_e2 hv f.fbits_le
  · subst hm
    rw [Fmt.sqrtV, if_pos rfl, ← Fmt.eq_signBit_of_decode ha hx]
  · rw [hx, ← hone]
    exact Fmt.divV_roundsTo fmt_ne_e2 _ _ _ _ _ hm (Fmt.decode_lt_word hx) f.fbits_le
  · subst hm
    simp only [List.mem_cons, List.not_mem_nil, or_false] at ht
    obtain rfl | hinf := ht
    · rw [Fmt.divV, if_pos rfl, if_neg one_ne_zero, if_pos rfl]
      rfl
    · obtain rfl | rfl | rfl := hinf <;> rw [Fmt.divV_zero rfl one_ne_zero, Bool.false_bne, if_neg (by decide)] <;> rfl

/-- The sums, products and quotients of two finite numbers, and the fused forms of three. -/
theorem fpArithmetic {f : Fmt} (hf : f ≠ .e2) (a b d : ℕ) :
    let x := f.decode a
    let y := f.decode b
    let z := f.decode d
    ∀ n m e k g h, x = .fin n m e → y = .fin k g h →
      RoundsTo f false (x.value + y.value) (fpOp .add f a b d) ∧ RoundsTo f false (x.value - y.value) (fpOp .sub f a b d) ∧
      RoundsTo f false (x.value * y.value) (fpOp .mul f a b d) ∧ (g ≠ 0 → RoundsTo f false (x.value / y.value) (fpOp .div f a b d)) ∧
      (x.value + y.value = 0 → fpOp .add f a b d = ⟨f.signBit (n && k), 0⟩) ∧
      (x.value = y.value → fpOp .sub f a b d = ⟨f.signBit (n && !k), 0⟩) ∧
      (x.value * y.value = 0 → fpOp .mul f a b d = ⟨f.signBit (n != k), 0⟩) ∧
      (∀ l i j, z = .fin l i j → RoundsTo f false (x.value * y.value + z.value) (fpOp .ma f a b d) ∧
        RoundsTo f false (z.value - x.value * y.value) (fpOp .nma f a b d) ∧
        (x.value * y.value + z.value = 0 → fpOp .ma f a b d = ⟨f.signBit (n != k && l), 0⟩)) := by
  intro x y z n m e k g h hx hy
  have hsub : fpOp .sub f a b d = f.addV (.fin n m e) (.fin (!k) g h) := by
    change f.addV x y.neg = _
    rw [hx, hy]
    rfl
  have hadd : fpOp .add f a b d = f.addV (.fin n m e) (.fin k g h) := by rw [← hx, ← hy]; rfl
  have hmul : fpOp .mul f a b d = f.mulF (.fin n m e) (.fin k g h) := by rw [← hx, ← hy]; rfl
  have hdiv : fpOp .div f a b d = f.divV (.fin n m e) (.fin k g h) := by rw [← hx, ← hy]; rfl
  have hword := Fmt.decode_lt_word hy
  rw [hsub, hadd, hmul, hdiv, hx, hy]
  refine ⟨Fmt.addV_roundsTo hf _ _ _ _ _ _, ?_, Fmt.mulF_roundsTo hf _ _ _ _ _ _,
    fun hg => Fmt.divV_roundsTo hf _ _ _ _ _ hg hword f.fbits_le, f.addV_of_sum_eq_zero, fun heq => ?_, f.mulF_of_mul_eq_zero,
    fun l i j hz => ?_⟩
  · rw [sub_eq_add_neg, ← Fv.value_fin_not]
    exact Fmt.addV_roundsTo hf _ _ _ _ _ _
  · exact f.addV_of_sum_eq_zero (by rw [Fv.value_fin_not, heq, add_neg_cancel])
  · have hma : fpOp .ma f a b d = f.fmaV (.fin n m e) (.fin k g h) (.fin l i j) := by rw [← hx, ← hy, ← hz]; rfl
    have hnma : fpOp .nma f a b d = f.fmaV (.fin (!n) m e) (.fin k g h) (.fin l i j) := by
      change f.fmaV x.neg y z = _
      rw [hx, hy, hz]
      rfl
    rw [hma, hnma, hz]
    refine ⟨Fmt.fmaV_roundsTo hf _ _ _ _ _ _ _ _ _, ?_, f.fmaV_of_sum_eq_zero⟩
    rw [sub_eq_neg_add, ← neg_mul, ← Fv.value_fin_not]
    exact Fmt.fmaV_roundsTo hf _ _ _ _ _ _ _ _ _

/-! ### Compares, VFMIN and VFMAX (R47, R48, R302, R303) -/

/-- A flagless answer is the one that a condition decides. -/
theorem pair_eq_iff {c r : Bool} {p : Prop} (h : c = true ↔ p) : ((c, (0 : BitVec 8)) = (r, 0)) ↔ (r = true ↔ p) := by
  rw [← h, Prod.mk.injEq, and_iff_left rfl, Bool.eq_iff_iff]
  exact Iff.comm

/-- VFMIN and VFMAX of two operands that are no NaN, by whether the first is the smaller. -/
theorem Fmt.minmax_of_not_isNaN {f : Fmt} {a b : ℕ} (hx : (f.decode a).isNaN = false) (hy : (f.decode b).isNaN = false) (up : Bool) :
    f.minmax up a b = if (ltV (f.decode a) (f.decode b) || (eqV (f.decode a) (f.decode b) && (f.decode a).sign && !(f.decode b).sign)) != up
      then ⟨a, 0⟩ else ⟨b, 0⟩ := by
  simp [Fmt.minmax, hx, hy, sigNV_of_not_isNaN]

/-- Compares, VFMIN and VFMAX of operands that are no NaN. -/
theorem fpOrder {f : Fmt} {a b : ℕ} (d : ℕ) :
    let x := f.decode a
    let y := f.decode b
    x.isNaN = false → y.isNaN = false →
      (∀ r, fpCmp .feq f a b = (r, 0) ↔ (r = true ↔ x.value = y.value)) ∧ (∀ r, fpCmp .flt f a b = (r, 0) ↔ (r = true ↔ x.value < y.value)) ∧
      (∀ r, fpCmp .fle f a b = (r, 0) ↔ (r = true ↔ x.value ≤ y.value)) ∧ fpCmp .fun_ f a b = (false, 0) ∧
      (x.value < y.value ∨ a = b ∨ (∃ e g, x = .fin true 0 e ∧ y = .fin false 0 g) → fpOp .min f a b d = ⟨a, 0⟩ ∧ fpOp .max f a b d = ⟨b, 0⟩) ∧
      (y.value < x.value ∨ (∃ e g, x = .fin false 0 e ∧ y = .fin true 0 g) → fpOp .min f a b d = ⟨b, 0⟩ ∧ fpOp .max f a b d = ⟨a, 0⟩) := by
  intro x y hx hy
  have hlt : ltV x y = true ↔ x.value < y.value := ltV_iff hx hy (f.decode_bounded a) (f.decode_bounded b)
  have heq : eqV x y = true ↔ x.value = y.value := eqV_iff hx hy (f.decode_bounded a) (f.decode_bounded b)
  have hq : sigNV x ||| sigNV y = 0 := by rw [sigNV_of_not_isNaN hx, sigNV_of_not_isNaN hy]; rfl
  have hany : flagIf (x.isNaN || y.isNaN) fNV = 0 := by rw [hx, hy]; rfl
  have hfeq : fpCmp .feq f a b = (eqV x y, 0) := by rw [← hq]; rfl
  have hflt : fpCmp .flt f a b = (ltV x y, 0) := by rw [← hany]; rfl
  have hfle : fpCmp .fle f a b = (ltV x y || eqV x y, 0) := by rw [← hany]; rfl
  have hfun : fpCmp .fun_ f a b = (x.isNaN || y.isNaN, 0) := by rw [← hq]; rfl
  have hmin : fpOp .min f a b d = if (ltV x y || (eqV x y && x.sign && !y.sign)) != false then ⟨a, 0⟩ else ⟨b, 0⟩ :=
    Fmt.minmax_of_not_isNaN hx hy false
  have hmax : fpOp .max f a b d = if (ltV x y || (eqV x y && x.sign && !y.sign)) != true then ⟨a, 0⟩ else ⟨b, 0⟩ :=
    Fmt.minmax_of_not_isNaN hx hy true
  rw [hfeq, hflt, hfle, hfun, hmin, hmax]
  refine ⟨fun r => pair_eq_iff heq, fun r => pair_eq_iff hlt, fun r => pair_eq_iff ?_, by rw [hx, hy]; rfl, ?_, ?_⟩
  · rw [Bool.or_eq_true, hlt, heq, le_iff_lt_or_eq]
  · rintro (h | rfl | ⟨e, g, hx0, hy0⟩)
    · simp [hlt.2 h]
    · simp
    · have h0 : x.value = y.value := by rw [hx0, hy0]; simp [Fv.value]
      have hs : x.sign = true ∧ y.sign = false := by rw [hx0, hy0]; exact ⟨rfl, rfl⟩
      simp [heq.2 h0, hs]
  · rintro (h | ⟨e, g, hx0, hy0⟩)
    · have hl : ltV x y = false := by rw [← Bool.not_eq_true, hlt]; exact h.le.not_gt
      have he : eqV x y = false := by rw [← Bool.not_eq_true, heq]; exact h.ne'
      simp [hl, he]
    · have h0 : x.value = y.value := by rw [hx0, hy0]; simp [Fv.value]
      have hl : ltV x y = false := by rw [← Bool.not_eq_true, hlt]; exact h0.not_lt
      have hs : x.sign = false := by rw [hx0]; rfl
      simp [hl, hs]

/-- Compares, VFMIN and VFMAX of operands of which one is a NaN. -/
theorem fpOrderOfNaN {f : Fmt} {a b : ℕ} (d : ℕ) :
    let x := f.decode a
    let y := f.decode b
    (x.isNaN = true ∨ y.isNaN = true) → fpCmp .feq f a b = (false, signals [x, y]) ∧ fpCmp .flt f a b = (false, fNV) ∧
      fpCmp .fle f a b = (false, fNV) ∧ fpCmp .fun_ f a b = (true, signals [x, y]) ∧ ∀ op ∈ [VFp.min, .max], fpOp op f a b d =
        ⟨if x.isNaN = false then a else if y.isNaN = false then b else f.nan, signals [x, y]⟩ := by
  intro x y h
  have hor : (x.isNaN || y.isNaN) = true := by rwa [Bool.or_eq_true]
  have hminmax (up : Bool) : f.minmax up a b = ⟨if x.isNaN = false then a else if y.isNaN = false then b else f.nan, sigNV x ||| sigNV y⟩ := by
    change (if x.isNaN && y.isNaN then (⟨f.nan, sigNV x ||| sigNV y⟩ : FRes) else if x.isNaN then ⟨b, sigNV x ||| sigNV y⟩
      else if y.isNaN then ⟨a, sigNV x ||| sigNV y⟩ else _) = _
    cases hx : x.isNaN <;> cases hy : y.isNaN <;> simp [hx, hy] at h ⊢
  rw [signals_two]
  refine ⟨?_, ?_, ?_, ?_, ?_⟩
  · change (eqV x y, sigNV x ||| sigNV y) = _
    rw [eqV_of_isNaN h]
  · change (ltV x y, flagIf (x.isNaN || y.isNaN) fNV) = _
    rw [ltV_of_isNaN h, hor]
    rfl
  · change (ltV x y || eqV x y, flagIf (x.isNaN || y.isNaN) fNV) = _
    rw [ltV_of_isNaN h, eqV_of_isNaN h, hor]
    rfl
  · change (x.isNaN || y.isNaN, sigNV x ||| sigNV y) = _
    rw [hor]
  · simp only [List.forall_mem_cons, List.not_mem_nil, false_imp_iff, implies_true, and_true]
    exact ⟨hminmax false, hminmax true⟩

/-! ### Signs and classes (R47, R302, R309, R311) -/

theorem Fmt.signBit_isNeg (f : Fmt) (c : ℕ) : f.signBit (f.isNeg c) = c / 2 ^ (f.bits - 1) % 2 * 2 ^ (f.bits - 1) := by
  obtain h | h := Nat.mod_two_eq_zero_or_one (c / 2 ^ (f.bits - 1)) <;> simp [Fmt.signBit, Fmt.isNeg, h]

theorem Fmt.signBit_not_isNeg (f : Fmt) (c : ℕ) : f.signBit (!f.isNeg c) = (1 - c / 2 ^ (f.bits - 1) % 2) * 2 ^ (f.bits - 1) := by
  obtain h | h := Nat.mod_two_eq_zero_or_one (c / 2 ^ (f.bits - 1)) <;> simp [Fmt.signBit, Fmt.isNeg, h]

theorem Fmt.withSign_eq (f : Fmt) (c : ℕ) (neg : Bool) :
    f.withSign c neg = ⟨if (f.decode c).isNaN = true then f.nan else f.signBit neg + c % 2 ^ (f.bits - 1), sigNV (f.decode c)⟩ := by
  unfold Fmt.withSign
  cases f.decode c <;> rfl

/-- VFSGNJ, VFSGNJN, VFNEG and VFABS replace the sign bit. -/
theorem fpSigns (t : ElTy) (a b d : ℕ) :
    let f := t.fmt
    let x := f.decode a
    let y := f.decode b
    let half := 2 ^ (f.bits - 1)
    let sb := b / half % 2
    fpOp .sgnj f a b d = ⟨if x.isNaN = true then f.nan else sb * half + a % half, signals [x, y]⟩ ∧
    fpOp .sgnjn f a b d = ⟨if x.isNaN = true then f.nan else (1 - sb) * half + a % half, signals [x, y]⟩ ∧
    oneOp .fneg t a = ⟨if x.isNaN = true then f.nan else (1 - a / half % 2) * half + a % half, signals [x]⟩ ∧
    oneOp .fabs t a = ⟨if x.isNaN = true then f.nan else a % half, signals [x]⟩ := by
  intro f x y half sb
  rw [signals_one, signals_two, ← f.signBit_isNeg, ← f.signBit_not_isNeg, ← f.signBit_not_isNeg]
  refine ⟨?_, ?_, f.withSign_eq a _, ?_⟩
  · simp only [fpOp, f.withSign_eq]; rfl
  · simp only [fpOp, f.withSign_eq]; rfl
  · refine (f.withSign_eq a false).trans ?_
    simp [Fmt.signBit, x, half]

/-- Whether a number that is not zero is below the smallest normal one is told by the exponent field. -/
theorem Fmt.decode_lt_normal_iff {f : Fmt} {a : ℕ} {n : Bool} {m : ℕ} {e : ℤ} (hd : f.decode a = .fin n m e) :
    a / 2 ^ f.fbits % 2 ^ f.ebits = 0 ↔ (m : ℝ) * 2 ^ e < 2 ^ (1 - f.bias : ℤ) := by
  obtain ⟨-, hc⟩ := Fmt.decode_fields hd
  have hfr := Nat.mod_lt a (Nat.two_pow_pos f.fbits)
  obtain ⟨hx, hm, rfl⟩ | ⟨hx, hm, he⟩ := hc
  · refine iff_of_true hx ?_
    have hlt : (m : ℝ) < 2 ^ f.fbits := by rw [hm]; exact_mod_cast hfr
    calc (m : ℝ) * 2 ^ (1 - (f.bias : ℤ) - f.fbits) < 2 ^ f.fbits * 2 ^ (1 - (f.bias : ℤ) - f.fbits) := by gcongr
      _ = 2 ^ (1 - f.bias : ℤ) := by rw [← zpow_natCast, ← zpow_add₀ two_ne_zero, add_sub_cancel]
  · refine iff_of_false hx.ne' (not_lt.2 ?_)
    have hge : (2 : ℝ) ^ f.fbits ≤ m := by rw [hm]; exact_mod_cast Nat.le_add_right _ _
    have hle : (2 : ℝ) ^ (1 - (f.bias : ℤ) - f.fbits) ≤ 2 ^ e := zpow_le_zpow_right₀ one_le_two (by omega)
    calc (2 : ℝ) ^ (1 - f.bias : ℤ) = 2 ^ f.fbits * 2 ^ (1 - (f.bias : ℤ) - f.fbits) := by
          rw [← zpow_natCast, ← zpow_add₀ two_ne_zero, add_sub_cancel]
      _ ≤ m * 2 ^ e := by gcongr

/-- The class of a finite number by its sign and its magnitude (R311). -/
theorem Fmt.classify_fin {f : Fmt} {a : ℕ} {n : Bool} {m : ℕ} {e : ℤ} (hd : f.decode a = .fin n m e) :
    f.classify a = if m = 0 then (if n then 3 else 4) else if (m : ℝ) * 2 ^ e < 2 ^ (1 - f.bias : ℤ) then (if n then 2 else 5)
      else (if n then 1 else 6) := by
  unfold Fmt.classify
  rw [hd]
  simp only [← Fmt.decode_lt_normal_iff hd]
  by_cases hm : m = 0 <;> by_cases hx : a / 2 ^ f.fbits % 2 ^ f.ebits = 0 <;> cases n <;> simp [hm, hx]

/-- VFCLASS names the class. -/
theorem fpClass (t : ElTy) (a : ℕ) :
    let f := t.fmt
    let x := f.decode a
    ∃ c, oneOp .fclass t a = ⟨c, 0⟩ ∧ (c = 0 ↔ x = .inf true) ∧ (c = 7 ↔ x = .inf false) ∧ (c = 8 ↔ x = .nan true) ∧ (c = 9 ↔ x = .nan false) ∧
      ∀ n m e, x = .fin n m e → let normal := (2 : ℝ) ^ (1 - f.bias : ℤ)
        (c = 3 ↔ m = 0 ∧ n = true) ∧ (c = 4 ↔ m = 0 ∧ n = false) ∧ (c = 1 ↔ x.value ≤ -normal) ∧ (c = 6 ↔ normal ≤ x.value) ∧
        (c = 2 ↔ -normal < x.value ∧ x.value < 0) ∧ (c = 5 ↔ 0 < x.value ∧ x.value < normal) := by
  intro f x
  refine ⟨f.classify a, rfl, ?_⟩
  cases hx : x with
  | nan q => cases q <;> simp [Fmt.classify, show f.decode a = _ from hx]
  | inf n => cases n <;> simp [Fmt.classify, show f.decode a = _ from hx]
  | fin n m e =>
    have hp : (0 : ℝ) < 2 ^ (1 - f.bias : ℤ) := by positivity
    have hv : (Fv.fin n m e).value = (if n then -1 else 1) * (m * 2 ^ e : ℝ) := mul_assoc _ _ _
    have hpos : m ≠ 0 → (0 : ℝ) < m * 2 ^ e := fun hm => by
      have := Nat.pos_of_ne_zero hm
      positivity
    have hclass := Fmt.classify_fin hx
    generalize f.classify a = c at hclass ⊢
    generalize (2 : ℝ) ^ (1 - f.bias : ℤ) = p at hclass hp ⊢
    subst hclass
    rw [hv]
    by_cases hm : m = 0
    · subst hm
      cases n <;> simp [hp, hp.not_ge]
    · have hV := hpos hm
      generalize (m : ℝ) * 2 ^ e = V at hV ⊢
      have hlow : ¬V ≤ -p ∧ ¬p ≤ -V ∧ -p < V := ⟨by linarith, by linarith, by linarith⟩
      cases n
      · by_cases hlt : V < p <;> simp [hm, hV, hV.not_gt, hlow, hlt, le_of_not_gt]
      · by_cases hlt : V < p <;> simp [hm, hV, hV.not_gt, hlow, hlt, le_of_not_gt]

/-! ### Conversions (R51, R315) -/

theorem Fmt.convert_nan (f : Fmt) (sat q : Bool) : f.convert sat (.nan q) = ⟨f.nan, signals [.nan q]⟩ := by
  rw [signals_one]
  rfl

theorem Fmt.convert_inf {f : Fmt} {sat : Bool} (hf : f.roundsBy sat) (n : Bool) :
    f.convert sat (.inf n) = ⟨f.most sat n, if sat then fSAT else if f = .e4 then fNV else 0⟩ := by
  obtain ⟨h2, hsat⟩ := hf
  cases sat with
  | true => obtain rfl | rfl := hsat rfl <;> cases n <;> rfl
  | false =>
    cases f with
    | e2 => exact absurd rfl h2
    | sf | hf | bf | e4 | e5 => cases n <;> rfl

/-- The conversions to a floating-point format, with their canonical NaN. -/
theorem cvtOp_eq_convert : ∀ p ∈ ([(.sf, .sf, false, 0x7FC00000), (.bf, .bf, false, 0x7FC0), (.hf, .hf, false, 0x7E00), (.e4, .e4, false, 0x7F),
      (.e4s, .e4, true, 0x7F), (.e5, .e5, false, 0x7E), (.e5s, .e5, true, 0x7E)] : List (VCvt × Fmt × Bool × Nat)),
    ∀ t ∈ [ElTy.b, .e4, .bf, .hf, .sf], ∀ a : Nat,
      p.2.1.roundsBy p.2.2.1 ∧ p.2.2.2 = p.2.1.nan ∧ cvtOp p.1 t a = p.2.1.convert p.2.2.1 ((if t = .b then Fmt.e5 else t.fmt).decode a) := by
  intro p hp t ht a
  have hf : p.2.1.roundsBy p.2.2.1 ∧ p.2.2.2 = p.2.1.nan := by
    simp only [List.mem_cons, List.not_mem_nil, or_false] at hp
    obtain rfl | rfl | rfl | rfl | rfl | rfl | rfl := hp <;> simp [Fmt.roundsBy, Fmt.nan]
  refine ⟨hf.1, hf.2, ?_⟩
  have ht' : ¬(t = .h ∨ t = .w ∨ t = .d) := by
    rintro (rfl | rfl | rfl) <;> simp at ht
  simp only [List.mem_cons, List.not_mem_nil, or_false] at hp
  obtain rfl | hp := hp
  · exact if_neg ht'
  · obtain rfl | rfl | rfl | rfl | rfl | rfl := hp <;> rfl

/-- Conversions round once, saturate and take NaNs and infinities as R51 says. -/
theorem fpConversions : ∀ p ∈ ([(.sf, .sf, false, 0x7FC00000), (.bf, .bf, false, 0x7FC0), (.hf, .hf, false, 0x7E00), (.e4, .e4, false, 0x7F),
      (.e4s, .e4, true, 0x7F), (.e5, .e5, false, 0x7E), (.e5s, .e5, true, 0x7E)] : List (VCvt × Fmt × Bool × Nat)),
    let (op, f, sat, nan) := p
    ∀ t ∈ [ElTy.b, .e4, .bf, .hf, .sf], ∀ a : Nat,
      let x := (if t = .b then Fmt.e5 else t.fmt).decode a
      (∀ q, x = .nan q → cvtOp op t a = ⟨nan, signals [x]⟩) ∧
      (∀ n, x = .inf n → cvtOp op t a = ⟨f.most sat n, if sat then fSAT else if f = .e4 then fNV else 0⟩) ∧
      (∀ n m e, x = .fin n m e → RoundsTo f sat x.value (cvtOp op t a) ∧ (m = 0 → cvtOp op t a = ⟨f.signBit n, 0⟩)) := by
  rintro ⟨op, f, sat, nan⟩ hp t ht a x
  obtain ⟨hf, hnan, hop⟩ := cvtOp_eq_convert _ hp t ht a
  change f.roundsBy sat at hf
  change nan = f.nan at hnan
  change cvtOp op t a = f.convert sat x at hop
  rw [hop, hnan]
  refine ⟨fun q hx => ?_, fun n hx => ?_, fun n m e hx => ⟨?_, fun hm => ?_⟩⟩
  · rw [hx, Fmt.convert_nan]
  · rw [hx, Fmt.convert_inf hf]
  · rw [hx]
    exact Fmt.round_value hf n m e
  · rw [hx, hm]
    rfl

/-! ### Integers (R41, R51) -/

theorem sgn_eq_toInt (w a : ℕ) : sgn w a = (BitVec.ofNat w a).toInt := by
  simp [sgn, BitVec.toInt_eq_toNat_cond]

theorem wrap_eq_toNat_ofInt (w : ℕ) (i : ℤ) : wrap w i = (BitVec.ofInt w i).toNat := by
  simp [wrap]

/-- An integer is rounded once. -/
theorem Fmt.ofInt_roundsTo {f : Fmt} (hf : f ≠ .e2) (i : ℤ) : RoundsTo f false i (f.ofInt i) ∧ (i = 0 → f.ofInt i = ⟨0, 0⟩) := by
  have hv : (Fv.fin (decide (i < 0)) i.natAbs 0).value = i := by
    rw [Fv.value, zpow_zero, mul_one, sign_mul_natAbs]
    simp
  refine ⟨?_, fun hi => ?_⟩
  · rw [← hv]
    exact Fmt.round_value (Fmt.roundsBy_plain hf) _ _ _
  · subst hi
    rfl

/-- Integers convert to FP32 by one rounding (function 34). -/
theorem fpOfInteger {t : ElTy} (ht : t ∈ [ElTy.h, .w, .d]) (a : ℕ) :
    let i := (BitVec.ofNat (8 * t.bytes) a).toInt
    RoundsTo .sf false i (cvtOp .sf t a) ∧ (i = 0 → cvtOp .sf t a = ⟨0, 0⟩) := by
  intro i
  have hop : cvtOp .sf t a = Fmt.sf.ofInt i := by
    rw [show i = sgn (8 * t.bytes) a from (sgn_eq_toInt _ _).symm]
    exact if_pos (by simpa using ht)
  rw [hop]
  exact Fmt.ofInt_roundsTo (by decide) i

/-- INT32 converts to a floating-point type by one rounding (function 45). -/
theorem fpOfWord (t : ElTy) (a : ℕ) :
    let i := (BitVec.ofNat 32 a).toInt
    RoundsTo t.fmt false i (cvtOp .intof t a) ∧ (i = 0 → cvtOp .intof t a = ⟨0, 0⟩) := by
  intro i
  have hop : cvtOp .intof t a = t.fmt.ofInt i := by
    rw [show i = sgn 32 a from (sgn_eq_toInt _ _).symm]
    rfl
  rw [hop]
  exact Fmt.ofInt_roundsTo fmt_ne_e2 i

/-- A number converted to INT32: the integer i that the rounding gives, clamped, with the flags of the clamping and of the rounding. -/
def Clamps (v : ℝ) (i : ℤ) (r : FRes) : Prop :=
  (i < -2 ^ 31 → r = ⟨2 ^ 31, fSAT ||| fNV⟩) ∧ (2 ^ 31 ≤ i → r = ⟨2 ^ 31 - 1, fSAT ||| fNV⟩) ∧
    (-2 ^ 31 ≤ i → i < 2 ^ 31 → r.code = (BitVec.ofInt 32 i).toNat ∧ (r.flags = 0 ∧ i = v ∨ r.flags = fNX ∧ i ≠ v))

/-- The clamping of an integer, and whether the rounding was exact. -/
def clampInt32 (i : ℤ) (exact : Bool) : FRes :=
  if i < -(2 ^ 31) then ⟨wrap 32 (-(2 ^ 31)), fSAT ||| fNV⟩
  else if 2 ^ 31 - 1 < i then ⟨wrap 32 (2 ^ 31 - 1), fSAT ||| fNV⟩
  else ⟨wrap 32 i, flagIf (!exact) fNX⟩

theorem clampInt32_clamps {v : ℝ} {i : ℤ} {exact : Bool} (h : exact = true ↔ (i : ℝ) = v) : Clamps v i (clampInt32 i exact) := by
  unfold clampInt32
  refine ⟨fun hlo => ?_, fun hhi => ?_, fun hlo hhi => ?_⟩
  · rw [if_pos hlo]
    rfl
  · rw [if_neg (by omega), if_pos (by omega)]
    rfl
  · rw [if_neg (by omega), if_neg (by omega), wrap_eq_toNat_ofInt]
    refine ⟨rfl, ?_⟩
    cases exact with
    | true => exact .inl ⟨rfl, h.1 rfl⟩
    | false => exact .inr ⟨rfl, fun hi => by simpa using h.2 hi⟩

/-- The magnitude of the integer that a conversion gives. -/
def intMag (nearest : Bool) (m : ℕ) (e : ℤ) : ℕ :=
  if 0 ≤ e then m * 2 ^ e.toNat else if nearest then rne m (-e).toNat else m / 2 ^ (-e).toNat

/-- The signed integer of a conversion. -/
def signedMag (n : Bool) (k : ℕ) : ℤ := if n then -(k : ℤ) else k

theorem toInt32_fin (nearest n : Bool) (m : ℕ) (e : ℤ) :
    toInt32 nearest (.fin n m e) =
      clampInt32 (signedMag n (intMag nearest m e)) (if 0 ≤ e then true else decide (m % 2 ^ (-e).toNat = 0)) := rfl

/-- The magnitude that function 43 rounds to is the nearest integer, of two the even one. -/
theorem intMag_nearest (m : ℕ) (e : ℤ) :
    |(m : ℝ) * 2 ^ e - intMag true m e| ≤ 1 / 2 ∧ (|(m : ℝ) * 2 ^ e - intMag true m e| = 1 / 2 → intMag true m e % 2 = 0) ∧
      ((if 0 ≤ e then true else decide (m % 2 ^ (-e).toNat = 0)) = true ↔ (intMag true m e : ℝ) = m * 2 ^ e) := by
  have hs : Sticks ((m : ℝ) * 2 ^ e) m e m := .inl rfl
  have hbig : m < 2 ^ (m + 4) := (Nat.lt_two_pow_self).trans (Nat.pow_lt_pow_right (by omega) (by omega))
  have h := hs.shift (qe := 0) fun hle => absurd hle hbig.not_ge
  simp only [sub_zero, zero_sub, zpow_zero, div_one, mul_one] at h
  exact h

/-- The integer that the quotient by a power of two is cut to. -/
theorem intMag_truncated (m : ℕ) (e : ℤ) :
    (intMag false m e : ℝ) ≤ m * 2 ^ e ∧ (m : ℝ) * 2 ^ e < intMag false m e + 1 ∧
      ((if 0 ≤ e then true else decide (m % 2 ^ (-e).toNat = 0)) = true ↔ (intMag false m e : ℝ) = m * 2 ^ e) := by
  unfold intMag
  by_cases he : 0 ≤ e
  · obtain ⟨k, rfl⟩ := Int.eq_ofNat_of_zero_le he
    simp
  · obtain ⟨k, rfl⟩ : ∃ k : ℕ, e = -k := ⟨(-e).toNat, by omega⟩
    simp only [he, if_false, Bool.false_eq_true, neg_neg, Int.toNat_natCast, decide_eq_true_eq, zpow_neg, zpow_natCast, ← div_eq_mul_inv]
    have hp : (0 : ℝ) < 2 ^ k := by positivity
    have hdm : (m : ℝ) = (m / 2 ^ k : ℕ) * 2 ^ k + (m % 2 ^ k : ℕ) := by exact_mod_cast (Nat.div_add_mod' m (2 ^ k)).symm
    have hr : ((m % 2 ^ k : ℕ) : ℝ) < 2 ^ k := by exact_mod_cast Nat.mod_lt m (Nat.two_pow_pos k)
    refine ⟨?_, ?_, ?_⟩
    · rw [le_div_iff₀ hp]
      linarith [(Nat.cast_nonneg (m % 2 ^ k) : (0 : ℝ) ≤ _)]
    · rw [div_lt_iff₀ hp]
      linarith
    · rw [eq_div_iff hp.ne', ← Nat.cast_eq_zero (R := ℝ)]
      constructor <;> intro h <;> linarith

/-- The integer nearest to a number, ties to even, is unique. -/
theorem nearest_unique {v : ℝ} {i j : ℤ} (hi : |v - i| < 1 / 2 ∨ (|v - i| = 1 / 2 ∧ i % 2 = 0)) (hj : |v - j| ≤ 1 / 2)
    (hej : |v - j| = 1 / 2 → j % 2 = 0) : i = j := by
  by_contra hne
  have hdist : (1 : ℝ) ≤ |(i : ℝ) - j| := by exact_mod_cast Int.one_le_abs (sub_ne_zero.2 hne)
  have htri : |(i : ℝ) - j| ≤ |v - i| + |v - j| := by
    rw [abs_sub_comm v i]
    exact abs_sub_le _ _ _
  obtain hi | ⟨hi, hei⟩ := hi
  · linarith
  · have hhalf : |v - j| = 1 / 2 := by linarith
    have hone : |(i : ℝ) - j| = 1 := by linarith
    have h1 : |i - j| = 1 := by exact_mod_cast hone
    have := hej hhalf
    obtain h | h := (abs_eq zero_le_one).1 h1 <;> omega

/-- The integer of a number's sign and of the whole part of its magnitude is unique. -/
theorem truncated_unique {v : ℝ} {i j : ℤ} (hi : |(i : ℝ)| ≤ |v|) (hi' : |v| < |(i : ℝ)| + 1) (his : 0 ≤ v * i)
    (hj : |(j : ℝ)| ≤ |v|) (hj' : |v| < |(j : ℝ)| + 1) (hjs : 0 ≤ v * j) : i = j := by
  have h1 : |i| < |j| + 1 := by exact_mod_cast hi.trans_lt hj'
  have h2 : |j| < |i| + 1 := by exact_mod_cast hj.trans_lt hi'
  obtain h | h := abs_eq_abs.1 (show |i| = |j| by omega)
  · exact h
  · subst h
    by_contra hne
    have hj0 : (j : ℝ) ≠ 0 := fun h0 => hne (by rw [Int.cast_eq_zero.1 h0]; rfl)
    have hv : v * j = 0 := by push_cast at his; linarith
    obtain hv | hv := mul_eq_zero.1 hv
    · rw [hv, abs_zero] at hj
      exact hj0 (abs_eq_zero.1 (le_antisymm hj (abs_nonneg _)))
    · exact hj0 hv

theorem sub_signedMag (n : Bool) (m : ℕ) (e : ℤ) (k : ℕ) : |(Fv.fin n m e).value - signedMag n k| = |(m : ℝ) * 2 ^ e - k| := by
  cases n
  · simp [Fv.value, signedMag]
  · rw [← abs_neg]
    simp only [Fv.value, signedMag, if_true]
    push_cast
    congr 1
    ring

theorem signedMag_eq_value_iff (n : Bool) (m : ℕ) (e : ℤ) (k : ℕ) : (signedMag n k : ℝ) = (Fv.fin n m e).value ↔ (k : ℝ) = m * 2 ^ e := by
  rw [eq_comm, ← sub_eq_zero, ← abs_eq_zero, sub_signedMag, abs_eq_zero, sub_eq_zero, eq_comm]

theorem abs_signedMag (n : Bool) (k : ℕ) : |(signedMag n k : ℝ)| = k := by
  cases n <;> simp [signedMag]

theorem value_mul_signedMag_nonneg (n : Bool) (m : ℕ) (e : ℤ) (k : ℕ) : 0 ≤ (Fv.fin n m e).value * signedMag n k := by
  have h : (Fv.fin n m e).value * signedMag n k = m * 2 ^ e * k := by cases n <;> simp [Fv.value, signedMag]
  rw [h]
  positivity

/-- Function 43 clamps the nearest integer. -/
theorem toInt32_nearest_clamps {n : Bool} {m : ℕ} {e i : ℤ}
    (hi : |(Fv.fin n m e).value - i| < 1 / 2 ∨ (|(Fv.fin n m e).value - i| = 1 / 2 ∧ i % 2 = 0)) :
    Clamps (Fv.fin n m e).value i (toInt32 true (.fin n m e)) := by
  obtain ⟨hle, heven, hexact⟩ := intMag_nearest m e
  rw [← sub_signedMag n] at hle heven
  have hsign : signedMag n (intMag true m e) % 2 = (intMag true m e % 2 : ℕ) ∨ signedMag n (intMag true m e) = -intMag true m e := by
    cases n
    · exact .inl (by simp [signedMag])
    · exact .inr rfl
  obtain rfl : i = signedMag n (intMag true m e) := nearest_unique hi hle fun h => by
    have := heven h
    omega
  rw [toInt32_fin]
  exact clampInt32_clamps (hexact.trans (signedMag_eq_value_iff n m e _).symm)

/-- Function 44 clamps the integer that the number is cut to. -/
theorem toInt32_truncated_clamps {n : Bool} {m : ℕ} {e i : ℤ} (hi : |(i : ℝ)| ≤ |(Fv.fin n m e).value|)
    (hi' : |(Fv.fin n m e).value| < |(i : ℝ)| + 1) (his : 0 ≤ (Fv.fin n m e).value * i) :
    Clamps (Fv.fin n m e).value i (toInt32 false (.fin n m e)) := by
  obtain ⟨hle, hlt, hexact⟩ := intMag_truncated m e
  obtain rfl : i = signedMag n (intMag false m e) :=
    truncated_unique hi hi' his (by rwa [abs_signedMag, Fv.abs_value_fin]) (by rwa [abs_signedMag, Fv.abs_value_fin])
      (value_mul_signedMag_nonneg n m e _)
  rw [toInt32_fin]
  exact clampInt32_clamps (hexact.trans (signedMag_eq_value_iff n m e _).symm)

/-- Conversions to INT32 (functions 43 and 44). -/
theorem fpToWord (t : ElTy) (ht : t ∈ [ElTy.e4, .bf, .hf, .sf]) (a : ℕ) :
    let x := t.fmt.decode a
    (∀ q, x = .nan q → cvtOp .inr t a = ⟨0, fNV⟩ ∧ cvtOp .inz t a = ⟨0, fNV⟩) ∧
    (∀ n, x = .inf n → ∀ op ∈ [VCvt.inr, .inz], cvtOp op t a = ⟨if n then 2 ^ 31 else 2 ^ 31 - 1, fSAT ||| fNV⟩) ∧
    (∀ n m e, x = .fin n m e → ∀ i : ℤ,
      (|x.value - i| < 1 / 2 ∨ (|x.value - i| = 1 / 2 ∧ i % 2 = 0) → Clamps x.value i (cvtOp .inr t a)) ∧
      (|(i : ℝ)| ≤ |x.value| → |x.value| < |(i : ℝ)| + 1 → 0 ≤ x.value * i → Clamps x.value i (cvtOp .inz t a))) := by
  intro x
  have hsrc : cvtSrc t = t.fmt := if_neg (by rintro rfl; simp at ht)
  have hinr : cvtOp .inr t a = toInt32 true x := by rw [show x = (cvtSrc t).decode a by rw [hsrc]]; rfl
  have hinz : cvtOp .inz t a = toInt32 false x := by rw [show x = (cvtSrc t).decode a by rw [hsrc]]; rfl
  rw [hinr, hinz]
  refine ⟨fun q hx => ?_, fun n hx => ?_, fun n m e hx i => ?_⟩
  · rw [hx]
    exact ⟨rfl, rfl⟩
  · simp only [List.forall_mem_cons, List.not_mem_nil, false_imp_iff, implies_true, and_true]
    rw [hinr, hinz, hx]
    cases n <;> exact ⟨rfl, rfl⟩
  · rw [hx]
    exact ⟨toInt32_nearest_clamps, toInt32_truncated_clamps⟩

/-- Settles O38: each operation on finite numbers is one rounding of an exact number, or of one known by a sticky last bit; the order of the values decides
compares; and NaNs, infinities and zeros are cases of the operations' definitions. -/
theorem floatingPointSpecialCases : Obligations.FloatingPointSpecialCases := by
  unfold Obligations.FloatingPointSpecialCases
  refine ⟨fun f hf a b d op => fpSpecialCases hf a b d op, ?_, ?_, fpConversions, fun t ht a => fpOfInteger ht a, fun t _ a => fpOfWord t a,
    fun t ht a => fpToWord t ht a⟩
  · intro p hp
    simp only [List.mem_cons, List.not_mem_nil, or_false] at hp
    obtain rfl | rfl | rfl | rfl | rfl | rfl := hp
    exacts [Fmt.fieldsOfCode .sf, Fmt.fieldsOfCode .hf, Fmt.fieldsOfCode .bf, Fmt.fieldsOfCode .e4, Fmt.fieldsOfCode .e5, Fmt.fieldsOfCode .e2]
  · intro t ht a b d f x y z half sb ha hb hd
    obtain ⟨hsgnj, hsgnjn, hneg, habs⟩ := fpSigns t a b d
    exact ⟨fpRoots ht ha, fpArithmetic fmt_ne_e2 a b d, fpOrder d, fpOrderOfNaN d, hsgnj, hsgnjn, hneg, habs, fpClass t a, rfl, rfl, rfl⟩

end Sys2Proof.Machine

namespace Sys2Proof.Machine

/-! ### Lines that fill without evicting one (R34, R99) -/

@[simp] theorem State.line_setLine_same (s : State) (l : Nat) (r : Line) : (s.setLine l r).line l = r := by
  unfold State.line
  rw [State.setLine_lines, tab_get_set_same]

/-- No rebase comes before an access whose timestamp lies below the limit (R99). -/
theorem State.rebaseFor_below {s : State} {ts : Nat} (h : ts < 0xC0000) (p : Nat) : s.rebaseFor p ts = s :=
  if_neg (Nat.not_le.2 h)

/-- Where the last-level cache has room, a fill changes the record of the line that comes in at most, and of that not the timestamps (R34). -/
theorem State.fillLine_room {s : State} (h : s.roomFor 1) (l : Nat) :
    s.fillLine l = s ∨ s.fillLine l = s.setLine l { s.line l with cached := true, scales := s.scalesOf l } := by
  unfold State.fillLine
  split
  · exact .inl rfl
  · have hv : s.llcVictim l = none := if_pos h
    rw [hv]
    exact .inr rfl

section
variable {s : State} (h : s.roomFor 1)
include h

theorem State.fillLine_room_mem (l : Nat) : (s.fillLine l).mem = s.mem := by
  obtain e | e := State.fillLine_room h l <;> rw [e]
  rfl

theorem State.fillLine_room_wts (l : Nat) : ((s.fillLine l).line l).wts = (s.line l).wts := by
  obtain e | e := State.fillLine_room h l <;> rw [e]
  rw [State.line_setLine_same]

theorem State.fillLine_room_rts (l : Nat) : ((s.fillLine l).line l).rts = (s.line l).rts := by
  obtain e | e := State.fillLine_room h l <;> rw [e]
  rw [State.line_setLine_same]

end

/-! ### LeaseRead (R95) -/

/-- A copy that serves the current context has a lease that reaches its PTS (R95). -/
theorem State.copyHit_covers {s : State} {vec : Bool} {l : Nat} {c : Copy} (h : s.copyHit vec l = some c) : s.cur.sys.pts ≤ c.rts := by
  unfold State.copyHit at h
  dsimp only at h
  cases hl1 : s.copies.find? fun c => c.l1 && (decide (c.line = l) && s.serves vec s.cur.id.place c && decide (s.cur.sys.pts ≤ c.rts)) with
  | some x =>
    rw [hl1] at h
    obtain rfl : x = c := Option.some.inj h
    have := List.find?_some hl1
    simp only [Bool.and_eq_true, decide_eq_true_eq] at this
    exact this.2.2
  | none =>
    rw [hl1] at h
    have := List.find?_some h
    simp only [Bool.and_eq_true, decide_eq_true_eq] at this
    exact this.2.2

/-- A copy put in its cache changes nothing but the caches' copies. -/
theorem State.putCopy_copies (s : State) (al : CacheIn) (c : Copy) : ∃ cs, s.putCopy al c = { s with copies := cs } := by
  cases al with
  | normal => exact ⟨_, rfl⟩
  | nextVictim => exact ⟨_, rfl⟩
  | none_ =>
    unfold State.putCopy
    dsimp only
    split
    · exact ⟨_, rfl⟩
    · exact ⟨_, rfl⟩

/-- An installation changes nothing but the caches' copies (R95). -/
theorem State.install_copies (s : State) (vec : Bool) (al : CacheIn) (l wts rts : Nat) :
    ∃ cs, s.install vec al l wts rts = { s with copies := cs } := by
  unfold State.install
  dsimp only
  obtain ⟨cs, hcs⟩ := s.putCopy_copies al ⟨false, s.cur.id.place.cluster, l, s.mem.line l, wts, rts, s.copyScales s.cur.id.place.cluster l wts⟩
  rw [hcs]
  split
  · exact ⟨_, rfl⟩
  · exact State.putCopy_copies _ _ _

/-- An extension fills the line and raises its rts to LEASE beyond the PTS; else it settles who owns and who holds the line (R95). -/
theorem State.extend_eq (s : State) (l : Nat) : ∃ r cs, s.extend l = { (s.fillLine l).setLine l r with copies := cs } ∧
    r.wts = ((s.fillLine l).line l).wts ∧ r.rts = max ((s.fillLine l).line l).rts (s.cur.sys.pts + s.cur.sys.lease.toNat) := by
  unfold State.extend
  dsimp only
  rw [State.fillLine_cur]
  split
  · split
    · exact ⟨_, _, rfl, rfl, rfl⟩
    · exact (State.putCopy_copies _ _ _).elim fun cs hcs => ⟨_, cs, hcs, rfl, rfl⟩
  · exact ⟨_, _, rfl, rfl, rfl⟩

/-- What an extension does where nothing is evicted: memory, the thread and the line's wts stay, and the lease reaches LEASE beyond the PTS. -/
theorem State.extend_room {s : State} (h : s.roomFor 1) (l : Nat) :
    (s.extend l).mem = s.mem ∧ (s.extend l).cur = s.cur ∧ ((s.extend l).line l).wts = (s.line l).wts ∧
      ((s.extend l).line l).rts = max (s.line l).rts (s.cur.sys.pts + s.cur.sys.lease.toNat) := by
  obtain ⟨r, cs, he, hwts, hrts⟩ := s.extend_eq l
  have hl : (s.extend l).line l = r := by
    rw [he]
    exact State.line_setLine_same _ _ _
  rw [hl, hwts, hrts, he, State.fillLine_room_wts h, State.fillLine_room_rts h]
  exact ⟨State.fillLine_room_mem h l, s.fillLine_cur l, rfl, rfl⟩

/-- What a renewal does where nothing is rebased or evicted (R95): memory and the line's wts stay, the lease is extended, and PTS rises to wts. -/
theorem State.leaseRenew_room {s : State} {l : Nat} (ht : max (s.line l).rts (s.cur.sys.pts + s.cur.sys.lease.toNat) < 0xC0000) (h : s.roomFor 1)
    (vec : Bool) : let t := s.leaseRenew vec l
    t.mem = s.mem ∧ t.cur.sys.pts = max s.cur.sys.pts (s.line l).wts ∧ (t.line l).wts = (s.line l).wts ∧
      (t.line l).rts = max (s.line l).rts (s.cur.sys.pts + s.cur.sys.lease.toNat) := by
  obtain ⟨hmem, hcur, hwts, hrts⟩ := State.extend_room h l
  dsimp only
  unfold State.leaseRenew
  rw [State.rebaseFor_below ht]
  dsimp only
  obtain ⟨cs, hcs⟩ := (s.extend l).install_copies vec ((s.extend l).loadAlloc vec) l ((s.extend l).line l).wts ((s.extend l).line l).rts
  rw [hcs]
  refine ⟨hmem, ?_, hwts, hrts⟩
  rw [State.raisePts, State.setPts_cur]
  simp only [hcur, hwts]

/-- A scalar LeaseRead that a copy serves (R95). -/
theorem State.leaseRead_hit {s : State} {pa : Nat} {c : Copy} (h : s.copyHit false (pa / 128) = some c) (n : Nat) :
    s.leaseRead false pa n = (lineBytes c.data (pa % 128) n, s.raisePts c.wts) := by
  unfold State.leaseRead
  dsimp only
  rw [if_neg Bool.false_ne_true, h]

/-- A scalar LeaseRead that no copy serves renews (R95). -/
theorem State.leaseRead_miss {s : State} {pa : Nat} (h : s.copyHit false (pa / 128) = none) (n : Nat) :
    s.leaseRead false pa n = ((s.leaseRenew false (pa / 128)).mem.run pa n, s.leaseRenew false (pa / 128)) := by
  unfold State.leaseRead
  dsimp only
  rw [if_neg Bool.false_ne_true, h]
  rfl

/-! ### LeaseWrite (R96) -/

@[simp] theorem State.mendScales_mem (s : State) (pa n : Nat) : (s.mendScales pa n).mem = s.mem := by
  unfold State.mendScales
  split <;> rfl

/-- A write to the coherent value that evicts nothing changes memory by its bytes alone (R34, R134). -/
theorem State.cacheWrite_room_mem {s : State} (h : s.roomFor 1) (pa : Nat) (bs : List Byte) :
    (s.cacheWrite pa bs).mem = s.mem.write pa bs := by
  unfold State.cacheWrite
  dsimp only
  rw [State.mendScales_mem, State.setLine_mem, State.fillLine_room_mem h]

/-- A store that nothing disturbs changes memory by its bytes alone (R96). -/
theorem State.storeAt_mem {s : State} (h : s.undisturbed 1) (launch cl pa : Nat) (bs : List Byte) (ts : Nat) :
    (s.storeAt launch cl pa bs ts).mem = s.mem.write pa bs := by
  obtain ⟨hroom, hoff⟩ := h
  have hc : s.capture launch (pa / 128) = s := State.captureOld_off hoff _ _
  change ((s.capture launch (pa / 128)).cacheWrite pa bs).mem = _
  rw [hc]
  exact State.cacheWrite_room_mem hroom pa bs

/-- A store's timestamp becomes the line's wts and rts (R96). -/
theorem State.storeAt_line (s : State) (launch cl pa : Nat) (bs : List Byte) (ts : Nat) :
    (((s.storeAt launch cl pa bs ts).line (pa / 128)).wts = ts) ∧ ((s.storeAt launch cl pa bs ts).line (pa / 128)).rts = ts := by
  have hl : (s.storeAt launch cl pa bs ts).line (pa / 128) =
      { ((s.capture launch (pa / 128)).cacheWrite pa bs).line (pa / 128) with wts := ts, rts := ts } := State.line_setLine_same _ _ _
  rw [hl]
  exact ⟨rfl, rfl⟩

/-- What a scalar LeaseWrite does where nothing is rebased, captured or evicted (R96). -/
theorem State.leaseWrite_undisturbed {s : State} {pa : Nat} (ht : max s.cur.sys.pts ((s.line (pa / 128)).rts + 1) < 0xC0000)
    (h : s.undisturbed 1) (bs : List Byte) :
    let ts := max s.cur.sys.pts ((s.line (pa / 128)).rts + 1)
    let t := s.leaseWrite false pa bs
    t.cur.sys.pts = ts ∧ (t.line (pa / 128)).wts = ts ∧ (t.line (pa / 128)).rts = ts ∧
      (t.line (pa / 128)).owner = some s.cur.id.place.cluster ∧ t.mem = s.mem.write pa bs := by
  dsimp only
  unfold State.leaseWrite State.leaseWriteBy
  dsimp only
  rw [State.rebaseFor_below ht, if_neg Bool.false_ne_true]
  generalize max s.cur.sys.pts ((s.line (pa / 128)).rts + 1) = ts
  obtain ⟨hwts, hrts⟩ := s.storeAt_line s.cur.id.launch s.cur.id.place.cluster pa bs ts
  have hmem := State.storeAt_mem h s.cur.id.launch s.cur.id.place.cluster pa bs ts
  generalize s.storeAt s.cur.id.launch s.cur.id.place.cluster pa bs ts = u at hwts hrts hmem
  have hthrough : (decide (storeAlloc false s.policy = .none_) && !s.inL2 (pa / 128)) = false := rfl
  rw [hthrough, if_neg Bool.false_ne_true]
  obtain ⟨cs, hcs⟩ := (u.setLine (pa / 128) { u.line (pa / 128) with owner := some s.cur.id.place.cluster }).install_copies false
    (storeAlloc false s.policy) (pa / 128) ts ts
  rw [hcs]
  have hl : (State.setPts { u.setLine (pa / 128) { u.line (pa / 128) with owner := some s.cur.id.place.cluster } with copies := cs } ts).line
      (pa / 128) = { u.line (pa / 128) with owner := some s.cur.id.place.cluster } := State.line_setLine_same _ _ _
  rw [hl]
  exact ⟨rfl, hwts, hrts, rfl, hmem⟩

/-! ### Drift (R97) -/

/-- The current thread has the turn of its own CTXID. -/
theorem State.focus_self (s : State) : s.focus s.cur.id.ctxid = some s := if_pos rfl

/-- A drift that comes before no rebase (R97, R99). -/
theorem State.driftCur_below {s : State} (h : s.cur.sys.pts + 1 < 0xC0000) :
    s.driftCur = { s with cur := { s.cur with
      sys := { s.cur.sys with pts := s.cur.sys.pts + 1 }, driftAt := s.cur.driftAt + s.cur.sys.drift.toNat } } := by
  unfold State.driftCur
  rw [State.rebaseFor_below h]
  rfl

/-- Settles O16: LeaseRead is a hit on a copy or a renewal, LeaseWrite a store at its timestamp, and drift a step of the context's PTS. -/
theorem leaseReadsAndWrites : Obligations.LeaseReadsAndWrites := by
  unfold Obligations.LeaseReadsAndWrites
  refine ⟨fun s pa n bs => ⟨fun c hc => ⟨State.leaseRead_hit hc n, State.copyHit_covers hc⟩, fun hc ht hroom => ?_,
    fun ht hu => State.leaseWrite_undisturbed ht hu bs⟩, fun s c hid hst hdue hpts => ?_⟩
  · obtain ⟨hmem, hpts, hwts, hrts⟩ := State.leaseRenew_room ht hroom false
    dsimp only
    rw [State.leaseRead_miss hc]
    exact ⟨by rw [hmem], hpts, hmem, hrts, hwts⟩
  · have hx : exec (.ptsDrift c) s = execPtsDrift c s := rfl
    rw [hx, execPtsDrift, ← hid, State.focus_self, Option.bind_some, if_pos ⟨hst, hdue⟩, stepOr_some, finish_done, State.driftCur_below hpts]

end Sys2Proof.Machine

namespace Sys2Proof.Machine

/-! ### Where memory is (R8, R390) -/

/-- What decides whether an address is memory of the module: the places of its stacks, and its CXL ports. -/
def State.board (s : State) : List Nat × Cxl := (s.hbm, s.cxl)

theorem State.isMemory_of_board {s t : State} (h : t.board = s.board) (pa : Nat) : t.isMemory pa = s.isMemory pa := by
  obtain ⟨hhbm, hcxl⟩ := Prod.mk.inj h
  unfold State.isMemory State.stackOf State.cxlPort
  rw [hhbm, hcxl]

@[simp] theorem State.setLine_board (s : State) (l : Nat) (r : Line) : (s.setLine l r).board = s.board := rfl

@[simp] theorem State.mendScales_board (s : State) (pa n : Nat) : (s.mendScales pa n).board = s.board := by
  unfold State.mendScales
  split <;> rfl

@[simp] theorem State.evictLine_board (s : State) (l : Nat) : (s.evictLine l).board = s.board := by
  unfold State.evictLine
  dsimp only
  split <;> rfl

@[simp] theorem State.fillLine_board (s : State) (l : Nat) : (s.fillLine l).board = s.board := by
  unfold State.fillLine
  split
  · rfl
  · rw [State.setLine_board]
    split
    · exact State.evictLine_board _ _
    · rfl

@[simp] theorem State.cacheWrite_board (s : State) (pa : Nat) (bs : List Byte) : (s.cacheWrite pa bs).board = s.board := by
  unfold State.cacheWrite
  dsimp only
  rw [State.mendScales_board]
  exact s.fillLine_board _

@[simp] theorem State.sysStore_board (s : State) (pa : Nat) (bs : List Byte) : (s.sysStore pa bs).board = s.board := by
  unfold State.sysStore
  exact List.foldlRecOn _ _ (motive := fun t : State => t.board = s.board) rfl
    fun t ht p _ => (t.cacheWrite_board p.1 p.2).trans ht

/-- Writes of the dispatcher leave the current thread as it is, and memory where it is (R220). -/
theorem State.sysStores_frame (s : State) (b : Nat) (ws : List (Nat × List Byte)) :
    (ws.foldl (fun s w => s.sysStore (b + w.1) w.2) s).cur = s.cur ∧ (ws.foldl (fun s w => s.sysStore (b + w.1) w.2) s).board = s.board :=
  List.foldlRecOn ws _ (motive := fun t : State => t.cur = s.cur ∧ t.board = s.board) ⟨rfl, rfl⟩
    fun t ht _ _ => ⟨(t.sysStore_cur _ _).trans ht.1, (t.sysStore_board _ _).trans ht.2⟩

/-! ### A thread leaves its context (R168, R216) -/

/-- An abandoned capture changes the loop, LSTATE and LWHY of the thread, and neither memory nor the partitions (R168). -/
theorem State.abandon_eq (s : State) (why : BitVec 8) : ∃ lp ls lw sl, s.abandon why =
    { s with cur := { s.cur with loop := lp, sys := { s.cur.sys with lstate := ls, lwhy := lw } }, slots := sl } := by
  unfold State.abandon
  split
  · exact ⟨_, _, _, _, rfl⟩
  · split
    · exact ⟨_, _, _, _, rfl⟩
    · exact ⟨_, _, _, _, rfl⟩

@[simp] theorem State.passLanes_cur (s : State) (p : Place) : (s.passLanes p).cur = s.cur := by
  unfold State.passLanes
  dsimp only
  split <;> rfl

@[simp] theorem State.releaseLanes_cur (s : State) : s.releaseLanes.cur = s.cur := by
  unfold State.releaseLanes
  rw [State.passLanes_cur, State.setCore_cur]

/-- The image of a thread whose place is in memory is written, and of the thread changes only what it notes of its saved PTS (R217, R220). -/
theorem State.writeImage_there {s : State} {p : Part} (h : s.isMemory (s.imageBase p s.cur.id.ctxid) = true) :
    ∃ t, s.writeImage p = done t ∧ t.cur = { s.cur with ptsSaved := s.cur.sys.pts, ptsOwed := 0 } ∧ t.board = s.board := by
  obtain ⟨hcur, hboard⟩ := s.sysStores_frame (s.imageBase p s.cur.id.ctxid) (s.cur.image s)
  unfold State.writeImage
  dsimp only
  rw [if_pos h, hcur]
  exact ⟨_, rfl, rfl, hboard⟩

/-- STATE is written where the thread-table entry is in memory (R220). -/
theorem State.putTState_there {s : State} {p : Part} {c : Nat} (h : s.isMemory (p.tableEntry c) = true) (st : TState) :
    ∃ t, s.putTState p c st = done t ∧ t.cur = s.cur := by
  unfold State.putTState
  dsimp only
  rw [if_pos h]
  exact ⟨_, rfl, State.sysStore_cur _ _ _⟩

/-- What saving a thread keeps of it: its state is the one asked for, it resumes where its program counter stood, and the registers, the buffered
stores and what a trap writes stay (R210, R216). -/
structure Thread.SavedAs (t u : Thread) (st : TState) : Prop where
  state : u.st = st
  resume : u.resume = t.pc
  g : u.g = t.g
  det : u.det = t.det
  cause : u.sys.cause = t.sys.cause
  epc : u.sys.epc = t.sys.epc
  badva : u.sys.badva = t.sys.badva

/-- A thread whose table entry and image have their place in memory can leave its context (R216, R220). -/
theorem State.saveCur_of_canSave {s : State} (h : s.canSave) (st : TState) : ∃ t, s.saveCur st = done t ∧ s.cur.SavedAs t.cur st := by
  obtain ⟨p, hp, htable, himage⟩ := h
  unfold State.saveCur
  rw [hp]
  obtain ⟨lp, ls, lw, sl, hab⟩ := s.abandon_eq 0x0A
  dsimp only
  rw [hab]
  obtain ⟨u, hu, hucur, huboard⟩ := State.writeImage_there (s := { s with
    cur := { s.cur with loop := lp, sys := { s.cur.sys with lstate := ls, lwhy := lw }, resume := s.cur.pc }, slots := sl }) (p := p) himage
  rw [hu, seq_done]
  obtain ⟨v, hv, hvcur⟩ := State.putTState_there (s := u) (p := p) (c := u.cur.id.ctxid) (by
    rw [State.isMemory_of_board huboard, hucur]
    exact htable) st
  rw [hv, seq_done]
  refine ⟨_, rfl, ?_⟩
  constructor <;> simp [hvcur, hucur]

/-! ### A trap that is taken (R26, R31, R210, R212) -/

/-- What a delivered trap makes of a thread: CAUSE, EPC and BADVA tell of it, and the thread is SUSPENDED at the trap's resume address with its
registers and buffered stores (R26, R210, R212). -/
structure Thread.TrappedAs (t u : Thread) (x : Trap) : Prop where
  cause : u.sys.cause = x.causeWord
  epc : u.sys.epc = x.epc &&& 0x00FFFFFFFFFFFFFF
  badva : u.sys.badva = x.badva
  state : u.st = .suspended
  resume : u.resume = x.resume
  g : u.g = t.g
  det : u.det = t.det

/-- A trap of a thread that can be saved is delivered (R212). -/
theorem State.deliver_of_canSave {s : State} (h : s.canSave) (x : Trap) : ∃ t, s.deliver x = done t ∧ s.cur.TrappedAs t.cur x := by
  unfold State.deliver
  dsimp only
  obtain ⟨t, ht, hsaved⟩ := State.saveCur_of_canSave (s := { s with cur := { s.cur with
    sys := { s.cur.sys with cause := x.causeWord, epc := x.epc &&& 0x00FFFFFFFFFFFFFF, badva := x.badva },
    pc := x.resume, trap := none, wait := if x.vs then s.cur.wait else none, stalled := false,
    pass := decide (x.code = 6 ∧ x.detail ≠ 0) } }) h .suspended
  rw [ht, seq_done]
  exact ⟨_, rfl, hsaved.cause, hsaved.epc, hsaved.badva, hsaved.state, hsaved.resume, hsaved.g, hsaved.det⟩

/-- An instruction that traps with nothing queued has its trap delivered (R31, R212). -/
theorem finish_trap_of_canSave {s : State} (hq : s.queue = []) (h : s.canSave) (x : Trap) :
    ∃ t, finish (.trap x s) = .next t ∧ s.cur.TrappedAs t.cur x := by
  obtain ⟨t, ht, htrapped⟩ := State.deliver_of_canSave h x
  refine ⟨t, ?_, htrapped⟩
  have hnow : s.takeTrap x = done t := by rw [State.takeTrap, hq, List.isEmpty_nil, Bool.or_true, if_pos rfl, ht]
  unfold finish
  dsimp only
  rw [hnow]
  rfl

/-! ### An empty queue holds nothing back (R104, R108, R109) -/

section
variable {s : State} (hq : s.queue = [])
include hq

theorem State.memBusy_of_empty : s.memBusy = false := by simp [State.memBusy, hq]

theorem State.memQuiet_of_empty : s.memQuiet = true := by simp [State.memQuiet, hq]

theorem State.vecQuiet_of_empty : s.vecQuiet = true := by simp [State.vecQuiet, hq]

end

/-! ### FENCE (R107, R108, R339) -/

/-- What is asked for only where `x` is set holds or is not asked for. -/
theorem bnot_or_of_imp {x b : Bool} (h : x = true → b = true) : (!x || b) = true := by
  cases x with
  | false => rfl
  | true => exact h rfl

/-- FENCE with nothing outstanding that it waits for drops what its fetch kind names and is over. -/
theorem exec_fence_quiet {s : State} {k e : Bool} (hq : s.queue = []) (he : e = true → s.cmdsEnded s.cur.id.ctxid = true)
    (hk : k = true → s.banksEnded s.cur.id.ctxid = true) (f p v : Bool) (l : BitVec 3) :
    exec (.fence f p v k e l) s = .next (if f then s.dropFetch (s.launch.lrec.clampLevel l.toNat) else s).retire := by
  have hx : exec (.fence f p v k e l) s = execFence f p v k e l s := rfl
  rw [hx, execFence]
  dsimp only
  rw [State.memBusy_of_empty hq, State.memQuiet_of_empty hq, bnot_or_of_imp he, bnot_or_of_imp hk]
  simp

/-- The core of the current thread lies in the scope of each of its levels (R141). -/
theorem State.inScope_own (s : State) (n : Nat) : s.inScope n s.cur.id.place.coreKey = true := by
  simp [State.inScope, State.threads, State.sameNode]

/-- A core in scope holds no instruction line after the drop (R108, R233). -/
theorem State.dropFetch_icache {s : State} {n j : Nat} {x : Core} (hj : s.inScope n j = true)
    (hx : Tab.get (s.dropFetch n).cores j = some x) : x.icache = [] := by
  unfold Tab.get State.dropFetch at hx
  obtain ⟨y, hy, rfl⟩ := Option.map_eq_some_iff.1 hx
  obtain ⟨z, -, hz⟩ := List.mem_map.1 (List.mem_of_find?_eq_some hy)
  have hyj : y.1 = j := by simpa using List.find?_some hy
  by_cases hs : s.inScope n z.1 = true
  · rw [if_pos hs] at hz
    rw [← hz]
  · rw [if_neg hs] at hz
    rw [hz, hyj] at hs
    exact absurd hj hs

/-- The core of the current thread holds no instruction line after the drop, whether it has a record or not. -/
theorem State.dropFetch_own_icache (s : State) (n : Nat) : ((s.dropFetch n).core s.cur.id.place).icache = [] := by
  unfold State.core
  cases hx : Tab.get (s.dropFetch n).cores s.cur.id.place.coreKey with
  | none => rfl
  | some x => exact State.dropFetch_icache (s.inScope_own n) hx

/-! ### VFENCE (R109 to R111, R340) -/

/-- Flits sent change the links alone. -/
theorem State.sendFlits_link (s : State) (port key n : Nat) : ∃ k, s.sendFlits port key n = { s with link := k } := by
  unfold State.sendFlits State.pumpPort
  split
  · exact ⟨_, rfl⟩
  · dsimp only
    split
    · exact ⟨_, rfl⟩
    · exact ⟨_, rfl⟩

/-- A notice sent changes the links alone. -/
theorem State.sendNotice_link (s : State) (ports : List Nat) : ∃ k, s.sendNotice ports = { s with link := k } := by
  unfold State.sendNotice
  refine List.foldlRecOn _ _ (motive := fun t : State => ∃ k, t = { s with link := k }) ⟨_, rfl⟩ fun t ht p _ => ?_
  obtain ⟨k, rfl⟩ := ht
  exact State.sendFlits_link _ _ _ _

section
variable {s : State} (hq : s.queue = [])
include hq

/-- VFENCE outside a DET launch is over where nothing is queued (R109, R340). -/
theorem exec_vfence_plain (hdet : s.isDet = false) (l : BitVec 3) : exec (.vfence l) s = .next s.retire := by
  have hx : exec (.vfence l) s = execVfence l s := rfl
  rw [hx, execVfence, hdet, State.vecQuiet_of_empty hq, State.memQuiet_of_empty hq]
  rfl

/-- A thread whose buffered stores meet no poisoned line joins its node's collective fence, if it has not, and waits (R111). -/
theorem exec_vfence_joins (hdet : s.isDet = true) (hw : s.cur.wait = none) (hp : s.detPoison = none) (l : BitVec 3) :
    ∃ u, exec (.vfence l) s = finish (.wait (.epoch (s.launch.lrec.clampLevel l.toNat) false) u) ∧ u.cur = s.cur ∧ u.mem = s.mem := by
  have hx : exec (.vfence l) s = execVfence l s := rfl
  rw [hx, execVfence, hdet, hw, State.vecQuiet_of_empty hq, hp]
  dsimp only
  rw [if_neg (by decide)]
  by_cases ha : s.arrivedAt (s.launch.lrec.clampLevel l.toNat) = true
  · rw [if_pos ha]
    exact ⟨s, rfl, rfl, rfl⟩
  · rw [if_neg ha, if_neg (by decide)]
    obtain ⟨k, hk⟩ := State.sendNotice_link _ _
    rw [hk]
    exact ⟨_, rfl, rfl, rfl⟩

/-- A thread that has not arrived, and whose buffered stores meet a poisoned line, traps (R204). -/
theorem exec_vfence_poisoned {l : BitVec 3} {va : Word} (hdet : s.isDet = true) (hw : s.cur.wait = none)
    (ha : s.arrivedAt (s.launch.lrec.clampLevel l.toNat) = false) (hp : s.detPoison = some va) :
    exec (.vfence l) s = finish (s.trapHere 8 0 va false) := by
  have hx : exec (.vfence l) s = execVfence l s := rfl
  rw [hx, execVfence, hdet, hw, State.vecQuiet_of_empty hq, hp]
  dsimp only
  rw [if_neg (by decide), ha, if_neg (by decide), if_neg (by decide)]

end

/-- A thread whose node has drained goes on (R111). -/
theorem exec_vfence_drained {s : State} {n : Nat} (hdet : s.isDet = true) (hw : s.cur.wait = some (.epoch n true)) (l : BitVec 3) :
    exec (.vfence l) s = .next s.retire := by
  have hx : exec (.vfence l) s = execVfence l s := rfl
  rw [hx, execVfence, hdet, hw]
  rfl

/-- Settles O32: a fence with nothing outstanding is over; a collective fence is joined, traps, or is over once its node has drained. -/
theorem fencesComplete : Obligations.FencesComplete := by
  unfold Obligations.FencesComplete
  refine ⟨fun s f p v k e l hq he hk => ⟨?_, fun hdet => exec_vfence_plain hq hdet l⟩, fun s l hdet hq => ⟨fun hw hp => ?_,
    fun va hw ha hp hsave => ?_, fun n hw => exec_vfence_drained hdet hw l⟩⟩
  · refine ⟨_, exec_fence_quiet hq he hk f p v l, ?_⟩
    cases f with
    | false => exact ⟨rfl, rfl, rfl, rfl, fun h => absurd h Bool.false_ne_true⟩
    | true => exact ⟨rfl, rfl, rfl, rfl, fun _ => ⟨s.dropFetch_own_icache _, fun j hj x hx => State.dropFetch_icache hj hx⟩⟩
  · obtain ⟨u, hu, hcur, hmem⟩ := exec_vfence_joins hq hdet hw hp l
    rw [hu, finish_wait, hcur]
    exact ⟨_, rfl, rfl, rfl, hmem, rfl⟩
  · obtain ⟨t, ht, h⟩ := finish_trap_of_canSave hq hsave ⟨false, 8, 0, s.cur.pc, va, s.cur.pc⟩
    exact ⟨t, (exec_vfence_poisoned hq hdet hw ha hp).trans ht, h.cause.trans (by simp [Trap.causeWord]), h.badva, h.state, h.resume, h.det, h.g⟩

end Sys2Proof.Machine

namespace Sys2Proof.Machine

/-! ### Bytes of a line (R2, R134) -/

/-- The bytes that a number begins with. -/
theorem natBytes_leNat_add (bs : List Byte) (k : Nat) : natBytes bs.length (leNat bs + 256 ^ bs.length * k) = bs := by
  induction bs with
  | nil => rfl
  | cons b t ih =>
    have hb : b.toNat < 256 := b.isLt
    have hv : leNat (b :: t) + 256 ^ (b :: t).length * k = b.toNat + 256 * (leNat t + 256 ^ t.length * k) := by
      simp only [leNat, List.length_cons, pow_succ]
      ring
    rw [hv, List.length_cons, natBytes]
    congr 1
    · apply BitVec.eq_of_toNat_eq
      rw [BitVec.toNat_ofNat]
      omega
    · rw [show (b.toNat + 256 * (leNat t + 256 ^ t.length * k)) / 256 = leNat t + 256 ^ t.length * k by omega]
      exact ih

/-- The low n bytes of a number do not depend on what stands above them. -/
theorem natBytes_mod {n m : Nat} (h : n ≤ m) (v : Nat) : natBytes n (v % 256 ^ m) = natBytes n v := by
  induction n generalizing m v with
  | zero => rfl
  | succ n ih =>
    obtain ⟨m, rfl⟩ : ∃ k, m = k + 1 := ⟨m - 1, by omega⟩
    have hdiv : v % 256 ^ (m + 1) / 256 = v / 256 % 256 ^ m := by
      rw [Nat.pow_succ', Nat.mod_mul_right_div_self]
    have hmod : v % 256 ^ (m + 1) % 256 = v % 256 := Nat.mod_mod_of_dvd v (Dvd.intro_left (256 ^ m) rfl)
    rw [natBytes, natBytes, hdiv, ih (by omega)]
    congr 1
    apply BitVec.eq_of_toNat_eq
    rw [BitVec.toNat_ofNat, BitVec.toNat_ofNat]
    exact hmod

/-- The number of values of n bytes. -/
theorem two_pow_mul_eight (n : Nat) : 2 ^ (8 * n) = 256 ^ n := by rw [Nat.pow_mul]

/-- The number of values of a line. -/
theorem two_pow_line : 2 ^ 1024 = 256 ^ 128 := (congrArg (2 ^ ·) (show 1024 = 8 * 128 from rfl)).trans (two_pow_mul_eight 128)

/-- Bytes put into a line are found there. -/
theorem lineBytes_putBytes (d : LineData) {o : Nat} {bs : List Byte} (h : o + bs.length ≤ 128) :
    lineBytes (putBytes d o bs) o bs.length = bs := by
  have hline : (2 : Nat) ^ 1024 = 256 ^ o * 256 ^ (128 - o) := by
    rw [two_pow_line, ← Nat.pow_add, Nat.add_sub_cancel' (by omega)]
  unfold lineBytes putBytes
  dsimp only
  rw [BitVec.toNat_ofNat, hline, two_pow_mul_eight, two_pow_mul_eight, two_pow_mul_eight, Nat.mod_mul_right_div_self, natBytes_mod (by omega),
    Nat.add_mul_div_left _ _ (by positivity), Nat.div_eq_of_lt (Nat.mod_lt _ (by positivity)), Nat.zero_add]
  exact natBytes_leNat_add bs _

/-- The first bytes of the number that bytes spell are the first of those bytes. -/
theorem natBytes_leNat {bs : List Byte} {n : Nat} (h : n ≤ bs.length) : natBytes n (leNat bs) = bs.take n := by
  induction n generalizing bs with
  | zero => rfl
  | succ n ih =>
    obtain ⟨b, t, rfl⟩ : ∃ b t, bs = b :: t := List.exists_cons_of_ne_nil (by rintro rfl; simp at h)
    have hb : b.toNat < 256 := b.isLt
    rw [natBytes, leNat, show (b.toNat + 256 * leNat t) / 256 = leNat t by omega, ih (by simpa using h), List.take_succ_cons]
    congr 1
    apply BitVec.eq_of_toNat_eq
    rw [BitVec.toNat_ofNat]
    omega

/-- The bytes of the number that bytes spell, from one of them on. -/
theorem natBytes_leNat_div {bs : List Byte} {o n : Nat} (h : o + n ≤ bs.length) : natBytes n (leNat bs / 256 ^ o) = (bs.drop o).take n := by
  induction o generalizing bs with
  | zero => rw [Nat.pow_zero, Nat.div_one, natBytes_leNat (by omega), List.drop_zero]
  | succ o ih =>
    obtain ⟨b, t, rfl⟩ : ∃ b t, bs = b :: t := List.exists_cons_of_ne_nil (by rintro rfl; simp at h)
    have hb : b.toNat < 256 := b.isLt
    rw [List.length_cons] at h
    have hdiv : leNat (b :: t) / 256 ^ (o + 1) = leNat t / 256 ^ o := by
      rw [Nat.pow_succ', ← Nat.div_div_eq_div_mul, leNat, show (b.toNat + 256 * leNat t) / 256 = leNat t by omega]
    rw [hdiv, ih (by omega), List.drop_succ_cons]

/-- A line of memory as a number. -/
theorem Mem.line_toNat (m : Mem) (l : Nat) : (m.line l).toNat = leNat (m.run (128 * l) 128) := by
  have hlt := leNat_lt (m.run (128 * l) 128)
  rw [run_length] at hlt
  rw [Mem.line, BitVec.toNat_ofNat, two_pow_line, Mem.nat, Nat.mod_eq_of_lt hlt]

/-- Bytes of a line of memory are bytes of memory. -/
theorem Mem.lineBytes_line {m : Mem} (hm : m.wf) {pa n : Nat} (h : pa % 128 + n ≤ 128) : lineBytes (m.line (pa / 128)) (pa % 128) n = m.run pa n := by
  rw [lineBytes, Mem.line_toNat, two_pow_mul_eight, natBytes_leNat_div (by rw [run_length]; exact h)]
  refine List.ext_getElem (by simp; omega) fun i hi hj => ?_
  rw [run_length] at hj
  have hb := run_get hm (a := 128 * (pa / 128)) (n := 128) (i := pa % 128 + i) (by omega)
  have hc := run_get hm (a := pa) hj
  rw [List.getD_eq_getElem _ _ (by rw [run_length]; omega)] at hb hc
  rw [List.getElem_take, List.getElem_drop, hb, hc]
  congr 1
  omega

/-- A line that is written is read back. -/
theorem Mem.line_setLine_same {m : Mem} (hm : m.wf) (l : Nat) (d : LineData) : (m.setLine l d).line l = d := by
  have hr := run_write_same hm (128 * l) (natBytes 128 d.toNat)
  rw [natBytes_length] at hr
  apply BitVec.eq_of_toNat_eq
  rw [Mem.line_toNat, Mem.setLine, hr, leNat_natBytes, ← two_pow_line, Nat.mod_eq_of_lt d.isLt]

/-- A write to a line leaves the other lines alone. -/
theorem Mem.line_setLine_other {m : Mem} (hm : m.wf) {l k : Nat} (h : k ≠ l) (d : LineData) : (m.setLine l d).line k = m.line k := by
  rw [Mem.line, Mem.line, Mem.nat, Mem.nat, Mem.setLine, run_write_other hm (by rw [natBytes_length]; omega)]

/-- A write to a line leaves every byte of the other lines alone. -/
theorem Mem.read_setLine_other (m : Mem) {l x : Nat} (h : x / 128 ≠ l) (d : LineData) : (m.setLine l d).read x = m.read x :=
  read_write_other m (by rw [natBytes_length]; omega)

/-- Bytes within one line are one piece. -/
theorem pieces_within {pa : Nat} {bs : List Byte} (hne : bs ≠ []) (h : pa % 128 + bs.length ≤ 128) : pieces bs.length pa bs = [(pa, bs)] := by
  obtain ⟨b, t, rfl⟩ := List.exists_cons_of_ne_nil hne
  have htake : (b :: t).take (128 - pa % 128) = b :: t := List.take_of_length_le (by omega)
  have hdrop : (b :: t).drop (128 - pa % 128) = [] := List.drop_of_length_le (by omega)
  have hnil : ∀ k a, pieces k a ([] : List Byte) = [] := fun k a => by cases k <;> rfl
  rw [List.length_cons, pieces, htake, hdrop, hnil]
  exact List.cons_ne_nil b t

/-! ### Records of lines (R92, R134) -/

theorem State.line_setLine_other (s : State) {l k : Nat} (h : k ≠ l) (r : Line) : (s.setLine l r).line k = s.line k := by
  unfold State.line
  rw [State.setLine_lines, tab_get_set_other _ _ h]
  rfl

end Sys2Proof.Machine

namespace Sys2Proof.Machine

/-! ### A rebase of a domain (R99) -/

/-- A rebase moves timestamps: coherent memory stays (R93). -/
@[simp] theorem State.rebase_mem (s : State) (p : Nat) : (s.rebase p).mem = s.mem := by
  unfold State.rebase
  split <;> rfl

@[simp] theorem State.rebaseFor_mem (s : State) (p ts : Nat) : (s.rebaseFor p ts).mem = s.mem := by
  unfold State.rebaseFor
  split
  · exact s.rebase_mem p
  · rfl

/-- The record of a number in a table whose records are changed by a function. -/
theorem tab_get_map {α : Type} (t : Tab α) (f : Nat × α → α) (k : Nat) :
    Tab.get (t.map fun x => (x.1, f x)) k = (Tab.get t k).map fun v => f (k, v) := by
  unfold Tab.get
  rw [List.find?_map]
  cases h : t.find? ((fun c => c.1 == k) ∘ fun x => (x.1, f x)) with
  | none =>
    have h' : t.find? (fun c => c.1 == k) = none := h
    rw [h']; rfl
  | some x =>
    have h' : t.find? (fun c => c.1 == k) = some x := h
    have hk : x.1 = k := by simpa using List.find?_some h'
    rw [h', ← hk]; rfl

/-- A rebase changes the record of a line in its timestamps alone. -/
theorem State.rebase_line (s : State) (p l : Nat) : ∃ w r, (s.rebase p).line l = { s.line l with wts := w, rts := r } := by
  unfold State.rebase
  split
  · exact ⟨_, _, rfl⟩
  · rename_i q _
    have hlines : ((s.shiftTs q 0 Config.rebaseBy).modPart p fun x => { x with rebases := x.rebases + 1 }).lines =
        s.lines.map fun x => (x.1, if s.owns q (128 * x.1) = true then
          { x.2 with wts := x.2.wts + 0 - Config.rebaseBy, rts := x.2.rts + 0 - Config.rebaseBy } else x.2) := by
      rw [State.modPart_lines, State.shiftTs]
      refine List.map_congr_left fun x _ => ?_
      dsimp only
      split <;> rfl
    unfold State.line
    rw [hlines, tab_get_map]
    cases Tab.get s.lines l with
    | none => exact ⟨_, _, rfl⟩
    | some r =>
      dsimp only [Option.map_some]
      split
      · exact ⟨_, _, rfl⟩
      · exact ⟨_, _, rfl⟩

theorem State.rebaseFor_line (s : State) (p ts l : Nat) : ∃ w r, (s.rebaseFor p ts).line l = { s.line l with wts := w, rts := r } := by
  unfold State.rebaseFor
  split
  · exact s.rebase_line p l
  · exact ⟨_, _, rfl⟩

/-- What DRAM holds of a line does not change with its domain's timestamps. -/
@[simp] theorem State.rebaseFor_dramLine (s : State) (p ts l : Nat) : (s.rebaseFor p ts).dramLine l = s.dramLine l := by
  obtain ⟨w, r, h⟩ := s.rebaseFor_line p ts l
  rw [State.dramLine, State.dramLine, h, State.rebaseFor_mem]

/-! ### What accesses of coherent memory spare -/

/-- What a command is known by to those that wait for it: its key, its issuer, its channel, and whether it has ended (R125). -/
def Cmd.tag (c : Cmd) : Nat × Nat × Nat × Bool := (c.key, c.owner, c.ch, c.ended)

/-- What neither a rebase nor an access of coherent memory changes: the current thread's registers, the commands and tags that it has issued, and
what engines and banks keep. -/
structure Spared where
  id : Ident
  g : Vector Word 32
  pc : Word
  nextId : Vector Nat 8
  nextTag : Nat
  xfd : Vector (BitVec 64) 8
  cmds : List (Nat × Nat × Nat × Bool)
  banks : List BankCmd
  shadows : List Shadow
  link : Link

def State.spared (s : State) : Spared :=
  { id := s.cur.id, g := s.cur.g, pc := s.cur.pc, nextId := s.cur.nextId, nextTag := s.cur.nextTag, xfd := s.cur.sys.xfd
    cmds := s.cmds.map Cmd.tag, banks := s.banks, shadows := s.shadows, link := s.link }

@[simp] theorem State.setLine_spared (s : State) (l : Nat) (r : Line) : (s.setLine l r).spared = s.spared := rfl

@[simp] theorem State.raisePts_spared (s : State) (t : Nat) : (s.raisePts t).spared = s.spared := rfl

@[simp] theorem State.shiftTs_spared (s : State) (p : Part) (up down : Nat) : (s.shiftTs p up down).spared = s.spared := by
  unfold State.spared State.shiftTs
  dsimp only
  rw [List.map_map]
  have hcmds : ∀ f : Cmd → Cmd, (∀ c, (f c).tag = c.tag) → s.cmds.map (Cmd.tag ∘ f) = s.cmds.map Cmd.tag :=
    fun f hf => List.map_congr_left fun c _ => hf c
  rw [hcmds _ fun c => by split <;> rfl]
  split <;> rfl

@[simp] theorem State.rebase_spared (s : State) (p : Nat) : (s.rebase p).spared = s.spared := by
  unfold State.rebase
  split
  · rfl
  · exact s.shiftTs_spared _ _ _

@[simp] theorem State.rebaseFor_spared (s : State) (p ts : Nat) : (s.rebaseFor p ts).spared = s.spared := by
  unfold State.rebaseFor
  split
  · exact s.rebase_spared p
  · rfl

/-! ### CLEANR (R135, R355) -/

/-- The record of a line once it is clean: what DRAM holds is the coherent value (R134). -/
def Line.cleaned (r : Line) : Line := if r.dirty = true then { r with dirty := false, under := none } else r

theorem Line.cleaned_idem (r : Line) : r.cleaned.cleaned = r.cleaned := by
  unfold Line.cleaned
  split
  · rfl
  · rfl

theorem Line.cleaned_dirty (r : Line) : r.cleaned.dirty = false := by
  unfold Line.cleaned
  split
  · rfl
  · next h => exact Bool.eq_false_of_not_eq_true h

/-- A write-back changes the record of its line, and nothing else. -/
theorem State.cleanLine_eq (s : State) (l : Nat) : s.cleanLine l = s ∧
      (s.line l).cleaned = s.line l ∨ s.cleanLine l = s.setLine l (s.line l).cleaned := by
  by_cases h : (s.line l).dirty = true
  · exact .inr (by rw [State.cleanLine, Line.cleaned, if_pos h, if_pos h])
  · exact .inl ⟨by rw [State.cleanLine, if_neg h], if_neg h⟩

theorem State.cleanLine_line (s : State) (l k : Nat) : (s.cleanLine l).line k = if k = l then (s.line l).cleaned else s.line k := by
  obtain ⟨h, hc⟩ | h := s.cleanLine_eq l
  · rw [h]
    split
    · next hk => rw [hk, hc]
    · rfl
  · rw [h]
    split
    · next hk => rw [hk, State.line_setLine_same]
    · next hk => exact s.line_setLine_other hk _

theorem State.cleanLine_mem (s : State) (l : Nat) : (s.cleanLine l).mem = s.mem := by
  obtain ⟨h, -⟩ | h := s.cleanLine_eq l <;> rw [h]
  rfl

theorem State.cleanLine_cur (s : State) (l : Nat) : (s.cleanLine l).cur = s.cur := by
  obtain ⟨h, -⟩ | h := s.cleanLine_eq l <;> rw [h]
  rfl

/-- Write-backs of lines change their records, and nothing else. -/
theorem State.cleanLines (s : State) (ls : List Nat) : let t := ls.foldl (fun s l => s.cleanLine l) s
    (∀ k, t.line k = if k ∈ ls then (s.line k).cleaned else s.line k) ∧ t.mem = s.mem ∧ t.cur = s.cur := by
  induction ls generalizing s with
  | nil => exact ⟨fun k => by simp, rfl, rfl⟩
  | cons l ls ih =>
    obtain ⟨hline, hmem, hcur⟩ := ih (s.cleanLine l)
    refine ⟨fun k => ?_, hmem.trans (s.cleanLine_mem l), hcur.trans (s.cleanLine_cur l)⟩
    rw [List.foldl_cons, hline, State.cleanLine_line]
    by_cases hk : k = l
    · subst hk
      simp [Line.cleaned_idem]
    · simp [hk]

/-- The pages behind the lines of the range that starts at X[A] and is X[B] bytes long (R355). -/
def State.pagesUnder (s : State) (n : Need) (a b : BitVec 6) : Except (BitVec 8 × BitVec 8 × Word) (List PageAt) :=
  s.range n ((s.x a.toNat).toNat / 128 * 128) (if s.x b.toNat = 0 then 0 else
    ((s.x a.toNat).toNat + (s.x b.toNat).toNat + 127) / 128 * 128 - (s.x a.toNat).toNat / 128 * 128)

/-- CLEANR and INVALR act on the lines behind the pages of their range, where it translates and no older access is queued (R355, R378). -/
theorem maintain_ok {s : State} {n : Need} {a b : BitVec 6} {ps : List PageAt} (ha : s.usable a) (hb : s.usable b) (hm : s.memBusy = false)
    (hr : s.pagesUnder n a b = .ok ps) (f : List Nat → State) :
    maintain s n a b f = done (f (linesBehind ps)).retire := by
  unfold maintain
  rw [readG_usable ha, readG_usable hb]
  unfold State.pagesUnder at hr
  dsimp only
  rw [hr, hm]
  rfl

/-! ### INVALR (R135, R355) -/

/-- A line that was discarded at a timestamp: memory and DRAM hold one value of it, no cache holds it, and no copy of it is left. -/
structure State.Discarded (s : State) (ts l : Nat) (d : LineData) : Prop where
  value : s.mem.line l = d
  wts : (s.line l).wts = ts
  rts : (s.line l).rts = ts
  cached : (s.line l).cached = false
  under : (s.line l).under = none
  copies : ∀ c ∈ s.copies, c.line ≠ l

theorem State.invalidate_line_same (s : State) (ts l : Nat) : (s.invalidate ts l).line l =
    { s.line l with wts := ts, rts := ts, owner := none, cached := false, dirty := false, under := none, scales := none, ver := (s.line l).ver + 1 } :=
  State.line_setLine_same _ _ _

theorem State.invalidate_line_other (s : State) {ts l k : Nat} (h : k ≠ l) : (s.invalidate ts l).line k = s.line k :=
  State.line_setLine_other s h _

theorem State.invalidate_mem (s : State) (ts l : Nat) : (s.invalidate ts l).mem = s.mem.setLine l (s.dramLine l) := rfl

theorem State.mem_invalidate_copies {s : State} {ts l : Nat} {c : Copy} (h : c ∈ (s.invalidate ts l).copies) : c ∈ s.copies ∧ c.line ≠ l := by
  simpa using List.mem_filter.1 h

section
variable {s : State} (hm : s.memWf)
include hm

theorem State.invalidate_discarded (ts l : Nat) : (s.invalidate ts l).Discarded ts l (s.dramLine l) := by
  refine ⟨Mem.line_setLine_same hm l _, ?_, ?_, ?_, ?_, fun c hc => (State.mem_invalidate_copies hc).2⟩ <;> rw [State.invalidate_line_same]

theorem State.invalidate_dramLine_other {ts l k : Nat} (h : k ≠ l) : (s.invalidate ts l).dramLine k = s.dramLine k := by
  rw [State.dramLine, State.dramLine, State.invalidate_line_other s h, State.invalidate_mem, Mem.line_setLine_other hm h]

/-- A discarded line stays discarded as another line or the line itself is. -/
theorem State.Discarded.invalidate {ts l : Nat} {d : LineData} (h : s.Discarded ts l d) (k : Nat) : (s.invalidate ts k).Discarded ts l d := by
  by_cases hk : l = k
  · subst hk
    have hd : s.dramLine l = d := by rw [State.dramLine, h.under, Option.getD_none, h.value]
    exact hd ▸ State.invalidate_discarded hm ts l
  · have hl := State.invalidate_line_other s (ts := ts) hk
    exact ⟨by rw [State.invalidate_mem, Mem.line_setLine_other hm hk, h.value], by rw [hl, h.wts], by rw [hl, h.rts], by rw [hl, h.cached],
      by rw [hl, h.under], fun c hc => h.copies c (State.mem_invalidate_copies hc).1⟩

/-- Lines discarded at one timestamp hold what DRAM held of them, and no other byte of memory changes (R355). -/
theorem State.invalidateLines (ts : Nat) (ls : List Nat) : let t := ls.foldl (fun s l => s.invalidate ts l) s
    (∀ l ∈ ls, t.Discarded ts l (s.dramLine l)) ∧ (∀ k, k / 128 ∉ ls → t.mem.read k = s.mem.read k) ∧ t.cur = s.cur := by
  have hkeep : ∀ (ks : List Nat) (u : State) {l : Nat} {d : LineData}, u.memWf → u.Discarded ts l d →
      (ks.foldl (fun s l => s.invalidate ts l) u).Discarded ts l d := by
    intro ks
    induction ks with
    | nil => exact fun u _ _ _ h => h
    | cons k ks ih => exact fun u _ _ hu h => ih _ hu.invalidate (State.Discarded.invalidate hu h k)
  induction ls generalizing s with
  | nil => exact ⟨fun l h => absurd h List.not_mem_nil, fun k _ => rfl, rfl⟩
  | cons l ls ih =>
    obtain ⟨hd, hread, hcur⟩ := ih (s := s.invalidate ts l) hm.invalidate
    refine ⟨fun k hk => ?_, fun k hk => ?_, hcur⟩
    · by_cases hkl : k = l
      · subst hkl
        exact hkeep ls _ hm.invalidate (State.invalidate_discarded hm ts k)
      · rw [← State.invalidate_dramLine_other hm (ts := ts) hkl]
        exact hd k (List.mem_of_ne_of_mem hkl hk)
    · obtain ⟨hkl, hk⟩ := not_or.1 (mt List.mem_cons.2 hk)
      exact (hread k hk).trans (Mem.read_setLine_other _ hkl _)

end

/-! ### Lines that are maintained -/

section
variable {s : State} {a b : BitVec 6} {ps : List PageAt} (ha : s.usable a) (hb : s.usable b) (hq : s.memBusy = false)
include ha hb hq

/-- CLEANR (R135, R355). -/
theorem exec_cleanr (hr : s.pagesUnder sysRd a b = .ok ps) :
    ∃ t, exec (.cleanr a b) s = .next t ∧ t.mem = s.mem ∧
      (∀ l ∈ linesBehind ps, (t.line l).dirty = false ∧ ((s.line l).dirty = true → t.dramLine l = s.mem.line l)) ∧
      (∀ l, l ∉ linesBehind ps → t.line l = s.line l) ∧ t.cur.pc = s.cur.pc + 4 ∧ t.cur.g = s.cur.g := by
  refine ⟨_, congrArg finish (maintain_ok ha hb hq hr _), ?_⟩
  obtain ⟨hline, hmem, hcur⟩ := s.cleanLines (linesBehind ps)
  refine ⟨hmem, fun l hl => ?_, fun l hl => (hline l).trans (if_neg hl), congrArg (fun t => t.pc + 4) hcur,
    congrArg (fun t => t.g) hcur⟩
  have hl := (hline l).trans (if_pos hl)
  refine ⟨(congrArg Line.dirty hl).trans (Line.cleaned_dirty _), fun hd => ?_⟩
  refine (congrArg₂ (fun (r : Line) (m : Mem) => r.under.getD (m.line l)) hl hmem).trans ?_
  rw [Line.cleaned, if_pos hd]
  rfl

/-- INVALR (R135, R355). -/
theorem exec_invalr (hm : s.memWf) (hr : s.pagesUnder sysWr a b = .ok ps) :
    ∃ t, exec (.invalr a b) s = .next t ∧
      (∀ l ∈ linesBehind ps, t.mem.line l = s.dramLine l ∧ (t.line l).wts = t.cur.sys.pts ∧ (t.line l).rts = t.cur.sys.pts ∧
        (t.line l).cached = false ∧ ∀ c ∈ t.copies, c.line ≠ l) ∧
      (∀ k, k / 128 ∉ linesBehind ps → t.mem.read k = s.mem.read k) ∧ t.cur.pc = s.cur.pc + 4 ∧ t.cur.g = s.cur.g := by
  refine ⟨_, congrArg finish (maintain_ok ha hb hq hr _), ?_⟩
  generalize linesBehind ps = ls
  dsimp only
  split
  · next hnil =>
    obtain rfl := List.isEmpty_iff.1 hnil
    exact ⟨fun l h => absurd h List.not_mem_nil, fun k _ => rfl, rfl, rfl⟩
  · generalize ls.foldl (fun m l => max m ((s.line l).rts + 1)) s.cur.sys.pts = top
    have hframe := s.rebaseFor_spared s.launch.part top
    have hdram := s.rebaseFor_dramLine s.launch.part top
    have hmem := s.rebaseFor_mem s.launch.part top
    have hwf : (s.rebaseFor s.launch.part top).memWf := hm.rebaseFor
    generalize s.rebaseFor s.launch.part top = u at hframe hdram hmem hwf
    generalize ls.foldl (fun m l => max m ((u.line l).rts + 1)) u.cur.sys.pts = ts
    obtain ⟨hd, hread, hcur⟩ := State.invalidateLines hwf ts ls
    generalize ls.foldl (fun s l => s.invalidate ts l) u = v at hd hread hcur
    refine ⟨fun l hl => ?_, fun k hk => (hread k hk).trans (congrArg (fun m => m.read k) hmem), ?_, ?_⟩
    · have h := hd l hl
      exact ⟨h.value.trans (hdram l), h.wts, h.rts, h.cached, h.copies⟩
    · exact (congrArg (fun t => t.pc + 4) hcur).trans (congrArg (fun x => x.pc + 4) hframe)
    · exact (congrArg Thread.g hcur).trans (congrArg Spared.g hframe)

end

section
variable {s : State}

/-- An uncorrectable error poisons its line and changes nothing else (R204). -/
theorem exec_linePoison {k : Nat} (hk : s.isMemory k = true) :
    exec (.linePoison k) s = .next (s.setLine (k / 128) { s.line (k / 128) with poison := true }) := by
  have hx : exec (.linePoison k) s = execLinePoison k s := rfl
  rw [hx, execLinePoison, if_pos hk]
  rfl

/-- A cached line is evicted (R62). -/
theorem exec_lineEviction {k : Nat} (hc : (s.line (k / 128)).cached = true) : exec (.lineEviction k) s = .next (s.evictLine (k / 128)) := by
  have hx : exec (.lineEviction k) s = execLineEviction k s := rfl
  rw [hx, execLineEviction, if_pos hc]
  rfl

theorem State.evictLine_line (s : State) (l : Nat) :
    (s.evictLine l).line l = { s.line l with cached := false, dirty := false, under := none, owner := none, scales := none } :=
  State.line_setLine_same _ _ _

/-- An eviction keeps the coherent value of a dirty line; of another memory takes what DRAM holds (R134). -/
theorem State.evictLine_mem (s : State) (l : Nat) :
    (s.evictLine l).mem = if (s.line l).dirty = true then s.mem else s.mem.setLine l (s.dramLine l) := by
  unfold State.evictLine State.dramLine
  dsimp only
  split <;> rfl

end

/-- Settles O50: the maintenance of lines, each over the lines of its range, and what becomes of one line that is evicted or poisoned. -/
theorem linesAreMaintained : Obligations.LinesAreMaintained := by
  unfold Obligations.LinesAreMaintained
  intro s hm
  refine ⟨fun a b ps ha hb hq => ⟨exec_cleanr ha hb hq, exec_invalr ha hb hq hm⟩,
    fun k hk => ⟨_, exec_linePoison hk, ?_, rfl, rfl, fun l hl => s.line_setLine_other hl _⟩, fun k hc => ⟨_, exec_lineEviction hc, ?_⟩⟩
  · rw [State.line_setLine_same]
  · have hline := s.evictLine_line (k / 128)
    have hmem := s.evictLine_mem (k / 128)
    refine ⟨by rw [hline], by rw [hline], ?_, by rw [State.dramLine, hline]; rfl, fun j hj => ?_, s.evictLine_cur _⟩
    · rw [hmem]
      split
      · rfl
      · exact Mem.line_setLine_same hm _ _
    · rw [hmem]
      split
      · rfl
      · exact Mem.read_setLine_other _ hj _

end Sys2Proof.Machine

namespace Sys2Proof.Machine

/-! ### Loads spare what programs and engines keep (R95, R265) -/

@[simp] theorem State.mendScales_spared (s : State) (pa n : Nat) : (s.mendScales pa n).spared = s.spared := by
  unfold State.mendScales
  split <;> rfl

@[simp] theorem State.evictLine_spared (s : State) (l : Nat) : (s.evictLine l).spared = s.spared := by
  unfold State.evictLine
  dsimp only
  split <;> rfl

@[simp] theorem State.fillLine_spared (s : State) (l : Nat) : (s.fillLine l).spared = s.spared := by
  unfold State.fillLine
  split
  · rfl
  · rw [State.setLine_spared]
    split
    · exact State.evictLine_spared _ _
    · rfl

@[simp] theorem State.cacheWrite_spared (s : State) (pa : Nat) (bs : List Byte) : (s.cacheWrite pa bs).spared = s.spared := by
  unfold State.cacheWrite
  dsimp only
  rw [State.mendScales_spared]
  exact s.fillLine_spared _

theorem State.extend_spared (s : State) (l : Nat) : (s.extend l).spared = s.spared := by
  obtain ⟨r, cs, he, -⟩ := s.extend_eq l
  rw [he]
  exact s.fillLine_spared l

theorem State.leaseRenew_spared (s : State) (vec : Bool) (l : Nat) : (s.leaseRenew vec l).spared = s.spared := by
  unfold State.leaseRenew
  dsimp only
  rw [State.raisePts_spared]
  generalize max (s.line l).rts (s.cur.sys.pts + s.cur.sys.lease.toNat) = ts
  obtain ⟨cs, hcs⟩ := ((s.rebaseFor s.launch.part ts).extend l).install_copies vec (((s.rebaseFor s.launch.part ts).extend l).loadAlloc vec) l
    (((s.rebaseFor s.launch.part ts).extend l).line l).wts (((s.rebaseFor s.launch.part ts).extend l).line l).rts
  rw [hcs]
  exact (State.extend_spared _ l).trans (State.rebaseFor_spared _ _ _)

theorem State.leaseRead_spared (s : State) (pa n : Nat) : (s.leaseRead false pa n).2.spared = s.spared := by
  cases h : s.copyHit false (pa / 128) with
  | some c => rw [State.leaseRead_hit h]; rfl
  | none => rw [State.leaseRead_miss h]; exact s.leaseRenew_spared _ _

theorem State.seeLoc_spared (s : State) (off n : Nat) : (s.seeLoc off n).spared = s.spared := by
  unfold State.seeLoc
  split <;> rfl

theorem State.seeLoc_mem (s : State) (off n : Nat) : (s.seeLoc off n).mem = s.mem := by
  unfold State.seeLoc
  split <;> rfl

/-- A scalar load changes no register, command, tag, buffer or message. -/
theorem State.load_spared (s : State) (w : Where) (n : Nat) : (s.load false w n).2.spared = s.spared := by
  unfold State.load
  cases w with
  | phys pa => cases s.isDet with
    | true => rfl
    | false => exact s.leaseRead_spared pa n
  | loc off => cases s.isDet with
    | true => rfl
    | false => exact s.seeLoc_spared off n
  | host a => rfl
  | bad c d => rfl

/-- A rebase takes no line into the last-level cache. -/
@[simp] theorem State.rebase_lines_length (s : State) (p : Nat) : (s.rebase p).lines.length = s.lines.length := by
  unfold State.rebase
  split
  · rfl
  · exact List.length_map _

theorem State.roomFor.rebaseFor {s : State} {n : Nat} (h : s.roomFor n) (p ts : Nat) : (s.rebaseFor p ts).roomFor n := by
  unfold State.rebaseFor
  split
  · rwa [State.roomFor, State.rebase_lines_length]
  · exact h

theorem State.leaseRenew_mem {s : State} (h : s.roomFor 1) (vec : Bool) (l : Nat) : (s.leaseRenew vec l).mem = s.mem := by
  unfold State.leaseRenew
  dsimp only
  generalize max (s.line l).rts (s.cur.sys.pts + s.cur.sys.lease.toNat) = ts
  obtain ⟨cs, hcs⟩ := ((s.rebaseFor s.launch.part ts).extend l).install_copies vec (((s.rebaseFor s.launch.part ts).extend l).loadAlloc vec) l
    (((s.rebaseFor s.launch.part ts).extend l).line l).wts (((s.rebaseFor s.launch.part ts).extend l).line l).rts
  rw [hcs]
  exact (State.extend_room (h.rebaseFor _ _) l).1.trans (State.rebaseFor_mem _ _ _)

/-- A scalar load leaves memory as it is, where its line evicts none (R34). -/
theorem State.load_mem {s : State} (h : s.roomFor 1) (w : Where) (n : Nat) : (s.load false w n).2.mem = s.mem := by
  unfold State.load
  cases w with
  | phys pa => cases s.isDet with
    | true => rfl
    | false =>
      cases hc : s.copyHit false (pa / 128) with
      | some c => dsimp only; rw [State.leaseRead_hit hc]; rfl
      | none => dsimp only; rw [State.leaseRead_miss hc]; exact State.leaseRenew_mem h false _
  | loc off => cases s.isDet with
    | true => rfl
    | false => exact s.seeLoc_mem off n
  | host a => rfl
  | bad c d => rfl

/-! ### Copy functions at issue (R125, R344) -/

/-- A contribution that is sent changes the links alone (R351). -/
theorem State.sendContribution_link (s : State) (c : Cmd) : ∃ k, s.sendContribution c = { s with link := k } := by
  unfold State.sendContribution
  split
  · split
    · refine List.foldlRecOn _ _ (motive := fun t : State => ∃ k, t = { s with link := k }) ⟨_, rfl⟩ fun t ht p _ => ?_
      obtain ⟨k, rfl⟩ := ht
      exact State.sendFlits_link _ _ _ _
    · exact ⟨_, rfl⟩
  · exact ⟨_, rfl⟩

/-- A command as a copy function queues it: nothing of it is done yet (R344). -/
structure Cmd.Fresh (c : Cmd) (fn : EngFn) (desc : CopyDesc) (id ch owner pts : Nat) : Prop where
  fn : c.fn = fn
  desc : c.desc = desc
  id : c.id = id
  ch : c.ch = ch
  owner : c.owner = owner
  pts : c.pts = pts
  parts : c.parts = 0
  status : c.status = 0
  ended : c.ended = false
  paused : c.paused = none

/-- The state once a command stands queued, under the thread's next ID of its channel. -/
def State.queued (s : State) (c : Cmd) (ch : Nat) (k : Link) : State :=
  { s with
    cur := { s.cur with nextId := s.cur.nextId.setIfInBounds ch (s.cur.nextId.toList.getD ch 0 + 1) }
    cmds := s.cmds ++ [c]
    order := s.order + 1
    link := k }

/-- A copy function whose descriptor can be read queues its command, and X[D] takes the ID. -/
theorem copyIssue_queues {s : State} {d a b : BitVec 6} {p : Where} (fn : EngFn) (hd : s.usable d) (ha : s.usable a) (hb : b.toNat < 8)
    (hs : s.spot needRd (s.x a.toNat) 128 3 = p) (hp : ∀ c e, p ≠ .bad c e) (hq : s.memBusy = false)
    (hn : (s.cmds.filter fun c => decide (c.owner = s.cur.id.ctxid) && !c.ended).length < 256) :
    let r := s.load false p 128
    let id := r.2.cur.nextId.toList.getD b.toNat 0
    ∃ c k, copyIssue s fn d a b = done (((r.2.queued c b.toNat k).setX d.toNat (BitVec.ofNat 64 id)).retire) ∧
      c.Fresh fn (copyDescOf fn (natBytes 128 r.1)) id b.toNat r.2.cur.id.ctxid r.2.cur.sys.pts := by
  intro r id
  have hlim : ¬ copyLimit ≤ (s.cmds.filter fun c => decide (c.owner = s.cur.id.ctxid) && !c.ended).length := Nat.not_le.2 hn
  unfold copyIssue
  rw [checkG_usable hd, readG_usable ha]
  dsimp only
  rw [if_neg (by omega), hs]
  split
  · exact absurd rfl (hp _ _)
  · rw [hq, decide_eq_false hlim]
    obtain ⟨k, hk⟩ := State.sendContribution_link (r.2.queued _ b.toNat r.2.link) _
    refine ⟨_, k, congrArg (fun t : State => t.result d (BitVec.ofNat 64 id)) hk, ?_⟩
    constructor <;> rfl

/-- The channel's next ID is one more. -/
theorem State.nextId_queued {s : State} {c : Cmd} {ch : Nat} {k : Link} (h : ch < 8) :
    (s.queued c ch k).cur.nextId.toList.getD ch 0 = s.cur.nextId.toList.getD ch 0 + 1 := by
  simp [State.queued, List.getD_eq_getElem?_getD, h]

/-- Settles O48: a copy function queues its command under the channel's next ID; XFWAIT compares with XFD. -/
theorem copyCommandsIssue : Obligations.CopyCommandsIssue := by
  unfold Obligations.CopyCommandsIssue
  intro s d a b
  refine ⟨fun i fn p hi hd ha hb hs hp hq hn => ?_, fun ha hb => ⟨fun hlt => ?_, fun hle => ?_⟩⟩
  · intro r id
    have hx : exec i s = finish (copyIssue s fn d a b) := by
      simp only [List.mem_cons, Prod.mk.injEq, List.not_mem_nil, or_false] at hi
      obtain ⟨rfl, rfl⟩ | ⟨rfl, rfl⟩ | ⟨rfl, rfl⟩ | ⟨rfl, rfl⟩ | ⟨rfl, rfl⟩ := hi <;> rfl
    obtain ⟨c, k, he, hc⟩ := copyIssue_queues fn hd ha hb hs hp hq hn
    have hspared : r.2.spared = s.spared := s.load_spared p 128
    have hid : r.2.cur.nextId.toList.getD b.toNat 0 = id := congrArg (fun x => x.nextId.toList.getD b.toNat 0) hspared
    rw [hid] at he hc
    refine ⟨_, c, hx.trans (congrArg finish he), by simp [State.queued, r], hc.fn, hc.desc, hc.id, hc.ch,
      hc.owner.trans (congrArg (fun x => x.id.ctxid) hspared), by simp [hc.pts, State.queued], hc.parts, hc.status, hc.ended, hc.paused,
      fun hd0 => ?_, ?_, ?_, ?_, fun hroom => ?_⟩
    · rw [State.retire_eq, State.goto_x, State.x_setX_same _ _ (fun h => hd0 (BitVec.eq_of_toNat_eq h)) hd.1]
    · rw [State.retire_eq, State.goto_cur, State.setX_cur_nextId, State.nextId_queued hb]
      exact congrArg (· + 1) hid
    · rw [State.retire_eq, State.goto_cur, State.setX_cur_sys]
      exact congrArg Spared.xfd hspared
    · rw [State.retire_eq, State.goto_cur, State.setX_cur_pc]
      exact congrArg (fun x => x.pc + 4) hspared
    · rw [State.retire_eq, State.goto_mem, State.setX_mem]
      exact State.load_mem hroom p 128
  · have hx : exec (.xfwait a b) s = execXfwait a b s := rfl
    rw [hx, execXfwait, if_neg (by omega), readG_usable hb]
    dsimp only
    rw [if_pos hlt]
    rfl
  · have hx : exec (.xfwait a b) s = execXfwait a b s := rfl
    rw [hx, execXfwait, if_neg (by omega), readG_usable hb]
    dsimp only
    rw [if_neg (Nat.not_lt.2 hle)]
    exact ⟨_, rfl, rfl, rfl, rfl, rfl, rfl⟩

end Sys2Proof.Machine

namespace Sys2Proof.Machine

/-! ### Stores and captures spare what programs and engines keep (R96, R228) -/

@[simp] theorem State.record_spared (s : State) (p : Nat) (o : OldLine) (f : Debug → Option Debug) : (s.record p o f).spared = s.spared := by
  unfold State.record
  split
  · rfl
  · split
    · rfl
    · dsimp only
      split
      · rfl
      · split
        · exact State.cacheWrite_spared _ _ _
        · rfl

@[simp] theorem State.record_cur (s : State) (p : Nat) (o : OldLine) (f : Debug → Option Debug) : (s.record p o f).cur = s.cur := by
  unfold State.record
  split
  · rfl
  · split
    · rfl
    · dsimp only
      split
      · rfl
      · split
        · exact State.cacheWrite_cur _ _ _
        · rfl

@[simp] theorem State.captureOld_spared (s : State) (launch : Nat) (o : OldLine) : (s.captureOld launch o).spared = s.spared := by
  unfold State.captureOld
  split
  · rfl
  · rw [State.record_spared, State.record_spared]

@[simp] theorem State.storeAt_spared (s : State) (launch cl pa : Nat) (bs : List Byte) (ts : Nat) :
    (s.storeAt launch cl pa bs ts).spared = s.spared := by
  have h : (s.storeAt launch cl pa bs ts).spared = ((s.capture launch (pa / 128)).cacheWrite pa bs).spared := rfl
  rw [h, State.cacheWrite_spared, State.capture, State.captureOld_spared]

@[simp] theorem State.unitWrite_spared (s : State) (p launch pts : Nat) (ws : List (Nat × List Byte)) :
    (s.unitWrite p launch pts ws).2.spared = s.spared := by
  unfold State.unitWrite
  dsimp only
  refine List.foldlRecOn _ _ (motive := fun t : State => t.spared = s.spared) (s.rebaseFor_spared _ _) fun t ht w _ => ?_
  rw [State.setLine_spared, State.storeAt_spared, ht]

/-- A rebase leaves every partition's debug control as it is. -/
theorem State.rebase_dbctl {s : State} (h : ∀ p ∈ s.parts, p.db.dbctl.getLsbD 62 = false) (p : Nat) :
    ∀ q ∈ (s.rebase p).parts, q.db.dbctl.getLsbD 62 = false := by
  unfold State.rebase
  split
  · exact h
  · intro q hq
    rw [State.modPart_parts, State.shiftTs, List.map_map] at hq
    obtain ⟨x, hx, rfl⟩ := List.mem_map.1 hq
    have hx := h x hx
    dsimp only [Function.comp_apply]
    split <;> split <;> exact hx

theorem State.undisturbed.rebaseFor {s : State} {n : Nat} (h : s.undisturbed n) (p ts : Nat) : (s.rebaseFor p ts).undisturbed n := by
  refine ⟨h.1.rebaseFor p ts, ?_⟩
  unfold State.rebaseFor
  split
  · exact State.rebase_dbctl h.2 p
  · exact h.2

/-- A write of a unit or an engine within one line, which nothing disturbs, changes memory by its bytes alone (R96, R181). -/
theorem State.unitWrite_mem {s : State} (h : s.undisturbed 1) (p launch pts : Nat) {pa : Nat} {bs : List Byte} (hne : bs ≠ [])
    (hfit : pa % 128 + bs.length ≤ 128) : (s.unitWrite p launch pts [(pa, bs)]).2.mem = s.mem.write pa bs := by
  have hps : (([(pa, bs)] : List (Nat × List Byte)).map fun w => pieces w.2.length w.1 w.2).flatten = [(pa, bs)] := by
    simp [pieces_within hne hfit]
  unfold State.unitWrite
  rw [hps]
  dsimp only [List.foldl_cons, List.foldl_nil]
  rw [State.setLine_mem, State.storeAt_mem (h.rebaseFor _ _), State.rebaseFor_mem]

/-! ### Records found by their keys -/

/-- A record that takes the place of those with its key is found under it. -/
theorem find_replaced {α : Type} (key : α → Nat) {l : List α} {c : α} (h : ∃ x ∈ l, key x = key c) :
    (l.map fun x => if key x = key c then c else x).find? (fun x => decide (key x = key c)) = some c := by
  rw [List.find?_map]
  have hp : ((fun x => decide (key x = key c)) ∘ fun x => if key x = key c then c else x) = fun x => decide (key x = key c) := by
    funext x
    simp only [Function.comp_apply]
    split <;> simp [*]
  rw [hp]
  obtain ⟨x, hx, hk⟩ := h
  cases hf : l.find? fun x => decide (key x = key c) with
  | none => exact absurd (decide_eq_true hk) (List.find?_eq_none.1 hf x hx)
  | some y =>
    have hy : key y = key c := by simpa using List.find?_some hf
    simp [hy]

/-- A partition of an index, after a change of the partitions that keeps their indexes. -/
theorem part?_map {s t : State} {f : Part → Part} (hf : ∀ x, (f x).idx = x.idx) (ht : t.parts = s.parts.map f) (p : Nat) :
    t.part? p = (s.part? p).map f := by
  unfold State.part?
  rw [ht, List.find?_map]
  congr 2
  funext x
  simp [hf]

theorem State.part?_idx {s : State} {i : Nat} {p : Part} (h : s.part? i = some p) : p.idx = i := by simpa using List.find?_some h

theorem State.part?_modPart {s : State} {i : Nat} {p : Part} (h : s.part? i = some p) {f : Part → Part} (hf : ∀ x, (f x).idx = x.idx) :
    (s.modPart i f).part? i = some (f p) := by
  rw [part?_map (s := s) (f := fun x => if x.idx = i then f x else x) (fun x => by split <;> simp [hf]) rfl, h]
  simp [State.part?_idx h]

/-- An event record joins those of its partition that wait (R212). -/
theorem State.part?_raiseEvent {s : State} {i : Nat} {p : Part} (h : s.part? i = some p) (e : EvRec) :
    (s.raiseEvent i e).part? i = some { p with pending := p.pending ++ [e] } := State.part?_modPart h fun _ => rfl

/-! ### Bits of a doubleword -/

theorem setBits_getLsbD_same (w : Word) {lo : Nat} (h : lo < 64) (v : Nat) : (setBits w lo 1 v).getLsbD lo = decide (v % 2 = 1) := by
  have hlt : w.toNat % 2 ^ lo < 2 ^ lo := Nat.mod_lt _ (by positivity)
  have hsum : w.toNat % 2 ^ lo + 2 ^ lo * (v % 2 ^ 1) + 2 ^ (lo + 1) * (w.toNat / 2 ^ (lo + 1)) =
      w.toNat % 2 ^ lo + 2 ^ lo * (v % 2 + 2 * (w.toNat / 2 ^ (lo + 1))) := by
    rw [pow_one, pow_succ]
    ring
  rw [setBits, BitVec.getLsbD_ofNat, decide_eq_true h, Bool.true_and, hsum, Nat.testBit_eq_decide_div_mod_eq,
    Nat.add_mul_div_left _ _ (by positivity), Nat.div_eq_of_lt hlt]
  congr 1
  rw [eq_iff_iff]
  omega

theorem setBits_getLsbD_below (w : Word) {lo i : Nat} (h : lo < 64) (hi : i < lo) (n v : Nat) : (setBits w lo n v).getLsbD i = w.getLsbD i := by
  have hsum : w.toNat % 2 ^ lo + 2 ^ lo * (v % 2 ^ n) + 2 ^ (lo + n) * (w.toNat / 2 ^ (lo + n)) =
      w.toNat % 2 ^ lo + 2 ^ lo * (v % 2 ^ n + 2 ^ n * (w.toNat / 2 ^ (lo + n))) := by
    rw [pow_add]
    ring
  have hmod : (w.toNat % 2 ^ lo + 2 ^ lo * (v % 2 ^ n + 2 ^ n * (w.toNat / 2 ^ (lo + n)))) % 2 ^ lo = w.toNat % 2 ^ lo := by
    rw [Nat.add_mul_mod_self_left, Nat.mod_mod]
  have hbit := congrArg (fun x => Nat.testBit x i) hmod
  simp only [Nat.testBit_mod_two_pow, hi, decide_true, Bool.true_and] at hbit
  rw [setBits, BitVec.getLsbD_ofNat, decide_eq_true (hi.trans h), Bool.true_and, hsum, hbit]
  rfl

/-! ### BANKCMD (R137, R356) -/

/-- The pages that the operands of a descriptor lie in: those whose stack counts, those of the scales, and those of the output; none are
looked for where the fields alone make it invalid (log entry 58). -/
def BankDesc.Operands (z : BankDesc) (s : State) (o : List PageAt × List PageAt × List PageAt) : Prop :=
  z.bad = true ∧ o = ([], [], []) ∨
  z.bad = false ∧ ∃ w c v y, rangesOf s bankRd z.weights = .ok w ∧ rangesOf s bankRd z.scales = .ok c ∧ rangesOf s bankRd z.seconds = .ok v ∧
    rangesOf s bankWr [z.output] = .ok y ∧ o = (w ++ v, c, y)

/-- Whether a descriptor whose pages are known is invalid (R356). -/
def BankDesc.refused (z : BankDesc) (s : State) (o : List PageAt × List PageAt × List PageAt) (all : List PageAt) : Bool :=
  z.bad || (all.any fun p => !s.bankPage p) || (decide (z.mode = 3) && !s.oneStack o.1) || (decide (z.mode = 4) && !s.oneStack (o.1 ++ o.2.2))

/-- A bank command as BANKCMD queues it (R137, R356). -/
def State.bankCmd (s : State) (z : BankDesc) (all : List PageAt) (bad : Bool) : BankCmd :=
  { key := s.order, owner := s.cur.id.ctxid, launch := s.cur.id.launch, part := s.launch.part, asid := s.launch.asid, pc := s.cur.pc
    tag := s.cur.nextTag, desc := z, pins := pinsOf all, resume := z.rstart, paused := false, flags := 0, status := if bad then 7 else 0
    ended := false }

/-- The state once a bank command stands queued under the thread's next tag. -/
def State.bankQueued (s : State) (k : BankCmd) : State :=
  { s with cur := { s.cur with nextTag := s.cur.nextTag + 1 }, banks := s.banks ++ [k], order := s.order + 1 }

section
variable {s : State} {d a : BitVec 6} {p : Where} (hd : s.usable d) (ha : s.usable a) (hs : s.spot needRd (s.x a.toNat) 128 3 = p)
  (hp : ∀ c e, p ≠ .bad c e) (hq : s.memBusy = false)
include hd ha hs hp hq

/-- BANKCMD of a descriptor whose ranges translate queues its command. -/
theorem exec_bankcmd {o : List PageAt × List PageAt × List PageAt} {e : List PageAt} :
    let r := s.load false p 128
    let z := bankDescOf (natBytes 128 r.1)
    let all := o.1 ++ o.2.1 ++ o.2.2 ++ e
    z.Operands r.2 o →
    (if z.crec = 0 ∨ z.crec.toNat % 32 ≠ 0 then .ok [] else rangesOf r.2 bankWr [(z.crec.toNat, 32)]) = .ok e →
    exec (.bankcmd d a) s = .next (((r.2.bankQueued (r.2.bankCmd z all (z.refused r.2 o all))).setX d.toNat
      (BitVec.ofNat 64 r.2.cur.nextTag)).retire) := by
  intro r z all ho he
  have hx : exec (.bankcmd d a) s = execBankcmd d a s := rfl
  rw [hx, execBankcmd, regs2_usable hd ha]
  dsimp only
  rw [hs]
  split
  · exact absurd rfl (hp _ _)
  · rw [hq, if_neg Bool.false_ne_true]
    rw [he]
    obtain ⟨hbad, rfl⟩ | ⟨hbad, w, c, v, y, hw, hc, hv, hy, rfl⟩ := ho
    · rw [if_pos hbad]
      rfl
    · rw [if_neg (by rw [hbad]; exact Bool.false_ne_true), hw, hc, hv, hy]
      rfl

/-- What a program sees of BANKCMD: its command in the list, and the command's tag in X[D]. -/
theorem bankcmd_queues {o : List PageAt × List PageAt × List PageAt} {e : List PageAt} {st : Nat} :
    let r := s.load false p 128
    let z := bankDescOf (natBytes 128 r.1)
    let all := o.1 ++ o.2.1 ++ o.2.2 ++ e
    z.Operands r.2 o →
    (if z.crec = 0 ∨ z.crec.toNat % 32 ≠ 0 then .ok [] else rangesOf r.2 bankWr [(z.crec.toNat, 32)]) = .ok e →
    (if z.refused r.2 o all then 7 else 0) = st →
    ∃ (t : State) (k : BankCmd), exec (.bankcmd d a) s = .next t ∧ t.banks = r.2.banks ++ [k] ∧ k.desc = z ∧ k.tag = s.cur.nextTag ∧
      k.owner = s.cur.id.ctxid ∧
      k.resume = z.rstart ∧ k.ended = false ∧ k.paused = false ∧ (k.status = st ∧ k.pins = pinsOf all) ∧
      (d ≠ 0 → t.x d.toNat = BitVec.ofNat 64 s.cur.nextTag) ∧ t.cur.nextTag = s.cur.nextTag + 1 ∧ t.cur.pc = s.cur.pc + 4 ∧
      (s.roomFor 1 → t.mem = s.mem) := by
  intro r z all ho he hst
  have hspared : r.2.spared = s.spared := s.load_spared p 128
  have htag : r.2.cur.nextTag = s.cur.nextTag := congrArg Spared.nextTag hspared
  refine ⟨_, r.2.bankCmd z all (z.refused r.2 o all), exec_bankcmd hd ha hs hp hq ho he, by simp [State.bankQueued, r, z, all], rfl, htag,
    congrArg (fun x => x.id.ctxid) hspared, rfl, rfl, rfl, ⟨hst, rfl⟩, fun hd0 => ?_, ?_, ?_, fun hroom => ?_⟩
  · rw [State.retire_eq, State.goto_x, State.x_setX_same _ _ (fun h => hd0 (BitVec.eq_of_toNat_eq h)) hd.1]
    exact congrArg (BitVec.ofNat 64) htag
  · rw [State.retire_eq, State.goto_cur, State.setX_cur_nextTag]
    exact congrArg (· + 1) htag
  · rw [State.retire_eq, State.goto_cur, State.setX_cur_pc]
    exact congrArg (fun x => x.pc + 4) hspared
  · rw [State.retire_eq, State.goto_mem, State.setX_mem]
    exact State.load_mem hroom p 128

end

/-! ### BANKWAIT (R358) -/

section
variable {s : State} {d a : BitVec 6} (hd : s.usable d) (ha : s.usable a)
include hd ha

theorem exec_bankwait : exec (.bankwait d a) s = finish (
    if s.cur.nextTag ≤ (s.x a.toNat).toNat then s.result d 7
    else if s.banks.all fun k => decide (k.owner ≠ s.cur.id.ctxid) || decide ((s.x a.toNat).toNat < k.tag) || k.ended then
      s.result d (BitVec.ofNat 64 (((s.banks.find? fun k => decide (k.owner = s.cur.id.ctxid ∧ k.tag = (s.x a.toNat).toNat)).map
        fun k => k.status).getD 0))
    else .wait (.banks (s.x a.toNat)) s) := by
  have hx : exec (.bankwait d a) s = execBankwait d a s := rfl
  rw [hx, execBankwait, regs2_usable hd ha]

end

/-- Every command of a thread up to a tag has ended. -/
theorem State.banks_over_iff (s : State) (x : Nat) :
    (s.banks.all fun k => decide (k.owner ≠ s.cur.id.ctxid) || decide (x < k.tag) || k.ended) = true ↔
      ∀ k ∈ s.banks, k.owner = s.cur.id.ctxid → k.tag ≤ x → k.ended = true := by
  rw [List.all_eq_true]
  refine forall₂_congr fun k _ => ?_
  simp only [Bool.or_eq_true, decide_eq_true_eq]
  constructor
  · rintro ((h | h) | h) ho ht
    · exact absurd ho h
    · omega
    · exact h
  · intro h
    by_cases ho : k.owner = s.cur.id.ctxid
    · by_cases ht : k.tag ≤ x
      · exact .inr (h ho ht)
      · exact .inl (.inr (by omega))
    · exact .inl (.inl ho)

/-! ### Rows produced (R138, R357) -/

@[simp] theorem State.dramWrite_spared (s : State) (pa : Nat) (bs : List Byte) : (s.dramWrite pa bs).spared = s.spared := by
  unfold State.dramWrite
  dsimp only
  split
  · rfl
  · exact State.mendScales_spared _ _ _

@[simp] theorem State.dramWrite_cur (s : State) (pa : Nat) (bs : List Byte) : (s.dramWrite pa bs).cur = s.cur := by
  unfold State.dramWrite
  dsimp only
  split
  · rfl
  · exact State.mendScales_cur _ _ _

/-- What produces rows leaves alone: the current thread and the list of bank commands. -/
def State.rowFrame (s : State) : Thread × List BankCmd := (s.cur, s.banks)

theorem State.captureBank_rowFrame (s : State) (k : BankCmd) (l : Nat) : (s.captureBank k l).rowFrame = s.rowFrame :=
  Prod.ext (State.record_cur _ _ _ _) (congrArg Spared.banks (State.record_spared _ _ _ _))

theorem State.dramWrite_rowFrame (s : State) (pa : Nat) (bs : List Byte) : (s.dramWrite pa bs).rowFrame = s.rowFrame :=
  Prod.ext (State.dramWrite_cur _ _ _) (congrArg Spared.banks (State.dramWrite_spared _ _ _))

/-- A row produced moves the resume index of its command by one (R138). -/
theorem BankCmd.produce_some {k : BankCmd} {s : State} {z : BankCmd × State} (h : k.produce s = some z) :
    (∃ f, z.1 = { k with resume := k.resume + 1, flags := f }) ∧ z.2.rowFrame = s.rowFrame := by
  unfold BankCmd.produce at h
  obtain ⟨o, -, rfl⟩ := Option.map_eq_some_iff.1 h
  refine ⟨⟨_, rfl⟩, ?_⟩
  refine List.foldlRecOn _ _ (motive := fun t : State => t.rowFrame = s.rowFrame) rfl fun t ht w _ => ?_
  split
  · rw [State.dramWrite_rowFrame, State.captureBank_rowFrame, ht]
  · exact ht

/-- Rows produced without an error move the resume index by their number; the command stays the same one (R138). -/
theorem produceRows_ok (n : Nat) (k : BankCmd) (s : State) :
    ((produceRows n k s).1.status = 0 → (produceRows n k s).1.resume = k.resume + n) ∧ (produceRows n k s).1.key = k.key ∧
      (produceRows n k s).1.ended = k.ended ∧ (produceRows n k s).2.rowFrame = s.rowFrame := by
  induction n generalizing k s with
  | zero => exact ⟨fun _ => rfl, rfl, rfl, rfl⟩
  | succ n ih =>
    rw [produceRows]
    cases hz : k.produce s with
    | none => exact ⟨fun h => absurd h (Nat.succ_ne_zero 2), rfl, rfl, rfl⟩
    | some z =>
      obtain ⟨⟨f, hf⟩, hframe⟩ := BankCmd.produce_some hz
      obtain ⟨hresume, hkey, hended, hrest⟩ := ih z.1 z.2
      refine ⟨fun h => ?_, by rw [hkey, hf], by rw [hended, hf], hrest.trans hframe⟩
      rw [hresume h, hf]
      exact Nat.add_right_comm _ _ _

/-! ### DRAM behind the caches (R134) -/

/-- Whether a write to DRAM is found in DRAM: a cache holds the line, or DRAM holds the coherent value of it. -/
def State.dramSeen (s : State) (l : Nat) : Prop := (s.line l).cached = true ∨ (s.line l).under = none

theorem State.dramSeen.evictLine {s : State} {l : Nat} (h : s.dramSeen l) (v : Nat) : (s.evictLine v).dramSeen l := by
  by_cases hv : l = v
  · subst hv
    exact .inr (by rw [State.evictLine_line])
  · have hl : (s.evictLine v).line l = (s.setLine v { s.line v with cached := false, dirty := false, under := none, owner := none, scales := none }).line l := by
      rw [State.line_setLine_other s hv]
      unfold State.evictLine
      dsimp only
      split <;> exact State.line_setLine_other _ hv _
    rwa [State.dramSeen, hl, State.line_setLine_other s hv]

theorem State.fillLine_cached (s : State) (l : Nat) : ((s.fillLine l).line l).cached = true := by
  unfold State.fillLine
  split
  · next h => exact h
  · rw [State.line_setLine_same]

theorem State.dramSeen.fillLine {s : State} {l : Nat} (h : s.dramSeen l) (k : Nat) : (s.fillLine k).dramSeen l := by
  by_cases hk : l = k
  · exact .inl (hk ▸ s.fillLine_cached l)
  · unfold State.fillLine
    split
    · exact h
    · have hv : (match s.llcVictim k with | some v => s.evictLine v | none => s).dramSeen l := by
        split
        · exact h.evictLine _
        · exact h
      unfold State.dramSeen at hv ⊢
      rwa [State.line_setLine_other _ hk]

@[simp] theorem State.mendScales_line (s : State) (pa n l : Nat) : (s.mendScales pa n).line l = s.line l := by
  unfold State.mendScales
  split <;> rfl

theorem State.dramSeen.cacheWrite {s : State} {l : Nat} (h : s.dramSeen l) (pa : Nat) (bs : List Byte) : (s.cacheWrite pa bs).dramSeen l := by
  have hline : ∃ r, (s.cacheWrite pa bs).line l = ((s.fillLine (pa / 128)).setLine (pa / 128) r).line l ∧
      r.cached = ((s.fillLine (pa / 128)).line (pa / 128)).cached := ⟨_, State.mendScales_line _ _ _ _, rfl⟩
  obtain ⟨r, hr, hc⟩ := hline
  unfold State.dramSeen
  rw [hr]
  by_cases hl : l = pa / 128
  · subst hl
    rw [State.line_setLine_same, hc]
    exact .inl (s.fillLine_cached _)
  · rw [State.line_setLine_other _ hl]
    exact h.fillLine _

theorem State.dramSeen.modPart {s : State} {l : Nat} (h : s.dramSeen l) (p : Nat) (f : Part → Part) : (s.modPart p f).dramSeen l := by
  unfold State.dramSeen State.line at h ⊢
  rw [State.modPart_lines]
  cases ht : Tab.get s.lines l with
  | some r => rwa [ht] at h
  | none => exact .inr rfl

theorem State.dramSeen.record {s : State} {l : Nat} (h : s.dramSeen l) (p : Nat) (o : OldLine) (f : Debug → Option Debug) :
    (s.record p o f).dramSeen l := by
  unfold State.record
  split
  · exact h
  · split
    · exact h
    · dsimp only
      split
      · exact h.modPart _ _
      · split
        · refine State.dramSeen.cacheWrite ?_ _ _
          exact h.modPart _ _
        · exact h.modPart _ _

/-- A write to DRAM that is found there is read back from DRAM. -/
theorem State.dramWrite_dramBytes {s : State} (hm : s.memWf) {pa : Nat} (h : s.dramSeen (pa / 128)) {bs : List Byte}
    (hfit : pa % 128 + bs.length ≤ 128) : (s.dramWrite pa bs).dramBytes pa bs.length = bs := by
  unfold State.dramWrite
  dsimp only
  split
  · rw [State.dramBytes, State.dramLine, State.line_setLine_same]
    exact lineBytes_putBytes _ hfit
  · next hc =>
    have hu : (s.line (pa / 128)).under = none := h.resolve_left hc
    have hline : (({ s with mem := s.mem.write pa bs } : State).mendScales pa bs.length).line (pa / 128) = s.line (pa / 128) :=
      State.mendScales_line _ _ _ _
    rw [State.dramBytes, State.dramLine, hline, hu, Option.getD_none, State.mendScales_mem, Mem.lineBytes_line (write_wf hm pa bs) hfit]
    exact run_write_same hm pa bs

/-- A command with one more row produced, and the row's flags (R138). -/
def BankCmd.after (k : BankCmd) (z : FRes) : BankCmd := { k with resume := k.resume + 1, flags := k.flags ||| (z.flags &&& 0x7E) }

/-- The row that a command produces next goes to DRAM at its place under the command's pins (R79, R357). -/
theorem BankCmd.produce_row {k : BankCmd} {s : State} {z : FRes} {pa : Nat} (hmode : k.desc.mode ≠ 4) (hrow : k.row s k.resume = some z)
    (hal : (k.desc.y.toNat + 4 * k.resume) % 4 = 0) (hat : k.at_ (k.desc.y.toNat + 4 * k.resume) = some pa) :
    k.produce s = some (k.after z, (s.captureBank k (pa / 128)).dramWrite pa (natBytes 4 z.code)) := by
  have hps : pieces (natBytes 4 z.code).length (k.desc.y.toNat + 4 * k.resume) (natBytes 4 z.code) =
      [(k.desc.y.toNat + 4 * k.resume, natBytes 4 z.code)] := pieces_within (List.cons_ne_nil _ _) (by rw [natBytes_length]; omega)
  unfold BankCmd.produce
  dsimp only
  rw [if_neg hmode, hrow]
  dsimp only [Option.map_some]
  rw [hps, List.foldl_cons, List.foldl_nil]
  dsimp only
  rw [hat]
  rfl

/-! ### The end of a bank command (R138, R346) -/

@[simp] theorem recordBytes_length (dev : Nat) (flags : BitVec 8) (status id ridx : Nat) : (recordBytes dev flags status id ridx).length = 32 := by
  simp [recordBytes]

/-- A command's record after its end with a status (R138). -/
def BankCmd.over (k : BankCmd) (status : Nat) : BankCmd := { k with status := status, ended := true, paused := false, pins := [] }

/-- A bank command ends: its completion record is written where it names one, and its record in the list shows the end (R138, R346). -/
theorem State.bankEnd_eq (s : State) (k : BankCmd) (status : Nat) : ∃ u, s.bankEnd k status = u.putBank (k.over status) ∧
    u.banks = s.banks ∧ (k.desc.crec = 0 → u = s) ∧
    ∀ pa, k.desc.crec ≠ 0 → k.desc.crec.toNat % 32 = 0 → k.at_ k.desc.crec.toNat = some pa → pa % 32 = 0 → s.poisoned pa = false →
      s.undisturbed 1 → u.mem = s.mem.write pa (recordBytes 0 k.flags status k.tag k.resume) := by
  unfold State.bankEnd
  dsimp only
  split
  · next hc => exact ⟨s, rfl, rfl, fun _ => rfl, fun pa h0 h32 => absurd hc (not_or.2 ⟨h0, fun h => h h32⟩)⟩
  · next hc =>
    obtain ⟨h0, -⟩ := not_or.1 hc
    split
    · next hn => exact ⟨s, rfl, rfl, fun h => absurd h h0, fun pa _ _ hat => by cases hn.symm.trans hat⟩
    · next a ha =>
      have hsame : ∀ pa, k.at_ k.desc.crec.toNat = some pa → a = pa := fun pa hat => Option.some.inj (ha.symm.trans hat)
      split
      · next hp => exact ⟨s, rfl, rfl, fun h => absurd h h0, fun pa _ _ hat _ hq => absurd hp (by rw [hsame pa hat, hq]; exact Bool.false_ne_true)⟩
      · refine ⟨_, rfl, congrArg Spared.banks (State.unitWrite_spared _ _ _ _ _), fun h => absurd h h0, fun pa _ _ hat hpa _ hu => ?_⟩
        rw [hsame pa hat]
        exact State.unitWrite_mem hu _ _ _ (List.ne_nil_of_length_pos (by simp)) (by rw [recordBytes_length]; omega)

theorem State.putBank_find {s : State} {k : BankCmd} (h : ∃ x ∈ s.banks, x.key = k.key) :
    ((s.putBank k).banks.find? fun x => decide (x.key = k.key)) = some k := find_replaced BankCmd.key h

/-- A command that ends stands in the list with its end. -/
theorem State.bankEnd_find {s : State} {k : BankCmd} (h : ∃ x ∈ s.banks, x.key = k.key) (status : Nat) :
    ((s.bankEnd k status).banks.find? fun x => decide (x.key = k.key)) = some (k.over status) := by
  obtain ⟨u, hu, hb, -⟩ := s.bankEnd_eq k status
  rw [hu]
  exact State.putBank_find (k := k.over status) (hb ▸ h)

/-- A command that ends without a record changes its entry in the list alone. -/
theorem State.bankEnd_bare {s : State} {k : BankCmd} (h : k.desc.crec = 0) (status : Nat) : s.bankEnd k status = s.putBank (k.over status) := by
  obtain ⟨u, hu, -, hs, -⟩ := s.bankEnd_eq k status
  rw [hu, hs h]

section
variable {s : State} {n : Nat} {k : BankCmd} (h : s.bankRuns n = some k)
include h

theorem State.bankRuns_spec : k ∈ s.banks ∧ k.key = n ∧ k.ended = false := by
  have hk := List.find?_some h
  simp only [Bool.and_eq_true, decide_eq_true_eq, Bool.not_eq_true'] at hk
  exact ⟨List.mem_of_find?_eq_some h, hk⟩

theorem exec_bankUnitError : exec (.bankUnitError n) s = .next s := by
  have hx : exec (.bankUnitError n) s = execBankUnitError n s := rfl
  rw [hx, execBankUnitError, h]
  rfl

theorem exec_bankCommandContinue (hp : k.paused = true) :
    exec (.bankCommandContinue n) s = .next (s.putBank { k with paused := false }) := by
  have hx : exec (.bankCommandContinue n) s = execBankCommandContinue n s := rfl
  rw [hx, execBankCommandContinue, h, Option.bind_some, if_pos hp]
  rfl

theorem exec_bankCommandPause {r : Nat} (hp : k.paused = false) (hs : k.status = 0) (hr : k.resume ≤ r) (ht : r < k.desc.total) :
    let z := produceRows (r - k.resume) k s
    exec (.bankCommandPause n r) s = .next (z.2.putBank { z.1 with paused := decide (z.1.status = 0) }) := by
  have hx : exec (.bankCommandPause n r) s = execBankCommandPause n r s := rfl
  have hno : ¬ (k.paused = true ∨ k.status ≠ 0 ∨ r < k.resume ∨ k.desc.total ≤ r) := by
    rintro (h | h | h | h)
    · rw [hp] at h
      cases h
    · exact h hs
    · omega
    · omega
  rw [hx, execBankCommandPause, h, Option.bind_some, if_neg hno]
  rfl

theorem exec_bankCommandComplete_failed (hp : k.paused = false) (hs : k.status ≠ 0) :
    exec (.bankCommandComplete n) s = .next (s.bankEnd k k.status) := by
  have hx : exec (.bankCommandComplete n) s = execBankCommandComplete n s := rfl
  rw [hx, execBankCommandComplete, h, Option.bind_some, hp, if_neg Bool.false_ne_true, if_pos hs]
  rfl

theorem exec_bankCommandComplete_rows (hp : k.paused = false) (hs : k.status = 0) :
    let z := produceRows (k.desc.total - k.resume) k s
    exec (.bankCommandComplete n) s = .next (z.2.bankEnd z.1 z.1.status) := by
  have hx : exec (.bankCommandComplete n) s = execBankCommandComplete n s := rfl
  rw [hx, execBankCommandComplete, h, Option.bind_some, hp, if_neg Bool.false_ne_true, if_neg (not_not.2 hs)]
  rfl

end

end Sys2Proof.Machine

namespace Sys2Proof.Machine

/-! ### Steps of a bank command (R138, R346, R357) -/

section
variable {s : State} {n : Nat} {k : BankCmd} (h : s.bankRuns n = some k)
include h

/-- A command that a failure ended writes its status in its record (R346). -/
theorem bankCommand_fails {m : Nat} (hp : k.paused = false) (hs : k.status = m) (hm : m ≠ 0) :
    ∃ (t : State) (x : BankCmd), exec (.bankCommandComplete n) s = .next t ∧ (t.banks.find? fun x => decide (x.key = n)) = some x ∧ x.ended = true ∧
      x.status = m ∧
      x.pins = [] ∧ (k.desc.crec = 0 → t.mem = s.mem) ∧
      ∀ pa, k.desc.crec ≠ 0 → k.desc.crec.toNat % 32 = 0 → k.at_ k.desc.crec.toNat = some pa → pa % 32 = 0 → s.poisoned pa = false →
        s.memWf → s.undisturbed 1 → t.mem.run pa 32 = recordBytes 0 k.flags m k.tag k.resume := by
  subst hs
  obtain ⟨hk, rfl, -⟩ := State.bankRuns_spec h
  obtain ⟨u, hu, -, hbare, hrecord⟩ := s.bankEnd_eq k k.status
  refine ⟨_, k.over k.status, exec_bankCommandComplete_failed h hp hm, State.bankEnd_find ⟨k, hk, rfl⟩ _, rfl, rfl, rfl, fun h0 => ?_,
    fun pa h0 h32 hat hpa hq hm hd => ?_⟩
  · rw [State.bankEnd_bare h0]
    rfl
  · have hw := run_write_same hm pa (recordBytes 0 k.flags k.status k.tag k.resume)
    rw [recordBytes_length, ← hrecord pa h0 h32 hat hpa hq hd] at hw
    rw [hu]
    exact hw

/-- A command whose last row is left produces it and ends (R138, R357). -/
theorem bankCommand_lastRow {z : FRes} {pa : Nat} (hp : k.paused = false) (hs : k.status = 0) (hrec : k.desc.crec = 0)
    (hmode : k.desc.mode ≠ 4) (hlast : k.resume + 1 = k.desc.total) (hrow : k.row s k.resume = some z)
    (hal : (k.desc.y.toNat + 4 * k.resume) % 4 = 0) (hat : k.at_ (k.desc.y.toNat + 4 * k.resume) = some pa) (hpa : pa % 4 = 0) (hm : s.memWf)
    (hseen : s.dramSeen (pa / 128)) :
    ∃ (t : State) (x : BankCmd), exec (.bankCommandComplete n) s = .next t ∧ (t.banks.find? fun x => decide (x.key = n)) = some x ∧ x.ended = true ∧
      x.status = 0 ∧
      x.resume = k.desc.total ∧ x.pins = [] ∧ t.dramBytes pa 4 = natBytes 4 z.code ∧ t.cur = s.cur := by
  obtain ⟨hk, rfl, -⟩ := State.bankRuns_spec h
  have hx := exec_bankCommandComplete_rows h hp hs
  have hone : k.desc.total - k.resume = 1 := by omega
  have hframe := (produceRows_ok 1 k s).2.2.2
  have hrows : produceRows 1 k s = (k.after z, (s.captureBank k (pa / 128)).dramWrite pa (natBytes 4 z.code)) := by
    rw [produceRows, BankCmd.produce_row hmode hrow hal hat]
    rfl
  rw [hone] at hx
  rw [hrows] at hx hframe
  have hbytes := State.dramWrite_dramBytes (s := s.captureBank k (pa / 128)) (pa := pa) (bs := natBytes 4 z.code)
    (State.memWf.captureBank hm) (hseen.record _ _ _) (by rw [natBytes_length]; omega)
  rw [natBytes_length] at hbytes
  generalize (s.captureBank k (pa / 128)).dramWrite pa (natBytes 4 z.code) = u at hx hframe hbytes
  obtain ⟨hcur, hbanks⟩ := Prod.mk.inj hframe
  dsimp only at hx
  rw [State.bankEnd_bare (k := k.after z) hrec] at hx
  exact ⟨_, (k.after z).over k.status, hx, State.putBank_find (k := (k.after z).over k.status) ⟨k, hbanks ▸ hk, rfl⟩, rfl, hs, hlast, rfl,
    hbytes, hcur⟩

/-- A command pauses at a resume index once the rows below it are produced (R138). -/
theorem bankCommand_pauses {r : Nat} (hp : k.paused = false) (hs : k.status = 0) (hr : k.resume ≤ r) (ht : r < k.desc.total)
    (hok : (produceRows (r - k.resume) k s).1.status = 0) :
    ∃ (t : State) (x : BankCmd), exec (.bankCommandPause n r) s = .next t ∧ (t.banks.find? fun x => decide (x.key = n)) = some x ∧ x.paused = true ∧
      x.resume = r ∧
      x.ended = false ∧ t.cur = s.cur := by
  obtain ⟨hk, rfl, hended⟩ := State.bankRuns_spec h
  have hx := exec_bankCommandPause h hp hs hr ht
  obtain ⟨hresume, hkey, hend, hframe⟩ := produceRows_ok (r - k.resume) k s
  have hresume := hresume hok
  generalize produceRows (r - k.resume) k s = z at hx hresume hkey hend hframe hok
  obtain ⟨hcur, hbanks⟩ := Prod.mk.inj hframe
  have hfind := State.putBank_find (s := z.2) (k := { z.1 with paused := decide (z.1.status = 0) }) ⟨k, hbanks ▸ hk, hkey.symm⟩
  refine ⟨_, { z.1 with paused := decide (z.1.status = 0) }, hx, ?_, decide_eq_true hok, hresume.trans (by omega), hend.trans hended, hcur⟩
  rw [← hkey]
  exact hfind

/-- A paused command goes on at its resume index (R138). -/
theorem bankCommand_continues (hp : k.paused = true) :
    ∃ (t : State) (x : BankCmd), exec (.bankCommandContinue n) s = .next t ∧ (t.banks.find? fun x => decide (x.key = n)) = some x ∧ x.paused = false ∧
      x.resume = k.resume ∧ t.mem = s.mem ∧ t.cur = s.cur := by
  obtain ⟨hk, rfl, -⟩ := State.bankRuns_spec h
  exact ⟨_, _, exec_bankCommandContinue h hp, State.putBank_find (k := { k with paused := false }) ⟨k, hk, rfl⟩, rfl, rfl, rfl, rfl⟩

end

/-! ### Pins and invalidations (R202, R203) -/

theorem State.putBank_part? (s : State) (k : BankCmd) (p : Nat) : (s.putBank k).part? p = s.part? p := rfl

theorem State.putBank_mem (s : State) (k : BankCmd) : (s.putBank k).mem = s.mem := rfl

theorem State.putBank_cur (s : State) (k : BankCmd) : (s.putBank k).cur = s.cur := rfl

theorem State.pinners_of_banks {s t : State} (h : t.banks = s.banks) (p : Nat) (v : Inval) : t.pinners p v = s.pinners p v := by
  unfold State.pinners
  rw [h]

/-- The one command that pins in the scope of an invalidation no longer does once it has ended. -/
theorem State.pinners_putBank_over {s : State} {p : Nat} {v : Inval} {k : BankCmd} (h : s.pinners p v = [k]) (st : Nat) :
    (s.putBank (k.over st)).pinners p v = [] := by
  refine List.filter_eq_nil_iff.2 fun y hy => ?_
  obtain ⟨x, hx, rfl⟩ := List.mem_map.1 hy
  split
  · exact Bool.false_ne_true
  · next hne =>
    intro hpin
    have hmem : x ∈ s.pinners p v := List.mem_filter.2 ⟨hx, hpin⟩
    rw [h, List.mem_singleton] at hmem
    exact hne (hmem ▸ rfl)

/-- A partition whose invalidation has waited for pins longer than LIM: TO is set (R203). -/
def Part.timedOut (p : Part) : Part := { p with k := { p.k with tinvc := setBits p.k.tinvc 61 1 1 } }

@[simp] theorem Part.timedOut_idx (p : Part) : p.timedOut.idx = p.idx := by unfold Part.timedOut; rfl

@[simp] theorem Part.timedOut_inval (p : Part) : p.timedOut.inval = p.inval := by unfold Part.timedOut; rfl

@[simp] theorem Part.timedOut_pending (p : Part) : p.timedOut.pending = p.pending := by unfold Part.timedOut; rfl

theorem Part.timedOut_to (p : Part) : p.timedOut.k.tinvc.getLsbD 61 = true :=
  (setBits_getLsbD_same p.k.tinvc (by decide) 1).trans (decide_eq_true rfl)

/-- The event record of a bank command that aborts at a cycle (R203, R214). -/
def BankCmd.abortRecord (k : BankCmd) (cycle : Nat) : EvRec :=
  { type := 4, ctxid := k.owner, cause := 0, epc := k.pc, badva := 0, id := k.resume, ch := 0, cycle := cycle }

/-- LIM microseconds after GO the one command that still pins aborts, and TINVC says so (R202, R203). -/
theorem exec_pinTimeoutAbort {s : State} {p : Part} {v : Inval} {k : BankCmd} (hp : s.part? p.idx = some p) (hv : p.inval = some v)
    (hlim : p.k.pintmo ≠ 0) (hdue : v.start + 800 * p.k.pintmo.toNat ≤ s.cycle) (hpin : s.pinners p.idx v = [k]) :
    exec (.pinTimeoutAbort p.idx) s =
      .next (((s.wake.modPart p.idx Part.timedOut).bankEnd k 6).raiseEvent p.idx (k.abortRecord s.cycle)) := by
  have hx : exec (.pinTimeoutAbort p.idx) s = execPinTimeoutAbort p.idx s := rfl
  have hno : ¬ (p.k.pintmo.toNat = 0 ∨ s.cycle < v.start + 800 * p.k.pintmo.toNat ∨ ([k] : List BankCmd).isEmpty = true) := by
    rintro (h | h | h)
    · exact hlim (BitVec.eq_of_toNat_eq h)
    · omega
    · cases h
  rw [hx, execPinTimeoutAbort, hp, Option.bind_some, hv, Option.bind_some, hpin]
  dsimp only
  rw [if_neg hno]
  rfl

/-- What the abort of the one command that pins leaves: the command has ended, its partition has the event record, and nothing pins any more. -/
theorem State.abort_leaves {s : State} {p : Part} {v : Inval} {k : BankCmd} (hp : s.part? p.idx = some p) (hpin : s.pinners p.idx v = [k])
    {f : Part → Part} (hf : ∀ x, (f x).idx = x.idx) (e : EvRec) :
    let t := ((s.wake.modPart p.idx f).putBank (k.over 6)).raiseEvent p.idx e
    (t.banks.find? fun x => decide (x.key = k.key)) = some (k.over 6) ∧ t.part? p.idx = some { f p with pending := (f p).pending ++ [e] } ∧
      t.pinners p.idx v = [] ∧ t.mem = s.mem ∧ t.cur = s.cur := by
  have hk : k ∈ s.banks := (List.mem_filter.1 (hpin ▸ List.mem_singleton_self k : k ∈ s.pinners p.idx v)).1
  have hpart : (s.wake.modPart p.idx f).part? p.idx = some (f p) := State.part?_modPart (s := s.wake) hp hf
  have hbanks : (s.wake.modPart p.idx f).banks = s.banks := State.modPart_banks s.wake _ _
  have hmem : (s.wake.modPart p.idx f).mem = s.mem := State.modPart_mem s.wake _ _
  have hcur : (s.wake.modPart p.idx f).cur = s.cur := State.modPart_cur s.wake _ _
  generalize s.wake.modPart p.idx f = u at hpart hbanks hmem hcur
  have hfind : ((u.putBank (k.over 6)).banks.find? fun x => decide (x.key = k.key)) = some (k.over 6) :=
    State.putBank_find (k := k.over 6) ⟨k, hbanks ▸ hk, rfl⟩
  have hnone := State.pinners_putBank_over ((State.pinners_of_banks hbanks p.idx v).trans hpin) 6
  rw [← u.putBank_part? (k.over 6)] at hpart
  rw [← u.putBank_mem (k.over 6)] at hmem
  rw [← u.putBank_cur (k.over 6)] at hcur
  generalize u.putBank (k.over 6) = x at hfind hnone hpart hmem hcur
  exact ⟨hfind, State.part?_raiseEvent hpart e, hnone, hmem, hcur⟩

/-- A command that pins too long aborts at its resume index (R203). -/
theorem pinTimeout_aborts {s : State} {p : Part} {v : Inval} {k : BankCmd} (hp : s.part? p.idx = some p) (hv : p.inval = some v)
    (hlim : p.k.pintmo ≠ 0) (hdue : v.start + 800 * p.k.pintmo.toNat ≤ s.cycle) (hpin : s.pinners p.idx v = [k]) (hrec : k.desc.crec = 0) :
    ∃ (t : State) (x : BankCmd) (q : Part) (e : EvRec), exec (.pinTimeoutAbort p.idx) s = .next t ∧
      (t.banks.find? fun x => decide (x.key = k.key)) = some x ∧ x.ended = true ∧
      x.status = 6 ∧ x.resume = k.resume ∧ x.pins = [] ∧ t.part? p.idx = some q ∧ t.pinners p.idx v = [] ∧ q.inval = p.inval ∧
      q.k.tinvc.getLsbD 61 = true ∧ q.pending = p.pending ++ [e] ∧ e.type = 4 ∧ e.ctxid = k.owner ∧ e.epc = k.pc ∧ e.id = k.resume ∧
      t.mem = s.mem ∧ t.cur = s.cur := by
  obtain ⟨hfind, hpart, hnone, hmem, hcur⟩ := State.abort_leaves hp hpin Part.timedOut_idx (k.abortRecord s.cycle)
  have hx := exec_pinTimeoutAbort hp hv hlim hdue hpin
  rw [State.bankEnd_bare hrec] at hx
  exact ⟨_, _, _, k.abortRecord s.cycle, hx, hfind, rfl, rfl, rfl, rfl, hpart, hnone, p.timedOut_inval, p.timedOut_to,
    congrArg (· ++ _) p.timedOut_pending, rfl, rfl, rfl, rfl, hmem, hcur⟩

/-- A partition whose invalidation is over: BUSY has fallen (R202). -/
def Part.invalOver (p : Part) : Part := { p with inval := none, k := { p.k with tinvc := setBits p.k.tinvc 62 1 0 } }

theorem Part.invalOver_busy (p : Part) : p.invalOver.k.tinvc.getLsbD 62 = false :=
  (setBits_getLsbD_same p.k.tinvc (by decide) 0).trans (decide_eq_false Nat.zero_ne_one)

theorem Part.invalOver_to (p : Part) : p.invalOver.k.tinvc.getLsbD 61 = p.k.tinvc.getLsbD 61 :=
  setBits_getLsbD_below p.k.tinvc (by decide) (by decide) 1 0

/-- An invalidation that neither a pin nor an outstanding access holds up is over. -/
theorem State.settleInvals_part? {s : State} {p : Part} {v : Inval} (hp : s.part? p.idx = some p) (hv : p.inval = some v)
    (hpin : s.pinners p.idx v = []) (hun : s.unperformed p.idx v = false) : s.settleInvals.part? p.idx = some p.invalOver := by
  rw [part?_map (s := s) (t := s.settleInvals) (f := _) ?_ rfl, hp]
  · simp [hv, hpin, hun, Part.invalOver]
  · intro x
    split
    · split <;> rfl
    · rfl

theorem decide_and_not_of_imp {p : Prop} [Decidable p] {b : Bool} (h : p → b = true) : (decide p && !b) = false := by
  by_cases hp : p
  · rw [h hp, Bool.not_true, Bool.and_false]
  · rw [decide_eq_false hp, Bool.false_and]

/-- Settles O52: BANKCMD queues what its descriptor says, BANKWAIT asks the list of commands, and a command's steps go by its rows, its record and its
pins. -/
theorem bankCommandsRun : Obligations.BankCommandsRun := by
  unfold Obligations.BankCommandsRun
  intro s
  refine ⟨fun d a p hd ha hs hp hq => ⟨fun e hbad he => ?_, fun w c v y e hbad hw hc hv hy he hpages h3 h4 => ?_⟩, fun d a hd ha => ⟨fun hle => ?_,
    fun k hlt hover hk => ?_, fun hlt hover => ?_⟩, fun n k h => ⟨exec_bankUnitError h, bankCommand_continues h, fun r => bankCommand_pauses h,
    fun m => bankCommand_fails h, fun z pa => bankCommand_lastRow h⟩, fun p v k => pinTimeout_aborts, fun p v hp hv hpin hun => ?_⟩
  · exact bankcmd_queues hd ha hs hp hq (o := ([], [], [])) (st := 7) (.inl ⟨hbad, rfl⟩) he (by rw [BankDesc.refused, hbad]; rfl)
  · refine bankcmd_queues hd ha hs hp hq (o := (w ++ v, c, y)) (st := 0) (.inr ⟨hbad, w, c, v, y, hw, hc, hv, hy, rfl⟩) he ?_
    have hall : ((w ++ v ++ c ++ y ++ e).any fun x => !(s.load false p 128).2.bankPage x) = false :=
      List.any_eq_false.2 fun x hx => by rw [hpages x hx]; exact Bool.false_ne_true
    rw [BankDesc.refused, hbad, hall, decide_and_not_of_imp h3, decide_and_not_of_imp h4]
    rfl
  · rw [exec_bankwait hd ha, if_pos hle]
    rfl
  · rw [exec_bankwait hd ha, if_neg (Nat.not_le.2 hlt), if_pos ((s.banks_over_iff _).2 hover), hk]
    rfl
  · rw [exec_bankwait hd ha, if_neg (Nat.not_le.2 hlt), if_neg (mt (s.banks_over_iff _).1 hover)]
    exact ⟨_, rfl, rfl, rfl, rfl, rfl⟩
  · exact ⟨p.invalOver, State.settleInvals_part? hp hv hpin hun, rfl, p.invalOver_busy, p.invalOver_to⟩

end Sys2Proof.Machine

namespace Sys2Proof.Machine

/-! ### Sync words as numbers (R121) -/

/-- Whether the fields of a sync word fit their places. -/
def SyncWord.Fits (w : SyncWord) : Prop := w.target < 2 ^ 32 ∧ w.count < 2 ^ 32 ∧ w.gen < 2 ^ 32 ∧ w.shid < 2 ^ 16

theorem SyncWord.fits_ofNat (n : Nat) : (SyncWord.ofNat n).Fits :=
  ⟨Nat.mod_lt _ (by decide), Nat.mod_lt _ (by decide), Nat.mod_lt _ (by decide), Nat.mod_lt _ (by decide)⟩

theorem SyncWord.Fits.toNat_lt {w : SyncWord} (h : w.Fits) : w.toNat < 256 ^ 16 := by
  obtain ⟨ht, hc, hg, hs⟩ := h
  unfold SyncWord.toNat
  split <;> split <;> split <;> omega

/-- A sync word is read back from its number. -/
theorem SyncWord.ofNat_toNat {w : SyncWord} (h : w.Fits) : SyncWord.ofNat w.toNat = w := by
  obtain ⟨target, count, gen, pub, err, ovf, shid⟩ := w
  obtain ⟨ht, hc, hg, hs⟩ := h
  dsimp only at ht hc hg hs
  unfold SyncWord.ofNat SyncWord.toNat
  simp only [SyncWord.mk.injEq, Nat.testBit_eq_decide_div_mod_eq]
  cases pub <;> cases err <;> cases ovf <;>
    simp only [if_true, Bool.false_eq_true, if_false, decide_eq_true_eq, decide_eq_false_iff_not] <;> omega

/-- Counting keeps the fields of a sync word within their places. -/
theorem SyncWord.Fits.counted {w : SyncWord} (h : w.Fits) (n : Nat) : (w.counted n).1.Fits := by
  obtain ⟨ht, hc, hg, hs⟩ := h
  unfold SyncWord.counted
  dsimp only
  split
  · split
    · exact ⟨ht, (by decide : 2 ^ 32 - 1 < 2 ^ 32), hg, hs⟩
    · next hlt => exact ⟨ht, Nat.lt_of_not_le hlt, hg, hs⟩
  · split
    · next hlt => exact ⟨ht, hlt.trans ht, hg, hs⟩
    · exact ⟨ht, Nat.mod_lt _ (by decide), Nat.mod_lt _ (by decide), hs⟩

/-- SyncCount (R122). -/
theorem SyncWord.counted_cases (w : SyncWord) (n : Nat) :
    (w.target = 0 → w.count + n < 2 ^ 32 → w.counted n = ({ w with count := w.count + n }, false)) ∧
    (w.target = 0 → 2 ^ 32 ≤ w.count + n → w.counted n = ({ w with count := 2 ^ 32 - 1, ovf := true }, false)) ∧
    (w.target ≠ 0 → w.count + n < w.target → w.counted n = ({ w with count := w.count + n }, false)) ∧
    (w.target ≠ 0 → w.count + n = w.target → w.counted n = ({ w with count := 0, gen := (w.gen + 1) % 2 ^ 32 }, true)) ∧
    (w.target ≠ 0 → w.target < w.count + n → w.count + n - w.target < 2 ^ 32 →
      w.counted n = ({ w with count := w.count + n - w.target, gen := (w.gen + 1) % 2 ^ 32, ovf := true }, true)) := by
  unfold SyncWord.counted
  refine ⟨fun h0 hn => ?_, fun h0 hn => ?_, fun h0 hn => ?_, fun h0 hn => ?_, fun h0 hn hlt => ?_⟩
  · rw [if_pos h0, if_neg (Nat.not_le.2 hn)]
  · rw [if_pos h0, if_pos hn]
  · rw [if_neg h0, if_pos hn]
  · rw [if_neg h0, if_neg (by omega), hn, Nat.sub_self, Nat.zero_mod, decide_eq_false (Nat.lt_irrefl _), Bool.or_false]
  · rw [if_neg h0, if_neg (by omega), Nat.mod_eq_of_lt hlt, decide_eq_true hn, Bool.or_true]

/-! ### Read-modify-writes of sync words (R122) -/

theorem State.rebaseWith_state (s : State) (p high pts : Nat) : (s.rebaseWith p high pts).2 = s.rebaseFor p high := by
  unfold State.rebaseWith State.rebaseFor
  split <;> rfl

/-- A sync word written: it reads as the word, and the rest of memory and what accesses spare stand. -/
structure SyncWritten (s : State) (pa : Nat) (w : SyncWord) (t : State) : Prop where
  word : SyncWord.ofNat (t.mem.nat pa 16) = w
  frame : ∀ j, j < pa ∨ pa + 16 ≤ j → t.mem.read j = s.mem.read j
  spared : t.spared = s.spared

section
variable {s : State} {x : XCtx} {sync : Word} {pa : Nat} (h : s.xlate x sysRw sync = .phys pa)
include h

/-- A read-modify-write that a poisoned line refuses has no effect (R204). -/
theorem syncUpdate_poisoned (hq : s.poisoned pa = true) (launch pts : Nat) (f : SyncWord → SyncWord × Bool) :
    syncUpdate s x launch pts sync f = .fails 3 := by
  unfold syncUpdate
  rw [h]
  exact if_pos hq

/-- A read-modify-write without a publication is one write of the engine (R122). -/
theorem syncUpdate_still (hq : s.poisoned pa = false) (launch pts : Nat) {f : SyncWord → SyncWord × Bool}
    (hpub : ((f (SyncWord.ofNat (s.mem.nat pa 16))).2 && (f (SyncWord.ofNat (s.mem.nat pa 16))).1.pub) = false) :
    ∃ high ts, let w := (s.rebaseFor x.part high).unitWrite x.part launch ts [(pa, natBytes 16 (f (SyncWord.ofNat (s.mem.nat pa 16))).1.toNat)]
      syncUpdate s x launch pts sync f = .ok (w.1, false, w.2) := by
  unfold syncUpdate
  rw [h]
  dsimp only
  rw [hq, if_neg Bool.false_ne_true, hpub, State.rebaseWith_state]
  exact ⟨_, _, rfl⟩

/-- What a read-modify-write without a publication does (R122). -/
theorem syncUpdate_writes (hq : s.poisoned pa = false) (hal : pa % 16 = 0) (hm : s.memWf) (hu : s.undisturbed 1) (launch pts : Nat)
    {f : SyncWord → SyncWord × Bool} (hf : (f (SyncWord.ofNat (s.mem.nat pa 16))).1.Fits)
    (hpub : ((f (SyncWord.ofNat (s.mem.nat pa 16))).2 && (f (SyncWord.ofNat (s.mem.nat pa 16))).1.pub) = false) :
    ∃ ts t, syncUpdate s x launch pts sync f = .ok (ts, false, t) ∧ SyncWritten s pa (f (SyncWord.ofNat (s.mem.nat pa 16))).1 t := by
  obtain ⟨high, ts, hw⟩ := syncUpdate_still h hq launch pts hpub
  have hlt := hf.toNat_lt
  have hback := SyncWord.ofNat_toNat hf
  generalize f (SyncWord.ofNat (s.mem.nat pa 16)) = u at hw hlt hback ⊢
  have hlen : (natBytes 16 u.1.toNat).length = 16 := natBytes_length _ _
  have hmem := State.unitWrite_mem (hu.rebaseFor x.part high) x.part launch ts (List.ne_nil_of_length_pos (by omega))
    (by rw [hlen]; omega : pa % 128 + (natBytes 16 u.1.toNat).length ≤ 128)
  rw [State.rebaseFor_mem] at hmem
  refine ⟨_, _, hw, ?_, fun j hj => ?_, (State.unitWrite_spared _ _ _ _ _).trans (State.rebaseFor_spared _ _ _)⟩
  · have hrun := run_write_same hm pa (natBytes 16 u.1.toNat)
    rw [hlen] at hrun
    rw [hmem, Mem.nat, hrun, leNat_natBytes, Nat.mod_eq_of_lt hlt, hback]
  · rw [hmem]
    exact read_write_other _ (hlen.symm ▸ hj)

end

end Sys2Proof.Machine

namespace Sys2Proof.Machine

/-! ### The list of commands (R125) -/

theorem State.runs_spec {s : State} {n : Nat} {c : Cmd} (h : s.runs n = some c) : c ∈ s.cmds ∧ c.key = n ∧ c.paused = none := by
  have hc := List.find?_some h
  simp only [Bool.and_eq_true, decide_eq_true_eq, Option.isNone_iff_eq_none] at hc
  exact ⟨List.mem_of_find?_eq_some h, hc⟩

/-- A command among some whose tags are known. -/
theorem cmd_of_tags {l m : List Cmd} (h : m.map Cmd.tag = l.map Cmd.tag) {c : Cmd} (hc : c ∈ l) : ∃ y ∈ m, y.tag = c.tag :=
  List.mem_map.1 (h ▸ List.mem_map_of_mem (f := Cmd.tag) hc)

theorem State.putCmd_find {s : State} {c : Cmd} {n : Nat} (hkey : c.key = n) (h : ∃ y ∈ s.cmds, y.key = n) :
    ((s.putCmd c).cmds.find? fun x => decide (x.key = n)) = some c := hkey ▸ find_replaced Cmd.key (hkey ▸ h)

theorem State.putCmd_mem (s : State) (c : Cmd) : (s.putCmd c).mem = s.mem := rfl

theorem State.putCmd_cur (s : State) (c : Cmd) : (s.putCmd c).cur = s.cur := rfl

theorem State.putCmd_shadows (s : State) (c : Cmd) : (s.putCmd c).shadows = s.shadows := rfl

theorem State.putCmd_part? (s : State) (c : Cmd) (p : Nat) : (s.putCmd c).part? p = s.part? p := rfl

@[simp] theorem State.modThread_cmds (s : State) (c : Nat) (f : Thread → Thread) : (s.modThread c f).cmds = s.cmds := by
  unfold State.modThread
  split <;> rfl

@[simp] theorem State.modThread_mem (s : State) (c : Nat) (f : Thread → Thread) : (s.modThread c f).mem = s.mem := by
  unfold State.modThread
  split <;> rfl

theorem State.endCmd_cmds (s : State) (c : Cmd) : (s.endCmd c).cmds = (s.putCmd { c with ended := true, paused := none }).cmds :=
  State.modThread_cmds _ _ _

theorem State.endCmd_mem (s : State) (c : Cmd) : (s.endCmd c).mem = s.mem := State.modThread_mem _ _ _

theorem State.endCmd_find {s : State} {c : Cmd} {n : Nat} (hkey : c.key = n) (h : ∃ y ∈ s.cmds, y.key = n) :
    ((s.endCmd c).cmds.find? fun x => decide (x.key = n)) = some { c with ended := true, paused := none } := by
  rw [State.endCmd_cmds]
  exact State.putCmd_find (c := { c with ended := true, paused := none }) hkey h

/-- XFD of a channel of the current thread all of whose commands have ended is the next ID (R125). -/
theorem State.advanceXfd_over {s : State} {ch : Nat} (hch : ch < 8)
    (h : ∀ y ∈ s.cmds, y.owner = s.cur.id.ctxid → y.ch = ch → y.ended = true) :
    (s.advanceXfd s.cur.id.ctxid ch).cur.sys.xfd.toList.getD ch 0 = BitVec.ofNat 64 (s.cur.nextId.toList.getD ch 0) := by
  have hnone : (s.cmds.filter fun c => decide (c.owner = s.cur.id.ctxid ∧ c.ch = ch) && !c.ended) = [] := by
    refine List.filter_eq_nil_iff.2 fun y hy hp => ?_
    simp only [Bool.and_eq_true, decide_eq_true_eq, Bool.not_eq_true'] at hp
    obtain ⟨⟨ho, hc⟩, hend⟩ := hp
    exact Bool.false_ne_true (hend ▸ h y hy ho hc)
  unfold State.advanceXfd State.modThread
  rw [if_pos rfl, hnone]
  simp [List.getD_eq_getElem?_getD, hch]

/-- The last command of a channel that ends takes XFD to the next ID (R125). -/
theorem State.endCmd_xfd {s : State} {c : Cmd} (howner : s.cur.id.ctxid = c.owner) (hch : c.ch < 8)
    (h : ∀ y ∈ s.cmds, y.owner = c.owner → y.ch = c.ch → y.ended = false → y.key = c.key) :
    (s.endCmd c).cur.sys.xfd.toList.getD c.ch 0 = BitVec.ofNat 64 (s.cur.nextId.toList.getD c.ch 0) := by
  have hcur : (s.putCmd { c with ended := true, paused := none }).cur = s.cur := State.putCmd_cur _ _
  have hover : ∀ y ∈ (s.putCmd { c with ended := true, paused := none }).cmds, y.owner = c.owner → y.ch = c.ch → y.ended = true := by
    intro y hy ho hc
    obtain ⟨x, hx, rfl⟩ := List.mem_map.1 hy
    by_cases hkey : x.key = c.key
    · rw [if_pos hkey]
    · rw [if_neg hkey] at ho hc ⊢
      exact Bool.eq_true_of_not_eq_false fun hend => hkey (h x hx ho hc hend)
  unfold State.endCmd
  generalize s.putCmd { c with ended := true, paused := none } = u at hcur hover
  rw [← hcur] at howner ⊢
  rw [← howner] at hover ⊢
  exact State.advanceXfd_over hch hover

/-! ### Steps of a command (R122, R345) -/

section
variable {s : State} {n : Nat} {c : Cmd} (h : s.runs n = some c)
include h

theorem exec_syncCount {t : State} (hx : s.engNext c = .part t) : exec (.syncCount n) s = .next t := by
  have hstep : exec (.syncCount n) s = execSyncCount n s := rfl
  rw [hstep, execSyncCount, h, Option.bind_some, hx]
  rfl

theorem exec_engineCommandComplete {t : State} (hx : s.engNext c = .ended t) : exec (.engineCommandComplete n) s = .next t := by
  have hstep : exec (.engineCommandComplete n) s = execEngineCommandComplete n s := rfl
  rw [hstep, execEngineCommandComplete, h, Option.bind_some, hx]
  rfl

theorem exec_engineFaultPause {r : Run} {k d : BitVec 8} {v : Word} (hx : s.engNext c = .fault r k d v) :
    exec (.engineFaultPause n) s = .next (s.pauseCmd r k d v) := by
  have hstep : exec (.engineFaultPause n) s = execEngineFaultPause n s := rfl
  rw [hstep, execEngineFaultPause, h, Option.bind_some, hx]
  rfl

/-- A repair writes again what is written, and counts nothing (R221). -/
theorem exec_engineErrorRepair : exec (.engineErrorRepair n) s = .next s := by
  have hstep : exec (.engineErrorRepair n) s = execEngineErrorRepair n s := rfl
  rw [hstep, execEngineErrorRepair, h]
  rfl

end

section
variable {s : State} {c : Cmd} (hended : c.ended = false) (hstatus : c.status = 0) (hsettled : c.settled = false)
include hended hstatus hsettled

/-- A command with a part left goes on with it. -/
theorem State.engNext_part (hcoll : c.fn = .coll → c.result ≠ none) (hleft : c.parts < c.partCount (s.members c))
    (href : c.parts = 0 → c.wrote = false → s.refusal c = 0) : s.engNext c = nextPart (c, s) := by
  have hn : (if c.parts = 0 ∧ (!c.wrote) = true then s.refusal c else 0) = 0 := by
    split
    · next hp => exact href hp.1 (by simpa using hp.2)
    · rfl
  have hready : (decide (c.fn = .coll) && c.result.isNone) = false := by
    by_cases hf : c.fn = .coll
    · rw [Option.isNone_eq_false_iff.2 (Option.isSome_iff_ne_none.2 (hcoll hf)), Bool.and_false]
    · rw [decide_eq_false hf, Bool.false_and]
  unfold State.engNext
  rw [hended, hstatus, hsettled]
  dsimp only
  rw [if_neg Bool.false_ne_true, if_neg (by simp), hn, if_neg (not_not.2 rfl), if_neg (Nat.not_le.2 hleft), hready]

/-- A command with no part left ends (R125). -/
theorem State.engNext_over (hfn : c.fn ≠ .cprem) (hsome : c.parts ≠ 0) (hleft : c.partCount (s.members c) ≤ c.parts) :
    s.engNext c = endWith (c, s) 0 none := by
  have hn : (if c.parts = 0 ∧ (!c.wrote) = true then s.refusal c else 0) = 0 := if_neg (not_and_of_not_left _ hsome)
  unfold State.engNext
  rw [hended, hstatus, hsettled]
  dsimp only
  rw [if_neg Bool.false_ne_true, if_neg (by simp), hn, if_neg (not_not.2 rfl), if_pos hleft,
    if_neg (not_and_of_not_left _ hfn)]

/-- A command that is refused ends with its status (R347). -/
theorem State.engNext_refused (hwrote : c.wrote = false) (hnone : c.parts = 0) (href : s.refusal c ≠ 0) :
    s.engNext c = endWith (c, s) (s.refusal c) none := by
  have hn : (if c.parts = 0 ∧ (!c.wrote) = true then s.refusal c else 0) = s.refusal c := if_pos ⟨hnone, by rw [hwrote]; rfl⟩
  unfold State.engNext
  rw [hended, hstatus, hsettled]
  dsimp only
  rw [if_neg Bool.false_ne_true, if_neg (by simp), hn, if_pos href]

end

end Sys2Proof.Machine

namespace Sys2Proof.Machine

/-! ### A part written, then counted (R122, R345) -/

/-- A part that is written is counted next. -/
theorem nextPart_wrote {r : Run} (h : r.1.wrote = true) : nextPart r = countPart r := by
  unfold nextPart
  dsimp only
  rw [if_pos h]

/-- A part on its own module is read, converted and written to its destination, and then counted. -/
theorem nextPart_writes {r : Run} (hfn : r.1.fn ≠ .cprem) (hw : r.1.wrote = false) {ws : List (Int × List Byte)} {o z : Run}
    (hread : partData r (r.1.toWrite (r.2.destOf r.1) (r.2.members r.1)) = .ok (ws, o))
    (hput : ws.foldl (fun (e : Eng Run) w => e.andThen fun y => engWrite y (r.2.destOf r.1) w.1 w.2) (.ok o) = .ok z) :
    nextPart r = countPart ({ z.1 with
      wrote := true, bytes := z.1.bytes + (r.1.toWrite (r.2.destOf r.1) (r.2.members r.1)).length * r.1.dsz }, z.2) := by
  unfold nextPart
  dsimp only
  rw [if_neg hfn, hw, if_neg Bool.false_ne_true, hread]
  dsimp only
  rw [if_neg hfn, hput]

/-- A part counted in a sync word of the command's own domain: one more part is done, and nothing more is written. -/
theorem countPart_counts {s t : State} {c : Cmd} {ts : Nat} (hfn : c.fn ≠ .cprem) (hsync : c.desc.sync ≠ 0)
    (h : syncUpdate s (s.cmdCtx c) c.launch c.pts c.desc.sync (fun w => w.counted ((c.partElems (s.members c)).length * c.dsz)) =
      .ok (ts, false, t)) :
    ∃ x, countPart (c, s) = .part (t.putCmd x) ∧ x.key = c.key ∧ x.parts = c.parts + 1 ∧ x.bytes = c.bytes ∧ x.wrote = false ∧
      x.ended = c.ended := by
  have hof : s.syncOf c = some (c.desc.sync, s.cmdCtx c, c.launch) := by rw [State.syncOf, if_neg hfn, if_neg hsync]
  have hown : s.ownDomain c = true := by rw [State.ownDomain, bne_iff_ne.2 hfn, Bool.true_or]
  unfold countPart
  dsimp only
  rw [hof, hown]
  dsimp only
  rw [if_pos rfl, h]
  exact ⟨_, rfl, rfl, rfl, rfl, rfl, rfl⟩

section
variable {s : State} {n : Nat} {c : Cmd} (h : s.runs n = some c) (hended : c.ended = false) (hstatus : c.status = 0) (hsettled : c.settled = false)
include h hended hstatus hsettled

/-- A part that is written counts once in the sync word (R122, R345). -/
theorem command_counts {pa : Nat} (hfn : c.fn ≠ .cprem) (hcoll : c.fn = .coll → c.result ≠ none) (hleft : c.parts < c.partCount (s.members c))
    (hw : c.wrote = true) (hsync : c.desc.sync ≠ 0) (hx : s.xlate (s.cmdCtx c) sysRw c.desc.sync = .phys pa) (hal : pa % 16 = 0)
    (hq : s.poisoned pa = false) (hm : s.memWf) (hu : s.undisturbed 1)
    (hpub : ((SyncWord.ofNat (s.mem.nat pa 16)).counted ((c.partElems (s.members c)).length * c.dsz)).1.pub = false) :
    ∃ (t : State) (x : Cmd), exec (.syncCount n) s = .next t ∧
      SyncWord.ofNat (t.mem.nat pa 16) = ((SyncWord.ofNat (s.mem.nat pa 16)).counted ((c.partElems (s.members c)).length * c.dsz)).1 ∧
      (t.cmds.find? fun x => decide (x.key = n)) = some x ∧ x.parts = c.parts + 1 ∧ x.bytes = c.bytes ∧ x.wrote = false ∧ x.ended = false ∧
      ∀ j, j < pa ∨ pa + 16 ≤ j → t.mem.read j = s.mem.read j := by
  obtain ⟨hc, rfl, -⟩ := State.runs_spec h
  have hnext : s.engNext c = countPart (c, s) := by
    rw [State.engNext_part hended hstatus hsettled hcoll hleft fun _ hf => absurd (hf.symm.trans hw) Bool.false_ne_true]
    exact nextPart_wrote hw
  obtain ⟨ts, t, hsu, hword, hframe, hspared⟩ := syncUpdate_writes (f := fun w => w.counted ((c.partElems (s.members c)).length * c.dsz)) hx hq hal
    hm hu c.launch c.pts ((SyncWord.fits_ofNat _).counted _) (by rw [hpub, Bool.and_false])
  obtain ⟨x, hcount, hkey, hparts, hbytes, hwrote, hend⟩ := countPart_counts hfn hsync hsu
  obtain ⟨y, hy, htag⟩ := cmd_of_tags (congrArg Spared.cmds hspared) hc
  have hfind := State.putCmd_find (s := t) hkey ⟨y, hy, congrArg Prod.fst htag⟩
  exact ⟨_, x, exec_syncCount h (hnext.trans hcount), hword, hfind, hparts, hbytes, hwrote, hend.trans hended, hframe⟩

end

/-! ### The end of a command (R125, R346, R347) -/

/-- A record that is written goes to its place with the command's status and bytes (R346). -/
theorem writeRecord_writes {r : Run} {pa : Nat} (hfn : r.1.fn ≠ .cprem) (h0 : r.1.desc.crec ≠ 0) (h32 : r.1.desc.crec.toNat % 32 = 0)
    (hx : r.2.xlate (r.2.cmdCtx r.1) sysWr r.1.desc.crec = .phys pa) (hq : r.2.poisoned pa = false) :
    let w := r.2.unitWrite (r.2.cmdPart r.1) r.1.launch r.1.pts
      [(pa, recordBytes (if r.1.fn = .coll then r.1.dev else 0) r.1.flags r.1.status r.1.id r.1.bytes)]
    writeRecord r none = .ok ({ r.1 with pts := w.1 }, w.2) := by
  have hbytes : r.2.written r.1 = r.1.bytes := if_pos (.inl hfn)
  unfold writeRecord
  dsimp only
  rw [if_neg (not_or.2 ⟨h0, not_not.2 h32⟩), hx, hbytes]
  dsimp only
  rw [hq, if_neg Bool.false_ne_true]

/-- A command without a publication that comes to its end with OK writes its record and ends (R125, R346). -/
theorem endWith_ok {s : State} {c : Cmd} {pa : Nat} (hsettled : c.settled = false) (hpub : c.desc.pubc = false) (hfn : c.fn ≠ .cprem)
    (h0 : c.desc.crec ≠ 0) (h32 : c.desc.crec.toNat % 32 = 0) (hx : s.xlate (s.cmdCtx c) sysWr c.desc.crec = .phys pa) (hq : s.poisoned pa = false) :
    ∃ x, let w := s.unitWrite (s.cmdPart c) c.launch c.pts [(pa, recordBytes (if c.fn = .coll then c.dev else 0) c.flags 0 c.id c.bytes)]
      endWith (c, s) 0 none = .ended (w.2.endCmd x) ∧ x.tag = c.tag ∧ x.status = 0 := by
  have hnone : publishEnd ({ c with status := 0 }, s) = ({ c with status := 0 }, s) := by
    have ht : s.pubTarget { c with status := 0 } = none := by rw [State.pubTarget, hpub]; rfl
    unfold publishEnd
    dsimp only
    rw [ht]
  have hrec := writeRecord_writes (r := ({ c with status := 0, settled := true }, s)) hfn h0 h32 hx hq
  unfold endWith
  dsimp only
  rw [if_pos rfl, if_pos rfl, if_neg (ne_true_of_eq_false hsettled), hnone]
  dsimp only
  rw [hrec]
  dsimp only
  exact ⟨_, rfl, rfl, rfl⟩

section
variable {s : State} {n : Nat} {c : Cmd} (h : s.runs n = some c) (hended : c.ended = false) (hstatus : c.status = 0) (hsettled : c.settled = false)
include h hended hstatus hsettled

/-- A command with nothing left writes its record and ends, XFD moving on (R125, R346). -/
theorem command_completes {pa : Nat} (hsome : c.parts ≠ 0) (hleft : c.partCount (s.members c) ≤ c.parts) (hfn : c.fn ≠ .cprem)
    (hpub : c.desc.pubc = false) (h0 : c.desc.crec ≠ 0) (h32 : c.desc.crec.toNat % 32 = 0) (hal : pa % 32 = 0)
    (hx : s.xlate (s.cmdCtx c) sysWr c.desc.crec = .phys pa) (hq : s.poisoned pa = false) (hm : s.memWf) (hu : s.undisturbed 1) :
    ∃ (t : State) (x : Cmd), exec (.engineCommandComplete n) s = .next t ∧ (t.cmds.find? fun x => decide (x.key = n)) = some x ∧ x.ended = true ∧
      x.status = 0 ∧
      t.mem.run pa 32 = recordBytes (if c.fn = .coll then c.dev else 0) c.flags 0 c.id c.bytes ∧
      (s.cur.id.ctxid = c.owner → c.ch < 8 → (∀ y ∈ s.cmds, y.owner = c.owner → y.ch = c.ch → y.ended = false → y.key = n) →
        t.cur.sys.xfd.toList.getD c.ch 0 = BitVec.ofNat 64 (s.cur.nextId.toList.getD c.ch 0)) := by
  obtain ⟨hc, rfl, -⟩ := State.runs_spec h
  obtain ⟨x, hend, htag, hst⟩ := endWith_ok hsettled hpub hfn h0 h32 hx hq
  have hnext := (State.engNext_over hended hstatus hsettled hfn hsome hleft).trans hend
  generalize hbs : recordBytes (if c.fn = .coll then c.dev else 0) c.flags 0 c.id c.bytes = bs at hnext
  have hlen : bs.length = 32 := hbs ▸ recordBytes_length _ _ _ _ _
  have hspared := State.unitWrite_spared s (s.cmdPart c) c.launch c.pts [(pa, bs)]
  have hmem := State.unitWrite_mem hu (s.cmdPart c) c.launch c.pts (List.ne_nil_of_length_pos (by omega) : bs ≠ []) (by omega : pa % 128 + bs.length ≤ 128)
  generalize (s.unitWrite (s.cmdPart c) c.launch c.pts [(pa, bs)]).2 = u at hnext hspared hmem
  have htags : u.cmds.map Cmd.tag = s.cmds.map Cmd.tag := congrArg Spared.cmds hspared
  have hkey : x.key = c.key := congrArg Prod.fst htag
  have howner : x.owner = c.owner := congrArg (fun y => y.2.1) htag
  have hch : x.ch = c.ch := congrArg (fun y => y.2.2.1) htag
  obtain ⟨y, hy, hytag⟩ := cmd_of_tags htags hc
  have hfind := State.endCmd_find (s := u) hkey ⟨y, hy, congrArg Prod.fst hytag⟩
  refine ⟨_, _, exec_engineCommandComplete h hnext, hfind, rfl, hst, ?_, fun hcur hlt hlast => ?_⟩
  · have hrun := run_write_same hm pa bs
    rw [hlen] at hrun
    rw [State.endCmd_mem, hmem, hrun]
  · have hid : u.cur.id.ctxid = x.owner := (congrArg (fun y => y.id.ctxid) hspared).trans (hcur.trans howner.symm)
    have hnextId : u.cur.nextId = s.cur.nextId := congrArg Spared.nextId hspared
    rw [← hch, ← hnextId]
    refine State.endCmd_xfd hid (hch ▸ hlt) fun z hz hzo hzc hze => ?_
    obtain ⟨w, hw, hwtag⟩ := cmd_of_tags htags.symm hz
    have hwkey : w.key = z.key := congrArg Prod.fst hwtag
    rw [hkey, ← hwkey]
    exact hlast w hw ((congrArg (fun y => y.2.1) hwtag).trans (hzo.trans howner)) ((congrArg (fun y => y.2.2.1) hwtag).trans (hzc.trans hch))
      ((congrArg (fun y => y.2.2.2) hwtag).trans hze)

end

/-! ### Lines cancelled (R222) -/

/-- A buffer with the lines that a writer wrote last marked as not written. -/
def Shadow.cancelled (writer : Nat) (b : Shadow) : Shadow :=
  { b with lines := b.lines.map fun l => if l.2.writer = writer then (l.1, { l.2 with written := false }) else l }

theorem State.shadow?_cancelLines (s : State) (writer p h : Nat) : (s.cancelLines writer).shadow? p h = (s.shadow? p h).map (Shadow.cancelled writer) :=
  List.find?_map

/-- Lines cancelled leave what a push needs to find its buffer. -/
theorem State.pushBuffer_cancelLines (s : State) (writer p h : Nat) :
    (s.cancelLines writer).pushBuffer p h = (s.pushBuffer p h).map (Shadow.cancelled writer) := by
  unfold State.pushBuffer
  rw [State.shadow?_cancelLines]
  cases s.shadow? p h with
  | none => rfl
  | some b =>
    dsimp only [Option.map_some, Option.bind_some, Shadow.cancelled]
    split <;> rfl

theorem State.syncOf_cancelLines (s : State) (writer : Nat) (c : Cmd) : (s.cancelLines writer).syncOf c = s.syncOf c := by
  have hself : (s.cancelLines writer).selfPart c = s.selfPart c := rfl
  unfold State.syncOf
  rw [hself]
  split
  · cases s.selfPart c with
    | none => rfl
    | some p =>
      dsimp only [Option.bind_some]
      rw [State.pushBuffer_cancelLines, Option.map_map]
      rfl
  · rfl

theorem State.sendEnd_link (s : State) (c : Cmd) : ∃ k, s.sendEnd c = { s with link := k } := by
  unfold State.sendEnd
  split
  · exact ⟨_, rfl⟩
  · split
    · split
      · exact ⟨_, rfl⟩
      · exact State.sendFlits_link _ _ _ _
    · exact ⟨_, rfl⟩

/-- A command that names neither a sync word nor a record ends with its status alone (R347). -/
theorem endWith_bare {s : State} {c : Cmd} {k : Nat} (hk : k ≠ 0) (hsettled : c.settled = false) (hsync : s.syncOf c = none) (hrec : c.desc.crec = 0) :
    ∃ (u : State) (x : Cmd), endWith (c, s) k none = .ended (u.endCmd x) ∧ u.cmds = s.cmds ∧ u.mem = s.mem ∧ x.key = c.key ∧ x.status = k := by
  have hnone : (s.cancelLines c.key).syncOf { c with status := k } = none := (State.syncOf_cancelLines s c.key _).trans hsync
  obtain ⟨l, hl⟩ := (s.cancelLines c.key).sendEnd_link { c with status := k }
  have herr : setErr ({ c with status := k }, s.cancelLines c.key) none = .ok ({ c with status := k }, { s.cancelLines c.key with link := l }) := by
    unfold setErr
    dsimp only
    rw [hnone, ← hl]
  have hw : ∀ u : State, writeRecord ({ c with status := k, settled := true }, u) none = .ok ({ c with status := k, settled := true }, u) :=
    fun u => if_pos (.inl hrec)
  unfold endWith
  dsimp only
  rw [if_neg hk, if_neg hk, if_neg (ne_true_of_eq_false hsettled), herr]
  dsimp only
  rw [hw]
  exact ⟨_, _, rfl, rfl, rfl, rfl, rfl⟩

/-- A command that is refused ends with its status (R347). -/
theorem command_refused {s : State} {n : Nat} {c : Cmd} {k : Nat} (h : s.runs n = some c) (hended : c.ended = false) (hstatus : c.status = 0)
    (hsettled : c.settled = false) (hw : c.wrote = false) (hparts : c.parts = 0) (href : s.refusal c = k) (hk : k ≠ 0) (hsync : s.syncOf c = none)
    (hrec : c.desc.crec = 0) :
    ∃ (t : State) (x : Cmd), exec (.engineCommandComplete n) s = .next t ∧ (t.cmds.find? fun x => decide (x.key = n)) = some x ∧ x.ended = true ∧
      x.status = k ∧
      t.mem = s.mem := by
  subst href
  obtain ⟨hc, rfl, -⟩ := State.runs_spec h
  obtain ⟨u, x, hend, hcmds, hmem, hkey, hst⟩ := endWith_bare hk hsettled hsync hrec
  have hfind := State.endCmd_find (s := u) hkey ⟨c, hcmds ▸ hc, rfl⟩
  have hnext := (State.engNext_refused hended hstatus hsettled hw hparts hk).trans hend
  exact ⟨u.endCmd x, { x with ended := true, paused := none }, exec_engineCommandComplete h hnext, hfind, rfl, hst, (u.endCmd_mem x).trans hmem⟩

/-- A command as it stands paused at a fault (R222). -/
def Cmd.pausedAt (c : Cmd) (k d : BitVec 8) (v : Word) : Cmd := { c with paused := some (k, d, v) }

/-- The ENGFLT record of a command at a cycle (R214, R222). -/
def Cmd.faultRecord (c : Cmd) (k d : BitVec 8) (v : Word) (cycle : Nat) : EvRec :=
  { type := 3, ctxid := c.owner, cause := d.setWidth 64 <<< 8 ||| k.setWidth 64, epc := c.pc, badva := v, id := c.id, ch := c.ch, cycle := cycle }

theorem State.pauseCmd_eq (s : State) (r : Run) (k d : BitVec 8) (v : Word) :
    s.pauseCmd r k d v = (r.2.putCmd (r.1.pausedAt k d v)).raiseEvent (s.cmdPart r.1) (r.1.faultRecord k d v s.cycle) := by
  unfold State.pauseCmd Cmd.pausedAt Cmd.faultRecord
  rfl

/-- A command at a fault pauses with an ENGFLT record, and keeps what it has written and counted (R222). -/
theorem command_pauses {s : State} {n : Nat} {c : Cmd} {r : Run} {k e : BitVec 8} {v : Word} {p : Part} (h : s.runs n = some c)
    (hx : s.engNext c = .fault r k e v) (hkey : r.1.key = n) (hin : ∃ y ∈ r.2.cmds, y.key = n) (hp : r.2.part? (s.cmdPart r.1) = some p) :
    ∃ (t : State) (x : Cmd) (y : EvRec), exec (.engineFaultPause n) s = .next t ∧ (t.cmds.find? fun x => decide (x.key = n)) = some x ∧
      x.paused = some (k, e, v) ∧
      x.parts = r.1.parts ∧ x.bytes = r.1.bytes ∧ x.ended = r.1.ended ∧ t.mem = r.2.mem ∧ t.shadows = r.2.shadows ∧
      (t.part? p.idx).map (fun q => q.pending) = some (p.pending ++ [y]) ∧ y.type = 3 ∧ y.ctxid = r.1.owner ∧ y.id = r.1.id ∧ y.ch = r.1.ch ∧
      y.badva = v := by
  subst hkey
  have hidx : s.cmdPart r.1 = p.idx := (State.part?_idx hp).symm
  have hstep := exec_engineFaultPause h hx
  have hfind := State.putCmd_find (s := r.2) (c := r.1.pausedAt k e v) rfl hin
  have hmem := r.2.putCmd_mem (r.1.pausedAt k e v)
  have hshadows := r.2.putCmd_shadows (r.1.pausedAt k e v)
  have hpart := (r.2.putCmd_part? (r.1.pausedAt k e v) (s.cmdPart r.1)).trans hp
  rw [State.pauseCmd_eq, hidx] at hstep
  rw [hidx] at hpart
  generalize r.2.putCmd (r.1.pausedAt k e v) = u at hfind hmem hshadows hpart hstep
  refine ⟨_, r.1.pausedAt k e v, r.1.faultRecord k e v s.cycle, hstep, hfind, rfl, rfl, rfl, rfl, hmem, hshadows, ?_, rfl, rfl, rfl, rfl, rfl⟩
  rw [State.part?_raiseEvent hpart]
  rfl

end Sys2Proof.Machine

namespace Sys2Proof.Machine

/-! ### Translations that links, buffers and event records leave alone (R194) -/

/-- An access that no buffer stands against goes where its page does (R352). -/
theorem State.xlate_of_pageOf {s t : State} {c : XCtx} {n : Need} (hn : n.ordinary = false) {va : Word}
    (h : t.pageOf c va.toNat = s.pageOf c va.toNat) : t.xlate c n va = s.xlate c n va := by
  unfold State.xlate
  dsimp only
  rw [h, hn]
  simp only [Bool.false_and]

/-- Links and buffers changed leave the tables as they are. -/
theorem State.pageOf_relinked (s : State) (l : Link) (z : List Shadow) (c : XCtx) (va : Nat) :
    ({ s with link := l, shadows := z } : State).pageOf c va = s.pageOf c va := rfl

/-- A partition with an event record that waits, where it is the record's. -/
def Part.waits (p : Nat) (e : EvRec) (x : Part) : Part := if x.idx = p then { x with pending := x.pending ++ [e] } else x

theorem Part.waits_idx (p : Nat) (e : EvRec) (x : Part) : (x.waits p e).idx = x.idx := by
  unfold Part.waits
  split <;> rfl

theorem Part.waits_tsBase (p : Nat) (e : EvRec) (x : Part) : (x.waits p e).tsBase = x.tsBase := by
  unfold Part.waits
  split <;> rfl

theorem State.owns_waits (s : State) (p : Nat) (e : EvRec) (x : Part) (a : Nat) : (s.raiseEvent p e).owns (x.waits p e) a = s.owns x a := by
  unfold Part.waits
  split <;> rfl

theorem State.raiseEvent_parts (s : State) (p : Nat) (e : EvRec) : (s.raiseEvent p e).parts = s.parts.map (Part.waits p e) := rfl

/-- An event record that waits changes no line's record. -/
theorem State.raiseEvent_line (s : State) (p : Nat) (e : EvRec) (l : Nat) : (s.raiseEvent p e).line l = s.line l := by
  have hown : ((fun x => (s.raiseEvent p e).owns x (128 * l)) ∘ Part.waits p e) = fun x => s.owns x (128 * l) :=
    funext fun x => s.owns_waits p e x _
  have hbase : (s.raiseEvent p e).baseTs l = s.baseTs l := by
    unfold State.baseTs
    rw [State.raiseEvent_parts, List.find?_map, hown, Option.map_map]
    congr 2
    exact funext (Part.waits_tsBase p e)
  unfold State.line
  rw [hbase]
  rfl

/-- An event record that waits leaves the tables as they are. -/
theorem State.raiseEvent_tableWord (s : State) (p : Nat) (e : EvRec) : (s.raiseEvent p e).tableWord = s.tableWord := by
  funext a
  unfold State.tableWord
  rw [State.raiseEvent_line]
  rfl

theorem State.raiseEvent_walk (s : State) (p : Nat) (e : EvRec) (q : Part) (c : XCtx) (va : Nat) : (s.raiseEvent p e).walk q c va = s.walk q c va := by
  unfold State.walk State.midEntry State.topEntry
  rw [State.raiseEvent_tableWord]
  rfl

theorem State.pageOf_raiseEvent (s : State) (p : Nat) (e : EvRec) (c : XCtx) (va : Nat) : (s.raiseEvent p e).pageOf c va = s.pageOf c va := by
  have hhit : (s.raiseEvent p e).tlbHit c va = s.tlbHit c va := rfl
  unfold State.pageOf
  rw [part?_map (Part.waits_idx p e) (s.raiseEvent_parts p e), hhit]
  cases s.part? c.part with
  | none => rfl
  | some q =>
    dsimp only [Option.map_some]
    rw [State.raiseEvent_walk]
    unfold Part.waits
    split <;> rfl

theorem State.raiseEvent_link (s : State) (p : Nat) (e : EvRec) : (s.raiseEvent p e).link = s.link := rfl

theorem State.raiseEvent_shadows (s : State) (p : Nat) (e : EvRec) : (s.raiseEvent p e).shadows = s.shadows := rfl

theorem State.raiseEvent_mem (s : State) (p : Nat) (e : EvRec) : (s.raiseEvent p e).mem = s.mem := rfl

/-! ### The receiving engine's record of pushes (R350, R351) -/

/-- The mark of a part of a push. -/
def partMark (x : RemotePart) : Nat × Nat × Nat × Nat := (x.src, x.ch, x.id, x.part)

theorem samePush_self (x : RemotePart) : samePush x x = true := decide_eq_true ⟨rfl, rfl, rfl⟩

theorem Link.hasSeen_iff (k : Link) (x : RemotePart) : k.hasSeen x = true ↔ partMark x ∈ k.seen := by
  unfold Link.hasSeen
  rw [List.any_eq_true]
  exact ⟨fun ⟨y, hy, hxy⟩ => (of_decide_eq_true hxy : y = partMark x) ▸ hy, fun h => ⟨_, h, decide_eq_true rfl⟩⟩

theorem Link.sees_partMark (k : Link) (x : RemotePart) : partMark x ∈ (k.sees x).seen := List.mem_cons_self

theorem Link.sees_dead (k : Link) (x : RemotePart) : (k.sees x).dead = k.dead := rfl

theorem Link.closes_seen (k : Link) (x : RemotePart) (st : Option Nat) : (k.closes x st).seen = k.seen := rfl

theorem Link.begins_seen (k : Link) (x : RemotePart) : (k.begins x).seen = k.seen := by
  unfold Link.begins
  split <;> rfl

theorem Link.begins_dead (k : Link) (x : RemotePart) : (k.begins x).dead = k.dead := by
  unfold Link.begins
  split <;> rfl

theorem Link.failed_of_dead {k l : Link} (h : k.dead = l.dead) (x : RemotePart) : k.failed x = l.failed x := by
  unfold Link.failed
  rw [h]

/-- A push that has failed is remembered (R222). -/
theorem Link.closes_failed (k : Link) (x : RemotePart) (n : Nat) : ((k.closes x (some n)).failed x).isSome = true := by
  unfold Link.failed Link.closes
  rw [Option.isSome_map, List.find?_isSome]
  exact ⟨({ x with runs := [] }, n), List.mem_append_right _ (List.mem_singleton_self _), samePush_self x⟩

/-! ### A message of another module acted on (R223) -/

/-- A part of a push taken from the messages that the link has accepted. -/
def State.taken (s : State) (x : RemotePart) : State := { s with link := { s.link with inbox := s.link.inbox.erase (.part x) } }

theorem exec_remotePart_absent {s : State} {x : RemotePart} (h : LinkMsg.part x ∉ s.link.inbox) : exec (.remotePartReceive x) s = .next s := by
  have hx : exec (.remotePartReceive x) s = execRemotePartReceive x s := rfl
  rw [hx, execRemotePartReceive, State.accepted, if_neg (mt List.contains_iff_mem.1 h)]
  rfl

theorem exec_remotePart {s : State} {x : RemotePart} (h : LinkMsg.part x ∈ s.link.inbox) :
    exec (.remotePartReceive x) s = .next (((s.taken x).receivePart x).getD s) := by
  have hx : exec (.remotePartReceive x) s = execRemotePartReceive x s := rfl
  have ht : s.accepted (.part x) (fun s => (s.receivePart x).map done) = ((s.taken x).receivePart x).map done :=
    if_pos (List.contains_iff_mem.2 h)
  rw [hx, execRemotePartReceive, ht]
  cases (s.taken x).receivePart x <;> rfl

/-! ### A part at the receiving engine (R350) -/

/-- The count of a part's bytes in the sync word of a buffer, once its runs are written there (R122). -/
def State.countRuns (s : State) (x : RemotePart) (b : Shadow) : Eng (Nat × Bool × State) :=
  syncUpdate (s.writeRuns x.dom x.handle (pushWriter x) x.runs) ⟨b.part, b.asid, 0xFFFFFFFF, none, 0⟩ 0 0 b.sync
    fun w => w.counted (x.runs.foldl (fun n r => n + r.2.length) 0)

/-- What a part of a push that is under way, and not paused, comes to at the buffer that takes the push (R350). -/
def State.receiveOpen (s : State) (x : RemotePart) : Option State :=
  match s.pushTarget x.dom x.handle (x.lo, x.hi) with
  | none => s.failPush x 1
  | some b => match s.pushFault b x.runs with
    | some f => s.holdPush x f.1 f.2.1 f.2.2
    | none => match s.countRuns x b with
      | .ok z =>
        let t : State := { z.2.2 with link := z.2.2.link.sees x }
        some (if t.link.complete x then
            let t := if x.pubc then (t.publish x.dom 0 x.handle z.1).2 else t
            { t with link := t.link.closes x none }
          else { t with link := t.link.begins x })
      | .fault k d v => s.holdPush x k d v
      | .fails m => (s.writeRuns x.dom x.handle (pushWriter x) x.runs).failPush x m

/-- A part that has arrived is dropped. -/
theorem State.receivePart_seen {s : State} {x : RemotePart} (h : partMark x ∈ s.link.seen) : s.receivePart x = some s :=
  if_pos ((Link.hasSeen_iff _ _).2 h)

section
variable {s : State} {x : RemotePart} (hseen : partMark x ∉ s.link.seen)
include hseen

/-- A part of a push that has failed is noted, and writes nothing (R222). -/
theorem State.receivePart_failed (h : (s.link.failed x).isSome = true) : s.receivePart x = some { s with link := s.link.sees x } := by
  unfold State.receivePart
  rw [if_neg (mt (Link.hasSeen_iff _ _).1 hseen)]
  exact if_pos h

variable (hfailed : s.link.failed x = none)
include hfailed

/-- A push that has failed at its sender fails here (R123). -/
theorem State.receivePart_ended (h : x.ends = some true) : s.receivePart x = s.failPush x 4 := by
  unfold State.receivePart
  dsimp only
  rw [if_neg (mt (Link.hasSeen_iff _ _).1 hseen), if_neg (by rw [hfailed]; exact Bool.false_ne_true), h]

variable (hends : x.ends = none)
include hends

/-- The parts of a push that is paused wait (R222). -/
theorem State.receivePart_waits (h : s.link.held.any (samePush x) = true) : s.receivePart x = none := by
  unfold State.receivePart
  dsimp only
  rw [if_neg (mt (Link.hasSeen_iff _ _).1 hseen), if_neg (by rw [hfailed]; exact Bool.false_ne_true), hends]
  exact if_pos h

variable (hheld : s.link.held.any (samePush x) = false)
include hheld

/-- A part of a push that is under way goes to the buffer that takes the push. -/
theorem State.receivePart_open : s.receivePart x = s.receiveOpen x := by
  unfold State.receivePart
  dsimp only
  rw [if_neg (mt (Link.hasSeen_iff _ _).1 hseen), if_neg (by rw [hfailed]; exact Bool.false_ne_true), hends]
  exact if_neg (ne_true_of_eq_false hheld)

/-- A push that no buffer takes whole fails (R114, R350). -/
theorem State.receivePart_outside (h : s.pushTarget x.dom x.handle (x.lo, x.hi) = none) : s.receivePart x = s.failPush x 1 := by
  rw [State.receivePart_open hseen hfailed hends hheld, State.receiveOpen, h]

variable {b : Shadow} (hb : s.pushTarget x.dom x.handle (x.lo, x.hi) = some b)
include hb

/-- A fault of the buffer's address pauses the push (R113, R196). -/
theorem State.receivePart_fault {f : BitVec 8 × BitVec 8 × Word} (h : s.pushFault b x.runs = some f) :
    s.receivePart x = s.holdPush x f.1 f.2.1 f.2.2 := by
  rw [State.receivePart_open hseen hfailed hends hheld, State.receiveOpen, hb]
  dsimp only
  rw [h]

variable (hfault : s.pushFault b x.runs = none)
include hfault

/-- A fault of the sync word pauses the push (R222). -/
theorem State.receivePart_syncFault {k d : BitVec 8} {v : Word} (h : s.countRuns x b = .fault k d v) : s.receivePart x = s.holdPush x k d v := by
  rw [State.receivePart_open hseen hfailed hends hheld, State.receiveOpen, hb]
  dsimp only
  rw [hfault]
  dsimp only
  rw [h]

/-- A part that lands is counted and noted; without a publication the links alone show that its push goes on or is complete (R122, R350). -/
theorem State.receivePart_lands {z : Nat × Bool × State} (hpub : x.pubc = false) (h : s.countRuns x b = .ok z) :
    ∃ l, s.receivePart x = some { z.2.2 with link := l } ∧ partMark x ∈ l.seen := by
  rw [State.receivePart_open hseen hfailed hends hheld, State.receiveOpen, hb]
  dsimp only
  rw [hfault]
  dsimp only
  rw [h]
  dsimp only
  rw [hpub, if_neg Bool.false_ne_true]
  split
  · exact ⟨_, rfl, (z.2.2.link.sees x).closes_seen x none ▸ z.2.2.link.sees_partMark x⟩
  · exact ⟨_, rfl, (z.2.2.link.sees x).begins_seen x ▸ z.2.2.link.sees_partMark x⟩

end

end Sys2Proof.Machine

namespace Sys2Proof.Machine

/-! ### A push that fails here (R123, R222) -/

/-- ERR is set where the sync word of the buffer can be reached; what accesses spare stands (R123). -/
theorem State.pushErr_reached {s : State} {x : RemotePart}
    (h : ∀ z, s.pushBuffer x.dom x.handle = some z → ∃ pa, s.xlate ⟨z.part, z.asid, 0xFFFFFFFF, none, 0⟩ sysRw z.sync = .phys pa) :
    ∃ t, s.pushErr x = .ok t ∧ t.spared = s.spared ∧ (s.pushBuffer x.dom x.handle = none → t = s) := by
  unfold State.pushErr
  cases hb : s.pushBuffer x.dom x.handle with
  | none => exact ⟨s, rfl, rfl, fun _ => rfl⟩
  | some z =>
    obtain ⟨pa, hx⟩ := h z hb
    dsimp only
    cases hq : s.poisoned pa with
    | true =>
      rw [syncUpdate_poisoned hx hq]
      exact ⟨s, rfl, rfl, fun h => by cases h⟩
    | false =>
      obtain ⟨high, ts, hw⟩ := syncUpdate_still hx hq 0 0 (f := fun w => ({ w with err := true }, false)) (Bool.false_and _)
      rw [hw]
      dsimp only
      have hspared := (State.unitWrite_spared (s.rebaseFor z.part high) z.part 0 ts
        [(pa, natBytes 16 ({ SyncWord.ofNat (s.mem.nat pa 16) with err := true } : SyncWord).toNat)]).trans (s.rebaseFor_spared z.part high)
      exact ⟨_, rfl, hspared, fun h => by cases h⟩

/-- ERR set in the sync word of the buffer of a push (R123). -/
theorem State.pushErr_writes {s : State} {x : RemotePart} {z : Shadow} {pa : Nat} (hb : s.pushBuffer x.dom x.handle = some z)
    (hx : s.xlate ⟨z.part, z.asid, 0xFFFFFFFF, none, 0⟩ sysRw z.sync = .phys pa) (hal : pa % 16 = 0) (hq : s.poisoned pa = false) (hm : s.memWf)
    (hu : s.undisturbed 1) :
    ∃ t, s.pushErr x = .ok t ∧ SyncWritten s pa { SyncWord.ofNat (s.mem.nat pa 16) with err := true } t := by
  obtain ⟨ts, t, hw, hwritten⟩ := syncUpdate_writes hx hq hal hm hu 0 0 (f := fun w => ({ w with err := true }, false)) (SyncWord.fits_ofNat _)
    (Bool.false_and _)
  refine ⟨t, ?_, hwritten⟩
  unfold State.pushErr
  rw [hb]
  dsimp only
  rw [hw]

/-- A fault of the sync word at the end of a push (R222). -/
theorem State.pushErr_fault {s : State} {x : RemotePart} {z : Shadow} {k d : BitVec 8} (hb : s.pushBuffer x.dom x.handle = some z)
    (hx : s.xlate ⟨z.part, z.asid, 0xFFFFFFFF, none, 0⟩ sysRw z.sync = .bad k d) : s.pushErr x = .fault k d z.sync := by
  unfold State.pushErr
  rw [hb]
  dsimp only
  rw [syncUpdate, hx]

/-- A push that fails is closed, and its last lines are cancelled; a part of it that brought no word of its end is noted (R222). -/
theorem State.failPush_ok {s t : State} {x : RemotePart} (h : s.pushErr x = .ok t) (n : Nat) :
    ∃ l, s.failPush x n = some { t.cancelLines (pushWriter x) with link := l } ∧ (l.failed x).isSome = true ∧
      (x.ends = none → partMark x ∈ l.seen) := by
  have hclosed : ((t.closePush x n).link.failed x).isSome = true := (t.cancelLines (pushWriter x)).link.closes_failed x n
  have hlink : ∃ l, t.closePush x n = { t.cancelLines (pushWriter x) with link := l } := ⟨_, rfl⟩
  obtain ⟨l, hl⟩ := hlink
  rw [hl] at hclosed
  unfold State.failPush
  rw [h]
  dsimp only
  rw [hl]
  cases hends : x.ends with
  | some b => exact ⟨l, rfl, hclosed, fun h => by cases h⟩
  | none => exact ⟨l.sees x, rfl, Link.failed_of_dead (l.sees_dead x) x ▸ hclosed, fun _ => l.sees_partMark x⟩

theorem State.failPush_fault {s : State} {x : RemotePart} {k d : BitVec 8} {v : Word} (h : s.pushErr x = .fault k d v) (n : Nat) :
    s.failPush x n = (s.cancelLines (pushWriter x)).holdPush x k d v := by
  unfold State.failPush
  rw [h]

/-! ### A push that pauses here (R222) -/

theorem State.holdPush_held {s : State} {x : RemotePart} (h : s.link.held.any (samePush x) = true) (k d : BitVec 8) (v : Word) :
    s.holdPush x k d v = none := if_pos h

/-- The ENGFLT record of a push of another module at a cycle (R214, R222). -/
def pushRecord (x : RemotePart) (k d : BitVec 8) (v : Word) (cycle : Nat) : EvRec :=
  { type := 3, ctxid := x.src, cause := d.setWidth 64 <<< 8 ||| k.setWidth 64, epc := 0, badva := v, id := x.id, ch := x.ch, cycle := cycle }

/-- A push that pauses here changes the links, and its partition has an ENGFLT record (R222). -/
theorem State.holdPush_pauses {s : State} {x : RemotePart} (h : s.link.held = []) (k d : BitVec 8) (v : Word) :
    ∃ l : Link, s.holdPush x k d v = some (({ s with link := l } : State).raiseEvent x.dom (pushRecord x k d v s.cycle)) ∧ l.held = [x] ∧
      .part x ∈ l.inbox ∧ l.seen = s.link.seen ∧ l.dead = s.link.dead := by
  refine ⟨{ s.link.begins x with held := s.link.held ++ [x], inbox := s.link.inbox ++ [.part x] }, ?_, by rw [h]; rfl,
    List.mem_append_right _ (List.mem_singleton_self _), s.link.begins_seen x, s.link.begins_dead x⟩
  rw [State.holdPush, h]
  rfl

/-! ### The clauses of a part received (R350) -/

section
variable {s : State} {x : RemotePart} (hin : LinkMsg.part x ∈ s.link.inbox)
include hin

/-- A part that arrives again is dropped (R350). -/
theorem remotePart_again (hseen : partMark x ∈ s.link.seen) : exec (.remotePartReceive x) s = .next (s.taken x) := by
  rw [exec_remotePart hin, State.receivePart_seen (s := s.taken x) hseen]
  rfl

variable (hseen : partMark x ∉ s.link.seen)
include hseen

/-- A part of a push that has failed writes nothing (R222). -/
theorem remotePart_failed (hfailed : (s.link.failed x).isSome = true) :
    ∃ t, exec (.remotePartReceive x) s = .next t ∧ t.shadows = s.shadows ∧ t.mem = s.mem ∧ partMark x ∈ t.link.seen := by
  rw [exec_remotePart hin, State.receivePart_failed (s := s.taken x) hseen hfailed, Option.getD_some]
  exact ⟨_, rfl, rfl, rfl, (s.taken x).link.sees_partMark x⟩

variable (hfailed : s.link.failed x = none)
include hfailed

/-- A push whose sender has failed sets ERR in its sync word (R123). -/
theorem remotePart_senderFailed {z : Shadow} {pa : Nat} (hends : x.ends = some true) (hb : s.pushBuffer x.dom x.handle = some z)
    (hx : s.xlate ⟨z.part, z.asid, 0xFFFFFFFF, none, 0⟩ sysRw z.sync = .phys pa) (hal : pa % 16 = 0) (hq : s.poisoned pa = false) (hm : s.memWf)
    (hu : s.undisturbed 1) :
    ∃ t, exec (.remotePartReceive x) s = .next t ∧ (t.link.failed x).isSome = true ∧
      SyncWord.ofNat (t.mem.nat pa 16) = { SyncWord.ofNat (s.mem.nat pa 16) with err := true } ∧
      ∀ j, j < pa ∨ pa + 16 ≤ j → t.mem.read j = s.mem.read j := by
  have hxt : (s.taken x).xlate ⟨z.part, z.asid, 0xFFFFFFFF, none, 0⟩ sysRw z.sync = .phys pa :=
    (State.xlate_of_pageOf rfl (s.pageOf_relinked _ s.shadows _ _)).trans hx
  obtain ⟨t, herr, hw⟩ := State.pushErr_writes (s := s.taken x) (x := x) hb hxt hal hq hm hu
  obtain ⟨l, hfail, hclosed, -⟩ := State.failPush_ok herr 4
  rw [exec_remotePart hin, State.receivePart_ended (s := s.taken x) hseen hfailed hends, hfail, Option.getD_some]
  exact ⟨_, rfl, hclosed, hw.word, hw.frame⟩

variable (hends : x.ends = none)
include hends

/-- A part of a push that is paused waits (R222). -/
theorem remotePart_waits (hheld : s.link.held.any (samePush x) = true) : exec (.remotePartReceive x) s = .next s := by
  rw [exec_remotePart hin, State.receivePart_waits (s := s.taken x) hseen hfailed hends hheld, Option.getD_none]

/-- A push that goes beyond its buffer fails, and writes nothing there (R114, R350). -/
theorem remotePart_outside (hheld : s.link.held.any (samePush x) = false) (htarget : s.pushTarget x.dom x.handle (x.lo, x.hi) = none)
    (hreach : ∀ z, s.pushBuffer x.dom x.handle = some z → ∃ pa, s.xlate ⟨z.part, z.asid, 0xFFFFFFFF, none, 0⟩ sysRw z.sync = .phys pa) :
    ∃ t, exec (.remotePartReceive x) s = .next t ∧ t.shadows = (s.cancelLines (pushWriter x)).shadows ∧ partMark x ∈ t.link.seen ∧
      (t.link.failed x).isSome = true ∧ (s.pushBuffer x.dom x.handle = none → t.mem = s.mem) ∧ t.cur.g = s.cur.g := by
  have hreach' : ∀ z, (s.taken x).pushBuffer x.dom x.handle = some z →
      ∃ pa, (s.taken x).xlate ⟨z.part, z.asid, 0xFFFFFFFF, none, 0⟩ sysRw z.sync = .phys pa := fun z hz =>
    (hreach z hz).imp fun pa hx => (State.xlate_of_pageOf rfl (s.pageOf_relinked _ s.shadows _ _)).trans hx
  obtain ⟨t, herr, hspared, hnone⟩ := State.pushErr_reached hreach'
  obtain ⟨l, hfail, hclosed, hmark⟩ := State.failPush_ok herr 1
  have hshadows : t.shadows = s.shadows := congrArg Spared.shadows hspared
  rw [exec_remotePart hin, State.receivePart_outside (s := s.taken x) hseen hfailed hends hheld htarget, hfail, Option.getD_some]
  refine ⟨_, rfl, ?_, hmark hends, hclosed, fun hb => ?_, congrArg Spared.g hspared⟩
  · rw [State.cancelLines, State.cancelLines, hshadows]
  · rw [hnone hb]
    rfl

/-- A fault of the buffer's address pauses a push, with an ENGFLT record of its partition (R113, R196, R222). -/
theorem remotePart_bufferFault {z : Shadow} {k d : BitVec 8} {v : Word} {p : Part} (htarget : s.pushTarget x.dom x.handle (x.lo, x.hi) = some z)
    (hfault : s.pushFault z x.runs = some (k, d, v)) (hp : s.part? x.dom = some p) (hheld : s.link.held = []) :
    ∃ (t : State) (y : EvRec), exec (.remotePartReceive x) s = .next t ∧ t.link.held = [x] ∧ t.shadows = s.shadows ∧ t.mem = s.mem ∧
      (t.part? p.idx).map (fun q => q.pending) = some (p.pending ++ [y]) ∧ y.type = 3 ∧ y.ctxid = x.src ∧ y.id = x.id ∧ y.badva = v := by
  have hfault' : (s.taken x).pushFault z x.runs = some (k, d, v) := hfault
  obtain ⟨l, hhold, hone, -⟩ := State.holdPush_pauses (s := s.taken x) (x := x) hheld k d v
  have hnone : (s.taken x).link.held.any (samePush x) = false := congrArg (List.any · (samePush x)) hheld
  have hpart : ({ s.taken x with link := l } : State).part? x.dom = some p := hp
  rw [exec_remotePart hin, State.receivePart_fault (s := s.taken x) hseen hfailed hends hnone htarget hfault', hhold, Option.getD_some]
  refine ⟨_, pushRecord x k d v (s.taken x).cycle, rfl, hone, rfl, rfl, ?_, rfl, rfl, rfl, rfl⟩
  rw [State.part?_idx hp, State.part?_raiseEvent hpart]
  rfl

end

end Sys2Proof.Machine

namespace Sys2Proof.Machine

/-! ### A push at a fault of its sync word (R222) -/

theorem State.pushTarget_buffer {s : State} {p h : Nat} {r : Int × Int} {b z : Shadow} (hb : s.pushTarget p h r = some b)
    (hz : s.pushBuffer p h = some z) : b = z := by
  rw [State.pushTarget, hz, Option.bind_some] at hb
  split at hb
  · exact (Option.some.inj hb).symm
  · cases hb

section
variable {s : State} {x : RemotePart} (hseen : partMark x ∉ s.link.seen) (hfailed : s.link.failed x = none) (hends : x.ends ≠ some false)
  {z : Shadow} {k d : BitVec 8} (hb : s.pushBuffer x.dom x.handle = some z)
  (hx : s.xlate ⟨z.part, z.asid, 0xFFFFFFFF, none, 0⟩ sysRw z.sync = .bad k d)
include hseen hfailed hends hb hx

/-- A push whose sync word faults has its part, or the word of its end, wait: the buffer keeps its place and its sync word. -/
theorem State.receivePart_unreached (hruns : x.runs = []) (hheld : s.link.held.any (samePush x) = false) :
    ∃ (shs : List Shadow) (b : Shadow), s.receivePart x = ({ s with shadows := shs } : State).holdPush x k d z.sync ∧
      ({ s with shadows := shs } : State).pushBuffer x.dom x.handle = some b ∧ b.part = z.part ∧ b.asid = z.asid ∧ b.sync = z.sync := by
  have hcancel : ({ s with shadows := (s.cancelLines (pushWriter x)).shadows } : State).pushBuffer x.dom x.handle =
      some (z.cancelled (pushWriter x)) := (s.pushBuffer_cancelLines _ _ _).trans (congrArg _ hb)
  have hfail : ∀ n, s.failPush x n = ({ s with shadows := (s.cancelLines (pushWriter x)).shadows } : State).holdPush x k d z.sync :=
    State.failPush_fault (State.pushErr_fault hb hx)
  cases he : x.ends with
  | some b => cases b with
    | false => exact absurd he hends
    | true => exact ⟨_, _, (State.receivePart_ended hseen hfailed he).trans (hfail 4), hcancel, rfl, rfl, rfl⟩
  | none => cases ht : s.pushTarget x.dom x.handle (x.lo, x.hi) with
    | none => exact ⟨_, _, (State.receivePart_outside hseen hfailed he hheld ht).trans (hfail 1), hcancel, rfl, rfl, rfl⟩
    | some b =>
      have hbz := State.pushTarget_buffer ht hb
      subst hbz
      have hnone : s.pushFault b x.runs = none := by rw [hruns]; rfl
      have hcount : s.countRuns x b = .fault k d b.sync := by
        rw [State.countRuns, hruns]
        unfold syncUpdate State.writeRuns
        rw [List.foldl_nil, hx]
      exact ⟨s.shadows, b, State.receivePart_syncFault hseen hfailed he hheld ht hnone hcount, hb, rfl, rfl, rfl⟩

/-- Nothing of a push goes on while it is paused at a fault of its sync word. -/
theorem State.receivePart_stays (hheld : s.link.held.any (samePush x) = true) : s.receivePart x = none := by
  cases he : x.ends with
  | none => exact State.receivePart_waits hseen hfailed he hheld
  | some b => cases b with
    | false => exact absurd he hends
    | true =>
      rw [State.receivePart_ended hseen hfailed he, State.failPush_fault (State.pushErr_fault hb hx)]
      exact State.holdPush_held (s := s.cancelLines (pushWriter x)) hheld _ _ _

end

/-- A push whose sync word faults pauses with an ENGFLT record, and its part waits until the kernel has answered (R222). -/
theorem remotePart_syncFault {s : State} {x : RemotePart} {z : Shadow} {k d : BitVec 8} {p : Part} (hin : LinkMsg.part x ∈ s.link.inbox)
    (hseen : partMark x ∉ s.link.seen) (hfailed : s.link.failed x = none) (hends : x.ends ≠ some false)
    (hb : s.pushBuffer x.dom x.handle = some z) (hx : s.xlate ⟨z.part, z.asid, 0xFFFFFFFF, none, 0⟩ sysRw z.sync = .bad k d)
    (hp : s.part? x.dom = some p) (hheld : s.link.held = []) (hruns : x.runs = []) :
    ∃ (t : State) (y : EvRec), exec (.remotePartReceive x) s = .next t ∧ t.link.held = [x] ∧ .part x ∈ t.link.inbox ∧
      partMark x ∉ t.link.seen ∧ (t.part? p.idx).map (fun q => q.pending) = some (p.pending ++ [y]) ∧ y.type = 3 ∧ y.ctxid = x.src ∧ y.id = x.id ∧
      y.ch = x.ch ∧ y.badva = z.sync ∧ t.mem = s.mem ∧ exec (.remotePartReceive x) t = .next t := by
  have hx' : (s.taken x).xlate ⟨z.part, z.asid, 0xFFFFFFFF, none, 0⟩ sysRw z.sync = .bad k d :=
    (State.xlate_of_pageOf rfl (s.pageOf_relinked _ s.shadows _ _)).trans hx
  obtain ⟨shs, b, hreceive, hbuffer, hbpart, hbasid, hbsync⟩ := State.receivePart_unreached (s := s.taken x) hseen hfailed hends hb hx' hruns
    (congrArg (List.any · (samePush x)) hheld)
  obtain ⟨l, hhold, hone, hinbox, hsame, hdead⟩ :=
    State.holdPush_pauses (s := { s.taken x with shadows := shs }) (x := x) hheld k d z.sync
  have hpart : ({ s with shadows := shs, link := l } : State).part? x.dom = some p := hp
  have hpage := fun c va => (State.pageOf_raiseEvent { s with shadows := shs, link := l } x.dom (pushRecord x k d z.sync s.cycle) c va).trans
    (s.pageOf_relinked l shs c va)
  have hthis : exec (.remotePartReceive x) s =
      .next (({ s with shadows := shs, link := l } : State).raiseEvent x.dom (pushRecord x k d z.sync s.cycle)) := by
    rw [exec_remotePart hin, hreceive, hhold]
    rfl
  have hpending := congrArg (Option.map fun q : Part => q.pending) (State.part?_raiseEvent hpart (pushRecord x k d z.sync s.cycle))
  have hlink := State.raiseEvent_link { s with shadows := shs, link := l } x.dom (pushRecord x k d z.sync s.cycle)
  have hshadows := State.raiseEvent_shadows { s with shadows := shs, link := l } x.dom (pushRecord x k d z.sync s.cycle)
  have hmem := State.raiseEvent_mem { s with shadows := shs, link := l } x.dom (pushRecord x k d z.sync s.cycle)
  generalize ({ s with shadows := shs, link := l } : State).raiseEvent x.dom (pushRecord x k d z.sync s.cycle) = t at hthis hpending hpage hlink hshadows hmem
  dsimp only at hlink hshadows hmem
  have hseen' : partMark x ∉ t.link.seen := by
    rw [hlink, hsame]
    exact hseen
  have hbuffer' : (t.taken x).pushBuffer x.dom x.handle = some b := by
    unfold State.pushBuffer State.shadow? State.taken at hbuffer ⊢
    rw [hshadows]
    exact hbuffer
  have hfault : (t.taken x).xlate ⟨b.part, b.asid, 0xFFFFFFFF, none, 0⟩ sysRw b.sync = .bad k d := by
    rw [hbpart, hbasid, hbsync, ← hx]
    exact State.xlate_of_pageOf rfl ((t.pageOf_relinked _ t.shadows _ _).trans (hpage _ _))
  have hfailed' : t.link.failed x = none := (Link.failed_of_dead ((congrArg Link.dead hlink).trans hdead) x).trans hfailed
  have hheld' : t.link.held.any (samePush x) = true := by rw [hlink, hone, List.any_cons, samePush_self, Bool.true_or]
  have hstays := State.receivePart_stays (s := t.taken x) hseen' hfailed' hends hbuffer' hfault hheld'
  refine ⟨t, pushRecord x k d z.sync s.cycle, hthis, hlink ▸ hone, hlink ▸ hinbox, hseen', ?_, rfl, rfl, rfl, rfl, rfl, hmem, ?_⟩
  · rw [State.part?_idx hp]
    exact hpending
  · rw [exec_remotePart (hlink ▸ hinbox), hstays, Option.getD_none]

/-! ### A part that lands (R350) -/

/-- A buffer changed is found in its place, with the change. -/
theorem State.modShadow_shadow? {s : State} {p h : Nat} {b : Shadow} (hb : s.shadow? p h = some b) {f : Shadow → Shadow}
    (hpart : ∀ b, (f b).part = b.part) (hhandle : ∀ b, (f b).handle = b.handle) : (s.modShadow p h f).shadow? p h = some (f b) := by
  have hkey : ((fun b : Shadow => decide (b.part = p ∧ b.handle = h)) ∘ fun b => if b.part = p ∧ b.handle = h then f b else b) =
      fun b => decide (b.part = p ∧ b.handle = h) := by
    funext b
    dsimp only [Function.comp_apply]
    split
    · rw [hpart, hhandle]
    · rfl
  have hin : b.part = p ∧ b.handle = h := of_decide_eq_true (List.find?_some (p := fun b : Shadow => decide (b.part = p ∧ b.handle = h)) hb)
  unfold State.shadow? at hb
  unfold State.shadow? State.modShadow
  rw [List.find?_map, hkey, hb, Option.map_some, if_pos hin]

/-- Bytes within one line that an engine writes to a buffer stand in the shadow of that line, which is written (R115). -/
theorem State.shadowWrite_line {s : State} {p h : Nat} {b : Shadow} (hoff : ∀ q ∈ s.parts, q.db.dbctl.getLsbD 62 = false)
    (hb : s.shadow? p h = some b) (writer : Nat) {o : Nat} {bs : List Byte} (hne : bs ≠ []) (hfit : o % 128 + bs.length ≤ 128) :
    ∃ (shs : List Shadow) (y : Shadow) (l : ShLine), s.shadowWrite p h writer o bs = { s with shadows := shs } ∧
      ({ s with shadows := shs } : State).shadow? p h = some y ∧ Tab.get y.lines (o / 128) = some l ∧ l.written = true ∧
      lineBytes l.data (o % 128) bs.length = bs := by
  have hcapture : s.captureShadow (s.writerLaunch writer) b ([(o, bs)].map fun w => w.1 / 128) = s := State.captureOld_off hoff _ _
  have hmod : ∀ ls : Tab ShLine, (s.modShadow p h fun b => { b with lines := ls }).shadow? p h = some { b with lines := ls } :=
    fun ls => State.modShadow_shadow? hb (fun _ => rfl) fun _ => rfl
  unfold State.shadowWrite
  rw [hb, pieces_within hne hfit]
  dsimp only
  rw [hcapture, List.foldl_cons, List.foldl_nil]
  exact ⟨_, _, _, rfl, hmod _, tab_get_set_same _ _ _, rfl, lineBytes_putBytes _ hfit⟩

/-- A part of a push lands in the shadow of its buffer, and is counted once (R114, R122, R350). -/
theorem remotePart_lands {s : State} {x : RemotePart} {z : Shadow} {o pa : Nat} {bs : List Byte} (hin : LinkMsg.part x ∈ s.link.inbox)
    (hseen : partMark x ∉ s.link.seen) (hfailed : s.link.failed x = none) (hends : x.ends = none) (hheld : s.link.held.any (samePush x) = false)
    (htarget : s.pushTarget x.dom x.handle (x.lo, x.hi) = some z) (hfault : s.pushFault z x.runs = none) (hpub : x.pubc = false)
    (hruns : x.runs = [(o, bs)]) (hne : bs ≠ []) (hfit : o % 128 + bs.length ≤ 128)
    (hx : s.xlate ⟨z.part, z.asid, 0xFFFFFFFF, none, 0⟩ sysRw z.sync = .phys pa) (hal : pa % 16 = 0) (hq : s.poisoned pa = false) (hm : s.memWf)
    (hu : s.undisturbed 1) (hgen : ((SyncWord.ofNat (s.mem.nat pa 16)).counted bs.length).1.pub = false) :
    ∃ (t : State) (y : Shadow) (l : ShLine), exec (.remotePartReceive x) s = .next t ∧
      SyncWord.ofNat (t.mem.nat pa 16) = ((SyncWord.ofNat (s.mem.nat pa 16)).counted bs.length).1 ∧ t.shadow? x.dom x.handle = some y ∧
      Tab.get y.lines (o / 128) = some l ∧ l.written = true ∧ lineBytes l.data (o % 128) bs.length = bs ∧ partMark x ∈ t.link.seen ∧
      t.cur.g = s.cur.g := by
  obtain ⟨hroom, hoff⟩ := hu
  obtain ⟨c, hc, -⟩ := Option.bind_eq_some_iff.1 htarget
  obtain ⟨b, hb, -⟩ := Option.bind_eq_some_iff.1 hc
  obtain ⟨shs, y, l, hwrite, hy, hl, hwritten, hbytes⟩ := State.shadowWrite_line (s := s.taken x) hoff hb (pushWriter x) hne hfit
  have hx' : ({ s.taken x with shadows := shs } : State).xlate ⟨z.part, z.asid, 0xFFFFFFFF, none, 0⟩ sysRw z.sync = .phys pa :=
    (State.xlate_of_pageOf rfl (s.pageOf_relinked _ shs _ _)).trans hx
  obtain ⟨ts, t, hsync, hword, -, hspared⟩ := syncUpdate_writes (s := { s.taken x with shadows := shs }) hx' hq hal hm ⟨hroom, hoff⟩ 0 0
    (f := fun w => w.counted bs.length) ((SyncWord.fits_ofNat _).counted _) ((congrArg (_ && ·) hgen).trans (Bool.and_false _))
  have hcount : (s.taken x).countRuns x z = .ok (ts, false, t) := by
    rw [State.countRuns, hruns, State.writeRuns, List.foldl_cons, List.foldl_nil, List.foldl_cons, List.foldl_nil, hwrite, Nat.zero_add]
    exact hsync
  obtain ⟨k, hreceive, hmark⟩ := State.receivePart_lands (s := s.taken x) hseen hfailed hends hheld htarget hfault hpub hcount
  have hshadows : t.shadows = shs := congrArg Spared.shadows hspared
  refine ⟨{ t with link := k }, y, l, ?_, hword, ?_, hl, hwritten, hbytes, hmark, congrArg Spared.g hspared⟩
  · rw [exec_remotePart hin, hreceive, Option.getD_some]
  · unfold State.shadow? at hy ⊢
    rw [hshadows]
    exact hy

end Sys2Proof.Machine

namespace Sys2Proof.Machine

/-! ### Contributions (R221, R351) -/

/-- Whether a contribution of the same member under the same tag has arrived. -/
def State.contributed (s : State) (x : CollPart) : Bool := s.link.contribs.any fun y => decide (y.grp = x.grp ∧ y.seq = x.seq ∧ y.dev = x.dev)

/-- A contribution taken from the messages that the link has accepted. -/
def State.takenContribution (s : State) (x : CollPart) : State := { s with link := { s.link with inbox := s.link.inbox.erase (.contribution x) } }

theorem exec_contribution_absent {s : State} {x : CollPart} (h : LinkMsg.contribution x ∉ s.link.inbox) :
    exec (.collContributionReceive x) s = .next s := by
  have hx : exec (.collContributionReceive x) s = execCollContributionReceive x s := rfl
  rw [hx, execCollContributionReceive, State.accepted, if_neg (mt List.contains_iff_mem.1 h)]
  rfl

section
variable {s : State} {x : CollPart} (hin : LinkMsg.contribution x ∈ s.link.inbox)
include hin

/-- A contribution that has arrived is dropped (R221). -/
theorem exec_contribution_again (h : s.contributed x = true) : exec (.collContributionReceive x) s = .next (s.takenContribution x) := by
  have hx : exec (.collContributionReceive x) s = execCollContributionReceive x s := rfl
  rw [hx, execCollContributionReceive, State.accepted, if_pos (List.contains_iff_mem.2 hin)]
  dsimp only
  unfold State.contributed at h
  rw [if_pos h]
  rfl

/-- A contribution is kept once (R351). -/
theorem exec_contribution_kept (h : s.contributed x = false) : exec (.collContributionReceive x) s =
    .next { s.takenContribution x with link := { (s.takenContribution x).link with contribs := s.link.contribs ++ [x] } } := by
  have hx : exec (.collContributionReceive x) s = execCollContributionReceive x s := rfl
  rw [hx, execCollContributionReceive, State.accepted, if_pos (List.contains_iff_mem.2 hin)]
  dsimp only
  unfold State.contributed at h
  rw [if_neg (ne_true_of_eq_false h)]
  rfl

end

/-- Settles O51: SyncCount by its cases, a command's steps by what it does next, a push by what its part meets at the receiving engine, and a
contribution by whether it has arrived. -/
theorem enginesRunCommands : Obligations.EnginesRunCommands := by
  unfold Obligations.EnginesRunCommands
  refine ⟨fun w n _ => w.counted_cases n, fun s n c h hended => ?_, fun s x => ?_, fun s x => ?_⟩
  · refine ⟨exec_engineErrorRepair h, fun ws o z t hruns hw href hread hput hcount => ?_, fun pa hruns hw => ?_,
      fun pa hst hse hp hl hf hpub h0 h32 hal hx => command_completes h hended hst hse hp hl hf hpub h0 h32 hal hx,
      fun k hst hse hw hp => command_refused h hended hst hse hw hp, fun r k e v p => command_pauses h⟩
    · obtain ⟨hst, hse, hfn, hcoll, hleft⟩ := hruns
      refine exec_syncCount h ?_
      rw [State.engNext_part hended hst hse hcoll hleft fun hp _ => href hp, nextPart_writes hfn hw hread hput]
      exact hcount
    · obtain ⟨hst, hse, hfn, hcoll, hleft⟩ := hruns
      exact command_counts h hended hst hse hfn hcoll hleft hw
  · exact ⟨exec_remotePart_absent, remotePart_again, fun hin hseen hfailed hends hheld htarget hreach =>
      remotePart_outside hin hseen hfailed hends hheld htarget hreach, remotePart_failed,
      fun z k d p hin hseen hfailed hends => remotePart_syncFault hin hseen hfailed hends,
      fun z pa hin hseen hfailed => remotePart_senderFailed hin hseen hfailed, remotePart_waits,
      fun z k d v p hin hseen hfailed hends => remotePart_bufferFault hin hseen hfailed hends,
      fun z o bs pa hin hseen hfailed hends => remotePart_lands hin hseen hfailed hends⟩
  · exact ⟨exec_contribution_absent, exec_contribution_again, fun hin h => ⟨_, exec_contribution_kept hin h, rfl, rfl, rfl, rfl⟩⟩

end Sys2Proof.Machine

namespace Sys2Proof.Machine

/-! ### Markers of the queue (R29, R160, R162) -/

section
variable {s : State} {op : QOp} {can : Bool} {fire : State → State} {f : State → Res Unit}

/-- A context without lanes or queued work fires its marker at issue (R29). -/
theorem putMarker_fires (hown : (s.core s.cur.id.place).holder ≠ some s.cur.id.ctxid) (hq : s.queue = []) (hcan : can = true) :
    putMarker s op can fire f = f (fire s) := by
  unfold putMarker
  dsimp only
  rw [decide_eq_false hown, hq, hcan]
  rfl

/-- A context that holds the lanes pushes its marker (R29). -/
theorem putMarker_pushes (h : s.canPush) :
    putMarker s op can fire f = f (s.enqueue (s.entry s.cur.pc s.cur.ir ⟨op, 0, 0, 0, false, false⟩ 0 0)) := by
  obtain ⟨hown, hroom⟩ := h
  unfold putMarker
  dsimp only
  rw [decide_eq_true hown, if_neg (by simp), if_neg (Nat.not_le.2 hroom)]

end

/-! ### Launches that are there -/

/-- A launch that holds anything stands among the launches. -/
theorem State.find_launchOf {s : State} {i : Nat} (h : s.launchOf i ≠ Launch.empty) :
    s.launches.find? (fun x => x.id == i) = some (s.launchOf i) := by
  unfold State.launchOf at h ⊢
  cases hf : s.launches.find? fun x => x.id == i with
  | some l => rfl
  | none => rw [hf] at h; exact absurd rfl h

/-! ### Arrivals at a barrier (R160) -/

/-- A barrier at a node with one arrival more: one that completes the generation advances it, and records the largest PTS of its arrivals. -/
def BarInst.counted (i : BarInst) (need pts : Nat) : BarInst :=
  if need ≤ i.count + 1 then ⟨0, i.gen + 1, max i.maxPts pts, 0⟩ else ⟨i.count + 1, i.gen, i.ts, max i.maxPts pts⟩

/-- The record of a barrier at a node of a launch; one at which none has arrived is in its first generation. -/
def Launch.bar (l : Launch) (b node : Nat) : BarInst := (Tab.get l.bars (barKey b node)).getD ⟨0, 0, 0, 0⟩

/-- The arrivals that complete a generation of a barrier at a node (R146). -/
def Launch.need (l : Launch) (lvl pcnt : Nat) : Nat := if pcnt = 0 then l.lrec.below lvl else pcnt

/-- The launch with one arrival more at a node. -/
def State.barCounted (s : State) (launch b lvl pcnt node pts : Nat) : State :=
  s.modLaunch launch fun x => { x with
    bars := Tab.set x.bars (barKey b node) (((s.launchOf launch).bar b node).counted ((s.launchOf launch).need lvl pcnt) pts) }

/-- An arrival is counted, and one that completes the generation releases the threads that wait for it (R160, R161). -/
theorem State.countArrival_eq (s : State) (launch b lvl pcnt node pts : Nat) : s.countArrival launch b lvl pcnt node pts =
    if (s.launchOf launch).need lvl pcnt ≤ ((s.launchOf launch).bar b node).count + 1 then
      ((s.barCounted launch b lvl pcnt node pts).releaseBar launch b node (max ((s.launchOf launch).bar b node).maxPts pts)).sendNotice
        (s.barPorts (s.launchOf launch).lrec lvl)
    else s.barCounted launch b lvl pcnt node pts := by
  by_cases h : (s.launchOf launch).need lvl pcnt ≤ ((s.launchOf launch).bar b node).count + 1
  · rw [if_pos h, State.barCounted, BarInst.counted, if_pos h]
    unfold Launch.need Launch.bar at h
    simp only [State.countArrival, decide_eq_true h]
    rfl
  · rw [if_neg h, State.barCounted, BarInst.counted, if_neg h]
    unfold Launch.need Launch.bar at h
    simp only [State.countArrival, decide_eq_false h]
    rfl

/-- A generation's release leaves the current thread's identity and its queue as they are. -/
theorem State.releaseBar_frame (s : State) (launch b node ts : Nat) :
    (s.releaseBar launch b node ts).cur.id = s.cur.id ∧ (s.releaseBar launch b node ts).queue = s.queue := by
  unfold State.releaseBar State.modThreads State.queue
  dsimp only
  split
  · split
    · split
      · exact ⟨rfl, rfl⟩
      · exact ⟨rfl, rfl⟩
    · exact ⟨rfl, rfl⟩
  · exact ⟨rfl, rfl⟩

/-- Of the current thread, an arrival that is counted leaves the identity and the queue as they are; of the launches it changes the barrier's record. -/
theorem State.countArrival_frame (s : State) (launch b lvl pcnt node pts : Nat) : let t := s.countArrival launch b lvl pcnt node pts
    t.launches = (s.barCounted launch b lvl pcnt node pts).launches ∧ t.cur.id = s.cur.id ∧ t.queue = s.queue := by
  dsimp only
  rw [State.countArrival_eq]
  split
  · obtain ⟨k, hk⟩ := State.sendNotice_link _ _
    rw [hk]
    exact ⟨rfl, (s.barCounted launch b lvl pcnt node pts).releaseBar_frame _ _ _ _⟩
  · exact ⟨rfl, rfl, rfl⟩

/-- An arrival counted at a node of a launch stands there (R160). -/
theorem State.countArrival_bar {s : State} {launch : Nat} (h : s.launchOf launch ≠ Launch.empty) (b lvl pcnt node pts : Nat) :
    Tab.get ((s.countArrival launch b lvl pcnt node pts).launchOf launch).bars (barKey b node) =
      some (((s.launchOf launch).bar b node).counted ((s.launchOf launch).need lvl pcnt) pts) := by
  obtain ⟨hlaunches, -, -⟩ := s.countArrival_frame launch b lvl pcnt node pts
  have hof : (s.countArrival launch b lvl pcnt node pts).launchOf launch = (s.barCounted launch b lvl pcnt node pts).launchOf launch := by
    rw [State.launchOf, hlaunches, State.launchOf]
  rw [hof, State.barCounted, State.launchOf_modLaunch (State.find_launchOf h)]
  · exact tab_get_set_same _ _ _
  · exact fun _ => rfl

/-- The current thread with its latest arrival at a barrier, whose generation is not complete (R160). -/
def State.arrives (s : State) (b node : Nat) : State :=
  { s with cur := { s.cur with
    arrivals := Tab.set s.cur.arrivals b ⟨node, ((Tab.get s.launch.bars (barKey b node)).map fun i => i.gen).getD 0, none⟩ } }

/-- A marker fires as one arrival at its barrier, where this module holds it (R160, R161). -/
theorem State.fireBar_held {s : State} {b : Nat} {e : BarEntry} (he : s.launch.lrec.bars[b]? = some e)
    (hheld : s.heldElsewhere s.launch.lrec e.lvl = false) : let node := s.cur.id.node s.launch.lrec e.lvl
    s.fireBar b = (s.arrives b node).countArrival s.cur.id.launch b e.lvl e.pcnt node s.cur.sys.pts := by
  dsimp only
  unfold State.fireBar
  dsimp only
  rw [he]
  dsimp only
  exact if_neg (ne_true_of_eq_false hheld)

/-! ### BAR (R160, R341) -/

/-- A barrier of the thread's own stage passes the check (R146, R341). -/
theorem checkBar_own {s : State} {n : BitVec 7} {e : BarEntry} (he : s.launch.lrec.bars[n.toNat]? = some e) (hstg : e.stg = s.cur.id.stage)
    (f : Res Unit) : checkBar s n f = f := by
  unfold checkBar
  rw [he]
  exact if_pos hstg

section
variable {s : State} {n : BitVec 7} {e : BarEntry} (he : s.launch.lrec.bars[n.toNat]? = some e) (hstg : e.stg = s.cur.id.stage)
include he hstg

theorem exec_barArrive : exec (.barArrive n) s =
    finish (putMarker s (.bar n.toNat) (s.mayArrive n.toNat) (fun s => s.fireBar n.toNat) fun s => done s.retire) := by
  have hx : exec (.barArrive n) s = execBarArrive n s := rfl
  rw [hx, execBarArrive, checkBar_own he hstg]

theorem exec_barWait : exec (.barWait n) s = finish (waitBar s n.toNat) := by
  have hx : exec (.barWait n) s = execBarWait n s := rfl
  rw [hx, execBarWait, checkBar_own he hstg]

/-- BAR.ARRWAIT that stands pushed waits as BAR.WAIT does (R341). -/
theorem exec_barArrwait_waits (hw : s.cur.wait = some (.bar n.toNat)) : exec (.barArrwait n) s = finish (waitBar s n.toNat) := by
  have hx : exec (.barArrwait n) s = execBarArrwait n s := rfl
  rw [hx, execBarArrwait, checkBar_own he hstg, if_pos hw]

end

section
variable {s : State} {b : Nat} (hqueued : s.barQueued b = false)
include hqueued

/-- The wait of a thread with no arrival outstanding is over (R160). -/
theorem waitBar_none (ha : s.cur.arrival b = none) : waitBar s b = done s.retire := by
  unfold waitBar
  rw [hqueued, ha]
  rfl

/-- The wait for a generation that has completed ends with PTS raised to its firing timestamp (R160). -/
theorem waitBar_fired {a : Arrival} {ts : Nat} (ha : s.cur.arrival b = some a) (hts : a.fired = some ts) :
    waitBar s b = done (s.setPts (max s.cur.sys.pts ts)).retire := by
  unfold waitBar
  rw [hqueued, ha]
  dsimp only
  rw [hts]
  rfl

end

/-- A marker of the oldest entry fires, and its entry leaves the queue (R160). -/
theorem exec_barMarkerFire {s : State} {c b : Nat} {q : QEntry} (hh : s.heads c q) (hop : q.op = .bar b) (hmay : s.mayArrive b = true) :
    exec (.barMarkerFire c) s = .next (s.fireBar b).popQueue := by
  obtain ⟨rfl, hst, -, hq⟩ := hh
  obtain ⟨r, hr⟩ := List.head?_eq_some_iff.1 hq
  have hx : exec (.barMarkerFire s.cur.id.ctxid) s = execBarMarkerFire s.cur.id.ctxid s := rfl
  rw [hx, execBarMarkerFire, State.focus_self, Option.bind_some, decide_eq_true hst, hr]
  dsimp only
  rw [hop]
  dsimp only
  rw [if_pos hmay]
  rfl

/-- Settles O33: a marker fires at issue or is pushed, a wait is over once nothing is outstanding or the generation has fired, and a marker at the
head of the queue counts one arrival. -/
theorem barriersArriveAndWait : Obligations.BarriersArriveAndWait := by
  unfold Obligations.BarriersArriveAndWait
  refine ⟨fun s n e he hstg => ⟨fun hown hq hmay => ?_, fun hp => ?_, fun hqueued ha => ?_, fun a ts hqueued ha hts => ⟨?_, fun hw => ?_⟩⟩,
    fun s c q b e hh hop hmay he hid hheld => ?_⟩
  · rw [exec_barArrive he hstg, putMarker_fires hown hq hmay, finish_done]
  · rw [exec_barArrive he hstg, putMarker_pushes hp]
    exact ⟨_, rfl, List.map_append, rfl⟩
  · rw [exec_barWait he hstg, waitBar_none hqueued ha, finish_done]
  · rw [exec_barWait he hstg, waitBar_fired hqueued ha hts, finish_done]
  · rw [exec_barArrwait_waits he hstg hw, waitBar_fired hqueued ha hts, finish_done]
  · intro need key i
    have hthere : s.launchOf s.cur.id.launch ≠ Launch.empty := by
      intro h
      rw [State.launch, h] at he
      exact absurd he (by simp [Launch.empty, LaunchRec.empty])
    obtain ⟨-, hcur, hqueue⟩ := (s.arrives b (s.cur.id.node s.launch.lrec e.lvl)).countArrival_frame s.cur.id.launch b e.lvl e.pcnt
      (s.cur.id.node s.launch.lrec e.lvl) s.cur.sys.pts
    have hbar := State.countArrival_bar (s := s.arrives b (s.cur.id.node s.launch.lrec e.lvl)) hthere b e.lvl e.pcnt
      (s.cur.id.node s.launch.lrec e.lvl) s.cur.sys.pts
    rw [← State.fireBar_held he hheld] at hcur hqueue hbar
    have hkey : Tab.get (s.fireBar b).popQueue.launch.bars key = some (i.counted need s.cur.sys.pts) := by
      have hl : (s.fireBar b).popQueue.launch = (s.fireBar b).launchOf s.cur.id.launch :=
        congrArg (fun x : Ident => (s.fireBar b).launchOf x.launch) hcur
      rw [hl]
      exact hbar
    refine ⟨_, exec_barMarkerFire hh hop hmay, ?_, fun h => hkey.trans ?_, fun h => hkey.trans ?_⟩
    · have hpop : (s.fireBar b).popQueue.queue = (s.fireBar b).queue.drop 1 := rfl
      rw [hpop, hqueue]
      exact List.drop_one
    · rw [BarInst.counted, if_neg (Nat.not_le.2 h)]
    · rw [BarInst.counted, if_pos h]

end Sys2Proof.Machine

namespace Sys2Proof.Machine

/-! ### POST, WAITI and WAITV (R162, R163, R342, R343) -/

/-- A channel that exists passes the check in a launch with a ring (R342). -/
theorem checkRing_ok {s : State} {k : BitVec 6} (hk : k.toNat < 16) (hring : s.launch.lrec.ring = true) (f : Res Unit) : checkRing s k f = f := by
  unfold checkRing
  rw [decide_eq_false (Nat.not_le.2 hk), hring]
  rfl

section
variable {s : State} {k n : Nat} {its : List Nat} {f : State → Res Unit}

/-- A wait whose iterations are all posted goes on at the channel's timestamp (R163). -/
theorem waitRing_posted (h : ∀ i ∈ its, i < (s.ring k).frontier) : waitRing s k n its f = f (s.setPts (max s.cur.sys.pts (s.ring k).ts)) := by
  unfold waitRing
  exact if_pos (List.all_eq_true.2 fun i hi => decide_eq_true (h i hi))

/-- A wait with an iteration that is not posted stays armed (R163). -/
theorem waitRing_waits (h : ¬ ∀ i ∈ its, i < (s.ring k).frontier) : waitRing s k n its f = .wait (.ring k n its) s := by
  unfold waitRing
  exact if_neg fun hall => h fun i hi => of_decide_eq_true (List.all_eq_true.1 hall i hi)

end

/-- A register that no stream is bound to is read as it stands (R74). -/
theorem popScalar_unbound {s : State} (h : s.cur.vec.streams = []) (r : Nat) (f : State → Res Unit) : popScalar s r f = f s := by
  unfold popScalar State.isBuffer
  rw [h]
  rfl

section
variable {s : State} {k a : BitVec 6} (ha : s.usable a) (hk : k.toNat < 16) (hring : s.launch.lrec.ring = true)
include ha hk hring

theorem exec_post : exec (.post k a) s = finish (putMarker s (.post k.toNat (s.x a.toNat).toNat) (s.mayPost k.toNat (s.x a.toNat).toNat)
    (fun t => t.firePost k.toNat (s.x a.toNat).toNat) fun t => done t.retire) := by
  have hx : exec (.post k a) s = execPost k a s := rfl
  rw [hx, execPost, checkRing_ok hk hring, readG_usable ha]

/-- WAITI of a posted iteration is over (R163, R342). -/
theorem exec_waiti_posted (hw : s.cur.wait = none) (h : (s.x a.toNat).toNat < (s.ring k.toNat).frontier) :
    exec (.waiti k a) s = .next (s.setPts (max s.cur.sys.pts (s.ring k.toNat).ts)).retire := by
  have hx : exec (.waiti k a) s = execWaiti k a s := rfl
  rw [hx, execWaiti, checkRing_ok hk hring, readG_usable ha, hw]
  dsimp only
  rw [if_pos h]
  rfl

end

section
variable {s : State} {d k b : BitVec 6} (hd : s.usable d) (hk : k.toNat < 16) (hring : s.launch.lrec.ring = true) (hb : b.toNat < s.nv)
include hd hk hring hb

/-- WAITV whose entries are armed goes on waiting for them (R343). -/
theorem exec_waitv_armed {m n : Nat} {its : List Nat} (hw : s.cur.wait = some (.ring m n its)) :
    exec (.waitv d k b) s = finish (waitRing s k.toNat n its fun s => done s.retire) := by
  have hx : exec (.waitv d k b) s = execWaitv d k b s := rfl
  rw [hx, execWaitv, checkG_usable hd, checkRing_ok hk hring, if_neg (Nat.not_le.2 hb), hw]

/-- WAITV of no elements is over with 0 (R343). -/
theorem exec_waitv_empty (hw : s.cur.wait = none) (hq : s.queue = []) (hvl : s.vl = 0) :
    exec (.waitv d k b) s = .next ((s.setPts (max s.cur.sys.pts (s.ring k.toNat).ts)).setX d.toNat 0).retire := by
  have hx : exec (.waitv d k b) s = execWaitv d k b s := rfl
  rw [hx, execWaitv, checkG_usable hd, checkRing_ok hk hring, if_neg (Nat.not_le.2 hb), hw, State.vecQuiet_of_empty hq]
  dsimp only
  rw [if_neg (by decide), if_pos hvl]
  rfl

/-- WAITV arms an entry for each element, as many as the core has free, writes their number, and waits for them (R163, R343). -/
theorem exec_waitv_arms (hw : s.cur.wait = none) (hq : s.queue = []) (hvl : s.vl ≠ 0) (hs : s.settled) (hused : s.ringUsed < 32) {n : Nat}
    (hn : n = min s.vl (32 - s.ringUsed)) :
    exec (.waitv d k b) s = finish (waitRing (s.setX d.toNat (BitVec.ofNat 64 n)) k.toNat n
      (s.elems b.toNat (2 ^ s.cur.sys.sewc.toNat) n) fun s => done s.retire) := by
  subst hn
  obtain ⟨hstreams, -, htag⟩ := hs
  have hx : exec (.waitv d k b) s = execWaitv d k b s := rfl
  rw [hx, execWaitv, checkG_usable hd, checkRing_ok hk hring, if_neg (Nat.not_le.2 hb), hw, State.vecQuiet_of_empty hq]
  dsimp only
  rw [if_neg (by decide), if_neg hvl, if_neg (not_not.2 (htag _)), if_neg (Nat.not_le.2 hused), popScalar_unbound hstreams]

end

/-- A channel of the ring does not depend on the scalar registers. -/
theorem State.setX_ring (s : State) (n : Nat) (v : Word) (k : Nat) : (s.setX n v).ring k = s.ring k := by
  unfold State.ring State.launch State.launchOf
  rw [State.setX_launches, State.setX_cur_id]

/-- A register number that is not 0 names a register other than g0. -/
theorem toNat_ne_zero {w : Nat} {d : BitVec w} (h : d ≠ 0) : d.toNat ≠ 0 := fun h0 => h (BitVec.eq_of_toNat_eq (h0.trans (BitVec.toNat_zero).symm))

/-- Settles O34: a post fires at issue, and a wait is over, or armed, as its iterations lie below the channel's frontier. -/
theorem ringPostsAndWaits : Obligations.RingPostsAndWaits := by
  unfold Obligations.RingPostsAndWaits
  intro s d k a b hd ha hk hring hb x
  refine ⟨fun hown hq hin => ?_, fun hw hin => exec_waiti_posted ha hk hring hw hin, fun hw hq hvl => exec_waitv_empty hd hk hring hb hw hq hvl,
    fun m n its hw hall => ?_, fun hw hq hvl hs hused => ?_⟩
  · have hmay : s.mayPost k.toNat x = true := decide_eq_true hin
    rw [exec_post ha hk hring, putMarker_fires hown hq hmay, finish_done]
  · rw [exec_waitv_armed hd hk hring hb hw, waitRing_posted hall, finish_done]
  · intro n its r
    rw [exec_waitv_arms hd hk hring hb hw hq hvl hs hused (n := n) rfl]
    have hstays : (s.setX d.toNat (BitVec.ofNat 64 n)).ring k.toNat = r := s.setX_ring _ _ _
    refine ⟨fun hall => ?_, fun hnot => ?_⟩
    · rw [waitRing_posted (by rwa [hstays]), finish_done, hstays, State.setX_cur_sys]
    · rw [waitRing_waits (by rwa [hstays]), finish_wait]
      exact ⟨_, rfl, fun h0 => s.x_setX_same _ (toNat_ne_zero h0) hd.1, fun j hj => s.x_setX_other _ hj, rfl, rfl, State.setX_cur_pc _ _ _,
        State.setX_mem _ _ _⟩

end Sys2Proof.Machine

namespace Sys2Proof.Machine

/-! ### Inheritance (R157) -/

/-- What inheritance changes of a thread: the priority that it has inherited, its effective priority, and its place in a rotation. -/
theorem State.inheritOnce_eq (s : State) : ∃ r e n a k os, s.inheritOnce =
    { s with
      cur := { s.cur with raised := r, turn := n, turnAt := a, sliceUsed := k, sys := { s.cur.sys with eprio := e } }
      others := os } := by
  unfold State.inheritOnce State.modThreads
  dsimp only
  split
  · exact ⟨_, _, _, _, _, _, rfl⟩
  · exact ⟨_, _, _, _, _, _, rfl⟩

theorem State.inherit_eq (s : State) : ∃ r e n a k os, s.inherit =
    { s with
      cur := { s.cur with raised := r, turn := n, turnAt := a, sliceUsed := k, sys := { s.cur.sys with eprio := e } }
      others := os } := by
  unfold State.inherit
  refine List.foldlRecOn _ _ (motive := fun t : State => ∃ r e n a k os, t = { s with
    cur := { s.cur with raised := r, turn := n, turnAt := a, sliceUsed := k, sys := { s.cur.sys with eprio := e } }
    others := os }) ⟨_, _, _, _, _, _, rfl⟩ fun t ht _ _ => ?_
  obtain ⟨r, e, n, a, k, os, rfl⟩ := ht
  obtain ⟨r, e, n, a, k, os, h⟩ := State.inheritOnce_eq { s with
    cur := { s.cur with raised := r, turn := n, turnAt := a, sliceUsed := k, sys := { s.cur.sys with eprio := e } }
    others := os }
  exact ⟨_, _, _, _, _, _, h⟩

/-! ### Words written (R2) -/

/-- A number written as the bytes that hold it reads back. -/
theorem Mem.nat_write {m : Mem} (h : m.wf) (a : Nat) {n v : Nat} (hv : v < 256 ^ n) : (m.write a (natBytes n v)).nat a n = v := by
  have hrun := run_write_same h a (natBytes n v)
  rw [natBytes_length] at hrun
  rw [Mem.nat, hrun, leNat_natBytes, Nat.mod_eq_of_lt hv]

/-- The number that bytes of memory spell is below the power of 256 by their number. -/
theorem Mem.nat_lt (m : Mem) (a n : Nat) : m.nat a n < 256 ^ n := by
  have h := leNat_lt (m.run a n)
  rwa [run_length] at h

/-! ### Read-modify-writes of the current thread (R96) -/

section
variable (s : State) (pa : Nat) (bs : List Byte)

/-- A store performs after the rebase that it may need, and then settles who owns and who holds the line: it changes no register of the thread, and
nothing that engines and banks keep (R96, R99). -/
theorem State.leaseWrite_spared : (s.leaseWrite false pa bs).spared = s.spared := by
  unfold State.leaseWrite State.leaseWriteBy
  dsimp only
  rw [if_neg Bool.false_ne_true]
  have hu := s.rebaseFor_spared s.launch.part (max s.cur.sys.pts ((s.line (pa / 128)).rts + 1))
  generalize s.rebaseFor s.launch.part (max s.cur.sys.pts ((s.line (pa / 128)).rts + 1)) = u at hu ⊢
  generalize max u.cur.sys.pts ((u.line (pa / 128)).rts + 1) = ts
  have hv := u.storeAt_spared u.cur.id.launch s.cur.id.place.cluster pa bs ts
  generalize u.storeAt u.cur.id.launch s.cur.id.place.cluster pa bs ts = v at hv ⊢
  rw [(State.install_copies _ _ _ _ _ _).choose_spec]
  exact hv.trans hu

/-- A store that nothing disturbs changes memory by its bytes alone (R96). -/
theorem State.leaseWrite_mem (h : s.undisturbed 1) : (s.leaseWrite false pa bs).mem = s.mem.write pa bs := by
  unfold State.leaseWrite State.leaseWriteBy
  dsimp only
  rw [if_neg Bool.false_ne_true]
  have hu := s.rebaseFor_mem s.launch.part (max s.cur.sys.pts ((s.line (pa / 128)).rts + 1))
  have hquiet := h.rebaseFor s.launch.part (max s.cur.sys.pts ((s.line (pa / 128)).rts + 1))
  generalize s.rebaseFor s.launch.part (max s.cur.sys.pts ((s.line (pa / 128)).rts + 1)) = u at hu hquiet ⊢
  generalize max u.cur.sys.pts ((u.line (pa / 128)).rts + 1) = ts
  have hv := State.storeAt_mem hquiet u.cur.id.launch s.cur.id.place.cluster pa bs ts
  generalize u.storeAt u.cur.id.launch s.cur.id.place.cluster pa bs ts = v at hv ⊢
  rw [(State.install_copies _ _ _ _ _ _).choose_spec, ← hu]
  exact hv

end

/-- A value noted joins the path of the current thread, where its partition's debug selects it (R229). -/
theorem State.note_eq (s : State) (v : Word) : ∃ p, s.note v = { s with cur := { s.cur with path := p } } := by
  unfold State.note
  split
  · exact ⟨_, rfl⟩
  · split
    · exact ⟨_, rfl⟩
    · exact ⟨_, rfl⟩

/-! ### Lock words (R156) -/

section
variable {w h : Nat} (hh : h < 65536) (waits : Bool)
include hh

theorem lockWith_lt (hw : w < 256 ^ 8) : lockWith w h waits < 256 ^ 8 := by
  unfold lockWith
  norm_num at hw ⊢
  split <;> omega

theorem lockWith_holder : lockWith w h waits % 65536 = h := by
  unfold lockWith
  norm_num
  split <;> omega

/-- Bits 63:17 of a lock word never change (R156). -/
theorem lockWith_high : lockWith w h waits / 2 ^ 17 = w / 2 ^ 17 := by
  unfold lockWith
  norm_num
  split <;> omega

end

theorem lockWith_free (w : Nat) : lockWith w 0 false % 131072 = 0 := by
  unfold lockWith
  norm_num

/-- What a write of a lock word with another HOLDER leaves: the word, and the registers of the thread that writes it. -/
theorem State.lockWrite {s : State} (hm : s.memWf) (hu : s.undisturbed 1) (pa : Nat) {h : Nat} (hh : h < 65536) (waits : Bool) :
    let t := s.rmwWrite false (.phys pa) 8 (lockWith (s.mem.nat pa 8) h waits)
    t.mem.nat pa 8 = lockWith (s.mem.nat pa 8) h waits ∧ t.cur.pc = s.cur.pc ∧ t.cur.g = s.cur.g := by
  have hmem := s.leaseWrite_mem pa (natBytes 8 (lockWith (s.mem.nat pa 8) h waits)) hu
  have hspared := s.leaseWrite_spared pa (natBytes 8 (lockWith (s.mem.nat pa 8) h waits))
  refine ⟨?_, congrArg Spared.pc hspared, congrArg Spared.g hspared⟩
  exact (congrArg (fun m : Mem => m.nat pa 8) hmem).trans (Mem.nat_write hm pa (lockWith_lt hh waits (s.mem.nat_lt pa 8)))

/-- An answer of LOCK or TRYLOCK, as both end (R337). -/
def lockAnswer (d : BitVec 6) (r : Word) (s : State) : Res Unit := (s.note r).result d r

/-- An answer leaves memory as it is, in X[D] its value, and control at the next word. -/
theorem finish_lockAnswer (s : State) {d : BitVec 6} (hd : d.toNat < 32) (r : Word) : ∃ t, finish (lockAnswer d r s) = .next t ∧
    (d ≠ 0 → t.x d.toNat = r) ∧ t.mem = s.mem ∧ t.cur.pc = s.cur.pc + 4 := by
  obtain ⟨p, hp⟩ := s.note_eq r
  unfold lockAnswer
  rw [hp]
  refine ⟨_, rfl, fun h0 => State.x_setX_same _ _ (toNat_ne_zero h0) hd, State.setX_mem _ _ _, ?_⟩
  exact congrArg (· + 4) (State.setX_cur_pc _ _ _)

section
variable {s : State} {d a : BitVec 6} {pa : Nat} (ha : s.usable a) (hr : s.reaches needRw (s.x a.toNat) .d pa)
include ha hr

theorem exec_lock (hd : s.usable d) (hw : s.cur.wait = none) : exec (.lock d a) s = finish (takeLock s (.phys pa) false (lockAnswer d)) := by
  have hx : exec (.lock d a) s = execLock d a s := rfl
  rw [hx, execLock, regs2_usable hd ha, hw]
  dsimp only
  rw [scalarAccess_reaches hr]
  rfl

theorem exec_trylock (hd : s.usable d) : exec (.trylock d a) s = finish (takeLock s (.phys pa) true (lockAnswer d)) := by
  have hx : exec (.trylock d a) s = execTrylock d a s := rfl
  rw [hx, execTrylock, regs2_usable hd ha, scalarAccess_reaches hr]
  rfl

/-- UNLOCK by the holder hands the lock over (R156, R337). -/
theorem exec_unlock (hme : s.mem.nat pa 8 % 65536 = s.cur.id.ctxid) :
    exec (.unlock a) s = .next ((s.handOver pa 0).reinherit).retire := by
  have hx : exec (.unlock a) s = execUnlock a s := rfl
  have hholder : holderOf (s.rmwRead (.phys pa) 8) = s.cur.id.ctxid := hme
  rw [hx, execUnlock, readG_usable ha, scalarAccess_reaches hr, if_neg (not_not.2 hholder)]
  rfl

end

/-- A free lock word is taken: HOLDER becomes the thread's CTXID (R156, R157). -/
theorem takeLock_free {s : State} {pa : Nat} (h : s.mem.nat pa 8 % 65536 = 0) (try_ : Bool) (f : Word → State → Res Unit) :
    takeLock s (.phys pa) try_ f =
      f 0 (s.rmwWrite false (.phys pa) 8 (lockWith (s.mem.nat pa 8) s.cur.id.ctxid ((s.mem.nat pa 8).testBit 16))).inherit := by
  unfold takeLock
  exact if_pos h

/-- TRYLOCK of a word that another live thread holds renews the line's lease (R337; log entry 87). -/
theorem takeLock_held {s : State} {pa : Nat} (h0 : s.mem.nat pa 8 % 65536 ≠ 0) (hme : s.mem.nat pa 8 % 65536 ≠ s.cur.id.ctxid)
    (hlive : s.live (s.mem.nat pa 8 % 65536) = true) (f : Word → State → Res Unit) :
    takeLock s (.phys pa) true f = f 1 (s.leaseRenew false (pa / 128)) := by
  have hnotLive : ¬ (!s.live (holderOf (s.rmwRead (.phys pa) 8))) = true := by
    have hl : s.live (holderOf (s.rmwRead (.phys pa) 8)) = true := hlive
    simp [hl]
  exact (if_neg h0).trans ((if_neg hme).trans ((if_neg hnotLive).trans (if_pos rfl)))

/-- A lock without a waiter is freed (R156). -/
theorem State.handOver_free {s : State} {pa : Nat} (hpa : pa < 2 ^ 60) (hq : s.lockQueue pa = []) (code : Word) :
    s.handOver pa code = s.rmwWrite false (.phys pa) 8 (lockWith (s.mem.nat pa 8) 0 false) := by
  have hfirst : s.firstWaiter [] = none := rfl
  unfold State.handOver
  rw [hq, hfirst]
  dsimp only
  rw [State.keyWrite, if_pos hpa, State.keyWord, if_pos hpa]

/-- LOCK and TRYLOCK of a free word write HOLDER alone and answer 0 (R156, R337). -/
theorem finish_takeLock_free {s : State} {d : BitVec 6} {pa : Nat} (hd : d.toNat < 32) (hm : s.memWf) (hu : s.undisturbed 1)
    (hctx : s.cur.id.ctxid < 65536) (hfree : s.mem.nat pa 8 % 65536 = 0) (try_ : Bool) :
    ∃ t, finish (takeLock s (.phys pa) try_ (lockAnswer d)) = .next t ∧ (d ≠ 0 → t.x d.toNat = 0) ∧
      t.mem.nat pa 8 % 65536 = s.cur.id.ctxid ∧ t.mem.nat pa 8 / 2 ^ 17 = s.mem.nat pa 8 / 2 ^ 17 ∧ t.cur.pc = s.cur.pc + 4 := by
  obtain ⟨hword, hpc, -⟩ := State.lockWrite hm hu pa hctx ((s.mem.nat pa 8).testBit 16)
  rw [takeLock_free hfree]
  generalize s.rmwWrite false (.phys pa) 8 (lockWith (s.mem.nat pa 8) s.cur.id.ctxid ((s.mem.nat pa 8).testBit 16)) = u at hword hpc ⊢
  obtain ⟨r, e, n, k, z, os, hinherit⟩ := u.inherit_eq
  obtain ⟨t, ht, hx, hmem, htpc⟩ := finish_lockAnswer u.inherit hd 0
  have hkept : u.inherit.mem = u.mem ∧ u.inherit.cur.pc = u.cur.pc := by
    rw [hinherit]
    exact ⟨rfl, rfl⟩
  rw [hkept.1] at hmem
  rw [hkept.2, hpc] at htpc
  rw [← hmem] at hword
  exact ⟨t, ht, hx, by rw [hword, lockWith_holder hctx], by rw [hword, lockWith_high hctx], htpc⟩

/-- Settles O30: a free word is taken with one write, a held one is answered by a renewal, and a lock without a waiter is freed. -/
theorem locksChangeHolder : Obligations.LocksChangeHolder := by
  unfold Obligations.LocksChangeHolder
  intro s d a pa hd ha hr hm hpa hwait _ hctx hu w
  refine ⟨fun hfree i hi => ?_, fun h0 hme hlive => ?_, fun hme hq => ?_⟩
  · have hi : i = .lock d a ∨ i = .trylock d a := by simpa using hi
    obtain rfl | rfl := hi
    · rw [exec_lock ha hr hd hwait]
      exact finish_takeLock_free hd.1 hm hu hctx hfree false
    · rw [exec_trylock ha hr hd]
      exact finish_takeLock_free hd.1 hm hu hctx hfree true
  · obtain ⟨t, ht, hx, hmem, -⟩ := finish_lockAnswer (s.leaseRenew false (pa / 128)) hd.1 1
    rw [exec_trylock ha hr hd, takeLock_held h0 hme hlive]
    exact ⟨t, ht, hx, hmem.trans (State.leaseRenew_mem hu.1 _ _)⟩
  · obtain ⟨hword, -, hg⟩ := State.lockWrite hm hu pa (h := 0) (by decide) false
    refine ⟨_, exec_unlock ha hr hme, ?_⟩
    rw [State.handOver_free hpa hq, State.reinherit]
    generalize s.rmwWrite false (.phys pa) 8 (lockWith (s.mem.nat pa 8) 0 false) = u at hword hg ⊢
    obtain ⟨r, e, n, k, z, os, hinherit⟩ := State.inherit_eq { u with cur := { u.cur with raised := 0 } }
    rw [hinherit]
    refine ⟨?_, ?_, hg⟩
    · exact (congrArg (· % 131072) hword).trans (lockWith_free w)
    · exact (congrArg (· / 2 ^ 17) hword).trans (lockWith_high (by decide) false)

end Sys2Proof.Machine

namespace Sys2Proof.Machine

/-! ### LAUNCH (R147, R152, R370) -/

/-- Lines loaded one after another change no register of the thread, and nothing that engines and banks keep. -/
theorem loadEach_spared (s : State) (ps : List Where) : (loadEach s ps).2.spared = s.spared := by
  induction ps generalizing s with
  | nil => rfl
  | cons p ps ih => exact (ih _).trans (s.load_spared p 128)

theorem loadSettled_spared (n : Nat) (s : State) (ps : List Where) : (loadSettled n s ps).2.spared = s.spared := by
  induction n generalizing s with
  | zero => exact loadEach_spared s ps
  | succ n ih =>
    unfold loadSettled
    dsimp only
    split
    · exact loadEach_spared s ps
    · exact (ih _).trans (loadEach_spared s ps)

/-- A record loaded at one timestamp leaves the thread at its instruction, with its registers (R370). -/
theorem loadLinesAt_spared (s : State) (ps : List Where) : (loadLinesAt s ps).2.spared = s.spared := loadSettled_spared _ s ps

/-- What becomes of a record that LAUNCH has read (R370): its status, or its place in the queues at no more than the issuer's base priority (R152). -/
def State.submit (s : State) (d : BitVec 6) (p : Part) (bs : List Byte) : Res Unit :=
  match s.refuseRecord p bs (launchRecOf bs) true with
  | some n => s.result d (BitVec.ofNat 64 (2 ^ 63 + n))
  | none => (s.addLaunch p.idx s.launch.asid { launchRecOf bs with prio := min (launchRecOf bs).prio s.cur.sys.bprio.toNat } s.cur.sys.pts
      false).result d 0

/-- LAUNCH of a record that can be read submits it (R370). -/
theorem exec_launch {s : State} {d a : BitVec 6} {ps : List Where} {p : Part} (hd : s.usable d) (ha : s.usable a)
    (hal : (s.x a.toNat).toNat % 128 = 0) (hq : s.memBusy = false) (hps : recordLines s (s.x a.toNat) (List.range 12) = .ok ps)
    (hp : (loadLinesAt s ps).2.curPart = some p) :
    exec (.launch d a) s = finish ((loadLinesAt s ps).2.submit d p (loadLinesAt s ps).1) := by
  have hx : exec (.launch d a) s = execLaunch d a s := rfl
  have hsize : recordSize / 128 = 12 := rfl
  rw [hx, execLaunch, regs2_usable hd ha, if_neg (not_not.2 hal), hsize, hps]
  dsimp only
  rw [hq, if_neg Bool.false_ne_true, hp]
  rfl

/-- A launch that joins the queues is the last of the launches, under the next identifier; a change of a partition's count of them leaves the current
thread and memory as they are (R147, log entry 8). -/
theorem State.addLaunch_last (s : State) (part asid : Nat) (r : LaunchRec) (ts : Nat) (host : Bool) :
    ∃ o, (s.addLaunch part asid r ts host).launches = s.launches ++ [o] ∧ o.id = s.nextLaunch ∧ o.part = part ∧ o.asid = asid ∧ o.ts = ts ∧
      o.admitted = false ∧ o.lrec = r := ⟨_, rfl, rfl, rfl, rfl, rfl, rfl, rfl⟩

/-- A record that no check refuses joins the queues, and X[D] is 0 (R147, R370). -/
theorem State.submit_queues {s : State} {d : BitVec 6} {p : Part} {bs : List Byte} (hd : d.toNat < 32)
    (h : s.refuseRecord p bs (launchRecOf bs) true = none) :
    ∃ t o, finish (s.submit d p bs) = .next t ∧ t.launches = s.launches ++ [o] ∧ o.id = s.nextLaunch ∧ o.part = p.idx ∧
      o.asid = s.launch.asid ∧ o.ts = s.cur.sys.pts ∧ o.admitted = false ∧ o.lrec.prio = min (launchRecOf bs).prio s.cur.sys.bprio.toNat ∧
      o.lrec.stages = (launchRecOf bs).stages ∧ (d ≠ 0 → t.x d.toNat = 0) ∧ t.cur.pc = s.cur.pc + 4 ∧ t.mem = s.mem := by
  obtain ⟨o, hlast, hid, hpart, hasid, hts, hadmitted, hrec⟩ := s.addLaunch_last p.idx s.launch.asid
    { launchRecOf bs with prio := min (launchRecOf bs).prio s.cur.sys.bprio.toNat } s.cur.sys.pts false
  have hkept : ∀ r ts, (s.addLaunch p.idx s.launch.asid r ts false).cur = s.cur ∧ (s.addLaunch p.idx s.launch.asid r ts false).mem = s.mem :=
    fun _ _ => ⟨rfl, rfl⟩
  obtain ⟨hcur, hmem⟩ := hkept { launchRecOf bs with prio := min (launchRecOf bs).prio s.cur.sys.bprio.toNat } s.cur.sys.pts
  unfold State.submit
  rw [h]
  dsimp only
  generalize s.addLaunch p.idx s.launch.asid { launchRecOf bs with prio := min (launchRecOf bs).prio s.cur.sys.bprio.toNat } s.cur.sys.pts
    false = u at hlast hcur hmem ⊢
  refine ⟨_, o, rfl, (State.setX_launches _ _ _).trans hlast, hid, hpart, hasid, hts, hadmitted, by rw [hrec], by rw [hrec],
    fun h0 => u.x_setX_same _ (toNat_ne_zero h0) hd, ?_, (State.setX_mem _ _ _).trans hmem⟩
  rw [← hcur]
  exact congrArg (· + 4) (u.setX_cur_pc _ _)

/-- A record that is refused answers bit 63 and the status (R147, R370). -/
theorem State.submit_refused {s : State} {d : BitVec 6} {p : Part} {bs : List Byte} {n : Nat}
    (h : s.refuseRecord p bs (launchRecOf bs) true = some n) :
    finish (s.submit d p bs) = .next (s.setX d.toNat (BitVec.ofNat 64 (2 ^ 63 + n))).retire := by
  unfold State.submit
  rw [h]
  rfl

/-- Settles O28: a record that is read is refused with its status, or joins the dispatcher's queues. -/
theorem launchQueuesARecord : Obligations.LaunchQueuesARecord := by
  unfold Obligations.LaunchQueuesARecord
  intro s d a ps p hd ha hal hq hps hp
  have hpc : (loadLinesAt s ps).2.cur.pc = s.cur.pc := congrArg Spared.pc (loadLinesAt_spared s ps)
  rw [exec_launch hd ha hal hq hps hp, ← hpc]
  exact ⟨fun hok => State.submit_queues hd.1 hok, fun n hn => State.submit_refused hn⟩

end Sys2Proof.Machine

namespace Sys2Proof.Machine

/-! ### What a write of the dispatcher leaves (R216, R220) -/

/-- The state apart from memory and what the caches hold of it. -/
def State.exceptMem (s : State) : State := { s with mem := [], lines := [], copies := [], badScales := [] }

@[simp] theorem State.setLine_exceptMem (s : State) (l : Nat) (r : Line) : (s.setLine l r).exceptMem = s.exceptMem := rfl

@[simp] theorem State.mendScales_exceptMem (s : State) (pa n : Nat) : (s.mendScales pa n).exceptMem = s.exceptMem := by
  unfold State.mendScales
  split <;> rfl

@[simp] theorem State.evictLine_exceptMem (s : State) (l : Nat) : (s.evictLine l).exceptMem = s.exceptMem := by
  unfold State.evictLine
  dsimp only
  split <;> rfl

@[simp] theorem State.fillLine_exceptMem (s : State) (l : Nat) : (s.fillLine l).exceptMem = s.exceptMem := by
  unfold State.fillLine
  split
  · rfl
  · rw [State.setLine_exceptMem]
    split
    · exact State.evictLine_exceptMem _ _
    · rfl

@[simp] theorem State.cacheWrite_exceptMem (s : State) (pa : Nat) (bs : List Byte) : (s.cacheWrite pa bs).exceptMem = s.exceptMem := by
  unfold State.cacheWrite
  dsimp only
  rw [State.mendScales_exceptMem]
  exact s.fillLine_exceptMem _

@[simp] theorem State.sysStore_exceptMem (s : State) (pa : Nat) (bs : List Byte) : (s.sysStore pa bs).exceptMem = s.exceptMem := by
  unfold State.sysStore
  exact List.foldlRecOn _ _ (motive := fun t : State => t.exceptMem = s.exceptMem) rfl
    fun t ht p _ => (t.cacheWrite_exceptMem p.1 p.2).trans ht

/-- A thread notes its PTS as what its image holds of it (R220). -/
def State.ptsNoted (s : State) : State := { s with cur := { s.cur with ptsSaved := s.cur.sys.pts, ptsOwed := 0 } }

/-- An image whose place is in memory is written there, and the thread notes its saved PTS (R217, R220). -/
theorem State.writeImage_writes {s : State} {p : Part} (h : s.isMemory (s.imageBase p s.cur.id.ctxid) = true) :
    ∃ t, s.writeImage p = done t ∧ t.exceptMem = s.ptsNoted.exceptMem := by
  have hstores : ((s.cur.image s).foldl (fun s' w => s'.sysStore (s.imageBase p s.cur.id.ctxid + w.1) w.2) s).exceptMem = s.exceptMem :=
    List.foldlRecOn _ _ (motive := fun t : State => t.exceptMem = s.exceptMem) rfl fun t ht w _ => (t.sysStore_exceptMem _ _).trans ht
  unfold State.writeImage
  dsimp only
  rw [if_pos h]
  exact ⟨_, rfl, congrArg (fun x : State => { x with cur := { x.cur with ptsSaved := s.cur.sys.pts, ptsOwed := 0 } }) hstores⟩

/-- STATE is written where the thread-table entry is in memory (R220). -/
theorem State.putTState_writes {s : State} {p : Part} {c : Nat} (h : s.isMemory (p.tableEntry c) = true) (st : TState) :
    s.putTState p c st = done (s.sysStore (p.tableEntry c) (natBytes 8 (setBits (s.mem.word (p.tableEntry c)) 60 3 st.code).toNat)) := if_pos h

/-! ### A thread leaves its context (R153, R216) -/

theorem State.passLanes_cores (s : State) (p : Place) : ∃ ks, s.passLanes p = { s with cores := ks } := by
  unfold State.passLanes
  dsimp only
  split
  · exact ⟨_, rfl⟩
  · exact ⟨_, rfl⟩

theorem State.releaseLanes_cores (s : State) : ∃ ks, s.releaseLanes = { s with cores := ks } := by
  obtain ⟨ks, h⟩ := (s.setCore s.cur.id.place ((s.core s.cur.id.place).without s.cur.id.ctxid)).passLanes_cores s.cur.id.place
  exact ⟨ks, h⟩

/-- What a thread's leaving its context makes of the machine: the thread is saved where it stood, with its registers; one that could run and has had
less than its slice keeps its place in the rotation with the rest of the slice, and another has its next slice in a later round (R153, R216; log entry
64). Other threads, launches and partitions stay. -/
structure State.Leaves (s t : State) (st : TState) : Prop where
  id : t.cur.id = s.cur.id
  state : t.cur.st = st
  resume : t.cur.resume = s.cur.pc
  g : t.cur.g = s.cur.g
  eprio : t.cur.sys.eprio = s.cur.sys.eprio
  keeps : s.sliceOver st = false → t.cur.turn = s.cur.turn ∧ t.cur.sliceUsed = s.cycle - s.cur.sliceAt
  later : s.sliceOver st = true → s.cur.turn < t.cur.turn
  others : t.others = s.others
  launches : t.launches = s.launches
  parts : t.parts = s.parts
  link : t.link = s.link

/-- The current thread as it leaves its context: a capture is abandoned, and it resumes where its program counter stands (R168, R216). -/
def State.leaving (s : State) : State :=
  { s.abandon 0x0A with cur := { (s.abandon 0x0A).cur with resume := (s.abandon 0x0A).cur.pc } }

theorem State.leaving_eq (s : State) : ∃ lp ls lw sl, s.leaving =
    { s with cur := { s.cur with loop := lp, sys := { s.cur.sys with lstate := ls, lwhy := lw }, resume := s.cur.pc }, slots := sl } := by
  obtain ⟨lp, ls, lw, sl, hab⟩ := s.abandon_eq 0x0A
  unfold State.leaving
  rw [hab]
  exact ⟨lp, ls, lw, sl, rfl⟩

theorem State.imageBase_of_mem {s t : State} (h : t.mem = s.mem) (p : Part) (c : Nat) : t.imageBase p c = s.imageBase p c := by
  unfold State.imageBase
  rw [h]

/-- The last step of leaving a context: the lanes pass on, and the thread takes its new state and its place in the rotation (R153, R154). -/
def State.left (s : State) (p : Part) (st : TState) : State :=
  let s := s.releaseLanes
  { s with cur := { s.cur with
    st := st, stalled := false, saveRebases := p.rebases.toNat
    turn := if s.sliceOver st then s.nextTurn else s.cur.turn, turnAt := if s.sliceOver st then s.cycle else s.cur.turnAt
    sliceUsed := if s.sliceOver st then 0 else s.cycle - s.cur.sliceAt
    vec := { s.cur.vec with
      regs := s.cur.vec.regs.map (fun r => (r.1, { r.2 with dirty := false }))
      streams := s.cur.vec.streams.map (fun x => { x with ready := if x.mask = 0 then [] else x.ready, err := none }) } } }

theorem State.saveCur_of_part {s : State} {p : Part} (h : s.curPart = some p) (st : TState) :
    s.saveCur st = (s.leaving.writeImage p).seq fun s => (s.putTState p s.cur.id.ctxid st).seq fun s => done (s.left p st) := by
  unfold State.saveCur
  rw [h]
  rfl

theorem State.left_leaves (s : State) (p : Part) (st : TState) (h : s.cur.resume = s.cur.pc) : s.Leaves (s.left p st) st := by
  obtain ⟨ks, hks⟩ := s.releaseLanes_cores
  have hover : State.sliceOver { s with cores := ks } st = s.sliceOver st := rfl
  unfold State.left
  rw [hks]
  dsimp only
  rw [hover]
  constructor
  case keeps =>
    intro hnot
    rw [hnot, if_neg Bool.false_ne_true, if_neg Bool.false_ne_true]
    exact ⟨rfl, rfl⟩
  case later =>
    intro hover'
    rw [hover', if_pos rfl]
    exact Nat.lt_of_lt_of_le (Nat.lt_succ_self _) (Nat.le_max_left _ _)
  case resume => exact h
  all_goals rfl

/-- A thread whose table entry and image have their place in memory leaves its context once both are written (R216, R220). -/
theorem State.saveCur_left {s : State} (h : s.canSave) (st : TState) :
    ∃ v p, s.saveCur st = done (State.left v p st) ∧ v.exceptMem = s.leaving.ptsNoted.exceptMem := by
  obtain ⟨p, hp, htable, himage⟩ := h
  obtain ⟨hmem, hboard, hwho⟩ : s.leaving.mem = s.mem ∧ s.leaving.board = s.board ∧ s.leaving.cur.id = s.cur.id := by
    obtain ⟨lp, ls, lw, sl, hleaving⟩ := s.leaving_eq
    rw [hleaving]
    exact ⟨rfl, rfl, rfl⟩
  obtain ⟨u, hu, huframe⟩ := State.writeImage_writes (s := s.leaving) (p := p) (by
    rw [hwho, State.imageBase_of_mem hmem, State.isMemory_of_board hboard]
    exact himage)
  have hctx : u.cur.id.ctxid = s.cur.id.ctxid := (congrArg (fun x : State => x.cur.id.ctxid) huframe :).trans (congrArg Ident.ctxid hwho)
  have huboard : u.board = s.board := (congrArg State.board huframe :).trans hboard
  have hthere : u.isMemory (p.tableEntry u.cur.id.ctxid) = true := by
    rw [hctx, State.isMemory_of_board huboard]
    exact htable
  rw [State.saveCur_of_part hp, hu, seq_done, State.putTState_writes hthere, seq_done]
  exact ⟨_, p, rfl, (u.sysStore_exceptMem _ _).trans huframe⟩

/-- A thread whose table entry and image have their place in memory leaves its context (R216, R220). -/
theorem State.saveCur_leaves {s : State} (h : s.canSave) (st : TState) : ∃ t, s.saveCur st = done t ∧ s.Leaves t st := by
  obtain ⟨v, p, hv, hframe⟩ := State.saveCur_left h st
  obtain ⟨lp, ls, lw, sl, hleaving⟩ := s.leaving_eq
  rw [hleaving] at hframe
  have hid : v.cur.id = s.cur.id := (congrArg (fun x : State => x.cur.id) hframe :)
  have hpc : v.cur.pc = s.cur.pc := (congrArg (fun x : State => x.cur.pc) hframe :)
  have hresume : v.cur.resume = s.cur.pc := (congrArg (fun x : State => x.cur.resume) hframe :)
  have hg : v.cur.g = s.cur.g := (congrArg (fun x : State => x.cur.g) hframe :)
  have heprio : v.cur.sys.eprio = s.cur.sys.eprio := (congrArg (fun x : State => x.cur.sys.eprio) hframe :)
  have hturn : v.cur.turn = s.cur.turn := (congrArg (fun x : State => x.cur.turn) hframe :)
  have hslice : v.cur.sliceAt = s.cur.sliceAt := (congrArg (fun x : State => x.cur.sliceAt) hframe :)
  have hcycle : v.cycle = s.cycle := (congrArg State.cycle hframe :)
  have hover : v.sliceOver st = s.sliceOver st := by
    unfold State.sliceOver
    rw [hslice, hcycle]
  obtain ⟨id, state, resume, g, eprio, keeps, later, others, launches, parts, link⟩ := v.left_leaves p st (hresume.trans hpc.symm)
  refine ⟨_, hv, id.trans hid, state, resume.trans hpc, g.trans hg, eprio.trans heprio, ?_, ?_, others.trans (congrArg State.others hframe :),
    launches.trans (congrArg State.launches hframe :), parts.trans (congrArg State.parts hframe :), link.trans (congrArg State.link hframe :)⟩
  · rw [← hover, ← hturn, ← hcycle, ← hslice]
    exact keeps
  · rw [← hover, ← hturn]
    exact later

end Sys2Proof.Machine

namespace Sys2Proof.Machine

/-! ### A thread that runs on its own (R149, R216) -/

/-- The resident members of a thread's gang are found among the others, and the thread itself comes last. -/
theorem State.residentGang_eq (s : State) : s.residentGang =
    ((s.others.filter fun u => (decide (u.st = .running) && decide (u.id.ctxid ≠ s.cur.id.ctxid)) &&
      (decide (u.st ≠ .free) && decide (u.st ≠ .suspended) && s.sameGang s.cur u)).map fun u => u.id.ctxid) ++ [s.cur.id.ctxid] := by
  unfold State.residentGang State.gangOf State.threads
  rw [List.filter_filter, List.filter_cons_of_neg (by simp)]

theorem State.alone.retire {s : State} (h : s.alone) : s.retire.alone := by
  refine ⟨?_, h.2⟩
  rw [State.residentGang_eq]
  exact (State.residentGang_eq s).symm.trans h.1

theorem State.canSave.retire {s : State} (h : s.canSave) : s.retire.canSave := by
  obtain ⟨p, hp, htable, himage⟩ := h
  refine ⟨p, hp, htable, ?_⟩
  rw [State.imageBase_of_mem (t := s.retire) rfl, State.isMemory_of_board (t := s.retire) rfl]
  exact himage

/-- Nothing is queued: what waits for the drain of a lone thread follows at once. -/
theorem drainAll_alone {s : State} (h : s.queue = []) (f : State → Res Unit) : drainAll [s.cur.id.ctxid] s f = f s := by
  have hdrain : drain s.queue.length s = done s := by
    rw [h]
    rfl
  rw [drainAll, State.focus_self]
  dsimp only
  rw [hdrain]
  split <;> rfl

/-- A lone thread that runs leaves its context, and then what waited for it follows (R216). -/
theorem vacateAll_alone {s : State} (hrun : s.cur.st = .running) (h : s.alone) (hsave : s.canSave) (f : State → Res Unit) :
    ∃ t, vacateAll [s.cur.id.ctxid] s f = f t ∧ s.Leaves t (if s.cur.waiting then .savedWaiting else .saved) := by
  obtain ⟨-, hqueue, htrap⟩ := h
  obtain ⟨t, ht, hleaves⟩ := State.saveCur_leaves hsave (if s.cur.waiting then .savedWaiting else .saved)
  refine ⟨t, ?_, hleaves⟩
  rw [vacateAll, drainAll_alone hqueue, saveAll, State.focus_self]
  dsimp only
  rw [if_pos hrun, State.saveDrained, htrap]
  dsimp only
  rw [ht]
  rfl

theorem State.withoutGang_alone {s : State} (h : s.alone) : s.withoutGang = { s with cur := { s.cur with st := .suspended } } := by
  unfold State.withoutGang
  rw [h.1]
  exact if_pos rfl

/-! ### What a vacant context is due (R148, R149, R153) -/

/-- The threads that stand on contexts are among the others where the current thread stands on none. -/
theorem State.stageResident_away {s : State} (h : s.cur.st ≠ .running) (l g : Nat) :
    s.stageResident l g = (s.others.filter fun t => decide (t.st = .running) && decide (t.id.launch = l ∧ t.id.stage = g)).length := by
  unfold State.stageResident State.threads
  rw [List.filter_cons_of_neg (by simp [h])]

theorem State.othersOn_away {s : State} (h : s.cur.st ≠ .running) (l : Launch) (cl : Nat) :
    s.othersOn l cl = s.others.any fun t => decide (t.st = .running) && decide (t.id.launch ≠ l.id) && decide (t.id.place.cluster = cl) := by
  unfold State.othersOn State.threads
  rw [List.any_cons, decide_eq_false h, Bool.false_and, Bool.false_and, Bool.false_or]

/-- What could be created at a context rests on the launches, the partitions and the threads that stand on contexts. -/
theorem State.creatable_away {s t : State} (hs : s.cur.st ≠ .running) (ht : t.cur.st ≠ .running) (hothers : t.others = s.others)
    (hlaunches : t.launches = s.launches) (hparts : t.parts = s.parts) (hlink : t.link = s.link) (p : Place) (l : Launch) :
    t.creatable p l = s.creatable p l := by
  unfold State.creatable State.madeHere State.stageRoom State.mayStand State.clusterTakes State.fusedElsewhere State.sectsOf State.instOf
    State.part? State.membership
  simp only [State.stageResident_away hs, State.stageResident_away ht, State.othersOn_away hs, State.othersOn_away ht, hothers, hlaunches,
    hparts, hlink]

/-- The thread that comes next for a context is one that could take it. -/
theorem State.nextFor_mem {s : State} {p : Place} {t : Thread} (h : s.nextFor p = some t) : t ∈ s.candidates p := by
  unfold State.nextFor at h
  refine List.foldlRecOn (s.candidates p) _ (motive := fun b : Option Thread => ∀ t, b = some t → t ∈ s.candidates p) ?_ ?_ t h
  · intro t ht
    cases ht
  · intro b ih u hu t ht
    cases b with
    | none =>
      obtain rfl := Option.some.inj ht
      exact hu
    | some x =>
      dsimp only at ht
      split at ht
      · obtain rfl := Option.some.inj ht
        exact hu
      · exact ih t ht

theorem State.candidates_subset (s : State) (p : Place) {t : Thread} (h : t ∈ s.candidates p) : t ∈ s.threads := (List.mem_filter.mp h).1

/-- A context waits for a thread that is to be made, where its launch's priority is not below that of any thread (R149; log entry 64). -/
theorem State.passContext_creation {s : State} {p : Place} {l : Launch} (hl : l ∈ s.launches) (hcreate : s.creatable p l = true)
    (hprio : ∀ t ∈ s.threads, t.sys.eprio.toNat ≤ l.lrec.prio) : s.passContext p = done s := by
  unfold State.passContext
  cases hnext : s.nextFor p with
  | none => rfl
  | some t =>
    have hdue : (s.launches.any fun l => s.creatable p l && decide (t.sys.eprio.toNat ≤ l.lrec.prio)) = true :=
      List.any_eq_true.mpr ⟨l, hl, by
        rw [hcreate, Bool.true_and]
        exact decide_eq_true (hprio t (s.candidates_subset p (State.nextFor_mem hnext)))⟩
    dsimp only
    rw [hdue, Bool.or_true, if_pos rfl]

/-- A thread still to be made is a peer of a lone thread of its launch's priority (R153; log entry 64). -/
theorem State.peerWaits_creation {s : State} {l : Launch} (hl : l ∈ s.launches) (hcreate : s.withoutGang.creatable s.cur.id.place l = true)
    (heq : l.lrec.prio = s.cur.sys.eprio.toNat) (hprio : ∀ t ∈ s.threads, t.sys.eprio.toNat ≤ l.lrec.prio) (h : s.alone) : s.peerWaits = true := by
  have hbelow : s.gangBelow s.cur.sys.eprio.toNat = true := List.all_eq_true.mpr fun u hu => by
    have hu' := (List.mem_filter.mp (List.mem_filter.mp hu).1).1
    rw [decide_eq_true (heq ▸ hprio u hu'), Bool.or_true]
  have hmade :
      (s.withoutGang.launches.any fun l => s.withoutGang.creatable s.cur.id.place l && decide (l.lrec.prio = s.cur.sys.eprio.toNat)) = true := by
    refine List.any_eq_true.mpr ⟨l, ?_, ?_⟩
    · rw [State.withoutGang_alone h]
      exact hl
    · rw [hcreate, decide_eq_true heq, Bool.true_and]
  unfold State.peerWaits
  dsimp only
  rw [hbelow, hmade, Bool.or_true, Bool.true_and]

/-- The slice of a lone thread ends while a thread waits to be made at its context: it is saved, in a later round (R153, R216). -/
theorem State.endSlice_alone {s : State} {l : Launch} (hrun : s.cur.st = .running) (hready : s.cur.waiting = false) (h : s.alone) (hsave : s.canSave)
    (hl : l ∈ s.launches) (hcreate : s.withoutGang.creatable s.cur.id.place l = true)
    (hprio : ∀ t ∈ s.threads, t.sys.eprio.toNat ≤ l.lrec.prio) :
    ∃ t, s.endSlice = done t ∧ t.cur.id = s.cur.id ∧ t.cur.st = .saved ∧ t.cur.resume = s.cur.pc ∧ t.cur.g = s.cur.g ∧ s.cur.turn < t.cur.turn := by
  unfold State.endSlice
  dsimp only
  rw [h.1]
  obtain ⟨t, ht, hleaves⟩ := vacateAll_alone hrun h hsave fun t =>
    ([s.cur.id.ctxid].foldl (fun (u : State) c => u.modThread c fun x => x.toRound s.nextTurn u.cycle) t).passContext s.cur.id.place
  rw [hready, if_neg Bool.false_ne_true] at hleaves
  rw [ht, List.foldl_cons, List.foldl_nil, State.modThread, if_pos (congrArg Ident.ctxid hleaves.id)]
  rw [State.withoutGang_alone h] at hcreate
  rw [State.passContext_creation (l := l)]
  · exact ⟨_, rfl, hleaves.id, hleaves.state, hleaves.resume, hleaves.g, Nat.lt_of_lt_of_le (Nat.lt_succ_self _) (Nat.le_max_left _ _)⟩
  · exact hleaves.launches ▸ hl
  · refine (State.creatable_away (s := { s with cur := { s.cur with st := .suspended } })
      (t := { t with cur := t.cur.toRound s.nextTurn t.cycle }) ?_ ?_ hleaves.others hleaves.launches hleaves.parts hleaves.link _ _).trans hcreate
    · exact TState.noConfusion
    · exact fun hst => TState.noConfusion (hleaves.state.symm.trans hst)
  · intro u hu
    rcases List.mem_cons.mp hu with rfl | hu
    · exact (congrArg BitVec.toNat hleaves.eprio).trans_le (hprio _ (List.mem_cons_self))
    · exact hprio u (List.mem_cons_of_mem _ (hleaves.others ▸ hu))

/-! ### Inheritance (R157) -/

/-- After a round of inheritance a thread has the larger of its base priority and the inherited one, which the round does not lower. -/
structure Thread.Inherited (t u : Thread) : Prop where
  bprio : u.sys.bprio = t.sys.bprio
  eprio : u.sys.eprio = BitVec.ofNat 4 (max u.sys.bprio.toNat u.raised.toNat)
  raised : t.raised ≤ u.raised

/-- A maximum taken over held locks, whose waiters' priorities have four bits, stays within four bits. -/
theorem foldl_max_spec (held : List (Nat × Nat)) (c m : Nat) (hm : m < 16) (h : ∀ x ∈ held, x.2 < 16) :
    m ≤ held.foldl (fun m x => if x.1 = c then max m x.2 else m) m ∧ held.foldl (fun m x => if x.1 = c then max m x.2 else m) m < 16 := by
  induction held generalizing m with
  | nil => exact ⟨le_refl m, hm⟩
  | cons x r ih =>
    rw [List.foldl_cons]
    have hr := fun y hy => h y (List.mem_cons_of_mem x hy)
    split
    · obtain ⟨hle, hlt⟩ := ih (max m x.2) (max_lt hm (h x List.mem_cons_self)) hr
      exact ⟨(le_max_left _ _).trans hle, hlt⟩
    · exact ih m hm hr

/-- The priority that a round of inheritance finds for a thread: the one inherited so far, raised to that of the waiters of the locks it holds (R157). -/
def State.inheritedPrio (s : State) (t : Thread) : Nat :=
  (s.locks.map fun l => (holderOf (s.keyWord l.1), l.2.foldl (fun m c => max m (s.eprioOf c)) 0)).foldl
    (fun m h => if h.1 = t.id.ctxid then max m h.2 else m) t.raised.toNat

theorem State.eprioOf_lt (s : State) (c : Nat) : s.eprioOf c < 16 := by
  unfold State.eprioOf
  cases s.thread? c with
  | none => decide
  | some t => exact t.sys.eprio.isLt

theorem State.inheritedPrio_spec (s : State) (t : Thread) : t.raised.toNat ≤ s.inheritedPrio t ∧ s.inheritedPrio t < 16 := by
  refine foldl_max_spec _ _ _ t.raised.isLt fun x hx => ?_
  obtain ⟨l, -, rfl⟩ := List.mem_map.mp hx
  exact List.foldlRecOn l.2 _ (motive := fun m : Nat => m < 16) (by decide) fun m hm c _ => max_lt hm (s.eprioOf_lt c)

theorem State.inheritOnce_cur (s : State) :
    s.inheritOnce.cur.raised = BitVec.ofNat 4 (s.inheritedPrio s.cur) ∧ s.inheritOnce.cur.sys.bprio = s.cur.sys.bprio ∧
      s.inheritOnce.cur.sys.eprio = BitVec.ofNat 4 (max s.cur.sys.bprio.toNat (s.inheritedPrio s.cur)) := by
  unfold State.inheritOnce State.modThreads
  dsimp only
  split <;> exact ⟨rfl, rfl, rfl⟩

theorem State.inheritOnce_inherited (s : State) : s.cur.Inherited s.inheritOnce.cur := by
  obtain ⟨hraised, hbprio, heprio⟩ := s.inheritOnce_cur
  obtain ⟨hle, hlt⟩ := s.inheritedPrio_spec s.cur
  have hnat : s.inheritOnce.cur.raised.toNat = s.inheritedPrio s.cur := by
    rw [hraised, BitVec.toNat_ofNat, Nat.mod_eq_of_lt hlt]
  exact ⟨hbprio, by rw [heprio, hbprio, hnat], BitVec.le_def.mpr (hnat ▸ hle)⟩

/-- Where no lock has a waiter, nothing is inherited (R157). -/
theorem State.inheritOnce_free {s : State} (h : s.locks = []) : s.inheritOnce.cur.raised = s.cur.raised := by
  rw [s.inheritOnce_cur.1, State.inheritedPrio, h]
  exact (BitVec.ofNat_toNat 4 _).trans (BitVec.setWidth_eq _)

/-- The rounds of inheritance together do to the current thread what each does: the last one sets its effective priority (R157). -/
theorem State.inherit_inherited (s : State) : s.cur.Inherited s.inherit.cur ∧ (s.locks = [] → s.inherit.cur.raised = s.cur.raised) := by
  unfold State.inherit
  rw [List.range_succ, List.foldl_append, List.foldl_cons, List.foldl_nil]
  obtain ⟨hbprio, hraised, hfree⟩ := List.foldlRecOn (List.range s.others.length) (fun s _ => s.inheritOnce) (b := s)
    (motive := fun t : State => t.cur.sys.bprio = s.cur.sys.bprio ∧ s.cur.raised ≤ t.cur.raised ∧
      (s.locks = [] → t.locks = [] ∧ t.cur.raised = s.cur.raised)) ⟨rfl, BitVec.le_refl _, fun h => ⟨h, rfl⟩⟩
    fun t ht _ _ => by
      obtain ⟨hbprio, hraised, hfree⟩ := ht
      obtain ⟨hb, -, hr⟩ := t.inheritOnce_inherited
      exact ⟨hb.trans hbprio, BitVec.le_trans hraised hr, fun h => ⟨(hfree h).1, (State.inheritOnce_free (hfree h).1).trans (hfree h).2⟩⟩
  generalize (List.range s.others.length).foldl (fun s _ => s.inheritOnce) s = t at hbprio hraised hfree ⊢
  obtain ⟨hb, he, hr⟩ := t.inheritOnce_inherited
  exact ⟨⟨hb.trans hbprio, he, BitVec.le_trans hraised hr⟩, fun h => (State.inheritOnce_free (hfree h).1).trans (hfree h).2⟩

/-! ### NOP, YIELD, DEAL and PRIO (R153, R157, R367, R371, R372) -/

/-- With nothing queued, what waited for the drain follows at once. -/
theorem State.drained_empty {s : State} (h : s.queue = []) (f : State → Res Unit) : s.drained f = f s := by
  have hdrain : drain s.queue.length s = done s := by
    rw [h]
    rfl
  rw [State.drained, hdrain]
  rfl

theorem exec_yield {s : State} (h : s.queue = []) : exec .yield s = finish
    (if s.peerWaits then drainAll s.residentGang s fun s => s.retire.endSlice else done s.retire) := by
  have hx : exec .yield s = execYield s := rfl
  rw [hx, execYield, State.drained_empty h]

/-- A lone thread with a peer that waits ends its slice behind its YIELD (R153, R367). -/
theorem exec_yield_alone {s : State} (h : s.alone) (hpeer : s.peerWaits = true) : exec .yield s = finish s.retire.endSlice := by
  rw [exec_yield h.2.1, if_pos hpeer, h.1, drainAll_alone h.2.1]

/-- A YIELD to a thread that is still to be made saves the thread behind its instruction (R153, R367; log entry 64). -/
theorem exec_yield_creation {s : State} {l : Launch} (hl : l ∈ s.launches) (hrun : s.cur.st = .running) (h : s.alone) (hsave : s.canSave)
    (hcreate : s.withoutGang.creatable s.cur.id.place l = true) (heq : l.lrec.prio = s.cur.sys.eprio.toNat)
    (hprio : ∀ t ∈ s.threads, t.sys.eprio.toNat ≤ l.lrec.prio) : ∃ t, exec .yield s = .next t ∧ t.cur.id = s.cur.id ∧ t.cur.st = .saved ∧
      t.cur.resume = s.cur.pc + 4 ∧ t.cur.g = s.cur.g ∧ s.cur.turn < t.cur.turn := by
  have hcreate' : s.retire.withoutGang.creatable s.retire.cur.id.place l = true := by
    rw [State.withoutGang_alone h.retire]
    rw [State.withoutGang_alone h] at hcreate
    exact (State.creatable_away (s := { s with cur := { s.cur with st := .suspended } }) TState.noConfusion TState.noConfusion rfl rfl rfl rfl _ _).trans
      hcreate
  have hprio' : ∀ t ∈ s.retire.threads, t.sys.eprio.toNat ≤ l.lrec.prio := fun t ht => by
    rcases List.mem_cons.mp ht with rfl | ht
    · exact hprio s.cur List.mem_cons_self
    · exact hprio t (List.mem_cons_of_mem _ ht)
  obtain ⟨t, ht, hleaves⟩ := State.endSlice_alone (s := s.retire) hrun rfl h.retire hsave.retire hl hcreate' hprio'
  refine ⟨t, ?_, hleaves⟩
  rw [exec_yield_alone h (State.peerWaits_creation hl hcreate heq hprio h), ht, finish_done]

/-- PRIO: the base priority, at most the launch's, and the inheritance that follows (R157, R372). -/
theorem exec_prio {s : State} {a : BitVec 6} (ha : s.usable a) : ∃ t, exec (.prio a) s = .next t ∧
    t.cur.sys.bprio = BitVec.ofNat 4 (min (s.x a.toNat).toNat s.launch.lrec.prio) ∧
    t.cur.sys.eprio = BitVec.ofNat 4 (max t.cur.sys.bprio.toNat t.cur.raised.toNat) ∧ s.cur.raised ≤ t.cur.raised ∧
    (s.locks = [] → t.cur.raised = s.cur.raised) ∧ t.cur.pc = s.cur.pc + 4 ∧ t.cur.g = s.cur.g ∧ t.mem = s.mem := by
  have hx : exec (.prio a) s = execPrio a s := rfl
  rw [hx, execPrio, readG_usable ha]
  dsimp only
  obtain ⟨⟨hbprio, heprio, hraised⟩, hfree⟩ := State.inherit_inherited { s with cur := { s.cur with
    sys := { s.cur.sys with bprio := BitVec.ofNat 4 (min (s.x a.toNat).toNat s.launch.lrec.prio) } } }
  obtain ⟨r, e, n, k, u, os, hframe⟩ := State.inherit_eq { s with cur := { s.cur with
    sys := { s.cur.sys with bprio := BitVec.ofNat 4 (min (s.x a.toNat).toNat s.launch.lrec.prio) } } }
  have hpc := congrArg (fun x : State => x.cur.pc) hframe
  have hg := congrArg (fun x : State => x.cur.g) hframe
  have hmem := congrArg State.mem hframe
  exact ⟨_, rfl, hbprio, heprio, hraised, hfree, congrArg (· + 4) hpc, hg, hmem⟩

/-- Settles O24: a lone thread that yields leaves its context as any save does, and PRIO's rounds of inheritance each keep what is inherited. -/
theorem nopYieldDealPrio : Obligations.NopYieldDealPrio := by
  unfold Obligations.NopYieldDealPrio
  intro s d a b hd ha hb
  refine ⟨rfl, fun hq hpeer => ?_, fun _ hpeer h => exec_yield_alone h hpeer, ?_, ?_, exec_prio ha⟩
  · rw [exec_yield hq, hpeer, if_neg Bool.false_ne_true, finish_done]
  · exact fun l hl hrun h hsave hcreate heq hprio => exec_yield_creation hl hrun h hsave hcreate heq hprio
  · have hx : exec (.deal d a b) s = execDeal d a b s := rfl
    rw [hx, execDeal, regs3_usable hd ha hb]
    rfl

end Sys2Proof.Machine

namespace Sys2Proof.Machine

/-! ### Who has the lanes (R11, R154, R155) -/

@[simp] theorem State.setCore_core (s : State) (p : Place) (k : Core) : (s.setCore p k).core p = k := by
  rw [State.core, State.setCore, tab_get_set_same, Option.getD_some]

/-- The better of a choice made so far and one more context: the one chosen first stays among equals. -/
def firstBest (e : Nat → Nat) (b : Option Nat) (c : Nat) : Option Nat :=
  match b with
  | none => some c
  | some x => if e x < e c then some c else b

/-- With a last context after a list, the choice is the highest of them all, and the last one only where it is above every other. -/
theorem foldl_firstBest_concat (e : Nat → Nat) (l : List Nat) (c : Nat) : ∃ h, (l ++ [c]).foldl (firstBest e) none = some h ∧
    (∀ w ∈ l, e w ≤ e h) ∧ e c ≤ e h ∧ (h ∈ l ∨ h = c ∧ ∀ w ∈ l, e w < e c) := by
  induction l using List.reverseRecOn generalizing c with
  | nil => exact ⟨c, rfl, by simp⟩
  | append_singleton l d ih =>
    obtain ⟨x, hx, hall, hd, hin⟩ := ih d
    have hmem : x ∈ l ++ [d] := by
      rcases hin with hin | ⟨rfl, -⟩
      · exact List.mem_append_left _ hin
      · exact List.mem_append_right _ List.mem_cons_self
    have hle : ∀ w ∈ l ++ [d], e w ≤ e x := fun w hw => by
      rcases List.mem_append.mp hw with hw | hw
      · exact hall w hw
      · rwa [List.mem_singleton.mp hw]
    rw [List.foldl_append, hx]
    by_cases hlt : e x < e c
    · have hall' := fun w hw => (hle w hw).trans_lt hlt
      exact ⟨c, if_pos hlt, fun w hw => (hall' w hw).le, le_refl _, .inr ⟨rfl, hall'⟩⟩
    · exact ⟨x, if_neg hlt, hle, Nat.le_of_not_lt hlt, .inl hmem⟩

/-- A lender that has its replay's outcome comes before every waiter (R155). -/
theorem State.nextForLanes_lender {s : State} {k : Core} {l : Nat} (h : s.lenderBack k = some l) : s.nextForLanes k = some l := by
  unfold State.nextForLanes
  rw [h]

theorem State.nextForLanes_waiters {s : State} {k : Core} (h : s.lenderBack k = none) :
    s.nextForLanes k = k.waiters.foldl (firstBest s.eprioOf) none := by
  unfold State.nextForLanes
  rw [h]
  rfl

theorem State.lenderBack_without {s : State} {k : Core} (c : Nat) (h : s.lenderBack k = none) : s.lenderBack (k.without c) = none := by
  unfold State.lenderBack at h ⊢
  exact List.find?_eq_none.mpr fun l hl => List.find?_eq_none.mp h l (List.mem_filter.mp hl).1

/-- The lanes that no context holds go to the one that is to receive them next. -/
theorem State.passLanes_gives {s : State} {p : Place} {h : Nat} (hfree : (s.core p).holder = none) (hnext : s.nextForLanes (s.core p) = some h) :
    s.passLanes p = s.setCore p ((s.core p).give h s.cycle) := by
  unfold State.passLanes
  dsimp only
  rw [hfree, hnext]

/-- The holder gives up the lanes; `again` puts it behind the waiters. -/
def Core.released (k : Core) (c : Nat) (again : Bool) : Core :=
  { k.without c with waiters := (k.without c).waiters ++ (if again then [c] else []) }

theorem Core.released_holder {k : Core} {c : Nat} (h : k.holder = some c) (again : Bool) : (k.released c again).holder = none := if_pos h

theorem State.yieldLanes_empty {s : State} (h : s.queue = []) (again : Bool) : s.yieldLanes again =
    done ((s.setCore s.cur.id.place ((s.core s.cur.id.place).released s.cur.id.ctxid again)).passLanes s.cur.id.place) := by
  rw [State.yieldLanes, State.drained_empty h]
  rfl

/-- Lanes that their holder yields, with nothing queued, go to the one that is to receive them next. -/
theorem State.yieldLanes_gives {s : State} {h : Nat} {again : Bool} (hq : s.queue = []) (hhold : (s.core s.cur.id.place).holder = some s.cur.id.ctxid)
    (hnext : s.nextForLanes ((s.core s.cur.id.place).released s.cur.id.ctxid again) = some h) :
    ∃ t, s.yieldLanes again = done t ∧ t.core s.cur.id.place = ((s.core s.cur.id.place).released s.cur.id.ctxid again).give h s.cycle ∧
      t.cur = s.cur ∧ t.mem = s.mem := by
  rw [State.yieldLanes_empty hq, State.passLanes_gives (h := h)]
  · exact ⟨_, rfl, by rw [State.setCore_core, State.setCore_core]; rfl, rfl, rfl⟩
  · rw [State.setCore_core]
    exact Core.released_holder hhold again
  · rw [State.setCore_core]
    exact hnext

/-- The slice of the lanes ends: they go to a lender that is back, else to the waiter of the highest priority, the one that had them last of all (R154). -/
theorem exec_laneSliceEnd {s : State} {c w : Nat} (hc : s.cur.id.ctxid = c) (hrun : s.cur.st = .running) (hq : s.queue = [])
    (hhold : (s.core s.cur.id.place).holder = some c) (hw : w ∈ (s.core s.cur.id.place).waiters) (hwc : w ≠ c)
    (hslice : (s.core s.cur.id.place).since + Config.sliceCycles ≤ s.cycle) :
    ∃ t h, exec (.laneSliceEnd c) s = .next t ∧ (t.core s.cur.id.place).holder = some h ∧ t.cur = s.cur ∧ t.mem = s.mem ∧
      (s.lenderBack (s.core s.cur.id.place) = none → (h ∈ (s.core s.cur.id.place).waiters ∨ h = c) ∧
        (∀ w ∈ (s.core s.cur.id.place).waiters, s.eprioOf w ≤ s.eprioOf h) ∧
        (h = c → ∀ w ∈ (s.core s.cur.id.place).waiters, w ≠ c → s.eprioOf w < s.eprioOf c) ∧ (h ≠ c → c ∈ (t.core s.cur.id.place).waiters)) := by
  subst hc
  have hx : exec (.laneSliceEnd s.cur.id.ctxid) s = finish (s.yieldLanes true) := by
    have hany : (s.core s.cur.id.place).waiters.any (fun x => decide (x ≠ s.cur.id.ctxid)) = true := List.any_eq_true.mpr ⟨w, hw, decide_eq_true hwc⟩
    have hx : exec (.laneSliceEnd s.cur.id.ctxid) s = execLaneSliceEnd s.cur.id.ctxid s := rfl
    rw [hx, execLaneSliceEnd, State.focus_self, Option.bind_some, if_pos ⟨hrun, hhold, hslice, hany⟩, stepOr_some]
  rw [hx]
  generalize hk : s.core s.cur.id.place = k at hhold hw ⊢
  cases hback : s.lenderBack (k.released s.cur.id.ctxid true) with
  | some l =>
    obtain ⟨t, ht, hcore, hcur, hmem⟩ := State.yieldLanes_gives (again := true) hq (hk ▸ hhold) (hk ▸ State.nextForLanes_lender hback)
    refine ⟨t, l, by rw [ht, finish_done], by rw [hcore]; rfl, hcur, hmem, fun hnone => ?_⟩
    cases hback.symm.trans (State.lenderBack_without s.cur.id.ctxid hnone)
  | none =>
    obtain ⟨h, hbest, hall, hself, hin⟩ := foldl_firstBest_concat s.eprioOf (k.without s.cur.id.ctxid).waiters s.cur.id.ctxid
    obtain ⟨t, ht, hcore, hcur, hmem⟩ := State.yieldLanes_gives (again := true) hq (hk ▸ hhold)
      (hk ▸ (State.nextForLanes_waiters hback).trans hbest)
    refine ⟨t, h, by rw [ht, finish_done], by rw [hcore]; rfl, hcur, hmem, fun _ => ⟨?_, fun w hw => ?_, fun hme w hw hne => ?_, fun hne => ?_⟩⟩
    · exact hin.imp (fun hin => (List.mem_filter.mp hin).1) And.left
    · by_cases hme : w = s.cur.id.ctxid
      · rwa [hme]
      · exact hall w (List.mem_filter.mpr ⟨hw, decide_eq_true hme⟩)
    · rcases hin with hin | ⟨-, hlt⟩
      · exact absurd hme (of_decide_eq_true (List.mem_filter.mp hin).2)
      · exact hlt w (List.mem_filter.mpr ⟨hw, decide_eq_true hne⟩)
    · rw [hcore, hk]
      exact List.mem_filter.mpr ⟨List.mem_append_right _ List.mem_cons_self, decide_eq_true (Ne.symm hne)⟩

/-- The borrower returns the lanes to the first context that lent them, once that one has its replay's outcome (R155). -/
theorem exec_laneHandover {s : State} {c l : Nat} {u : Thread} {rest : List Nat} (hc : s.cur.id.ctxid = c) (hrun : s.cur.st = .running) (hq : s.queue = [])
    (hhold : (s.core s.cur.id.place).holder = some c) (hlenders : (s.core s.cur.id.place).lenders = l :: rest) (hlc : l ≠ c)
    (hu : s.thread? l = some u) (hover : u.sys.lstate ≠ 2) :
    ∃ t, exec (.laneHandover c) s = .next t ∧ (t.core s.cur.id.place).holder = some l ∧ l ∉ (t.core s.cur.id.place).lenders ∧ t.cur = s.cur ∧
      t.mem = s.mem := by
  subst hc
  have hback : ∀ k : Core, ∀ rest', k.lenders = l :: rest' → s.lenderBack k = some l := fun k rest' hk => by
    unfold State.lenderBack
    rw [hk, List.find?_cons_of_pos]
    rw [hu]
    exact decide_eq_true hover
  have hdue : s.lanesDue = some l := (if_pos hhold).trans (hback _ _ hlenders)
  have hx : exec (.laneHandover s.cur.id.ctxid) s = finish (s.yieldLanes false) := by
    have hx : exec (.laneHandover s.cur.id.ctxid) s = execLaneHandover s.cur.id.ctxid s := rfl
    rw [hx, execLaneHandover, State.focus_self, Option.bind_some, decide_eq_true hrun, hdue, stepOr_some]
  have hkeeps : ((s.core s.cur.id.place).released s.cur.id.ctxid false).lenders = l :: rest.filter fun x => decide (x ≠ s.cur.id.ctxid) :=
    (congrArg (List.filter _) hlenders).trans (List.filter_cons_of_pos (decide_eq_true hlc))
  obtain ⟨t, ht, hcore, hcur, hmem⟩ := State.yieldLanes_gives (again := false) hq hhold (State.nextForLanes_lender (hback _ _ hkeeps))
  refine ⟨t, by rw [hx, ht, finish_done], by rw [hcore]; rfl, ?_, hcur, hmem⟩
  rw [hcore]
  exact fun hin => of_decide_eq_true (List.mem_filter.mp hin).2 rfl

/-- A grant of a quarter, a half, three quarters or all of a core's lanes changes that core's grant (R164). -/
theorem exec_laneGrantChange (s : State) {k n : Nat} (h : isBaseKey k = false ∧ n ∈ [16, 32, 48, 64] ∨ isBaseKey k = true ∧ n ∈ [4, 8, 12, 16]) :
    exec (.laneGrantChange k n) s =
      .next { s with cores := Tab.set s.cores k { (Tab.get s.cores k).getD (Core.init (isBaseKey k)) with grant := n } } := by
  have hx : exec (.laneGrantChange k n) s = execLaneGrantChange k n s := rfl
  rw [hx, execLaneGrantChange]
  rcases h with ⟨hbase, hn⟩ | ⟨hbase, hn⟩
  · rw [hbase]
    exact congrArg (stepOr s) (if_pos (List.elem_eq_true_of_mem hn))
  · rw [hbase]
    exact congrArg (stepOr s) (if_pos (List.elem_eq_true_of_mem hn))

/-- Settles O54: whoever gives up the lanes, they pass on to the lender that is back or to the best of the waiters. -/
theorem lanesChangeHands : Obligations.LanesChangeHands := by
  unfold Obligations.LanesChangeHands
  intro s c hc
  refine ⟨fun hrun hq hhold => ⟨fun w hw hwc hslice => ?_, fun l u rest hlenders hlc hu hover => ?_⟩, fun k n h => ?_⟩
  · exact exec_laneSliceEnd hc hrun hq hhold hw hwc hslice
  · exact exec_laneHandover hc hrun hq hhold hlenders hlc hu hover
  · exact ⟨_, exec_laneGrantChange s h, tab_get_set_same .., fun j hj => tab_get_set_other _ _ hj, rfl, rfl⟩

end Sys2Proof.Machine

namespace Sys2Proof.Machine

/-! ### Admission of a launch (R144, R148, R377) -/

theorem State.cleanLine_lines (s : State) (l : Nat) : ∃ ls, s.cleanLine l = { s with lines := ls } := by
  obtain ⟨h, -⟩ | h := s.cleanLine_eq l
  · exact ⟨_, h⟩
  · exact ⟨_, h⟩

/-- The write-back of images changes line records, and nothing else (R377). -/
theorem State.cleanImage_lines (s : State) (i : Image) : ∃ ls, s.cleanImage i = { s with lines := ls } := by
  unfold State.cleanImage
  refine List.foldlRecOn _ _ (motive := fun t : State => ∃ ls, t = { s with lines := ls }) ⟨_, rfl⟩ fun t ht l _ => ?_
  obtain ⟨ls, rfl⟩ := ht
  exact State.cleanLine_lines { s with lines := ls } l.1

theorem State.cleanImages_lines (s : State) (part asid : Nat) : ∃ ls, s.cleanImages part asid = { s with lines := ls } := by
  unfold State.cleanImages
  refine List.foldlRecOn _ _ (motive := fun t : State => ∃ ls, t = { s with lines := ls }) ⟨_, rfl⟩ fun t ht i _ => ?_
  obtain ⟨ls, rfl⟩ := ht
  exact State.cleanImage_lines { s with lines := ls } i

/-- The launch that an identifier finds, where some launch has it. -/
theorem State.find_launch {s : State} {l : Nat} {x : Launch} (hof : s.launchOf l = x) (hx : x ∈ s.launches) (hid : x.id = l) :
    s.launches.find? (fun y => y.id == l) = some x := by
  cases hfind : s.launches.find? (fun y => y.id == l) with
  | none => exact absurd (List.find?_eq_none.mp hfind x hx) (by simp [hid])
  | some y =>
    rw [State.launchOf, hfind, Option.getD_some] at hof
    rw [hof]

theorem State.launchOf_modLaunch_other (s : State) {l m : Nat} (h : m ≠ l) (f : Launch → Launch) (hf : ∀ x, (f x).id = x.id) :
    (s.modLaunch l f).launchOf m = s.launchOf m := by
  have hfind : (s.launches.map fun x => if x.id = l then f x else x).find? (fun x => x.id == m) = s.launches.find? fun x => x.id == m := by
    induction s.launches with
    | nil => rfl
    | cons x r ih =>
      rw [List.map_cons, List.find?_cons, List.find?_cons, ih]
      by_cases hx : x.id = l
      · rw [if_pos hx, hf]
        cases hm : x.id == m with
        | false => rfl
        | true => exact absurd ((beq_iff_eq.mp hm).symm.trans hx) h
      · rw [if_neg hx]
  rw [State.launchOf, State.modLaunch_launches, hfind, State.launchOf]

/-- The state in which a launch has been admitted: its queues' control blocks are cleared, and for the host the image is written back (R144, R377). -/
def State.queuesCleared (s : State) (l : Nat) (x : Launch) : State :=
  x.lrec.queues.foldl (fun (s : State) q => s.clearQueue (s.launchOf l) q) (s.wake.modLaunch l fun o => { o with admitted := true })

/-- A launch that heads its queue is admitted where no higher priority has one that can be (R148). -/
theorem exec_launchAdmit {s : State} {l : Nat} {x : Launch} (hof : s.launchOf l = x) (hx : x ∈ s.launches) (hid : x.id = l)
    (hqueued : x.queuedIn x.part = true) (hadm : s.admissible x = true)
    (hhigher : ∀ o ∈ s.launches, o.queuedIn x.part = true → x.lrec.prio < o.lrec.prio → s.admissible o = false) :
    exec (.launchAdmit l) s = .next (if x.host.isSome = true then (s.queuesCleared l x).cleanImages x.part x.asid else s.queuesCleared l x) := by
  have hany : (s.launches.any fun o => decide (o.id = l)) = true := List.any_eq_true.mpr ⟨x, hx, decide_eq_true hid⟩
  have hnone : (s.launches.any fun o => o.queuedIn x.part && decide (x.lrec.prio < o.lrec.prio) && s.admissible o) = false := by
    refine List.any_eq_false.mpr fun o ho hbad => ?_
    obtain ⟨hpair, hadmissible⟩ := Bool.and_eq_true_iff.mp hbad
    obtain ⟨hq, hp⟩ := Bool.and_eq_true_iff.mp hpair
    cases hadmissible.symm.trans (hhigher o ho hq (of_decide_eq_true hp))
  have hrun : exec (.launchAdmit l) s = execLaunchAdmit l s := rfl
  rw [hrun, execLaunchAdmit, hof]
  dsimp only
  rw [hany, hqueued, hadm, hnone, Bool.not_false, Bool.and_true, Bool.and_true, Bool.and_true, if_pos rfl, stepOr_some, finish_done]
  rfl

/-- A launch without queues is admitted, and nothing else changes of the launches, of memory and of the current thread (R148). -/
theorem exec_launchAdmit_plain {s : State} {l : Nat} {x : Launch} (hof : s.launchOf l = x) (hx : x ∈ s.launches) (hid : x.id = l)
    (hqueued : x.queuedIn x.part = true) (hadm : s.admissible x = true)
    (hhigher : ∀ o ∈ s.launches, o.queuedIn x.part = true → x.lrec.prio < o.lrec.prio → s.admissible o = false) (hnone : x.lrec.queues = []) :
    ∃ t, exec (.launchAdmit l) s = .next t ∧ t.launchOf l = { x with admitted := true } ∧ (∀ m, m ≠ l → t.launchOf m = s.launchOf m) ∧
      t.mem = s.mem ∧ t.cur = s.cur := by
  have hcleared : s.queuesCleared l x = s.wake.modLaunch l fun o => { o with admitted := true } := by
    rw [State.queuesCleared, hnone, List.foldl_nil]
  obtain ⟨ls, hlines⟩ : ∃ ls, (if x.host.isSome = true then (s.queuesCleared l x).cleanImages x.part x.asid else s.queuesCleared l x) =
      { s.wake.modLaunch l (fun o => { o with admitted := true }) with lines := ls } := by
    rw [hcleared]
    split
    · exact State.cleanImages_lines _ _ _
    · exact ⟨_, rfl⟩
  refine ⟨_, exec_launchAdmit hof hx hid hqueued hadm hhigher, ?_⟩
  rw [hlines]
  refine ⟨?_, fun m hm => ?_, rfl, rfl⟩
  · exact State.launchOf_modLaunch (s := s.wake) (State.find_launch hof hx hid) _ fun _ => rfl
  · exact State.launchOf_modLaunch_other s.wake hm _ fun _ => rfl

end Sys2Proof.Machine

namespace Sys2Proof.Machine

/-! ### A thread enters a cluster (R34, R148, R150) -/

/-- After a change of one launch, an identifier finds what it found before, or the changed launch. -/
theorem State.launchOf_modLaunch_cases (s : State) (l m : Nat) (f : Launch → Launch) (hf : ∀ x, (f x).id = x.id) :
    (s.modLaunch l f).launchOf m = s.launchOf m ∨ (s.modLaunch l f).launchOf m = f (s.launchOf m) := by
  by_cases hm : m = l
  · subst hm
    cases hfind : s.launches.find? (fun x => x.id == m) with
    | none =>
      refine .inl ?_
      have hall := List.find?_eq_none.mp hfind
      rw [State.launchOf, State.launchOf, hfind, State.modLaunch_launches, List.find?_eq_none.mpr]
      intro x hx
      obtain ⟨y, hy, rfl⟩ := List.mem_map.mp hx
      split
      · rw [hf]
        exact hall y hy
      · exact hall y hy
    | some x =>
      have hof : s.launchOf m = x := by rw [State.launchOf, hfind, Option.getD_some]
      exact .inr ((State.launchOf_modLaunch hfind f hf).trans (hof ▸ rfl))
  · exact .inl (s.launchOf_modLaunch_other hm f hf)

/-- Entering a cluster changes the launches' notes of where they stood, the copies in caches, and the mode of the cluster. -/
theorem State.enterCluster_eq (s : State) (l : Launch) (cl : Nat) : ∃ ls cs ks, s.enterCluster l cl =
    { s with launches := ls, copies := cs, clusters := ks } ∧ ∀ m, ∃ st, (s.enterCluster l cl).launchOf m = { s.launchOf m with stood := st } := by
  have hstood : ∀ m, ∃ st, (s.modLaunch l.id fun x => { x with stood := x.stood ++ [cl] }).launchOf m = { s.launchOf m with stood := st } := fun m => by
    obtain h | h := s.launchOf_modLaunch_cases l.id m (fun x => { x with stood := x.stood ++ [cl] }) fun _ => rfl
    · exact ⟨_, h⟩
    · exact ⟨_, h⟩
  unfold State.enterCluster
  dsimp only
  split <;> split
  · exact ⟨_, _, _, rfl, fun m => ⟨_, rfl⟩⟩
  · exact ⟨_, _, _, rfl, fun m => ⟨_, rfl⟩⟩
  · exact ⟨_, _, _, rfl, hstood⟩
  · exact ⟨_, _, _, rfl, hstood⟩

theorem State.joined_eq (s : State) : ∃ n a k, s.joined = { s with cur := { s.cur with turn := n, turnAt := a, sliceUsed := k } } := by
  unfold State.joined
  split <;> exact ⟨_, _, _, rfl⟩

theorem State.exceptMem_launchOf {s t : State} (h : t.exceptMem = s.exceptMem) (m : Nat) : t.launchOf m = s.launchOf m :=
  (congrArg (fun x : State => x.launchOf m) h :)

/-- A thread that joins the machine is the current one, in the round under way; launches, partitions and memory stay where they are. -/
theorem State.addThread_joined (s : State) (x : Thread) : ∃ n a k, (s.addThread x).joined.cur = { x with turn := n, turnAt := a, sliceUsed := k } ∧
    (s.addThread x).joined.board = s.board ∧ (s.addThread x).joined.parts = s.parts ∧ (s.addThread x).joined.launches = s.launches := by
  obtain ⟨n, a, k, hjoined⟩ := (s.addThread x).joined_eq
  rw [hjoined]
  exact ⟨n, a, k, rfl, rfl, rfl, rfl⟩

/-- A thread made at a place is the current one, as its launch makes it, but for its place in the rotation (R13, R149). -/
theorem State.createAt_makes {s : State} {id stage lthr c : Nat} {p : Place} {z : Part} (hid : (s.launchOf id).id = id)
    (hpart : s.part? (s.launchOf id).part = some z) (hthere : s.isMemory (z.tableEntry c) = true) :
    ∃ t n a k, s.createAt id stage lthr p c = done t ∧
      t.cur = { (s.launchOf id).thread stage lthr p c s.cycle with turn := n, turnAt := a, sliceUsed := k } ∧
      ∀ m, ∃ st, t.launchOf m = { s.launchOf m with stood := st } := by
  obtain ⟨ls, cs, ks, henter, hof⟩ := s.enterCluster_eq (s.launchOf id) p.cluster
  unfold State.createAt
  dsimp only
  rw [henter] at hof ⊢
  generalize hx : (s.launchOf id).thread stage lthr p c s.cycle = x
  have hxid : x.id.launch = id := by rw [← hx]; exact hid
  obtain ⟨n, a, k, hcur, hboard, hparts, hlaunches⟩ := State.addThread_joined { s with launches := ls, copies := cs, clusters := ks } x
  generalize (State.addThread { s with launches := ls, copies := cs, clusters := ks } x).joined = u at hcur hboard hparts hlaunches ⊢
  have hlaunch : ∀ m, ∃ st, u.launchOf m = { s.launchOf m with stood := st } := fun m => by
    rw [State.launchOf, hlaunches]
    exact hof m
  have hcurPart : u.curPart = some z := by
    obtain ⟨st, hst⟩ := hlaunch id
    have hu : u.launch = { s.launchOf id with stood := st } := by rw [State.launch, hcur, hxid, hst]
    rw [State.curPart, State.part?, hparts, hu]
    exact hpart
  rw [hcurPart]
  dsimp only
  rw [State.putTState_writes ((State.isMemory_of_board hboard _).trans hthere)]
  refine ⟨_, n, a, k, rfl, (State.sysStore_cur ..).trans hcur, fun m => ?_⟩
  rw [State.exceptMem_launchOf (State.sysStore_exceptMem ..)]
  exact hlaunch m

/-! ### The creation of a thread (R13, R140, R149, R370) -/

/-- The registers of a new thread: ARGP in g1, the top of its stack in g30, zero elsewhere (R13, R140). -/
theorem Launch.thread_g (l : Launch) (stage lthr : Nat) (p : Place) (c cycle n : Nat) : (l.thread stage lthr p c cycle).g.getD n 0 =
    if n = 30 then (if l.lrec.stksz = 0 then 0 else l.lrec.stkb + BitVec.ofNat 64 ((l.lrec.base stage + lthr + 1) * l.lrec.stksz))
    else if n = 1 then l.lrec.argp else 0 := by
  unfold Launch.thread
  dsimp only
  by_cases h30 : n = 30
  · subst h30
    simp [Vector.getD]
  by_cases h1 : n = 1
  · subst h1
    simp [Vector.getD]
  rw [if_neg h30, if_neg h1]
  by_cases hn : n < 32
  · simp [Vector.getD, hn, Thread.init, Ne.symm h30, Ne.symm h1]
  · simp [Vector.getD, hn]

/-- The count of one stage rises, and only that one. -/
theorem bump_same {l : List Nat} {k q : Nat} (h : l[k]? = some q) (n : Nat) : (bump l k n)[k]? = some (q + n) := by
  obtain ⟨hk, rfl⟩ := List.getElem?_eq_some_iff.mp h
  unfold bump
  simp [hk]

/-- A launch that holds resources is one that its identifier finds. -/
theorem State.find_holding {s : State} {l : Launch} (hl : s.launchOf l.id = l) (hholds : l.holds = true) :
    s.launches.find? (fun x => x.id == l.id) = some l := by
  have hne : s.launchOf l.id ≠ Launch.empty := fun h => by
    rw [hl.symm.trans h] at hholds
    cases hholds
  rw [State.find_launchOf hne, hl]

/-- The next stage of a launch is one of its stages. -/
theorem Launch.nextStage_stage {l : Launch} {g : Nat} (h : l.nextStage = some g) : ∃ y, l.lrec.stages[g]? = some y :=
  ⟨_, List.getElem?_eq_getElem (List.mem_range.mp (List.mem_of_find?_eq_some h))⟩

/-- A launch with one more thread of a stage made. -/
def Launch.withMade (l : Launch) (g n : Nat) : Launch := { l with made := bump l.made g n }

/-- What the creation of a launch's next thread, which has no gang, asks for of the launch and the context (R149). -/
structure State.CanCreate (s : State) (l : Launch) (p : Place) (c g q : Nat) : Prop where
  found : s.launchOf l.id = l
  holds : l.holds = true
  alive : l.killed = false
  stage : l.nextStage = some g
  next : l.made[g]? = some q
  inst : (s.instOf l (l.lrec.coords q)).isSome = true
  noGang : l.lrec.gangLevel g = none
  pos : 0 < c
  small : c < 65536
  unused : s.live c = false
  vacant : s.vacant p = true
  stands : s.mayStand l (l.lrec.coords q) p = true
  room : s.stageRoom l g 1 = true
  few : (s.threads.filter fun t => decide (t.st ≠ .free)).length < 65535
  first : ∀ t ∈ s.candidates p, t.sys.eprio.toNat ≤ l.lrec.prio

theorem exec_threadCreate {s : State} {l : Launch} {p : Place} {c g q : Nat} (h : s.CanCreate l p c g q) :
    exec (.threadCreate l.id p c) s = finish ((s.modLaunch l.id fun x => x.withMade g 1).createAt l.id g q p c) := by
  have htogether : l.lrec.together g q = [q] := by
    unfold LaunchRec.together
    rw [h.noGang]
    rfl
  have hmine : s.madeHere l g q = [q] := by
    unfold State.madeHere
    rw [htogether]
    exact List.filter_eq_self.mpr fun k hk => by rw [List.mem_singleton.mp hk]; exact h.inst
  have hcandidates : (s.candidates p).any (fun t => decide (l.lrec.prio < t.sys.eprio.toNat)) = false :=
    List.any_eq_false.mpr fun t ht hlt => absurd (of_decide_eq_true hlt) (Nat.not_lt.mpr (h.first t ht))
  have hnone : (s.instOf l (l.lrec.coords q)).isNone = false := by
    rw [← Option.not_isSome, h.inst, Bool.not_true]
  have hx : exec (.threadCreate l.id p c) s = execThreadCreate l.id p c s := rfl
  rw [hx, execThreadCreate]
  dsimp only
  rw [h.found, h.holds, h.alive, h.stage]
  simp only [Bool.not_true, Bool.or_false, Bool.false_eq_true, if_false, Option.bind_some]
  rw [h.next, Option.getD_some, hmine, htogether, hnone, h.unused, h.vacant, h.stands, hcandidates]
  have hrest : [q].filter (fun k => decide (k ≠ q)) = [] := by simp
  have hroom : s.stageRoom l g [q].length = true := h.room
  have hpos := h.pos
  have hsmall := h.small
  have hfew := h.few
  generalize (s.threads.filter fun t => decide (t.st ≠ .free)).length = count at hfew ⊢
  rw [hroom, hrest, if_neg Bool.false_ne_true, if_neg (by simp; omega), choosePlaces, Option.map_some, stepOr_some]
  generalize hr : State.createAt _ l.id g q p c = r
  have hr' : (s.modLaunch l.id fun x => x.withMade g 1).createAt l.id g q p c = r := hr
  rw [hr']
  cases r <;> rfl

/-- The next thread of a launch is made: it runs at its entry as its launch makes it, and its launch counts it (R13, R140, R149, R370). -/
theorem exec_threadCreate_makes {s : State} {l : Launch} {p : Place} {c g q : Nat} {z : Part} (h : s.CanCreate l p c g q)
    (hpart : s.part? l.part = some z) (hthere : s.isMemory (z.tableEntry c) = true) :
    ∃ t n a k, exec (.threadCreate l.id p c) s = .next t ∧
      t.cur = { (l.withMade g 1).thread g q p c s.cycle with turn := n, turnAt := a, sliceUsed := k } ∧
      (t.launchOf l.id).made[g]? = some (q + 1) := by
  have hof : (s.modLaunch l.id fun x => x.withMade g 1).launchOf l.id = l.withMade g 1 :=
    State.launchOf_modLaunch (State.find_holding h.found h.holds) _ fun _ => rfl
  obtain ⟨t, n, a, k, ht, hcur, hlaunch⟩ := State.createAt_makes (s := s.modLaunch l.id fun x => x.withMade g 1) (id := l.id) (stage := g)
    (lthr := q) (c := c) (p := p) (z := z) (by rw [hof]; rfl) (by rw [hof]; exact hpart) hthere
  rw [hof] at hcur
  refine ⟨t, n, a, k, by rw [exec_threadCreate h, ht, finish_done], hcur, ?_⟩
  obtain ⟨st, hst⟩ := hlaunch l.id
  rw [hst, hof]
  exact bump_same h.next 1

end Sys2Proof.Machine

namespace Sys2Proof.Machine

/-! ### The registers that an image holds (R217, R219) -/

/-- A system register taken from an image changes the system registers of the thread only. -/
theorem Thread.sysRestore_eq (t : Thread) (n : Nat) (v : Word) : ∃ y, t.sysRestore n v = { t with sys := y } := by
  unfold Thread.sysRestore
  dsimp only
  repeat' split
  all_goals exact ⟨_, rfl⟩

/-- Of the system registers of an image, LVn of a level that the tree has gives that coordinate, and no other changes one (R19). -/
theorem Thread.sysRestore_lv (t : Thread) (n : Nat) (v : Word) : (t.sysRestore n v).sys.lv =
    if 0x044 ≤ n ∧ n ≤ 0x04B ∧ n - 0x044 < t.id.lv.length then t.sys.lv.setIfInBounds (n - 0x044) (v.setWidth 32) else t.sys.lv := by
  unfold Thread.sysRestore
  dsimp only
  split
  case h_22 => exact apply_ite (fun u : Thread => u.sys.lv) _ _ _
  case h_7 => exact (apply_ite (fun u : Thread => u.sys.lv) _ _ _).trans (by simp)
  all_goals simp

/-- System registers taken from an image one after another: the numbers of the registers, each with its slot. -/
def Thread.sysRestoreAll (t : Thread) (w : Nat → Word) (l : List (Nat × Nat)) : Thread := l.foldl (fun t x => t.sysRestore x.1 (w x.2)) t

theorem Thread.sysRestoreAll_eq (t : Thread) (w : Nat → Word) (l : List (Nat × Nat)) : ∃ y, t.sysRestoreAll w l = { t with sys := y } := by
  refine List.foldlRecOn l _ (motive := fun u : Thread => ∃ y, u = { t with sys := y }) ⟨_, rfl⟩ fun u hu x _ => ?_
  obtain ⟨y, rfl⟩ := hu
  exact Thread.sysRestore_eq { t with sys := y } x.1 (w x.2)

/-- A coordinate whose register has one slot of the image comes from there. -/
theorem Thread.sysRestoreAll_lv (t : Thread) (w : Nat → Word) {n : Fin 8} {j : Nat} (hn : n.val < t.id.lv.length) (l : List (Nat × Nat))
    (hin : (0x044 + n.val, j) ∈ l) (honly : ∀ x ∈ l, x.1 = 0x044 + n.val → x.2 = j) : (t.sysRestoreAll w l).sys.lv[n] = (w j).setWidth 32 := by
  induction l using List.reverseRecOn with
  | nil => cases hin
  | append_singleton l x ih =>
    obtain ⟨y, hy⟩ := t.sysRestoreAll_eq w l
    have hid : (t.sysRestoreAll w l).id = t.id := by rw [hy]
    have hlast : t.sysRestoreAll w (l ++ [x]) = (t.sysRestoreAll w l).sysRestore x.1 (w x.2) := by
      unfold Thread.sysRestoreAll
      rw [List.foldl_append, List.foldl_cons, List.foldl_nil]
    rw [hlast, Thread.sysRestore_lv, hid]
    by_cases hx : x.1 = 0x044 + n.val
    · rw [if_pos (by omega), honly x (List.mem_append_right _ List.mem_cons_self) hx]
      simp [hx]
    · have hin' : (0x044 + n.val, j) ∈ l := by
        rcases List.mem_append.mp hin with hin | hin
        · exact hin
        · exact absurd (congrArg Prod.fst (List.mem_singleton.mp hin)).symm hx
      have ih' := ih hin' fun y hy => honly y (List.mem_append_left _ hy)
      split
      · have hne : x.1 - 0x044 ≠ n.val := by omega
        simpa [Vector.getElem_setIfInBounds, hne] using ih'
      · exact ih'

/-- In R19's table LV0 to LV7 have one slot each, from the thirtieth on. -/
theorem sysNumbers_lv : ∀ n : Fin 8, (0x044 + n.val, 29 + n.val) ∈ sysNumbers.zip (List.range sysNumbers.length) ∧
    ∀ x ∈ sysNumbers.zip (List.range sysNumbers.length), x.1 = 0x044 + n.val → x.2 = 29 + n.val := by decide

/-- Registers set one after another hold what they were set to. -/
theorem foldl_setRegs (g : Vector Word 32) (f : Nat → Word) {k n : Nat} (hn : 0 < n) (hk : n ≤ k) (h : n < 32) :
    ((List.range k).foldl (fun (g : Vector Word 32) i => g.setIfInBounds (i + 1) (f i)) g).getD n 0 = f (n - 1) := by
  induction k with
  | zero => omega
  | succ k ih =>
    rw [List.range_succ, List.foldl_append, List.foldl_cons, List.foldl_nil]
    by_cases hlast : n = k + 1
    · subst hlast
      simp [Vector.getD, h]
    · have hne : k + 1 ≠ n := by omega
      have ih' := ih (by omega)
      simpa [Vector.getD, h, Vector.getElem_setIfInBounds, hne] using ih'

/-- What a reload from an image gives a thread: its resume address, its registers and its coordinates; it stays who it is, and keeps what it has had
of its slice (R216, R217). -/
structure Thread.ReloadedFrom (t u : Thread) (m : Mem) (image : Nat) : Prop where
  id : u.id = t.id
  sliceUsed : u.sliceUsed = t.sliceUsed
  resume : u.resume = m.word (image + 0x10)
  g : ∀ n, 0 < n → n < 32 → u.g.getD n 0 = m.word (image + 0x100 + 8 * n)
  lv : ∀ n : Fin 8, n.val < t.id.lv.length → u.sys.lv[n] = (m.word (image + 0x2E8 + 8 * n.val)).setWidth 32

/-- The system registers of a thread as its image holds them. -/
def Thread.sysReloaded (t : Thread) (m : Mem) (image : Nat) : Thread :=
  t.sysRestoreAll (fun j => m.word (image + 0x200 + 8 * j)) (sysNumbers.zip (List.range sysNumbers.length))

theorem Thread.sysReloaded_eq (t : Thread) (m : Mem) (image : Nat) : ∃ y, t.sysReloaded m image = { t with sys := y } := t.sysRestoreAll_eq _ _

theorem Thread.sysReloaded_lv (t : Thread) (m : Mem) (image : Nat) (n : Fin 8) (hn : n.val < t.id.lv.length) :
    (t.sysReloaded m image).sys.lv[n] = (m.word (image + 0x2E8 + 8 * n.val)).setWidth 32 := by
  obtain ⟨hin, honly⟩ := sysNumbers_lv n
  have haddr : image + 0x200 + 8 * (29 + n.val) = image + 0x2E8 + 8 * n.val := by omega
  rw [← haddr]
  exact t.sysRestoreAll_lv (fun j => m.word (image + 0x200 + 8 * j)) hn _ hin honly

theorem Thread.reload_eq (t : Thread) (m : Mem) (image : Nat) : ∃ v w r, t.reload m image =
    { t.sysReloaded m image with
      vec := v, wait := w, resume := m.word (image + 0x10), retired := r
      g := (List.range 31).foldl (fun (g : Vector Word 32) n => g.setIfInBounds (n + 1) (m.word (image + 0x108 + 8 * n)))
        (t.sysReloaded m image).g } := by
  unfold Thread.reload Thread.sysReloaded Thread.sysRestoreAll
  exact ⟨_, _, _, rfl⟩

theorem Thread.reload_from (t : Thread) (m : Mem) (image : Nat) : t.ReloadedFrom (t.reload m image) m image := by
  have hlv := t.sysReloaded_lv m image
  obtain ⟨y, hy⟩ := t.sysReloaded_eq m image
  obtain ⟨v, w, r, hreload⟩ := t.reload_eq m image
  rw [hreload]
  rw [hy] at hlv ⊢
  refine ⟨rfl, rfl, rfl, fun n hn h => ?_, hlv⟩
  have haddr : image + 0x108 + 8 * (n - 1) = image + 0x100 + 8 * n := by omega
  rw [← haddr]
  exact foldl_setRegs _ (fun i => m.word (image + 0x108 + 8 * i)) hn (k := 31) (by omega) h

end Sys2Proof.Machine

namespace Sys2Proof.Machine

/-! ### What a restore does (R216, R217, R219) -/

theorem seq_pure (r : Res Unit) : (r.seq fun s => done s) = r := by
  cases r <;> rfl

theorem State.reloadLins_eq (s : State) (image : Nat) : ∃ ks, s.reloadLins image = { s with cores := ks } := by
  unfold State.reloadLins
  dsimp only
  split
  · exact ⟨_, rfl⟩
  · exact ⟨_, rfl⟩

/-- A thread without saved members of a gang that comes first for a vacant context is restored there (R149, R153). -/
theorem exec_restore {s : State} {c : Nat} {p : Place} (hc : s.cur.id.ctxid = c) (hvacant : s.vacant p = true) (hcan : s.cur ∈ s.candidates p)
    (hfirst : ∀ u ∈ s.candidates p, s.rank s.cur ≤ s.rank u) (hgang : s.savedGang s.cur = []) (hover : s.overtakes s.cur = false)
    (hdue : s.creationDue p s.cur = false) : exec (.restore c p) s = finish (s.restoreAt p) := by
  subst hc
  have hthread : s.thread? s.cur.id.ctxid = some s.cur := if_pos rfl
  have hany : ((s.candidates p).any fun u => decide (u.id.ctxid = s.cur.id.ctxid)) = true := List.any_eq_true.mpr ⟨s.cur, hcan, decide_eq_true rfl⟩
  have hnone : ((s.candidates p).any fun u => decide (s.rank u < s.rank s.cur)) = false :=
    List.any_eq_false.mpr fun u hu hlt => absurd (of_decide_eq_true hlt) (Nat.not_lt.mpr (hfirst u hu))
  have hplaces : s.gangPlaces s.cur p = some [(s.cur, p)] := by
    unfold State.gangPlaces
    rw [hgang]
    rfl
  have hx : exec (.restore s.cur.id.ctxid p) s = execRestore s.cur.id.ctxid p s := rfl
  rw [hx, execRestore, hthread, Option.bind_some, hvacant, hany, hnone, hover, hdue, if_pos (by rfl), hplaces, Option.map_some, stepOr_some,
    restoreAll, State.focus_self]
  dsimp only
  exact congrArg finish (seq_pure (s.restoreAt p))

/-- What a restore that meets no error makes of the current thread: it runs in the context as its image holds it, with the rest of its slice
(R153, R216, R217). -/
structure Thread.RestoredAs (t u : Thread) (m : Mem) (image cycle : Nat) (p : Place) : Prop where
  state : u.st = .running
  id : u.id = { t.id with place := p }
  pc : u.pc = m.word (image + 0x10)
  g : ∀ n, 0 < n → n < 32 → u.g.getD n 0 = m.word (image + 0x100 + 8 * n)
  sliceAt : u.sliceAt = cycle - t.sliceUsed
  lv : ∀ n : Fin 8, n.val < t.id.lv.length → u.sys.lv[n] = (m.word (image + 0x2E8 + 8 * n.val)).setWidth 32

/-- The current thread put into a context as it has been reloaded. -/
def State.resumed (s : State) (p : Place) : State :=
  { s with cur := { s.cur with
      id := { s.cur.id with place := p }, st := .running, pc := s.cur.resume, stalled := false, sliceAt := s.cycle - s.cur.sliceUsed, sliceUsed := 0
      driftAt := s.cycle, sys := { s.cur.sys with pts := s.ptsNow } } }

/-- The current thread reloaded from its image, its cluster and its lineages with it. -/
def State.reloaded (s : State) (p : Place) (image : Nat) : State :=
  let s := (s.enterCluster s.launch p.cluster).reloadLins image
  { s with cur := s.cur.reload s.mem image }

theorem State.restoreAt_clean {s : State} {p : Place} {z : Part} (hpart : s.curPart = some z)
    (hthere : s.isMemory (s.imageBase z s.cur.id.ctxid) = true) (hclean : s.imagePoisoned (s.imageBase z s.cur.id.ctxid) = false) :
    s.restoreAt p = (((s.reloaded p (s.imageBase z s.cur.id.ctxid)).resumed p).inherit).putTState z
      ((s.reloaded p (s.imageBase z s.cur.id.ctxid)).resumed p).cur.id.ctxid .running := by
  unfold State.restoreAt
  rw [hpart]
  dsimp only
  rw [hthere, hclean, Bool.not_true, if_neg Bool.false_ne_true, if_neg Bool.false_ne_true]
  unfold State.resumed State.reloaded
  dsimp only

theorem State.reloaded_eq (s : State) (p : Place) (image : Nat) : ∃ ls cs ks os, s.reloaded p image =
    { s with cur := s.cur.reload s.mem image, launches := ls, copies := cs, clusters := ks, cores := os } := by
  obtain ⟨ls, cs, ks, henter, -⟩ := s.enterCluster_eq s.launch p.cluster
  unfold State.reloaded
  dsimp only
  rw [henter]
  obtain ⟨os, hlins⟩ := State.reloadLins_eq { s with launches := ls, copies := cs, clusters := ks } image
  rw [hlins]
  exact ⟨ls, cs, ks, os, rfl⟩

theorem State.resumed_reloaded {s : State} {p : Place} {image : Nat} :
    s.cur.RestoredAs ((s.reloaded p image).resumed p).cur s.mem image s.cycle p ∧ ((s.reloaded p image).resumed p).board = s.board := by
  obtain ⟨ls, cs, ks, os, heq⟩ := s.reloaded_eq p image
  obtain ⟨hid, hslice, hresume, hg, hlv⟩ := s.cur.reload_from s.mem image
  rw [heq]
  unfold State.resumed
  dsimp only
  generalize s.cur.reload s.mem image = u at hid hslice hresume hg hlv ⊢
  refine ⟨⟨rfl, ?_, hresume, hg, ?_, hlv⟩, rfl⟩
  · rw [hid]
  · rw [hslice]

/-- Inheritance leaves a restored thread what its image gave it (R157). -/
theorem State.inherit_restored {s : State} {t : Thread} {m : Mem} {image cycle : Nat} {p : Place} (h : t.RestoredAs s.cur m image cycle p) :
    t.RestoredAs s.inherit.cur m image cycle p ∧ s.inherit.board = s.board := by
  obtain ⟨r, e, n, a, k, os, hframe⟩ := s.inherit_eq
  rw [hframe]
  exact ⟨⟨h.state, h.id, h.pc, h.g, h.sliceAt, h.lv⟩, rfl⟩

theorem State.restoreAt_restores {s : State} {p : Place} {z : Part} (hpart : s.curPart = some z)
    (htable : s.isMemory (z.tableEntry s.cur.id.ctxid) = true) (hthere : s.isMemory (s.imageBase z s.cur.id.ctxid) = true)
    (hclean : s.imagePoisoned (s.imageBase z s.cur.id.ctxid) = false) :
    ∃ t, s.restoreAt p = done t ∧ s.cur.RestoredAs t.cur s.mem (s.imageBase z s.cur.id.ctxid) s.cycle p := by
  rw [State.restoreAt_clean hpart hthere hclean]
  obtain ⟨hrestored, hboard⟩ := State.resumed_reloaded (s := s) (p := p) (image := s.imageBase z s.cur.id.ctxid)
  generalize (s.reloaded p (s.imageBase z s.cur.id.ctxid)).resumed p = u at hrestored hboard ⊢
  obtain ⟨hrestored', hboard'⟩ := State.inherit_restored hrestored
  have hctx : u.cur.id.ctxid = s.cur.id.ctxid := by rw [hrestored.id]
  rw [hctx, State.putTState_writes ((State.isMemory_of_board (hboard'.trans hboard) _).trans htable)]
  refine ⟨_, rfl, ?_⟩
  rw [State.sysStore_cur]
  exact hrestored'

end Sys2Proof.Machine

namespace Sys2Proof.Machine

/-! ### Whether the current thread lives, over what a launch's end does (R99, R145, R151) -/

theorem State.shiftTs_st (s : State) (p : Part) (up down : Nat) : (s.shiftTs p up down).cur.st = s.cur.st := by
  unfold State.shiftTs
  dsimp only
  split <;> rfl

theorem State.rebase_st (s : State) (p : Nat) : (s.rebase p).cur.st = s.cur.st := by
  unfold State.rebase
  split
  · rfl
  · exact s.shiftTs_st _ _ _

theorem State.rebaseFor_st (s : State) (p ts : Nat) : (s.rebaseFor p ts).cur.st = s.cur.st := by
  unfold State.rebaseFor
  split
  · exact s.rebase_st p
  · rfl

theorem State.rebaseWith_st (s : State) (p high pts : Nat) : (s.rebaseWith p high pts).2.cur.st = s.cur.st := by
  unfold State.rebaseWith
  split
  · exact s.rebase_st p
  · rfl

theorem State.captureOld_cur (s : State) (launch : Nat) (o : OldLine) : (s.captureOld launch o).cur = s.cur := by
  unfold State.captureOld
  split
  · rfl
  · rw [State.record_cur, State.record_cur]

theorem State.storeAt_cur (s : State) (launch cl pa : Nat) (bs : List Byte) (ts : Nat) : (s.storeAt launch cl pa bs ts).cur = s.cur := by
  have h : (s.storeAt launch cl pa bs ts).cur = ((s.capture launch (pa / 128)).cacheWrite pa bs).cur := rfl
  rw [h, State.cacheWrite_cur, State.capture, State.captureOld_cur]

/-- A store that no thread makes leaves the current thread in its state, whatever it does to its PTS (R96, R99). -/
theorem State.unitWrite_st (s : State) (p launch pts : Nat) (ws : List (Nat × List Byte)) : (s.unitWrite p launch pts ws).2.cur.st = s.cur.st := by
  unfold State.unitWrite
  dsimp only
  refine List.foldlRecOn _ _ (motive := fun t : State => t.cur.st = s.cur.st) (s.rebaseFor_st _ _) fun t ht w _ => ?_
  rw [State.setLine_cur, State.storeAt_cur]
  exact ht

theorem State.sysRmw_st {s t : State} {l : Launch} {va : Word} {f : Word → Word} (h : s.sysRmw l va f = .ok t) : t.cur.st = s.cur.st := by
  unfold State.sysRmw at h
  split at h
  · split at h
    · cases h
    · cases h
      exact (State.unitWrite_st _ _ _ _ _).trans (s.rebaseWith_st _ _ _)
  all_goals cases h

theorem State.closeQueues_st (s : State) (id stage : Nat) : (s.closeQueues id stage).cur.st = s.cur.st := by
  unfold State.closeQueues
  refine List.foldlRecOn _ _ (motive := fun t : State => t.cur.st = s.cur.st) rfl fun t ht q _ => ?_
  split
  · next u hu => exact (State.sysRmw_st hu).trans ht
  · exact ht

theorem State.drainLeft_st (s : State) (id : Nat) : (s.drainLeft id).cur.st = s.cur.st := by
  unfold State.drainLeft
  refine List.foldlRecOn _ _ (motive := fun t : State => t.cur.st = s.cur.st) rfl fun t ht d _ => ?_
  dsimp only
  split
  · exact ht
  · exact (State.unitWrite_st t _ _ _ _).trans ht

/-- The host's END event leaves the current thread as it is (R387). -/
theorem State.hostEvent_ite_st (s : State) (p : Prop) [Decidable p] (e : HostEv) : (if p then s.hostEvent e else s).cur.st = s.cur.st := by
  split <;> rfl

theorem State.endLaunch_st (s : State) (id : Nat) : (s.endLaunch id).cur.st = s.cur.st := by
  unfold State.endLaunch
  dsimp only
  have hdrain := s.drainLeft_st id
  generalize s.drainLeft id = u at hdrain ⊢
  rw [State.hostEvent_ite_st]
  split
  · exact hdrain
  · split
    · next t ht => exact (State.sysRmw_st ht).trans hdrain
    · exact hdrain

theorem State.countEnded_st (s : State) (id stage n : Nat) : (s.countEnded id stage n).cur.st = s.cur.st := by
  unfold State.countEnded
  dsimp only
  split
  · rw [State.endLaunch_st]
    split
    · exact State.closeQueues_st _ _ _
    · rfl
  · split
    · exact State.closeQueues_st _ _ _
    · rfl

/-- The table entry of a thread made FREE (R220). -/
def State.freeEntry (s : State) (c : Nat) : Res Unit :=
  match s.curPart with
  | some p => s.putTState p c .free
  | none => done s

theorem State.freeEntry_ends (s : State) (c : Nat) : (∃ t, s.freeEntry c = done t) ∨ ∃ a, s.freeEntry c = .hole a := by
  unfold State.freeEntry State.putTState
  split
  · dsimp only
    split
    · exact .inl ⟨_, rfl⟩
    · exact .inr ⟨_, rfl⟩
  · exact .inl ⟨_, rfl⟩

/-- The current thread holds no context and no work. -/
def State.freed (s : State) : State :=
  { s with cur := { s.cur with
    st := .free, wait := none, trap := none, stalled := false, loop := none, share := none, det := []
    vec := { s.cur.vec with streams := [], queue := [] } } }

theorem State.gone_eq (s : State) (killed : Bool) : ∃ v : State, s.gone killed =
    (v.freeEntry s.cur.id.ctxid).seq fun u => done (u.freed.countEnded s.cur.id.launch s.cur.id.stage 1) := by
  unfold State.gone
  exact ⟨_, rfl⟩

/-- A thread that is gone is free (R225). -/
theorem State.gone_frees {s t : State} {killed : Bool} (h : finish (s.gone killed) = .next t) : t.cur.st = .free := by
  obtain ⟨v, hgone⟩ := s.gone_eq killed
  rw [hgone] at h
  obtain ⟨u, hu⟩ | ⟨a, hu⟩ := v.freeEntry_ends s.cur.id.ctxid
  · rw [hu, seq_done, finish_done] at h
    cases h
    exact u.freed.countEnded_st _ _ _
  · rw [hu] at h
    cases h

/-- A restore from a poisoned image ends the thread (R204). -/
theorem State.restoreAt_poisoned {s t : State} {p : Place} {z : Part} (hpart : s.curPart = some z)
    (hthere : s.isMemory (s.imageBase z s.cur.id.ctxid) = true) (hbad : s.imagePoisoned (s.imageBase z s.cur.id.ctxid) = true)
    (h : finish (s.restoreAt p) = .next t) : t.cur.st = .free := by
  have hkill : s.restoreAt p = s.kill := by
    unfold State.restoreAt
    rw [hpart]
    dsimp only
    rw [hthere, hbad, Bool.not_true, if_neg Bool.false_ne_true, if_pos rfl]
  rw [hkill] at h
  exact State.gone_frees h

end Sys2Proof.Machine

namespace Sys2Proof.Machine

/-! ### A thread that gives way (R153, R216) -/

theorem State.sliceOver_running {s : State} (h : s.cycle < s.cur.sliceAt + Config.sliceCycles) : s.sliceOver .saved = false := by
  have hslice : Config.sliceCycles = 1600000 := rfl
  unfold State.sliceOver
  rw [decide_eq_false (fun h : TState.saved ≠ .saved => h rfl), decide_eq_false (by omega), Bool.or_false]

theorem State.sliceOver_ended {s : State} (h : s.cur.sliceAt + Config.sliceCycles ≤ s.cycle) (st : TState) : s.sliceOver st = true := by
  unfold State.sliceOver
  rw [decide_eq_true (show Config.sliceCycles ≤ s.cycle - s.cur.sliceAt by omega), Bool.or_true]

/-- A lone thread that gives way leaves its context, saved (R153, R216). -/
theorem exec_preemption {s : State} {c : Nat} (hc : s.cur.id.ctxid = c) (hrun : s.cur.st = .running) (h : s.alone) (hsave : s.canSave)
    (hway : s.givesWay = true) : ∃ t, exec (.preemption c) s = .next t ∧ s.Leaves t (if s.cur.waiting then .savedWaiting else .saved) := by
  subst hc
  obtain ⟨t, ht, hleaves⟩ := vacateAll_alone hrun h hsave done
  refine ⟨t, ?_, hleaves⟩
  have hx : exec (.preemption s.cur.id.ctxid) s = execPreemption s.cur.id.ctxid s := rfl
  rw [hx, execPreemption, State.focus_self, Option.bind_some, if_pos ⟨hrun, .inl hway⟩, stepOr_some, h.1, ht, finish_done]

/-- The place in the rotation of a thread that gave way: it keeps the rest of its slice, or its next slice comes later (R153; log entry 64). -/
theorem State.Leaves.rotation {s t : State} (h : s.Leaves t (if s.cur.waiting then .savedWaiting else .saved)) :
    (s.cur.waiting = false → s.cycle < s.cur.sliceAt + Config.sliceCycles → t.cur.turn = s.cur.turn ∧ t.cur.sliceUsed = s.cycle - s.cur.sliceAt) ∧
      (s.cur.waiting = true ∨ s.cur.sliceAt + Config.sliceCycles ≤ s.cycle → s.cur.turn < t.cur.turn) := by
  refine ⟨fun hready hslice => h.keeps ?_, fun hover => h.later ?_⟩
  · rw [hready, if_neg Bool.false_ne_true]
    exact State.sliceOver_running hslice
  · rcases hover with hwaits | hslice
    · rw [hwaits, if_pos rfl]
      rfl
    · exact State.sliceOver_ended hslice _

/-- The slice of a lone thread ends while a thread waits to be made at its context (R153; log entry 64). -/
theorem exec_timeSliceEnd {s : State} {c : Nat} {l : Launch} (hc : s.cur.id.ctxid = c) (hrun : s.cur.st = .running) (hready : s.cur.waiting = false)
    (h : s.alone) (hsave : s.canSave) (hl : l ∈ s.launches) (hslice : s.cur.sliceAt + Config.sliceCycles ≤ s.cycle)
    (hcreate : s.withoutGang.creatable s.cur.id.place l = true) (heq : l.lrec.prio = s.cur.sys.eprio.toNat)
    (hprio : ∀ t ∈ s.threads, t.sys.eprio.toNat ≤ l.lrec.prio) : ∃ t, exec (.timeSliceEnd c) s = .next t ∧ t.cur.id = s.cur.id ∧ t.cur.st = .saved ∧
      t.cur.resume = s.cur.pc ∧ t.cur.g = s.cur.g ∧ s.cur.turn < t.cur.turn := by
  subst hc
  obtain ⟨t, ht, hends⟩ := State.endSlice_alone hrun hready h hsave hl hcreate hprio
  refine ⟨t, ?_, hends⟩
  have hpeer := State.peerWaits_creation hl hcreate heq hprio h
  have hx : exec (.timeSliceEnd s.cur.id.ctxid) s = execTimeSliceEnd s.cur.id.ctxid s := rfl
  rw [hx, execTimeSliceEnd, State.focus_self, Option.bind_some, if_pos ⟨hrun, hready, hslice, hpeer⟩, stepOr_some, ht, finish_done]

/-! ### A saved waiter (R159, R220) -/

/-- A doubleword that the dispatcher writes within a line reads back. -/
theorem State.sysStore_word {s : State} (h : s.memWf) {a : Nat} (hfit : a % 128 + 8 ≤ 128) (v : Word) :
    (s.sysStore a (natBytes 8 v.toNat)).mem.word a = v := by
  have hps : pieces (natBytes 8 v.toNat).length a (natBytes 8 v.toNat) = [(a, natBytes 8 v.toNat)] :=
    pieces_within (List.cons_ne_nil _ _) (by rw [natBytes_length]; exact hfit)
  have hmem : (s.sysStore a (natBytes 8 v.toNat)).mem = (s.fillLine (a / 128)).mem.write a (natBytes 8 v.toNat) := by
    unfold State.sysStore
    rw [hps]
    exact State.mendScales_mem _ _ _
  rw [Mem.word, hmem, Mem.nat_write h.fillLine a v.isLt, BitVec.ofNat_toNat, BitVec.setWidth_eq]

/-- A field of three bits below the top bit of a doubleword reads back. -/
theorem bitsOf_setBits_state (w : Word) {v : Nat} (hv : v < 8) : bitsOf (setBits w 60 3 v) 60 3 = v := by
  have hw := w.isLt
  unfold bitsOf setBits
  rw [BitVec.toNat_ofNat]
  omega

theorem Part.tableEntry_fits (p : Part) (c : Nat) : p.tableEntry c % 128 + 8 ≤ 128 ∧ (p.tableEntry c + 8) % 128 + 8 ≤ 128 := by
  unfold Part.tableEntry
  omega

/-- The current thread, which was saved, can run again (R220). -/
def State.madeRunnable (s : State) : State := ({ s with cur := { s.cur with st := .saved, stalled := false } } : State).joined

theorem State.madeRunnable_spec (s : State) : s.madeRunnable.cur.st = .saved ∧ s.madeRunnable.cur.g = s.cur.g ∧ s.madeRunnable.mem = s.mem := by
  obtain ⟨n, a, k, hjoined⟩ := State.joined_eq { s with cur := { s.cur with st := .saved, stalled := false } }
  rw [State.madeRunnable, hjoined]
  exact ⟨rfl, rfl, rfl⟩

/-- The dispatcher writes STATE saved, and the entry reads it (R220). -/
theorem State.putTState_saved {s : State} {z : Part} {c : Nat} (hthere : s.isMemory (z.tableEntry c) = true) (hwf : s.memWf) :
    ∃ u, s.putTState z c .saved = done u ∧ u.cur = s.cur ∧ bitsOf (u.mem.word (z.tableEntry c)) 60 3 = 2 := by
  refine ⟨_, State.putTState_writes hthere _, s.sysStore_cur _ _, ?_⟩
  rw [State.sysStore_word hwf (z.tableEntry_fits c).1]
  exact bitsOf_setBits_state _ (by decide)

/-- The kernel told of a saved waiter: WAKE of its entry is set, and a record waits (R214, R220). -/
def State.waiterTold (s : State) (z : Part) (c : Nat) (r : EvRec) : State :=
  (s.sysStore (z.tableEntry c + 8) (natBytes 8 (setBits (s.mem.word (z.tableEntry c + 8)) 63 1 1).toNat)).raiseEvent z.idx r

theorem State.raiseEvent_cur (s : State) (p : Nat) (e : EvRec) : (s.raiseEvent p e).cur = s.cur := rfl

theorem State.waiterTold_cur (s : State) (z : Part) (c : Nat) (r : EvRec) : (s.waiterTold z c r).cur = s.cur := by
  rw [State.waiterTold, State.raiseEvent_cur, State.sysStore_cur]

theorem State.waiterTold_wake {s : State} (hwf : s.memWf) (z : Part) (c : Nat) (r : EvRec) :
    ((s.waiterTold z c r).mem.word (z.tableEntry c + 8)).getLsbD 63 = true := by
  rw [State.waiterTold, State.raiseEvent_mem, State.sysStore_word hwf (z.tableEntry_fits c).2, setBits_getLsbD_same _ (by decide)]
  exact decide_eq_true rfl

theorem State.sysStore_part? (s : State) (pa : Nat) (bs : List Byte) (i : Nat) : (s.sysStore pa bs).part? i = s.part? i := by
  have h := s.sysStore_exceptMem pa bs
  generalize s.sysStore pa bs = u at h ⊢
  exact (congrArg (fun x : State => x.part? i) h :)

theorem State.waiterTold_part {s : State} {z : Part} {i : Nat} (hpart : s.part? i = some z) (c : Nat) (r : EvRec) :
    ((s.waiterTold z c r).part? z.idx).map (fun q => q.pending) = some (z.pending ++ [r]) := by
  rw [State.waiterTold, State.part?_idx hpart, State.part?_raiseEvent ((State.sysStore_part? ..).trans hpart), Option.map_some]

section
variable {s : State} {c : Nat} {z : Part} (hc : s.cur.id.ctxid = c) (hst : s.cur.st = .savedWaiting) (hwakes : s.wakes = true)
  (hpart : s.curPart = some z) (hthere : s.isMemory (z.tableEntry c) = true)
include hc hst hwakes hpart hthere

/-- A saved waiter whose watch is satisfied becomes runnable where its image is in memory (R159, R220). -/
theorem exec_savedWaiterWake_there (hres : (s.mem.word (z.tableEntry c)).getLsbD 63 = true) :
    exec (.savedWaiterWake c) s = finish ((s.putTState z c .saved).seq fun s => done s.madeRunnable) := by
  have hx : exec (.savedWaiterWake c) s = execSavedWaiterWake c s := rfl
  rw [hx, execSavedWaiterWake, ← hc, State.focus_self, Option.bind_some, if_pos ⟨hst, .inl hwakes⟩, hpart, Option.map_some, stepOr_some, hc]
  dsimp only
  rw [hthere, tableBit, hres, Bool.not_true, if_neg Bool.false_ne_true, if_pos rfl]
  rfl

theorem exec_savedWaiterWake_runnable (hwf : s.memWf) (hres : (s.mem.word (z.tableEntry c)).getLsbD 63 = true) :
    ∃ t, exec (.savedWaiterWake c) s = .next t ∧ t.cur.st = .saved ∧ bitsOf (t.mem.word (z.tableEntry c)) 60 3 = 2 ∧ t.cur.g = s.cur.g := by
  obtain ⟨u, hu, hcur, hbits⟩ := State.putTState_saved hthere hwf
  obtain ⟨hsaved, hg, hmem⟩ := u.madeRunnable_spec
  refine ⟨u.madeRunnable, ?_, hsaved, ?_, ?_⟩
  · rw [exec_savedWaiterWake_there hc hst hwakes hpart hthere hres, hu, seq_done, finish_done]
  · rw [hmem]
    exact hbits
  · rw [hg, hcur]

/-- A saved waiter whose watch is satisfied is told to the kernel where its image is paged out (R159, R214, R220). -/
theorem exec_savedWaiterWake_told (hres : (s.mem.word (z.tableEntry c)).getLsbD 63 = false)
    (hwake : (s.mem.word (z.tableEntry c + 8)).getLsbD 63 = false) :
    ∃ r, exec (.savedWaiterWake c) s = .next (s.waiterTold z c r) ∧ r.type = 2 ∧ r.ctxid = c := by
  have hx : exec (.savedWaiterWake c) s = execSavedWaiterWake c s := rfl
  rw [hx, execSavedWaiterWake, ← hc, State.focus_self, Option.bind_some, if_pos ⟨hst, .inl hwakes⟩, hpart, Option.map_some, stepOr_some, hc]
  dsimp only
  rw [hthere, hwakes, tableBit, tableBit, hres, hwake, Bool.not_true, Bool.or_false, if_neg Bool.false_ne_true, if_neg Bool.false_ne_true,
    if_neg Bool.false_ne_true, finish_done]
  exact ⟨_, rfl, rfl, rfl⟩

end

/-! ### What a new thread begins with (R13, R19, R140, R370) -/

/-- A thread of a launch as it is made: the `q`th of stage `g`, in a context, under a CTXID. -/
structure Launch.Makes (l : Launch) (g q : Nat) (p : Place) (c : Nat) (t : Thread) : Prop where
  state : t.st = .running
  ctxid : t.id.ctxid = c
  place : t.id.place = p
  launch : t.id.launch = l.id
  stage : t.id.stage = g
  lthr : t.id.lthr = q
  pc : some t.pc = ((l.lrec.stages[g]?).map fun y => y.entry)
  argp : t.g.getD 1 0 = l.lrec.argp
  stack : l.lrec.stksz ≠ 0 → t.g.getD 30 0 = l.lrec.stkb + BitVec.ofNat 64 ((l.lrec.base g + q + 1) * l.lrec.stksz)
  zero : ∀ n, n ≠ 1 → n ≠ 30 → t.g.getD n 0 = 0
  pts : t.sys.pts = l.ts
  nvreg : t.sys.nvreg = 32
  lv : ∀ n : Fin 8, t.sys.lv[n] = ((l.lrec.coords q)[n.val]?).getD 0
  vec : t.vec = Vec.init

theorem Launch.thread_makes {l : Launch} {g : Nat} (h : l.nextStage = some g) (q : Nat) (p : Place) (c cycle turn turnAt used : Nat) :
    l.Makes g q p c { (l.withMade g 1).thread g q p c cycle with turn := turn, turnAt := turnAt, sliceUsed := used } := by
  obtain ⟨y, hy⟩ := Launch.nextStage_stage h
  have hg := (l.withMade g 1).thread_g g q p c cycle
  constructor
  case pc =>
    rw [hy]
    exact congrArg (fun o : Option Stage => some ((o.map fun y => y.entry).getD 0)) hy
  case argp => exact hg 1
  case stack => exact fun hs => (hg 30).trans (if_neg hs)
  case zero =>
    intro n h1 h30
    exact (hg n).trans ((if_neg h30).trans (if_neg h1))
  case lv =>
    intro n
    exact Vector.getElem_ofFn n.isLt
  all_goals rfl

/-! ### The dispatcher (R148, R149, R153, R159, R216 to R220) -/

/-- Settles O53: an admitted launch, a made thread, a restored one, one that gives way and one that wakes, each by the rule of its step. -/
theorem theDispatcherPlacesThreads : Obligations.TheDispatcherPlacesThreads := by
  unfold Obligations.TheDispatcherPlacesThreads
  intro s
  refine ⟨?admitted, ?made, ?restored, ?leaving, ?woken⟩
  case admitted =>
    intro l x hof hx hid hqueued hadm hhigher
    exact ⟨exec_launchAdmit hof hx hid hqueued hadm hhigher, exec_launchAdmit_plain hof hx hid hqueued hadm hhigher⟩
  case made =>
    intro l p c g q z hfound hholds halive hstage hnext hinst hgang hpos hsmall hunused hvacant hstands hroom hfew hfirst hpart hthere
    obtain ⟨t, n, a, k, ht, hcur, hmade⟩ := exec_threadCreate_makes (s := s)
      ⟨hfound, hholds, halive, hstage, hnext, hinst, hgang, hpos, hsmall, hunused, hvacant, hstands, hroom, hfew, hfirst⟩ hpart hthere
    have h : l.Makes g q p c t.cur := hcur ▸ Launch.thread_makes hstage q p c s.cycle n a k
    refine ⟨t, ht, h.state, h.ctxid, h.place, h.launch, h.stage, h.lthr, h.pc, h.argp, h.stack, fun n h1 h30 => ?_, h.pts, h.nvreg, h.lv, h.vec, hmade⟩
    by_cases hn : n = 0
    · exact if_pos hn
    · exact (if_neg hn).trans (h.zero n h1 h30)
  case restored =>
    intro c p z hc hvacant hcan hfirst hgang hpart htable himage hover hdue
    subst hc
    rw [exec_restore rfl hvacant hcan hfirst hgang hover hdue]
    refine ⟨fun hbad t ht => State.restoreAt_poisoned hpart himage hbad ht, fun hclean => ?_⟩
    obtain ⟨t, ht, hrestored⟩ := State.restoreAt_restores hpart htable himage hclean
    refine ⟨t, by rw [ht, finish_done], hrestored.state, hrestored.id, hrestored.pc, fun n hn h => ?_, hrestored.sliceAt, hrestored.lv⟩
    rw [State.x, if_neg hn.ne']
    exact hrestored.g n hn h
  case leaving =>
    intro c hc hrun halone hsave
    refine ⟨fun hway => ?_, fun l hl hready hslice hcreate heq hprio => ?_⟩
    · obtain ⟨t, ht, hleaves⟩ := exec_preemption hc hrun halone hsave hway
      exact ⟨t, ht, hleaves.id, hleaves.state, hleaves.resume, hleaves.g, hleaves.rotation⟩
    · rw [hready]
      exact exec_timeSliceEnd hc hrun hready halone hsave hl hslice hcreate heq hprio
  case woken =>
    intro c z hc hst hwakes hpart hthere hwf
    refine ⟨fun hres => exec_savedWaiterWake_runnable hc hst hwakes hpart hthere hwf hres, fun hres hwake => ?_⟩
    obtain ⟨r, hx, htype, hctx⟩ := exec_savedWaiterWake_told hc hst hwakes hpart hthere hres hwake
    exact ⟨_, r, hx, s.waiterTold_cur z c r, State.waiterTold_wake hwf z c r, State.waiterTold_part hpart c r, htype, hctx⟩

end Sys2Proof.Machine

namespace Sys2Proof.Machine

/-! ### Scalar loads of coherent memory (R95, R110, R171, R265) -/

/-- The bytes that a scalar load of coherent memory sees, and the state it leaves: a DET thread's snapshot under its own stores with nothing
changed, else what LeaseRead gives under the iteration's own stores. -/
def State.coherentRun (s : State) (pa n : Nat) : List Byte × State :=
  if s.isDet then (s.detRun false pa n, s) else
    let z := s.leaseRead false pa n
    (s.own false pa z.1, z.2)

theorem State.load_phys (s : State) (pa n : Nat) :
    s.load false (.phys pa) n = (leNat (s.coherentRun pa n).1, (s.coherentRun pa n).2) := by
  unfold State.load State.coherentRun
  cases s.isDet <;> rfl

/-- A load that reaches coherent memory, before its extension. -/
theorem exec_load_phys {s : State} {d a : BitVec 6} {v : Wid} {o : BitVec 11} {pa : Nat} (hd : s.usable d) (ha : s.usable a)
    (hr : s.reaches needRd (scalarEa (s.x a.toNat) v o) v pa) (f : Nat → Word) :
    finish (regs2 s d a fun x => scalarAccess s needRd (scalarEa x v o) v fun p =>
      let r := s.load false p v.bytes
      r.2.result d (f r.1)) =
    .next (((s.coherentRun pa v.bytes).2.setX d.toNat (f (leNat (s.coherentRun pa v.bytes).1))).retire) := by
  rw [regs2_usable hd ha, scalarAccess_reaches hr, State.load_phys]
  rfl

/-- Settles O13: both loads write the extension of the bytes that the access sees; the sign extension is the balanced remainder. -/
theorem scalarLoadResults : Obligations.ScalarLoadResults := by
  unfold Obligations.ScalarLoadResults
  intro s d a v o pa hd ha hr r
  have hv : 0 < 8 * v.bytes := by cases v <;> decide
  constructor
  · have h := exec_load_phys hd ha hr fun n => BitVec.ofInt 64 (sgn (8 * v.bytes) n)
    rw [sgn_eq_bmod hv] at h
    exact h
  · exact exec_load_phys hd ha hr fun n => BitVec.ofNat 64 n

end Sys2Proof.Machine

namespace Sys2Proof.Machine

/-! ### Outcomes of a replay (R172, R173, R176) -/

/-- The outcome of a replay reaches a resident thread: LSTATE and LWHY say it, and the loop is over. -/
theorem State.outcome_running {s : State} (hrun : s.cur.st = .running) (l : Loop) (st : BitVec 4) (why : BitVec 8) :
    ∃ t, s.outcome l st why = done t ∧ t.cur.sys.lstate = st ∧ t.cur.sys.lwhy = why ∧ t.cur.loop = none := by
  have hreach : s.reachable = true := by simp [State.reachable, hrun]
  unfold State.outcome
  rw [if_pos hreach]
  unfold State.deliverLoop
  dsimp only
  split
  next hsaved _ => simp [State.freeSlot, hrun] at hsaved
  next => exact ⟨_, rfl, by simp [State.freeSlot], by simp [State.freeSlot], by simp [State.freeSlot]⟩

/-- A kept outcome (log entry 114) is what REPLAY_ITERATION delivers to a resident thread, whether or not the replay engine errs meanwhile: no
iteration is left to it. -/
theorem exec_replayIteration_kept {s : State} {l : Loop} {st : BitVec 4} {why : BitVec 8} (hloop : s.cur.loop = some l)
    (hreplay : s.cur.sys.lstate = 2) (hrun : s.cur.st = .running) (hout : l.out = some (st, why)) (err : Bool) :
    ∃ t, exec (.replayIteration s.cur.id.ctxid err) s = .next t ∧ t.cur.sys.lstate = st ∧ t.cur.sys.lwhy = why ∧ t.cur.loop = none := by
  have hreach : s.reachable = true := by simp [State.reachable, hrun]
  have hfocus : s.focus s.cur.id.ctxid = some s := by simp [State.focus]
  have hexec : exec (.replayIteration s.cur.id.ctxid err) s = finish (s.outcome l st why) := by
    change execReplayIteration s.cur.id.ctxid err s = _
    unfold execReplayIteration
    simp [hfocus, hloop, hreplay, hout, hreach]
  obtain ⟨t, ht, hst, hwhy, hover⟩ := State.outcome_running hrun l st why
  exact ⟨t, by rw [hexec, ht, finish_done], hst, hwhy, hover⟩

/-- A loop of four iterations, two of them demonstrated, whose replay has completed (LSTATE 3, LWHY 0) while the thread's image was paged
out: the collator keeps the outcome. -/
def completedLoop : Loop :=
  { reg := 5, pc := 0x1FFF0, d := 2, n := 4, it := 2, first := [], trace := [], base0 := [], base1 := [], slot := 0, next := 4, lanes := 64
    rts := 0, flags := 0, g := Vector.replicate 32 0, vec := .init, sys := .init, out := some (3, 0) }

/-- The thread of that loop, resident again at its LEND, before the outcome is delivered. -/
def awaitingOutcome : State :=
  { State.reset with
    slots := [(0, 1)]
    cur := { Thread.init with
      id := { Thread.init.id with ctxid := 1 }
      st := .running, pc := 0x20000, loop := some completedLoop, wait := some .replay, stalled := true, sys := { Sys.init with lstate := 2 } } }

/-- Refutes O44: its clause on an error of the replay engine speaks of every running thread in a replay, also of one whose replay is already over
and whose outcome the collator still keeps (log entry 114). There a completed replay is delivered as completed, LSTATE 3, and no departure,
LSTATE 5, is made of it. -/
theorem not_loopsAreMarkedAndReplayed : ¬ Obligations.LoopsAreMarkedAndReplayed := by
  unfold Obligations.LoopsAreMarkedAndReplayed
  intro h
  obtain ⟨-, -, hreplay⟩ := h awaitingOutcome 0 0 0
  obtain ⟨⟨t, ht, hdeparted, -⟩, -⟩ := hreplay completedLoop rfl rfl rfl
  obtain ⟨u, hu, hcompleted, -⟩ := exec_replayIteration_kept (s := awaitingOutcome) (l := completedLoop) rfl rfl rfl rfl true
  have htu : t = u := by
    rw [ht] at hu
    exact Host.Outcome.next.inj hu
  rw [htu, hcompleted] at hdeparted
  exact absurd hdeparted (by decide)

end Sys2Proof.Machine

namespace Sys2Proof.Machine

/-! ### Mask registers written bit by bit (R15) -/

/-- A number put together from bits has the bit that each element of the list tells. -/
theorem testBit_foldr_ite {α : Type} (p : α → Prop) [DecidablePred p] (l : List α) (i : Nat) :
    ((l.map fun b => if p b then 1 else 0).foldr (fun b n => b + 2 * n) 0).testBit i = l[i]?.any fun b => decide (p b) := by
  induction l generalizing i with
  | nil => simp
  | cons b t ih =>
    cases i with
    | zero =>
      rw [List.map_cons, List.foldr_cons, Nat.testBit_zero, Nat.add_mul_mod_self_left]
      by_cases h : p b <;> simp [h]
    | succ i =>
      have hhalf : ∀ n : Nat, ((if p b then 1 else 0) + 2 * n) / 2 = n := by intro n; split <;> omega
      rw [List.map_cons, List.foldr_cons, Nat.testBit_succ, hhalf, ih, List.getElem?_cons_succ]

/-- Such a number has no more bits than the list has elements. -/
theorem foldr_ite_lt {α : Type} (p : α → Prop) [DecidablePred p] (l : List α) :
    (l.map fun b => if p b then 1 else 0).foldr (fun b n => b + 2 * n) 0 < 2 ^ l.length := by
  refine Nat.lt_pow_two_of_testBit _ fun i hi => ?_
  rw [testBit_foldr_ite, List.getElem?_eq_none hi]
  rfl

/-- A bit of a mask after a write: the list's where it gives one, else the old one. -/
theorem putBits_getLsbD (m : BitVec 8192) (bs : List (Option Bool)) {i : Nat} (hi : i < 8192) :
    (putBits m bs).getLsbD i = bs[i]?.join.getD (m.getLsbD i) := by
  have hlow := Nat.or_lt_two_pow (Nat.lt_of_le_of_lt Nat.and_le_right (foldr_ite_lt (fun b : Option Bool => b.isNone = true) bs))
    (foldr_ite_lt (fun b => b = some true) bs) (x := m.toNat &&& _)
  unfold putBits
  dsimp only
  rw [BitVec.getLsbD_ofNat, decide_eq_true hi, Bool.true_and, Nat.mul_comm, Nat.testBit_two_pow_mul_add _ hlow, Nat.testBit_or, Nat.testBit_and,
    testBit_foldr_ite, testBit_foldr_ite, Nat.testBit_div_two_pow, BitVec.testBit_toNat]
  rcases Nat.lt_or_ge i bs.length with h | h
  · rw [if_pos h, List.getElem?_eq_getElem h]
    rcases bs[i] with - | (- | -) <;> simp
  · rw [if_neg (Nat.not_lt.mpr h), List.getElem?_eq_none h, Nat.sub_add_cancel h, BitVec.testBit_toNat]
    rfl

/-- A write of a mask register changes the mask registers alone. -/
theorem State.putMask_eq (s : State) (n : Nat) (bs : List (Option Bool)) :
    ∃ ms, s.putMask n bs = { s with cur := { s.cur with vec := { s.cur.vec with masks := ms } } } := by
  unfold State.putMask
  split
  · exact ⟨_, rfl⟩
  · exact ⟨_, rfl⟩

/-- A bit that is written to a mask register other than m0 reads back. -/
theorem State.putMask_maskBit (s : State) {n i : Nat} {bs : List (Option Bool)} {b : Bool} (hpos : n ≠ 0) (hn : n < 8) (hi : i < 8192)
    (hb : bs[i]? = some (some b)) : (s.putMask n bs).maskBit n i = b := by
  rw [State.putMask, if_neg hpos, State.maskBit, decide_eq_false hpos, Bool.false_or]
  have hset : (s.cur.vec.masks.setIfInBounds n (putBits (s.cur.vec.masks.getD n 0) bs)).getD n 0 = putBits (s.cur.vec.masks.getD n 0) bs := by
    simp [Vector.getD, hn]
  dsimp only
  rw [hset, putBits_getLsbD _ bs hi, hb]
  rfl

/-- A mask bit is read from the mask registers alone. -/
theorem State.maskBit_of_masks {s t : State} (h : t.cur.vec.masks = s.cur.vec.masks) (n i : Nat) : t.maskBit n i = s.maskBit n i := by
  rw [State.maskBit, h]
  rfl

end Sys2Proof.Machine

namespace Sys2Proof.Machine

/-! ### The lowest-numbered stop (R190) -/

/-- The stop that is reported is one of those that there are. -/
theorem lowestStop_mem (m : Nat × Word) (l : List (Nat × Word)) : lowestStop m l ∈ m :: l := by
  induction l generalizing m with
  | nil => exact List.mem_cons_self
  | cons x t ih =>
    rw [lowestStop]
    split
    · exact List.mem_cons_of_mem m (ih x)
    · exact List.cons_subset_cons m (List.subset_cons_self x t) (ih m)

/-- No stop has a lower sequence number than the one that is reported. -/
theorem lowestStop_le (m : Nat × Word) (l : List (Nat × Word)) : ∀ p ∈ m :: l, (lowestStop m l).1 ≤ p.1 := by
  induction l generalizing m with
  | nil =>
    intro p hp
    rw [List.mem_singleton.mp hp]
    exact Nat.le_refl _
  | cons x t ih =>
    rw [lowestStop, List.forall_mem_cons, List.forall_mem_cons]
    split
    next hlt =>
      obtain ⟨hx, ht⟩ := List.forall_mem_cons.mp (ih x)
      exact ⟨by omega, hx, ht⟩
    next hle =>
      obtain ⟨hm, ht⟩ := List.forall_mem_cons.mp (ih m)
      exact ⟨hm, by omega, ht⟩

/-! ### What a delivered trap leaves (R212, R216) -/

/-- Saving a thread leaves its masks, its PTS and its token record (R216). -/
theorem State.saveCur_keeps {s : State} (h : s.canSave) (st : TState) : ∃ t, s.saveCur st = done t ∧
    t.cur.vec.masks = s.cur.vec.masks ∧ t.cur.sys.pts = s.cur.sys.pts ∧ t.cur.tok = s.cur.tok := by
  obtain ⟨v, p, hv, hframe⟩ := State.saveCur_left h st
  obtain ⟨lp, ls, lw, sl, hleaving⟩ := s.leaving_eq
  rw [hleaving] at hframe
  obtain ⟨ks, hks⟩ := v.releaseLanes_cores
  refine ⟨_, hv, ?_⟩
  unfold State.left
  rw [hks]
  exact ⟨(congrArg (fun x : State => x.cur.vec.masks) hframe :), (congrArg (fun x : State => x.cur.sys.pts) hframe :),
    (congrArg (fun x : State => x.cur.tok) hframe :)⟩

/-- The delivery of a trap leaves the thread's masks, its PTS and its token record (R212). -/
theorem State.deliver_keeps {s : State} (h : s.canSave) (x : Trap) : ∃ t, s.deliver x = done t ∧
    t.cur.vec.masks = s.cur.vec.masks ∧ t.cur.sys.pts = s.cur.sys.pts ∧ t.cur.tok = s.cur.tok := by
  unfold State.deliver
  dsimp only
  obtain ⟨t, ht, hkeeps⟩ := State.saveCur_keeps (s := { s with cur := { s.cur with
    sys := { s.cur.sys with cause := x.causeWord, epc := x.epc &&& 0x00FFFFFFFFFFFFFF, badva := x.badva },
    pc := x.resume, trap := none, wait := if x.vs then s.cur.wait else none, stalled := false,
    pass := decide (x.code = 6 ∧ x.detail ≠ 0) } }) h .suspended
  rw [ht, seq_done]
  exact ⟨_, rfl, hkeeps⟩

/-- An instruction that traps with nothing queued has its trap delivered, and its thread keeps masks, PTS and token record (R31, R212). -/
theorem finish_trap_keeps {s : State} (hq : s.queue = []) (h : s.canSave) (x : Trap) : ∃ t, finish (.trap x s) = .next t ∧
    s.cur.TrappedAs t.cur x ∧ t.cur.vec.masks = s.cur.vec.masks ∧ t.cur.sys.pts = s.cur.sys.pts ∧ t.cur.tok = s.cur.tok := by
  obtain ⟨t, ht, htrapped⟩ := State.deliver_of_canSave h x
  obtain ⟨u, hu, hkeeps⟩ := State.deliver_keeps h x
  have hnow : s.takeTrap x = done t := by rw [State.takeTrap, hq, List.isEmpty_nil, Bool.or_true, if_pos rfl, ht]
  have htu : t = u := by
    rw [ht] at hu
    injection hu
  refine ⟨t, ?_, htrapped, htu ▸ hkeeps⟩
  unfold finish
  dsimp only
  rw [hnow]
  rfl

/-! ### TKSYNC (R189, R190, R365) -/

/-- The state once TKSYNC has written the mask and PTS, and has cleared what the verdicts left with the context (R189, R365). -/
def State.collected (s : State) (n : Nat) : State :=
  let k := s.cur.tok
  let t := ((s.putMask n (k.last.map fun q => some (k.acted.contains q))).raisePts k.ts).seeLines k.lines
  { t with cur := { t.cur with tok := { k with acted := [], stopped := [], lines := [], ts := 0 } } }

/-- The lines that a DET thread sees change its snapshot alone (R110). -/
theorem State.seeLines_eq (s : State) (ls : List Nat) : ∃ m, s.seeLines ls = { s with cur := { s.cur with snap := m } } := by
  unfold State.seeLines
  split
  · exact ⟨_, rfl⟩
  · exact ⟨_, rfl⟩

/-- What TKSYNC collects changes the mask, PTS, the token record and what a DET thread's loads see, and nothing else (R189). -/
theorem State.collected_eq (s : State) (n : Nat) : ∃ m, s.collected n =
    { s with cur := { s.cur with
      vec := { s.cur.vec with masks := (s.putMask n (s.cur.tok.last.map fun q => some (s.cur.tok.acted.contains q))).cur.vec.masks }
      sys := { s.cur.sys with pts := max s.cur.sys.pts s.cur.tok.ts }, snap := m
      tok := { s.cur.tok with acted := [], stopped := [], lines := [], ts := 0 } } } := by
  obtain ⟨ms, hms⟩ := s.putMask_eq n (s.cur.tok.last.map fun q => some (s.cur.tok.acted.contains q))
  unfold State.collected
  dsimp only
  rw [hms]
  obtain ⟨m, hm⟩ := State.seeLines_eq
    (State.raisePts { s with cur := { s.cur with vec := { s.cur.vec with masks := ms } } } s.cur.tok.ts) s.cur.tok.lines
  rw [hm]
  exact ⟨m, rfl⟩

/-- Bit i of the collected mask: whether an action applied to the record of element i (R365). -/
theorem State.collected_maskBit (s : State) {n i : Nat} {q : Word} (hpos : n ≠ 0) (hn : n < 8) (hlen : s.cur.tok.last.length ≤ 8192)
    (hq : s.cur.tok.last[i]? = some q) : (s.collected n).maskBit n i = s.cur.tok.acted.contains q := by
  obtain ⟨m, hm⟩ := s.collected_eq n
  have hi : i < s.cur.tok.last.length := (List.getElem?_eq_some_iff.mp hq).1
  rw [hm]
  exact (State.maskBit_of_masks rfl n i).trans
    (s.putMask_maskBit hpos hn (Nat.lt_of_lt_of_le hi hlen) (by rw [List.getElem?_map, hq, Option.map_some]))

theorem State.canSave.collected {s : State} (h : s.canSave) (n : Nat) : (s.collected n).canSave := by
  obtain ⟨p, hp, htable, himage⟩ := h
  obtain ⟨m, hm⟩ := s.collected_eq n
  rw [hm]
  exact ⟨p, hp, htable, himage⟩

section
variable {s : State} {d : BitVec 6} (hbase : s.cur.id.place.isBase = false) (hseq : s.seqBase ≠ 0) (hd : d.toNat < 8) (hq : s.queue = [])
  (hquiet : s.tokenQuiet = true)
include hbase hseq hd hq hquiet

/-- TKSYNC with the verdicts there: it collects them, and then retires or traps by the stops that there were (R189, R190). -/
theorem exec_tksync_quiet : exec (.tksync d) s = finish (match s.cur.tok.stopped.dedup with
    | [] => done (s.collected d.toNat).retire
    | q :: t => (s.collected d.toNat).trapHere 7 (BitVec.ofNat 8 (min 255 (t.length + 1))) (lowestStop q t).2 true) := by
  have hx : exec (.tksync d) s = execTksync d s := rfl
  rw [hx, execTksync, hbase, decide_eq_false hseq, State.vecQuiet_of_empty hq, hquiet, if_neg (by decide), if_neg (Nat.not_le.mpr hd),
    if_neg (by decide)]
  rfl

/-- TKSYNC with the verdicts there and no stop is over (R189, R365). -/
theorem exec_tksync_clear (hstop : s.cur.tok.stopped = []) : exec (.tksync d) s = .next (s.collected d.toNat).retire := by
  rw [exec_tksync_quiet hbase hseq hd hq hquiet, hstop]
  rfl

/-- TKSYNC with stops raises the catchword trap for the lowest-numbered one, and the thread resumes behind it (R190). -/
theorem exec_tksync_stopped (hstop : s.cur.tok.stopped ≠ []) (hsave : s.canSave) : ∃ t q v, exec (.tksync d) s = .next t ∧
    (q, v) ∈ s.cur.tok.stopped ∧ (∀ p ∈ s.cur.tok.stopped, q ≤ p.1) ∧
    s.cur.TrappedAs t.cur ⟨false, 7, BitVec.ofNat 8 (min 255 s.cur.tok.stopped.dedup.length), s.cur.pc, v, s.cur.pc + 4⟩ ∧
    t.cur.vec.masks = (s.collected d.toNat).cur.vec.masks ∧ t.cur.sys.pts = max s.cur.sys.pts s.cur.tok.ts ∧ t.cur.tok.stopped = [] := by
  obtain ⟨x, l, hdedup⟩ := List.exists_cons_of_ne_nil (mt (List.dedup_eq_nil _).mp hstop)
  have hmem : ∀ p, p ∈ s.cur.tok.stopped ↔ p ∈ x :: l := fun p => by rw [← hdedup, List.mem_dedup]
  obtain ⟨m, hm⟩ := s.collected_eq d.toNat
  obtain ⟨t, ht, htrapped, hmasks, hpts, htok⟩ := finish_trap_keeps (s := s.collected d.toNat) (by rw [hm]; exact hq) (hsave.collected d.toNat)
    ⟨false, 7, BitVec.ofNat 8 (min 255 (l.length + 1)), (s.collected d.toNat).cur.pc, (lowestStop x l).2, (s.collected d.toNat).cur.pc + 4⟩
  refine ⟨t, (lowestStop x l).1, (lowestStop x l).2, ?_, (hmem _).mpr (lowestStop_mem x l),
    fun p hp => lowestStop_le x l p ((hmem p).mp hp), ?_, hmasks, ?_, ?_⟩
  · rw [exec_tksync_quiet hbase hseq hd hq hquiet, hdedup]
    exact ht
  · rw [hm] at htrapped
    rw [hdedup]
    obtain ⟨hcause, hepc, hbadva, hstate, hresume, hg, hdet⟩ := htrapped
    exact ⟨hcause, hepc, hbadva, hstate, hresume, hg, hdet⟩
  · rw [hpts, hm]
  · rw [htok, hm]

end

/-- CAUSE of the catchword trap, as its detail and its code (R26, R190). -/
theorem Trap.causeWord_catchword {n : Nat} (h : n ≤ 255) (epc badva resume : Word) :
    (⟨false, 7, BitVec.ofNat 8 n, epc, badva, resume⟩ : Trap).causeWord = BitVec.ofNat 64 n <<< 8 ||| 7 := by
  have hdetail : (BitVec.ofNat 8 n).setWidth 64 = BitVec.ofNat 64 n := by bv_omega
  rw [Trap.causeWord, hdetail, if_neg Bool.false_ne_true]
  exact congrArg (· ||| (7 : Word)) BitVec.zero_or

/-- Settles O46: TKSYNC writes mask and PTS in either case, and then retires, or traps where a verdict stopped a sequence. -/
theorem tksyncCollectsTheVerdicts : Obligations.TksyncCollectsTheVerdicts := by
  unfold Obligations.TksyncCollectsTheVerdicts
  intro s d hbase hseq hd hq hquiet
  have hpos : d ≠ 0 → d.toNat ≠ 0 := mt fun h => BitVec.eq_of_toNat_eq h
  obtain ⟨m, hm⟩ := s.collected_eq d.toNat
  constructor
  · intro hstop hlen
    refine ⟨_, exec_tksync_clear hbase hseq hd hq hquiet hstop, fun i q hd0 hi => s.collected_maskBit (hpos hd0) hd hlen hi, ?_⟩
    rw [hm]
    exact ⟨rfl, rfl, rfl, rfl, rfl⟩
  · intro hstop hsave
    obtain ⟨t, q, v, ht, hmem, hleast, htrapped, hmasks, hpts, hstopped⟩ := exec_tksync_stopped hbase hseq hd hq hquiet hstop hsave
    exact ⟨t, q, v, ht, htrapped.cause.trans (Trap.causeWord_catchword (Nat.min_le_left _ _) _ _ _), hmem, hleast, htrapped.badva,
      htrapped.state, htrapped.resume, hstopped, hpts, htrapped.g, fun hlen i r hd0 hi =>
        (State.maskBit_of_masks hmasks _ _).trans (s.collected_maskBit (hpos hd0) hd hlen hi)⟩

end Sys2Proof.Machine

namespace Sys2Proof.Machine

/-! ### Bytes that the sections write (R134) -/

/-- The bytes of a line, written back to it, leave every byte of memory as it is. -/
theorem Mem.read_setLine_self {m : Mem} (hm : m.wf) (l x : Nat) : (m.setLine l (m.line l)).read x = m.read x := by
  have hbytes : natBytes 128 (m.line l).toNat = m.run (128 * l) 128 := by
    rw [Mem.line_toNat, natBytes_leNat (by rw [run_length]), List.take_of_length_le (by rw [run_length])]
  rw [Mem.setLine, hbytes, read_write, run_length]
  split
  next hx =>
    rw [run_get hm (by omega)]
    congr 1
    omega
  next => rfl

/-- Whether an eviction leaves the coherent value of a line as it is: the line is dirty, or DRAM holds the coherent value of it. -/
def State.evictable (s : State) (l : Nat) : Prop := (s.line l).dirty = true ∨ (s.line l).under = none

theorem State.evictLine_line_other (s : State) {l v : Nat} (h : l ≠ v) : (s.evictLine v).line l = s.line l := by
  rw [← State.line_setLine_other s h { s.line v with cached := false, dirty := false, under := none, owner := none, scales := none }]
  unfold State.evictLine
  dsimp only
  split
  · rfl
  · exact (State.line_setLine_other _ h _).trans (State.line_setLine_other s h _).symm

/-- A line whose coherent value an eviction leaves alone keeps it over an eviction of any line, and over later ones. -/
theorem State.evictable.evictLine {s : State} {l : Nat} (h : s.evictable l) (hm : s.memWf) (v : Nat) :
    (s.evictLine v).evictable l ∧ ∀ x, x / 128 = l → (s.evictLine v).mem.read x = s.mem.read x := by
  by_cases hv : l = v
  · subst hv
    refine ⟨.inr (by rw [State.evictLine_line]), fun x _ => ?_⟩
    rw [State.evictLine_mem]
    split
    next => rfl
    next hclean =>
      rw [State.dramLine, h.resolve_left hclean, Option.getD_none]
      exact Mem.read_setLine_self hm l x
  · refine ⟨by rwa [State.evictable, State.evictLine_line_other s hv], fun x hx => ?_⟩
    rw [State.evictLine_mem]
    split
    next => rfl
    next => exact Mem.read_setLine_other _ (hx.trans_ne hv) _

/-- The same over a fill, which may evict a line to make room (R34). -/
theorem State.evictable.fillLine {s : State} {l : Nat} (h : s.evictable l) (hm : s.memWf) (k : Nat) :
    (s.fillLine k).evictable l ∧ ∀ x, x / 128 = l → (s.fillLine k).mem.read x = s.mem.read x := by
  unfold State.fillLine
  split
  · exact ⟨h, fun _ _ => rfl⟩
  · have hv : ∀ o : Option Nat, let t := match o with | some v => s.evictLine v | none => s
        t.evictable l ∧ ∀ x, x / 128 = l → t.mem.read x = s.mem.read x
      | some v => h.evictLine hm v
      | none => ⟨h, fun _ _ => rfl⟩
    obtain ⟨hkept, hread⟩ := hv (s.llcVictim k)
    refine ⟨?_, hread⟩
    unfold State.evictable at hkept ⊢
    by_cases hk : l = k
    · subst hk
      rwa [State.line_setLine_same]
    · rwa [State.line_setLine_other _ hk]

theorem State.cacheWrite_mem (s : State) (pa : Nat) (bs : List Byte) :
    (s.cacheWrite pa bs).mem = (s.fillLine (pa / 128)).mem.write pa bs := State.mendScales_mem _ _ _

/-- The record of a line over a write to the caches: that of the line written is dirty, the others' are what the fill leaves. -/
theorem State.cacheWrite_line (s : State) (pa : Nat) (bs : List Byte) : ((s.cacheWrite pa bs).line (pa / 128)).dirty = true ∧
    ∀ l, l ≠ pa / 128 → (s.cacheWrite pa bs).line l = (s.fillLine (pa / 128)).line l := by
  obtain ⟨r, hr, hline⟩ : ∃ r : Line, r.dirty = true ∧ ∀ l, (s.cacheWrite pa bs).line l = ((s.fillLine (pa / 128)).setLine (pa / 128) r).line l :=
    ⟨_, rfl, fun _ => State.mendScales_line _ _ _ _⟩
  refine ⟨?_, fun l hl => ?_⟩
  · rw [hline, State.line_setLine_same, hr]
  · rw [hline, State.line_setLine_other _ hl]

/-- A byte outside a write to the caches stays, where an eviction of its line would leave it. -/
theorem State.evictable.cacheWrite {s : State} {x : Nat} (h : s.evictable (x / 128)) (hm : s.memWf) {pa : Nat} {bs : List Byte}
    (hx : x < pa ∨ pa + bs.length ≤ x) :
    (s.cacheWrite pa bs).evictable (x / 128) ∧ (s.cacheWrite pa bs).mem.read x = s.mem.read x := by
  obtain ⟨hdirty, hothers⟩ := s.cacheWrite_line pa bs
  obtain ⟨hkept, hread⟩ := h.fillLine hm (pa / 128)
  refine ⟨?_, by rw [State.cacheWrite_mem, read_write_other _ hx, hread x rfl]⟩
  by_cases hl : x / 128 = pa / 128
  · exact .inl (hl ▸ hdirty)
  · unfold State.evictable
    rwa [hothers _ hl]

/-- Pieces written one after another: each byte of them is found, and a byte below that an eviction would leave stays. -/
theorem foldl_cacheWrite_pieces (k pa : Nat) (bs : List Byte) (hk : bs.length ≤ k) {s : State} (hm : s.memWf) :
    let t := (pieces k pa bs).foldl (fun s p => s.cacheWrite p.1 p.2) s
    (∀ i < bs.length, t.mem.read (pa + i) = bs.getD i unlistedByte) ∧
      ∀ x < pa, s.evictable (x / 128) → t.mem.read x = s.mem.read x := by
  induction k generalizing pa bs s with
  | zero =>
    obtain rfl := List.eq_nil_of_length_eq_zero (Nat.le_zero.mp hk)
    exact ⟨fun i hi => absurd hi (Nat.not_lt_zero i), fun _ _ _ => rfl⟩
  | succ k ih =>
    match bs, hk with
    | [], _ => exact ⟨fun i hi => absurd hi (Nat.not_lt_zero i), fun _ _ _ => rfl⟩
    | b :: bs, hk =>
      simp only [pieces, List.foldl_cons]
      generalize hn : 128 - pa % 128 = n
      generalize hu : s.cacheWrite pa ((b :: bs).take n) = u
      have hmu : u.memWf := hu ▸ hm.cacheWrite
      have hpos : 0 < n := by omega
      obtain ⟨hrest, hbelow⟩ := ih (pa + n) ((b :: bs).drop n) (by simp only [List.length_drop]; omega) hmu
      have hline : ∀ x, pa ≤ x → x < pa + n → u.evictable (x / 128) := fun x hlo hhi => by
        have hx : x / 128 = pa / 128 := by omega
        rw [hx, ← hu]
        exact .inl (s.cacheWrite_line pa _).1
      refine ⟨fun i hi => ?_, fun x hx hkept => ?_⟩
      · by_cases hin : i < n
        · rw [hbelow (pa + i) (by omega) (hline _ (by omega) (by omega)), ← hu, State.cacheWrite_mem, read_write,
            if_pos ⟨by omega, by rw [List.length_take]; omega⟩, Nat.add_sub_cancel_left, List.getD_eq_getElem?_getD,
            List.getD_eq_getElem?_getD, List.getElem?_take_of_lt hin]
        · have h := hrest (i - n) (by rw [List.length_drop]; omega)
          rw [show pa + n + (i - n) = pa + i by omega] at h
          rw [h, List.getD_eq_getElem?_getD, List.getD_eq_getElem?_getD, List.getElem?_drop, show n + (i - n) = i by omega]
      · have h := hkept.cacheWrite hm (pa := pa) (bs := (b :: bs).take n) (.inl hx)
        rw [hu] at h
        exact (hbelow x (by omega) h.1).trans h.2

/-- What a section writes to memory is read back, whatever lines its fills evict (R134, R220). -/
theorem State.sysStore_run {s : State} (hm : s.memWf) (pa : Nat) (bs : List Byte) : (s.sysStore pa bs).mem.run pa bs.length = bs := by
  have hwf : (s.sysStore pa bs).memWf := hm.sysStore
  obtain ⟨hread, -⟩ := foldl_cacheWrite_pieces bs.length pa bs (Nat.le_refl _) hm
  refine List.ext_getElem (run_length _ _ _) fun i hi hj => ?_
  have h := (run_get hwf (a := pa) hj).trans (hread i hj)
  rwa [List.getD_eq_getElem _ _ hi, List.getD_eq_getElem _ _ hj] at h

/-! ### Measurements (R207) -/

theorem Colophon.meas_extend_same (c : Colophon) {n : Nat} (h : n < 8) (d : List Byte) :
    (c.extend n d).meas.getD n 0 = Config.sha512 (natBytes 64 (c.meas.getD n 0).toNat ++ d) := by
  simp [Colophon.extend, Vector.getD, h]

theorem Colophon.meas_extend_other (c : Colophon) {n m : Nat} (h : m ≠ n) (d : List Byte) :
    (c.extend n d).meas.getD m 0 = c.meas.getD m 0 := by
  simp [Colophon.extend, Vector.getD, Array.getD_eq_getD_getElem?, Array.getElem?_setIfInBounds_ne h.symm]

/-! ### The mailbox (R209) -/

section
variable {s : State} (hb : s.isMemory s.mailbox = true)
include hb

/-- EXTEND of a measurement that a program may extend. -/
theorem State.mailboxCmd_extend (hp : s.poisonedRun s.mailbox 128 = false) {n : Nat} (hn : leNat ((s.mem.run s.mailbox 128).take 1) = n)
    (h3 : 3 ≤ n) (h7 : n ≤ 7) :
    s.mailboxCmd 1 = done (State.setMbstat { s with colophon := s.colophon.extend n ((s.mem.run s.mailbox 128).drop 64) } 1) := by
  have hrange : ¬ (n < 3 ∨ 7 < n) := by omega
  unfold State.mailboxCmd
  simp [hb, hp, hn, hrange]

/-- QUOTE writes what the quote for its nonce and partition is, and says how it ended. -/
theorem State.mailboxCmd_quote (hp : s.poisonedRun s.mailbox 128 = false) {v : BitVec 2} {bs : List Byte}
    (hq : s.quoteFor (s.mem.run s.mailbox 128) = (v, bs)) : s.mailboxCmd 2 = done ((s.sysStore s.mailbox bs).setMbstat v) := by
  unfold State.mailboxCmd
  simp [hb, hp, hq]

/-- DEVCERT reads nothing of its buffer, and writes a certificate that fits into it whole. -/
theorem State.mailboxCmd_devcert (hlen : s.flash.devCert.length ≤ 4092) :
    s.mailboxCmd 3 = done ((s.sysStore s.mailbox (natBytes 4 s.flash.devCert.length ++ s.flash.devCert)).setMbstat 1) := by
  unfold State.mailboxCmd
  simp [hb, List.take_of_length_le hlen]

end

/-- The quote command's answer for an index that names a partition. -/
theorem State.quoteFor_partition (s : State) {bytes : List Byte} (h : leNat ((bytes.drop 64).take 1) ≤ 7) :
    s.quoteFor bytes = match s.quote (bytes.take 64) (leNat ((bytes.drop 64).take 1)) with
      | none => (3, [])
      | some q => (1, q) := if_neg (Nat.not_lt.mpr h)

/-! ### Boot (R205, R206) -/

/-- What the owner's signatures, the record's ranges and the training of the ports decide: whether step 2 of boot succeeds (R205, R390). -/
def State.ownerOk (s : State) : Bool :=
  Config.ed25519Verify Config.rootKey s.flash.ownerCert s.flash.ownerSig &&
    Config.ed25519Verify (Config.ownerKeyOf s.flash.ownerCert) (s.flash.config.take 0xD8) ((s.flash.config.drop 0xD8).take 64) &&
    cfgOk s.flash.config && (s.cxl.train s.flash.config).serves

/-- The Colophon with its first measurement taken. -/
def Colophon.started (c : Colophon) (image : List Byte) : Colophon := ({ c with booted := true } : Colophon).extend 0 (digest image)

/-- The Colophon with what the configuration record gives, and the module's identity (R205, R208). -/
def Colophon.configured (c : Colophon) (f : Flash) : Colophon :=
  { c.extend 1 (digest f.config) with
    seq := BitVec.ofNat 32 (cfgField f.config 4 4), parts := BitVec.ofNat 64 (cfgField f.config 8 8), seed := Config.pufSeed f.helper }

/-- Boot with a root signature that fails, with a record that is refused, and with every step up to the kernel's. -/
theorem State.boot_cases (s : State) :
    (Config.ed25519Verify Config.rootKey s.flash.colophon s.flash.colophonSig = false →
      s.boot = { s with colophon := { s.colophon with booted := true } }) ∧
    (Config.ed25519Verify Config.rootKey s.flash.colophon s.flash.colophonSig = true →
      (s.ownerOk = false → s.boot = { s with colophon := s.colophon.started s.flash.colophon }) ∧
      (s.ownerOk = true →
        let c := (s.colophon.started s.flash.colophon).configured s.flash
        let req := cfgField s.flash.config 0x98 64
        s.boot = { s with
          parts := cfgParts s.flash.config, cxl := s.cxl.train s.flash.config
          colophon := if req ≠ 0 ∧ req ≠ (Config.sha512 s.flash.kernel).toNat then c
            else { c.extend 2 (digest s.flash.kernel) with kernelUp := true } })) := by
  refine ⟨fun hroot => ?_, fun hroot => ⟨fun howner => ?_, fun howner => ?_⟩⟩
  · unfold State.boot
    simp only [hroot, Bool.not_false, if_true]
  · unfold State.ownerOk at howner
    unfold State.boot
    simp only [hroot, howner, Bool.not_true, Bool.not_false, Bool.false_eq_true, if_false, if_true]
    rfl
  · unfold State.ownerOk at howner
    unfold State.boot
    simp only [hroot, howner, Bool.not_true, Bool.false_eq_true, if_false]
    split <;> rfl

theorem exec_packageBoot (s : State) : exec .packageBoot s = .next (if s.colophon.booted = true then s else s.boot) := by
  have hx : exec .packageBoot s = execPackageBoot s := rfl
  rw [hx, execPackageBoot]
  split <;> rfl

/-- The measurement of the Colophon's image is the first, and no later step of boot extends it (R207). -/
theorem Colophon.meas_started (c : Colophon) (image : List Byte) : (c.started image).meas.getD 0 0 =
    Config.sha512 (natBytes 64 (c.meas.getD 0 0).toNat ++ natBytes 64 (Config.sha512 image).toNat) :=
  Colophon.meas_extend_same _ (by decide) _

theorem Colophon.meas_configured (c : Colophon) (f : Flash) : (c.configured f).meas.getD 0 0 = c.meas.getD 0 0 :=
  c.meas_extend_other (by decide) _

/-- What boot leaves: the Colophon has booted with memory as it was; a failed root signature leaves the rest (R205), and else its image is measured;
with the owner's record accepted the partitions are laid out, and the kernel is released where the record asks for none or for this one (R206). -/
theorem State.boot_spec (s : State) : let root := Config.ed25519Verify Config.rootKey s.flash.colophon s.flash.colophonSig
    s.boot.colophon.booted = true ∧ s.boot.mem = s.mem ∧
    (root = false → s.boot.parts = s.parts ∧ s.boot.colophon.kernelUp = s.colophon.kernelUp ∧ s.boot.colophon.meas = s.colophon.meas) ∧
    (root = true → s.boot.colophon.meas.getD 0 0 = (s.colophon.started s.flash.colophon).meas.getD 0 0) ∧
    (root = true → s.ownerOk = true → s.boot.parts = cfgParts s.flash.config ∧ s.boot.colophon.seed = Config.pufSeed s.flash.helper ∧
      (cfgField s.flash.config 0x98 64 = 0 ∨ cfgField s.flash.config 0x98 64 = (Config.sha512 s.flash.kernel).toNat →
        s.boot.colophon.kernelUp = true)) := by
  obtain ⟨hfail, hpass⟩ := s.boot_cases
  cases hroot : Config.ed25519Verify Config.rootKey s.flash.colophon s.flash.colophonSig with
  | false =>
    rw [hfail hroot]
    exact ⟨rfl, rfl, fun _ => ⟨rfl, rfl, rfl⟩, fun h => absurd h Bool.false_ne_true, fun h => absurd h Bool.false_ne_true⟩
  | true =>
    obtain ⟨hrefused, haccepted⟩ := hpass hroot
    cases howner : s.ownerOk with
    | false =>
      rw [hrefused howner]
      exact ⟨rfl, rfl, fun h => absurd h.symm Bool.false_ne_true, fun _ => rfl, fun _ h => absurd h Bool.false_ne_true⟩
    | true =>
      rw [haccepted howner]
      dsimp only
      split
      next hother =>
        exact ⟨rfl, rfl, fun h => absurd h.symm Bool.false_ne_true, fun _ => Colophon.meas_configured _ _,
          fun _ _ => ⟨rfl, rfl, fun h => absurd h (not_or.mpr hother)⟩⟩
      next =>
        exact ⟨rfl, rfl, fun h => absurd h.symm Bool.false_ne_true,
          fun _ => (Colophon.meas_extend_other _ (by decide) _).trans (Colophon.meas_configured _ _), fun _ _ => ⟨rfl, rfl, fun _ => rfl⟩⟩

/-- Settles O58: each mailbox command is its outcome on the bytes of its buffer, which are read back once written, and boot is its five steps in
order. -/
theorem theColophonMeasuresAndBoots : Obligations.TheColophonMeasuresAndBoots := by
  unfold Obligations.TheColophonMeasuresAndBoots
  intro s
  refine ⟨fun hb hm => ⟨fun n hp hn h3 h7 => ?_, fun p hp hpart h7 => ⟨fun hseed => ?_, fun q hq => ?_⟩, fun hlen => ?_⟩,
    fun hbooted => ?_, fun hbooted => ?_⟩
  · exact ⟨_, congrArg finish (State.mailboxCmd_extend hb hp hn h3 h7), rfl, Colophon.meas_extend_same _ (by omega) _,
      fun m hmn => Colophon.meas_extend_other _ hmn _, rfl, rfl⟩
  · have hnoid := s.quoteFor_partition (hpart ▸ h7)
    rw [State.quote, hseed] at hnoid
    exact ⟨_, congrArg finish (State.mailboxCmd_quote hb hp hnoid), rfl, rfl⟩
  · have hquote := s.quoteFor_partition (hpart ▸ h7)
    rw [hpart, hq] at hquote
    exact ⟨_, congrArg finish (State.mailboxCmd_quote hb hp hquote), rfl, State.sysStore_run hm _ _, s.sysStore_cur _ _⟩
  · refine ⟨_, congrArg finish (State.mailboxCmd_devcert hb hlen), rfl, ?_, s.sysStore_cur _ _⟩
    have hrun := State.sysStore_run hm s.mailbox (natBytes 4 s.flash.devCert.length ++ s.flash.devCert)
    rw [List.length_append, natBytes_length] at hrun
    exact hrun
  · rw [exec_packageBoot, if_pos hbooted]
  · have hboot := s.boot_spec
    dsimp only at hboot ⊢
    rw [exec_packageBoot, if_neg (by rw [hbooted]; decide)]
    simp only [Colophon.meas_started] at hboot
    exact ⟨_, rfl, hboot⟩

end Sys2Proof.Machine

namespace Sys2Proof.Machine

/-! ### Memory that is not in its canonical form, and the line that a copy holds of it (R95, R134) -/

/-- Memory that lists the byte at 0x10000 twice. A run of bytes from 0x10000 on does not get past the second entry, so that the line that begins there
has 0 at 0x10001; a run from 0x10001 on finds the 1 that is listed there. -/
def twiceListed : Mem := [(0x10000, 1), (0x10000, 1), (0x10001, 1)]

/-- VLD of the byte at 0x10001 into v4. -/
def byteLoad : QEntry :=
  { pc := 0x20000, word := 0, op := .mem .ld 0 false false .b, d := 4, a := 8, b := 0, xa := 0x10001, xb := 0, rmode := 0, vmpol := 0
    nanz := false, prog := 0, upto := none, hold := [] }

/-- A partition with translation on. -/
def translating : Part :=
  { idx := 0, sects := 1, tierLo := 0, tierHi := 0, debugOn := false, rebases := 0, tsBase := 0
    k := { KRegs.init with asrt := 0x8000000000000000 }, db := Debug.init, pending := [], inval := none }

/-- A thread with VL 1 and that load at the head of its queue. Virtual page 1 is physical page 1, which is readable, and the cluster L2 holds the line
at 0x10000, as memory spells it, under a lease that reaches the thread's PTS. -/
def copyHeld : State :=
  { State.reset with
    mem := twiceListed, parts := [translating], tlb := [⟨0, none, 0, 0, 1, false, 0x10007⟩]
    copies := [⟨false, 0, 512, twiceListed.line 512, 0, 0, none⟩], cores := [(0, { Core.init false with holder := some 1 })]
    cur := { Thread.init with
      id := { Thread.init.id with ctxid := 1 }, st := .running, sys := { Sys.init with vlg := 1 }, vec := { Vec.init with queue := [byteLoad] } } }

theorem heads_copyHeld : copyHeld.heads 1 byteLoad := ⟨rfl, rfl, rfl, rfl⟩

theorem settled_copyHeld : copyHeld.settled := ⟨rfl, rfl, fun _ => rfl⟩

/-- The load's one element is at the physical address 0x10001. -/
theorem checked_copyHeld : checked copyHeld needRd .ld byteLoad .b [] ((copyHeld.actives 0).filter fun i => decide (byteLoad.prog ≤ i)) =
    ([(0, [(0x10001, .phys 0x10001)])], none) := rfl

/-- The load completes with the byte of the copy, which is 0. -/
theorem exec_copyHeld : ∃ u, exec (.vectorInstructionComplete 1) copyHeld = .next u ∧ (u.elems 4 1 1).getD 0 0 = 0 :=
  ⟨_, rfl, by decide +kernel⟩

/-- Refutes O41: its clause on loads asks that every copy equals the line of memory, and not that memory has its canonical form, as its clauses on
stores and atomics do (`State.memWf`). A copy serves an element with bytes of the line; where memory lists an address twice these are not the bytes from
the element's address on, which the clause promises. No state that steps reach from reset has such a memory (O6, O7). -/
theorem not_vectorMemoryAtTheHead : ¬ Obligations.VectorMemoryAtTheHead := by
  unfold Obligations.VectorMemoryAtTheHead
  intro h
  obtain ⟨haccess, -, -⟩ := h copyHeld 1 byteLoad 0 false false .b heads_copyHeld settled_copyHeld ⟨List.Pairwise.nil, nofun⟩
  obtain ⟨hload, -⟩ := haccess .ld [(0, [(0x10001, .phys 0x10001)])] rfl rfl fun x hx => ⟨0x10001, by simpa using hx, rfl⟩
  have hcurrent : ∀ x ∈ copyHeld.copies, x.data = copyHeld.mem.line x.line := List.forall_mem_singleton.mpr rfl
  have hroom : copyHeld.roomFor 1 := Nat.le_of_ble_eq_true rfl
  obtain ⟨u, hu, -, -, -, -, helems, -⟩ := hload rfl checked_copyHeld ⟨hcurrent, rfl, fun _ => rfl⟩ hroom nofun
  have hpromised : (u.elems 4 1 1).getD 0 0 = 1 := helems 0 (by decide) 0 (by decide)
  obtain ⟨v, hv, hserved⟩ := exec_copyHeld
  obtain rfl : u = v := Host.Outcome.next.inj (hu.symm.trans hv)
  exact absurd (hserved.symm.trans hpromised) (by decide)

end Sys2Proof.Machine

namespace Sys2Proof.Machine

/-! ### RES of another partition's thread (R220, R374) -/

/-- Two partitions, with their thread tables at 1 MiB and 2 MiB. -/
def tableOf0 : Part :=
  { idx := 0, sects := 1, tierLo := 0, tierHi := 0, debugOn := false, rebases := 0, tsBase := 0
    k := { KRegs.init with ttbase := 0x100000 }, db := Debug.init, pending := [], inval := none }

def tableOf1 : Part := { tableOf0 with idx := 1, k := { KRegs.init with ttbase := 0x200000 } }

/-- Thread 0x23 belongs to partition 1, is saved, and owes its image, which is at 1 MiB and in memory, an offset of 5. The PTS slot of that image is
where partition 0 has its own table entry of CTXID 0x23. -/
def owing : State :=
  { State.reset with
    mem := [(0x200232, 0x10), (0x200237, 0x80)], parts := [tableOf0, tableOf1], launches := [{ Launch.empty with id := 1, part := 1 }]
    cur := { Thread.init with id := { Thread.init.id with ctxid := 0x23, launch := 1 }, st := .saved, ptsOwed := 5 } }

/-- The slot of the image begins at the table entry of partition 0; the place at which that entry itself has an image does not meet it. -/
theorem owing_slot : owing.imageBase tableOf1 0x23 + 0x230 = tableOf0.tableEntry 0x23 ∧
    overlaps (tableOf0.tableEntry 0x23) 16 (owing.imageBase tableOf0 0x23 + 0x230) 8 = false := by decide +kernel

/-- RES of partition 0's entry is set, and the PTS that the thread owes is written over it. -/
theorem exec_threadTableResSet_owing : ∃ t, exec (.threadTableResSet 0 0x23) owing = .next t ∧
    (t.mem.word (tableOf0.tableEntry 0x23)).getLsbD 63 = false := ⟨_, rfl, by decide +kernel⟩

/-- Refutes O56: its clause on RES asks that the table entry does not meet the PTS slot of the image that the same partition has of the thread. The
step adds what the thread owes to the image that the thread's own partition has of it, which may be another (`owing`); that image may lie where the
entry is, and RES is then overwritten with the upper bits of a PTS. -/
theorem not_controlRegistersAct : ¬ Obligations.ControlRegistersAct := by
  unfold Obligations.ControlRegistersAct
  intro h
  obtain ⟨-, hres, -⟩ := h owing tableOf0 rfl
  have hwf : owing.memWf := by
    unfold State.memWf
    decide +kernel
  obtain ⟨t, ht, hset, -⟩ := hres 0x23 hwf (by decide +kernel) (fun _ _ _ _ => owing_slot.2)
  obtain ⟨u, hu, hclear⟩ := exec_threadTableResSet_owing
  obtain rfl : t = u := Host.Outcome.next.inj (ht.symm.trans hu)
  exact absurd (hset.symm.trans hclear) (by decide)

end Sys2Proof.Machine

namespace Sys2Proof.Machine

/-! ### What a save needs (R216, R220) -/

/-- A thread can still be saved after a change of anything but its identity, the launches, memory, and the thread tables of the partitions. -/
theorem State.canSave.of_frame {s t : State} (h : s.canSave) (hid : t.cur.id = s.cur.id) (hlaunches : t.launches = s.launches) (hmem : t.mem = s.mem)
    (hboard : t.board = s.board) {f : Part → Part} (hparts : t.parts = s.parts.map f) (hidx : ∀ p, (f p).idx = p.idx)
    (htable : ∀ p, (f p).k.ttbase = p.k.ttbase) : t.canSave := by
  obtain ⟨p, hp, hentry, himage⟩ := h
  have hplace : (f p).tableEntry s.cur.id.ctxid = p.tableEntry s.cur.id.ctxid := by rw [Part.tableEntry, Part.tableEntry, htable]
  have hlaunch : t.launch = s.launch := by rw [State.launch, State.launch, State.launchOf, State.launchOf, hlaunches, hid]
  refine ⟨f p, ?_, ?_, ?_⟩
  · rw [State.curPart, hlaunch, part?_map hidx hparts]
    exact congrArg (Option.map f) hp
  · rw [hid, hplace, State.isMemory_of_board hboard]
    exact hentry
  · rw [hid, State.imageBase, hplace, hmem, State.isMemory_of_board hboard]
    exact himage

/-! ### What a delivered trap leaves besides (R212) -/

/-- A trap of a thread that can be saved is delivered; it no longer waits, and the queue and the press share stay (R212, R216, R317). -/
theorem State.deliver_spares {s : State} (h : s.canSave) (x : Trap) : ∃ t, s.deliver x = done t ∧ s.cur.TrappedAs t.cur x ∧ t.cur.trap = none ∧
    t.queue = s.queue ∧ t.cur.share = s.cur.share := by
  obtain ⟨t, ht, htrapped⟩ := State.deliver_of_canSave h x
  refine ⟨t, ht, htrapped, ?_⟩
  unfold State.deliver at ht
  dsimp only at ht
  obtain ⟨v, p, hv, hframe⟩ := State.saveCur_left (s := { s with cur := { s.cur with
    sys := { s.cur.sys with cause := x.causeWord, epc := x.epc &&& 0x00FFFFFFFFFFFFFF, badva := x.badva },
    pc := x.resume, trap := none, wait := if x.vs then s.cur.wait else none, stalled := false,
    pass := decide (x.code = 6 ∧ x.detail ≠ 0) } }) h .suspended
  rw [hv, seq_done] at ht
  injection ht with _ ht
  obtain ⟨lp, ls, lw, sl, hleaving⟩ := State.leaving_eq _
  rw [hleaving] at hframe
  obtain ⟨ks, hks⟩ := v.releaseLanes_cores
  subst ht
  unfold State.left
  rw [hks]
  exact ⟨(congrArg (fun y : State => y.cur.trap) hframe :), (congrArg State.queue hframe :), (congrArg (fun y : State => y.cur.share) hframe :)⟩

/-- An instruction or a step that traps has its trap delivered where it is a vector trap, or nothing is queued (R31, R212). -/
theorem finish_trap_now {s : State} {x : Trap} (hnow : x.vs = true ∨ s.queue = []) (h : s.canSave) : ∃ t, finish (.trap x s) = .next t ∧
    s.cur.TrappedAs t.cur x ∧ t.cur.trap = none ∧ t.queue = s.queue ∧ t.cur.share = s.cur.share := by
  obtain ⟨t, ht, hspares⟩ := State.deliver_spares h x
  have htaken : s.takeTrap x = done t := by
    rw [State.takeTrap, if_pos, ht]
    rcases hnow with hvs | hq
    · rw [hvs, Bool.true_or]
    · rw [hq, List.isEmpty_nil, Bool.or_true]
  refine ⟨t, ?_, hspares⟩
  unfold finish
  dsimp only
  rw [htaken]
  rfl

/-! ### The retired-count stop and the delivery of a trap (R31, R212, R227) -/

/-- The comparison of a replay's path changes the thread's record of the original run and a flag of its partition's debug (R229). -/
theorem State.compareReplay_eq (s : State) : ∃ o f, s.compareReplay = { s with cur := { s.cur with orig := o }, parts := s.parts.map f } ∧
    ∀ p : Part, (f p).idx = p.idx ∧ (f p).k.ttbase = p.k.ttbase := by
  unfold State.compareReplay
  split
  · exact ⟨s.cur.orig, id, by rw [List.map_id], fun _ => ⟨rfl, rfl⟩⟩
  · dsimp only
    split
    · exact ⟨none, id, by rw [List.map_id], fun _ => ⟨rfl, rfl⟩⟩
    · exact ⟨none, _, rfl, fun p => by dsimp only; split <;> exact ⟨rfl, rfl⟩⟩

/-- The stop is the breakpoint trap with DETAIL 2 at the instruction (R227). -/
theorem exec_retiredCountStop {s : State} (hrun : s.cur.st = .running) (hq : s.queue = []) (hsave : s.canSave) (htrap : s.cur.trap = none)
    (hstop : s.retiredStop = true) : ∃ t, exec (.retiredCountStop s.cur.id.ctxid) s = .next t ∧
      s.cur.TrappedAs t.cur ⟨false, 0x06, 2, s.cur.pc, s.free, s.cur.pc⟩ ∧ t.cur.trap = none := by
  obtain ⟨o, f, hcompare, hf⟩ := s.compareReplay_eq
  obtain ⟨t, ht, htrapped, hnone, -, -⟩ := finish_trap_now (s := s.compareReplay) (x := ⟨false, 0x06, 2, s.cur.pc, s.free, s.cur.pc⟩)
    (.inr (by rw [hcompare]; exact hq))
    (hsave.of_frame (f := f) (by rw [hcompare]) (by rw [hcompare]) (by rw [hcompare]) (by rw [hcompare]; rfl) (by rw [hcompare])
      (fun p => (hf p).1) fun p => (hf p).2)
  have hx : exec (.retiredCountStop s.cur.id.ctxid) s = execRetiredCountStop s.cur.id.ctxid s := rfl
  rw [hx, execRetiredCountStop, State.focus_self, Option.bind_some, if_pos ⟨hrun, Option.isNone_iff_eq_none.2 htrap, hstop⟩, stepOr_some]
  rw [hcompare] at ht htrapped ⊢
  exact ⟨t, ht, ⟨htrapped.cause, htrapped.epc, htrapped.badva, htrapped.state, htrapped.resume, htrapped.g, htrapped.det⟩, hnone⟩

/-- A trap that has waited for the queue is delivered (R31). -/
theorem exec_trapDelivery {s : State} {k : Trap} (hrun : s.cur.st = .running) (hq : s.queue = []) (hsave : s.canSave) (htrap : s.cur.trap = some k) :
    ∃ t, exec (.trapDelivery s.cur.id.ctxid) s = .next t ∧ s.cur.TrappedAs t.cur k ∧ t.cur.trap = none := by
  obtain ⟨t, ht, htrapped, hnone, -, -⟩ := State.deliver_spares hsave k
  refine ⟨t, ?_, htrapped, hnone⟩
  have hx : exec (.trapDelivery s.cur.id.ctxid) s = execTrapDelivery s.cur.id.ctxid s := rfl
  rw [hx, execTrapDelivery, State.focus_self, Option.bind_some, decide_eq_true hrun, htrap, stepOr_some, State.drained_empty hq, ht, finish_done]

/-! ### A checkpoint (R228) -/

/-- A checkpoint of the current thread, as its partition takes it. -/
def State.checkpointOf (s : State) (p : Part) : Ckpt :=
  ⟨{ s.flight.cur with saveRebases := p.rebases.toNat, share := none }, s.ownLins, [], [], []⟩

def Part.checkpointed (p : Part) (s : State) : Part := { p with db := { p.db with ckpts := s.checkpointOf p :: p.db.ckpts } }

/-- A checkpoint that is due joins those of the thread's partition, and nothing else changes (R228). -/
theorem exec_checkpoint {s : State} {p : Part} (hrun : s.cur.st = .running) (hdue : s.checkpointDue = true) (hp : s.curPart = some p) :
    ∃ t, exec (.checkpoint s.cur.id.ctxid) s = .next t ∧ t.part? p.idx = some (p.checkpointed s) ∧ t.cur = s.cur ∧ t.mem = s.mem := by
  have hx : exec (.checkpoint s.cur.id.ctxid) s = execCheckpoint s.cur.id.ctxid s := rfl
  have hpart := State.part?_modPart (f := fun x => x.checkpointed s) hp fun _ => rfl
  rw [hx, execCheckpoint, State.focus_self, Option.bind_some, if_pos ⟨hrun, hdue⟩, stepOr_some, finish_done]
  exact ⟨_, rfl, State.part?_idx hp ▸ hpart, rfl, rfl⟩

end Sys2Proof.Machine

namespace Sys2Proof.Machine

/-! ### A press that fails again (R221, R224) -/

/-- The register directory as the interlock sees it differs from the thread's own in the progress of registers (R33). -/
theorem flightOn_eq (s t : State) (seen : List Nat) (l : List QEntry) : ∃ rs, flightOn s t seen l =
    { t with cur := { t.cur with vec := { t.cur.vec with regs := rs } } } := by
  induction l generalizing s t seen with
  | nil => exact ⟨t.cur.vec.regs, rfl⟩
  | cons q l ih =>
    unfold flightOn
    obtain ⟨rs, hrs⟩ := ih _ (t.setRegProg (((q.targets s).filter fun r => !seen.contains r && decide (r < s.nv)).dedup) q.prog) _
    exact ⟨rs, hrs⟩

theorem State.flight_eq (s : State) : ∃ rs, s.flight = { s with cur := { s.cur with vec := { s.cur.vec with regs := rs } } } := flightOn_eq s s [] s.queue

theorem Share.get_eq (h : Share) {c : Nat} (hc : c < 4) : h.get c = h.acc[c] := by simp [Share.get, Vector.getD, hc]

theorem Share.get_setAcc (h : Share) {c : Nat} (hc : c < 4) (a : Acc) : ({ h with acc := h.acc.setIfInBounds c a } : Share).get c = a := by
  rw [Share.get_eq _ hc, Vector.getElem_setIfInBounds_self]

/-- Making a lineage's elements NaN leaves the values of an accumulator that is of another lineage (R224). -/
theorem Share.nan_vals {h : Share} {ln c : Nat} (hc : c < 4) (hother : (h.get c).lin ≠ ln) : ((h.nan ln).get c).vals = (h.get c).vals := by
  rw [Share.get_eq _ hc] at hother ⊢
  rw [Share.get_eq _ hc, Share.nan, Vector.getElem_map, decide_eq_false hother, Bool.false_and, if_neg Bool.false_ne_true]

theorem Share.settled_vals (h : Share) (ln : Nat) {c : Nat} (hc : c < 4) : ((h.settled ln).get c).vals = (h.get c).vals := by
  rw [Share.get_eq _ hc, Share.get_eq _ hc, Share.settled, Vector.getElem_map]
  split <;> rfl

/-- What the press and its lineages leave of a machine: the thread's registers and queue, memory, the launches and the partitions. -/
def State.aside (s : State) : Ident × Vector Word 32 × Word × List QEntry × Mem × (List Nat × Cxl) × List Launch × List Part :=
  (s.cur.id, s.cur.g, s.cur.pc, s.queue, s.mem, s.board, s.launches, s.parts)

theorem State.nanLin_aside (s : State) (ln : Nat) : (s.nanLin ln).aside = s.aside := rfl

theorem State.dropLin_aside (s : State) (ln : Nat) : (s.dropLin ln).aside = s.aside := rfl

/-- An accumulator that the press could not compute: NaN throughout, and no longer open (R224). -/
def Acc.failed (a : Acc) (rows : Nat) : Acc :=
  { a with vals := List.replicate (rows * 128) (BitVec.ofNat 32 Fmt.sf.nan), isOpen := false, corr := [], lin := if a.isOpen then 0 else a.lin }

/-- A lineage, where there is one, settled on NaN (R224). -/
def State.lineageFailed (s : State) (ln : Nat) : State := if ln = 0 then s else (s.nanLin ln).dropLin ln

/-- The machine once an accumulator has failed for good, with the lineage published from it settled on NaN (R224). -/
def State.accFailed (s : State) (h : Share) (c : Nat) : State :=
  (s.setAcc h c ((h.get c).failed h.rows)).lineageFailed (if (h.get c).isOpen then (h.get c).lin else 0)

theorem State.lineageFailed_aside (s : State) (ln : Nat) : (s.lineageFailed ln).aside = s.aside := by
  unfold State.lineageFailed
  split
  · rfl
  · rw [State.dropLin_aside, State.nanLin_aside]

theorem State.accFailed_aside (s : State) (h : Share) (c : Nat) : (s.accFailed h c).aside = s.aside := State.lineageFailed_aside _ _

/-- A lineage that fails leaves the values of an accumulator that is of no lineage (R224). -/
theorem State.lineageFailed_vals {s : State} {h : Share} {c : Nat} (hshare : s.cur.share = some h) (hc : c < 4) (hlin : (h.get c).lin = 0) (ln : Nat) :
    ((s.lineageFailed ln).cur.share.map fun y => (y.get c).vals) = some (h.get c).vals := by
  unfold State.lineageFailed
  split
  next => rw [hshare, Option.map_some]
  next hln =>
    have hkept : ((s.nanLin ln).dropLin ln).cur.share = (s.cur.share.map fun y => y.nan ln).map fun y => y.settled ln := rfl
    rw [hkept, hshare, Option.map_some, Option.map_some, Option.map_some, Share.settled_vals _ _ hc, Share.nan_vals hc (by omega)]

/-- The accumulator that failed is NaN, whatever becomes of the lineage that was published from it (R224). -/
theorem State.accFailed_vals (s : State) (h : Share) {c : Nat} (hc : c < 4) : ((s.accFailed h c).cur.share.map fun y => (y.get c).vals) =
    some (List.replicate (h.rows * 128) (BitVec.ofNat 32 Fmt.sf.nan)) := by
  have hget := Share.get_setAcc h hc ((h.get c).failed h.rows)
  by_cases hopen : (h.get c).isOpen = true
  · rw [State.accFailed, State.lineageFailed_vals (s := s.setAcc h c ((h.get c).failed h.rows)) rfl hc (by rw [hget]; exact if_pos hopen), hget]
    rfl
  · rw [State.accFailed, if_neg hopen]
    exact congrArg (fun a : Acc => some a.vals) hget

/-- The trap of a press that fails again, which is raised at its entry; the thread resumes at its next instruction (R224). -/
def State.pressTrap (s : State) (q : QEntry) (c : Nat) : Trap :=
  ⟨true, 9, BitVec.ofNat 8 c, q.pc, s.free, s.cur.pc⟩

/-- A press that fails again raises its trap with the entry off the queue (R224). -/
theorem pressError_traps {s : State} {h : Share} (hshare : s.cur.share = some h) (q : QEntry) (c : Nat) :
    pressError s q c = .trap ((s.accFailed h c).popQueue.pressTrap q c) (s.accFailed h c).popQueue := by
  unfold pressError
  rw [hshare]
  rfl

section
variable {s : State} {q : QEntry} {a : Nat} (hrun : s.cur.st = .running) (hq : s.queue.head? = some q) (hacc : q.op.accOf = some a)
include hrun hq hacc

theorem exec_pressErrorRerun (again : Bool) : exec (.pressErrorRerun s.cur.id.ctxid again) s = finish (if again then (match pressError s q a with
    | .trap t u => .trap t u.flight
    | r => r) else done s) := by
  obtain ⟨l, hl⟩ := List.head?_eq_some_iff.1 hq
  have hx : exec (.pressErrorRerun s.cur.id.ctxid again) s = execPressErrorRerun s.cur.id.ctxid again s := rfl
  rw [hx, execPressErrorRerun, State.focus_self, Option.bind_some, decide_eq_true hrun, hl]
  dsimp only
  rw [hacc]
  rfl

/-- A press that fails again traps: its thread is suspended at its next instruction, and the accumulator is NaN (R224). -/
theorem exec_pressErrorRerun_again {h : Share} (hsave : s.canSave) (hshare : s.cur.share = some h) (ha : a < 4) :
    ∃ t, exec (.pressErrorRerun s.cur.id.ctxid true) s = .next t ∧ t.cur.st = .suspended ∧
      t.cur.sys.cause = (0x8000000000000009 : Word) ||| (BitVec.ofNat 8 a).setWidth 64 <<< 8 ∧ t.queue = s.queue.tail ∧ t.cur.resume = s.cur.pc ∧
      (t.cur.share.map fun y => (y.get a).vals) = some (List.replicate (h.rows * 128) (BitVec.ofNat 32 Fmt.sf.nan)) ∧ t.cur.g = s.cur.g := by
  have hvals := s.accFailed_vals h ha
  have haside := s.accFailed_aside h a
  rw [exec_pressErrorRerun hrun hq hacc, if_pos rfl, pressError_traps hshare]
  dsimp only
  generalize s.accFailed h a = u at hvals haside ⊢
  simp only [State.aside, Prod.mk.injEq] at haside
  obtain ⟨hid, hg, hpc, hqueue, hmem, hboard, hlaunches, hparts⟩ := haside
  obtain ⟨rs, hflight⟩ := u.popQueue.flight_eq
  rw [hflight]
  obtain ⟨t, ht, htrapped, -, htail, hkept⟩ := finish_trap_now (x := u.popQueue.pressTrap q a) (.inl rfl) (hsave.of_frame
    (t := { u.popQueue with cur := { u.popQueue.cur with vec := { u.popQueue.cur.vec with regs := rs } } }) (f := id)
    hid hlaunches hmem hboard (by rw [List.map_id]; exact hparts) (fun _ => rfl) fun _ => rfl)
  refine ⟨t, ht, htrapped.state, htrapped.cause.trans ?_, htail.trans ?_, htrapped.resume.trans hpc, ?_, htrapped.g.trans hg⟩
  · have hword : (0x8000000000000009 : Word) = 0x8000000000000000 ||| 9 := rfl
    rw [hword, BitVec.or_assoc, BitVec.or_comm 9, ← BitVec.or_assoc]
    rfl
  · exact (congrArg (List.drop 1) hqueue).trans List.drop_one
  · rw [hkept]
    exact hvals

end

end Sys2Proof.Machine

namespace Sys2Proof.Machine

/-! ### Markers and messages between instructions (R111, R160 to R163, R223) -/

/-- A thread that waits on a ring of its launch in a section tries again (R162). -/
def Thread.ringTold (launch sect : Nat) (t : Thread) : Thread :=
  if t.id.launch = launch ∧ t.id.place.sect = sect then
    match t.wait with
    | some (.ring _ _ _) => { t with stalled := false }
    | _ => t
  else t

theorem Thread.ringTold_eq (launch sect : Nat) (t : Thread) : ∃ b, t.ringTold launch sect = { t with stalled := b } := by
  unfold Thread.ringTold
  split
  · split
    · exact ⟨_, rfl⟩
    · exact ⟨t.stalled, rfl⟩
  · exact ⟨t.stalled, rfl⟩

/-- A channel of the current thread's ring, once it has posted there (R162). -/
def State.posted (s : State) (k i : Nat) : State :=
  s.modLaunch s.cur.id.launch fun l => { l with rings := Tab.set l.rings (ringKey s.cur.id.place.sect k) ((s.ring k).post i s.cur.sys.pts) }

theorem State.firePost_eq (s : State) (k i : Nat) :
    s.firePost k i = (s.posted k i).modThreads (Thread.ringTold s.cur.id.launch s.cur.id.place.sect) := rfl

/-- A POST marker of the oldest entry fires, and its entry leaves the queue (R162). -/
theorem exec_postMarkerFire {s : State} {q : QEntry} {k i : Nat} (hrun : s.cur.st = .running) (hq : s.queue.head? = some q) (hop : q.op = .post k i)
    (hmay : s.mayPost k i = true) : exec (.postMarkerFire s.cur.id.ctxid) s = .next (s.firePost k i).popQueue := by
  obtain ⟨l, hl⟩ := List.head?_eq_some_iff.1 hq
  have hx : exec (.postMarkerFire s.cur.id.ctxid) s = execPostMarkerFire s.cur.id.ctxid s := rfl
  rw [hx, execPostMarkerFire, State.focus_self, Option.bind_some, decide_eq_true hrun, hl]
  dsimp only
  rw [hop]
  dsimp only
  rw [if_pos hmay]
  rfl

theorem State.firePost_posts {s : State} {k i : Nat} (hl : s.launch ∈ s.launches) (hid : s.launch.id = s.cur.id.launch) :
    (s.firePost k i).popQueue.queue = s.queue.tail ∧ (s.firePost k i).popQueue.ring k = (s.ring k).post i s.cur.sys.pts ∧
      (s.firePost k i).popQueue.cur.g = s.cur.g ∧ (s.firePost k i).popQueue.mem = s.mem := by
  obtain ⟨b, hb⟩ := s.cur.ringTold_eq s.cur.id.launch s.cur.id.place.sect
  have hcur : (s.firePost k i).popQueue.cur = { s.cur with stalled := false, vec := { s.cur.vec with queue := s.cur.vec.queue.drop 1 } } :=
    congrArg (fun t : Thread => { t with stalled := false, vec := { t.vec with queue := t.vec.queue.drop 1 } }) hb
  have hlaunch : (s.firePost k i).popQueue.launchOf s.cur.id.launch = _ := State.launchOf_modLaunch (State.find_launch rfl hl hid) _ fun _ => rfl
  refine ⟨?_, ?_, ?_, rfl⟩
  · rw [State.queue, hcur]
    exact List.drop_one
  · rw [State.ring, State.launch, hcur, hlaunch, tab_get_set_same, Option.getD_some]
  · rw [hcur]

/-- A message about barriers that the link has accepted, taken from it to be acted on (R223). -/
def State.takenBar (s : State) (x : BarMsg) : State := { s with link := { s.link with inbox := s.link.inbox.erase (.barrier x) } }

theorem State.accepted_inbox {s : State} {x : BarMsg} (hin : LinkMsg.barrier x ∈ s.link.inbox) (f : State → Option (Res Unit)) :
    s.accepted (.barrier x) f = f (s.takenBar x) := by
  unfold State.accepted
  rw [if_pos (List.contains_iff_mem.2 hin)]
  rfl

/-- An arrival of another module is counted at its node (R160, R161). -/
theorem exec_barrierArrival {s : State} {l b node pts : Nat} {e : BarEntry} (hin : LinkMsg.barrier (.arrival l b node pts) ∈ s.link.inbox)
    (he : (s.launchOf l).lrec.bars[b]? = some e) : exec (.barrierArrivalDelivery (.arrival l b node pts)) s =
      .next ((s.takenBar (.arrival l b node pts)).countArrival l b e.lvl e.pcnt node pts) := by
  have hx : exec (.barrierArrivalDelivery (.arrival l b node pts)) s = execBarrierArrivalDelivery (.arrival l b node pts) s := rfl
  rw [hx, execBarrierArrivalDelivery, State.accepted_inbox hin]
  dsimp only
  have hof : (s.takenBar (.arrival l b node pts)).launchOf l = s.launchOf l := rfl
  rw [hof, he, Option.bind_some, stepOr_some, finish_done]

/-- The launch with a barrier's generation complete at a node, as another module tells (R161). -/
def State.barComplete (s : State) (l b node : Nat) (gen : BitVec 16) (ts : Nat) : State :=
  s.modLaunch l fun y => { y with bars := Tab.set y.bars (barKey b node) ⟨0, gen, ts, 0⟩ }

theorem exec_barrierComplete {s : State} {l b node ts : Nat} {gen : BitVec 16} (hin : LinkMsg.barrier (.complete l b node gen ts) ∈ s.link.inbox) :
    exec (.barrierArrivalDelivery (.complete l b node gen ts)) s =
      .next (((s.takenBar (.complete l b node gen ts)).barComplete l b node gen ts).releaseBar l b node ts) := by
  have hx : exec (.barrierArrivalDelivery (.complete l b node gen ts)) s = execBarrierArrivalDelivery (.complete l b node gen ts) s := rfl
  rw [hx, execBarrierArrivalDelivery, State.accepted_inbox hin]
  rfl

/-- Arrivals of another module at a collective fence, counted (R111; log entry 130). -/
def State.awayCounted (s : State) (l key n : Nat) : State :=
  s.modLaunch l fun y => { y with away := Tab.set y.away key ((Tab.get y.away key).getD 0 + n) }

theorem exec_barrierEpoch {s : State} {l key n : Nat} (hin : LinkMsg.barrier (.epoch l key n) ∈ s.link.inbox) :
    exec (.barrierArrivalDelivery (.epoch l key n)) s = .next ((s.takenBar (.epoch l key n)).awayCounted l key n) := by
  have hx : exec (.barrierArrivalDelivery (.epoch l key n)) s = execBarrierArrivalDelivery (.epoch l key n) s := rfl
  rw [hx, execBarrierArrivalDelivery, State.accepted_inbox hin]
  rfl

/-- A release gives the arrivals that wait for the generation its timestamp, and leaves each thread where it stands (R160). -/
theorem State.releaseBar_pc (s : State) (l b node ts : Nat) : (s.releaseBar l b node ts).cur.pc = s.cur.pc := by
  unfold State.releaseBar State.modThreads
  dsimp only
  split
  · split
    · split <;> rfl
    · rfl
  · rfl

theorem State.releaseBar_fires {s : State} {l b node ts : Nat} {a : Arrival} (hl : s.cur.id.launch = l) (ha : s.cur.arrival b = some a)
    (hnode : a.node = node) (hwaits : a.fired = none) : (s.releaseBar l b node ts).cur.arrival b = some { a with fired := some ts } := by
  unfold State.releaseBar State.modThreads
  dsimp only
  rw [if_pos hl, ha]
  dsimp only
  rw [if_pos ⟨hnode, hwaits⟩]
  exact tab_get_set_same _ _ _

theorem State.countArrival_pc (s : State) (l b lvl pcnt node pts : Nat) : (s.countArrival l b lvl pcnt node pts).cur.pc = s.cur.pc ∧
    (s.countArrival l b lvl pcnt node pts).mem = s.mem := by
  rw [State.countArrival_eq]
  split
  · obtain ⟨k, hk⟩ := State.sendNotice_link _ _
    rw [hk]
    exact ⟨State.releaseBar_pc _ _ _ _ _, rfl⟩
  · exact ⟨rfl, rfl⟩

theorem barrierArrival_counts {s : State} {l b node pts : Nat} {e : BarEntry} (hin : LinkMsg.barrier (.arrival l b node pts) ∈ s.link.inbox)
    (he : (s.launchOf l).lrec.bars[b]? = some e) : ∃ t, exec (.barrierArrivalDelivery (.arrival l b node pts)) s = .next t ∧
      t.cur.pc = s.cur.pc ∧ t.mem = s.mem ∧
      Tab.get (t.launchOf l).bars (barKey b node) = some (((s.launchOf l).bar b node).counted ((s.launchOf l).need e.lvl e.pcnt) pts) := by
  have hthere : s.launchOf l ≠ Launch.empty := by
    intro h
    rw [h] at he
    exact absurd he (by simp [Launch.empty, LaunchRec.empty])
  obtain ⟨hpc, hmem⟩ := (s.takenBar (.arrival l b node pts)).countArrival_pc l b e.lvl e.pcnt node pts
  exact ⟨_, exec_barrierArrival hin he, hpc, hmem, State.countArrival_bar (s := s.takenBar (.arrival l b node pts)) hthere _ _ _ _ _⟩

theorem barrierComplete_releases {s : State} {l b node ts : Nat} {gen : BitVec 16} (hin : LinkMsg.barrier (.complete l b node gen ts) ∈ s.link.inbox)
    (hl : s.launchOf l ∈ s.launches) (hid : (s.launchOf l).id = l) : ∃ t, exec (.barrierArrivalDelivery (.complete l b node gen ts)) s = .next t ∧
      t.cur.pc = s.cur.pc ∧ t.mem = s.mem ∧ Tab.get (t.launchOf l).bars (barKey b node) = some ⟨0, gen, ts, 0⟩ ∧
      ∀ a, s.cur.id.launch = l → s.cur.arrival b = some a → a.node = node → a.fired = none → t.cur.arrival b = some { a with fired := some ts } := by
  have hlaunch := State.launchOf_modLaunch (State.find_launch rfl hl hid)
    (f := fun y => { y with bars := Tab.set y.bars (barKey b node) ⟨0, gen, ts, 0⟩ }) fun _ => rfl
  refine ⟨_, exec_barrierComplete hin, State.releaseBar_pc _ _ _ _ _, rfl, ?_, fun a hcur ha hnode hwaits => State.releaseBar_fires hcur ha hnode hwaits⟩
  exact (congrArg (fun y : Launch => Tab.get y.bars (barKey b node)) hlaunch).trans (tab_get_set_same _ _ _)

theorem barrierEpoch_counts {s : State} {l key n : Nat} (hin : LinkMsg.barrier (.epoch l key n) ∈ s.link.inbox) (hl : s.launchOf l ∈ s.launches)
    (hid : (s.launchOf l).id = l) : ∃ t, exec (.barrierArrivalDelivery (.epoch l key n)) s = .next t ∧ t.cur.pc = s.cur.pc ∧ t.mem = s.mem ∧
      Tab.get (t.launchOf l).away key = some ((Tab.get (s.launchOf l).away key).getD 0 + n) := by
  have hlaunch := State.launchOf_modLaunch (State.find_launch rfl hl hid)
    (f := fun y => { y with away := Tab.set y.away key ((Tab.get y.away key).getD 0 + n) }) fun _ => rfl
  exact ⟨_, exec_barrierEpoch hin, rfl, rfl, (congrArg (fun y : Launch => Tab.get y.away key) hlaunch).trans (tab_get_set_same _ _ _)⟩

end Sys2Proof.Machine

namespace Sys2Proof.Machine

/-! ### The collective fence of a node of one thread (R85, R110, R111) -/

/-- A store under any policy changes no register of the thread, and nothing that engines and banks keep (R22, R96, R99). -/
theorem State.leaseWriteBy_spared (s : State) (vec : Bool) (pol : BitVec 3) (pa : Nat) (bs : List Byte) :
    (s.leaseWriteBy vec pol pa bs).spared = s.spared := by
  unfold State.leaseWriteBy
  dsimp only
  have hu := s.rebaseFor_spared s.launch.part (max s.cur.sys.pts ((s.line (pa / 128)).rts + 1))
  generalize s.rebaseFor s.launch.part (max s.cur.sys.pts ((s.line (pa / 128)).rts + 1)) = u at hu ⊢
  have hw : (if vec = true then u.evictL1 s.cur.id.place.cluster (pa / 128) else u).spared = s.spared := by split <;> exact hu
  generalize (if vec = true then u.evictL1 s.cur.id.place.cluster (pa / 128) else u) = w at hw ⊢
  generalize max w.cur.sys.pts ((w.line (pa / 128)).rts + 1) = ts
  have hv := w.storeAt_spared w.cur.id.launch s.cur.id.place.cluster pa bs ts
  generalize w.storeAt w.cur.id.launch s.cur.id.place.cluster pa bs ts = v at hv ⊢
  rw [(State.install_copies _ _ _ _ _ _).choose_spec]
  exact hv.trans hw

/-- A store under any policy that nothing disturbs changes memory by its bytes alone (R22, R96). -/
theorem State.leaseWriteBy_mem {s : State} (h : s.undisturbed 1) (vec : Bool) (pol : BitVec 3) (pa : Nat) (bs : List Byte) :
    (s.leaseWriteBy vec pol pa bs).mem = s.mem.write pa bs := by
  unfold State.leaseWriteBy
  dsimp only
  have hu := s.rebaseFor_mem s.launch.part (max s.cur.sys.pts ((s.line (pa / 128)).rts + 1))
  have hquiet := h.rebaseFor s.launch.part (max s.cur.sys.pts ((s.line (pa / 128)).rts + 1))
  generalize s.rebaseFor s.launch.part (max s.cur.sys.pts ((s.line (pa / 128)).rts + 1)) = u at hu hquiet ⊢
  have hw : (if vec = true then u.evictL1 s.cur.id.place.cluster (pa / 128) else u).mem = s.mem ∧
      (if vec = true then u.evictL1 s.cur.id.place.cluster (pa / 128) else u).undisturbed 1 := by split <;> exact ⟨hu, hquiet⟩
  generalize (if vec = true then u.evictL1 s.cur.id.place.cluster (pa / 128) else u) = w at hw ⊢
  obtain ⟨hmem, hstill⟩ := hw
  generalize max w.cur.sys.pts ((w.line (pa / 128)).rts + 1) = ts
  have hv := State.storeAt_mem hstill w.cur.id.launch s.cur.id.place.cluster pa bs ts
  generalize w.storeAt w.cur.id.launch s.cur.id.place.cluster pa bs ts = v at hv ⊢
  rw [(State.install_copies _ _ _ _ _ _).choose_spec, ← hmem]
  exact hv

theorem State.locWrite_spared (s : State) (off : Nat) (bs : List Byte) : (s.locWrite off bs).spared = s.spared :=
  List.foldlRecOn (linesOf off bs.length) _ (motive := fun t : State => t.spared = s.spared) rfl fun t ht _ _ => (t.captureOld_spared _ _).trans ht

/-- Buffered stores that perform change no register of the thread (R85). -/
theorem State.performStores_spared (s : State) (ds : List DetStore) : (s.performStores ds).spared = s.spared := by
  unfold State.performStores
  refine List.foldlRecOn _ _ (motive := fun t : State => t.spared = s.spared) rfl fun t ht d _ => ?_
  split
  · exact (t.locWrite_spared _ _).trans ht
  · exact (t.leaseWriteBy_spared _ _ _ _).trans ht

/-- The current thread with nothing buffered. -/
def State.emptied (s : State) : State := { s with cur := { s.cur with det := [] } }

theorem State.emptied_spared (s : State) : s.emptied.spared = s.spared := rfl

theorem State.sysStore_spared (s : State) (pa : Nat) (bs : List Byte) : (s.sysStore pa bs).spared = s.spared :=
  (congrArg State.spared (s.sysStore_exceptMem pa bs) :)

/-- The overflow area of the image emptied, where more is buffered than the buffer itself holds; `u` is the machine so far (R218). -/
def State.overflowEmptied (s u : State) : State :=
  match s.curPart with
  | some p => if Config.wcbEntries < s.cur.det.length ∧ u.isMemory (u.imageBase p s.cur.id.ctxid) = true then
      u.sysStore (u.imageBase p s.cur.id.ctxid + 0xC000) (natBytes 8 0) else u
  | none => u

theorem State.overflowEmptied_cases (s u : State) : s.overflowEmptied u = u ∨
    Config.wcbEntries < s.cur.det.length ∧ ∃ a bs, s.overflowEmptied u = u.sysStore a bs := by
  unfold State.overflowEmptied
  split
  · split
    next h => exact .inr ⟨h.1, _, _, rfl⟩
    next => exact .inl rfl
  · exact .inl rfl

/-- A drain performs what is buffered, and then empties the overflow area where that holds any of it (R85, R218). -/
theorem State.drainDet_eq (s : State) : s.drainDet = s.overflowEmptied (s.performStores s.cur.det).emptied := rfl

theorem State.drainDet_cases (s : State) : s.drainDet = (s.performStores s.cur.det).emptied ∨
    Config.wcbEntries < s.cur.det.length ∧ ∃ a bs, s.drainDet = (s.performStores s.cur.det).emptied.sysStore a bs := by
  rw [State.drainDet_eq]
  exact s.overflowEmptied_cases _

theorem State.drainDet_spec (s : State) : s.drainDet.spared = s.spared ∧ s.drainDet.cur.det = [] := by
  have hstores : (s.performStores s.cur.det).emptied.spared = s.spared := s.performStores_spared _
  rcases s.drainDet_cases with h | ⟨-, a, bs, h⟩
  · rw [h]
    exact ⟨hstores, rfl⟩
  · rw [h, State.sysStore_spared, State.sysStore_cur]
    exact ⟨hstores, rfl⟩

/-- The thread as it drains: resident, with its PTS brought up to the present rebase count (R19, R111). -/
def State.settledIn (s : State) : State := { s.settlePts with cur := { s.settlePts.cur with st := .running } }

theorem State.drainMember_eq (s : State) : ∃ n, s.drainMember =
    { s.settledIn.drainDet with cur := { s.settledIn.drainDet.cur with st := s.cur.st, saveRebases := n } } := ⟨_, rfl⟩

/-- What a thread's drain changes of the thread are its PTS and its rebase count, and its buffer is empty then (R19, R85, R111). -/
theorem State.drainMember_spec (s : State) : s.drainMember.spared = s.spared ∧ s.drainMember.cur.det = [] ∧ s.drainMember.cur.st = s.cur.st := by
  obtain ⟨n, h⟩ := s.drainMember_eq
  obtain ⟨hspared, hdet⟩ := s.settledIn.drainDet_spec
  rw [h]
  exact ⟨hspared, hdet, rfl⟩

/-- The drain of a buffer that holds one store of coherent memory, within a line, writes its bytes (R85). -/
theorem State.drainMember_single {s : State} {d : DetStore} (hdet : s.cur.det = [d]) (hloc : d.loc = false) (h : s.undisturbed 1) :
    s.drainMember.mem = s.mem.write d.pa d.data := by
  have hin : s.settledIn.cur.det = [d] := hdet
  have hstore : s.settledIn.performStores [d] = s.settledIn.leaseWriteBy d.vec d.pol d.pa d.data := if_neg (ne_true_of_eq_false hloc)
  have hdrain : s.settledIn.drainDet = (s.settledIn.leaseWriteBy d.vec d.pol d.pa d.data).emptied := by
    rw [← hstore, ← hin]
    refine s.settledIn.drainDet_cases.resolve_right fun hmany => ?_
    have hlong := hmany.1
    rw [hin] at hlong
    exact absurd hlong (by simp [Config.wcbEntries])
  obtain ⟨n, hmember⟩ := s.drainMember_eq
  rw [hmember]
  dsimp only
  rw [hdrain]
  exact State.leaseWriteBy_mem (s := s.settledIn) h d.vec d.pol d.pa d.data

theorem State.withThread_self {s : State} {f : State → State} (h : (f s).cur.id = s.cur.id) : s.withThread s.cur.id.ctxid f = f s := by
  unfold State.withThread
  rw [State.focus_self]
  dsimp only
  rw [← h, State.focus_self, Option.getD_some]

/-- PTS of a resident thread has no slot of an image to be written to (R220). -/
theorem State.putPtsSlot_running {s : State} (h : s.cur.st = .running) : s.putPtsSlot = s := by
  unfold State.putPtsSlot
  rw [decide_eq_true (Or.inl h)]

/-- The current thread past its collective fence: it sees memory as the drain left it, at the PTS of the node (R110, R111). -/
def State.fencePassed (s : State) (l level top : Nat) : State :=
  { s with cur := { s.cur with
    snap := s.mem, snapLoc := (s.launchOf l).store s.cur.id.place.cluster, wait := some (.epoch level true), stalled := false
    sys := { s.cur.sys with pts := top } } }

theorem State.fencePassed_eq {s : State} (hrun : s.cur.st = .running) (l level top : Nat) :
    (s.modThread s.cur.id.ctxid fun t => { t with
      snap := s.mem, snapLoc := (s.launchOf l).store t.id.place.cluster, wait := some (.epoch level true), stalled := false
      sys := { t.sys with pts := top } }).withThread s.cur.id.ctxid State.putPtsSlot = s.fencePassed l level top := by
  have hmod : (s.modThread s.cur.id.ctxid fun t => { t with
      snap := s.mem, snapLoc := (s.launchOf l).store t.id.place.cluster, wait := some (.epoch level true), stalled := false
      sys := { t.sys with pts := top } }) = s.fencePassed l level top := if_pos rfl
  have hslot : (s.fencePassed l level top).putPtsSlot = s.fencePassed l level top := State.putPtsSlot_running hrun
  rw [hmod]
  exact (State.withThread_self (s := s.fencePassed l level top) (by rw [hslot])).trans hslot

/-- The current thread, which is to try its instruction again. -/
def State.retries (s : State) : State := { s with cur := { s.cur with stalled := false } }

/-- A launch without the arrivals of some threads at a collective fence (R204; log entry 129). -/
def Launch.sentBack (key : Nat) (cs : List Nat) (x : Launch) : Launch :=
  { x with arrived := Tab.set x.arrived key (((Tab.get x.arrived key).getD []).filter fun c => !(cs.contains c)) }

section
variable {s : State} {key : Nat} (harrived : s.allArrived s.launch key = true) (hgot : Tab.get s.launch.arrived key = some [s.cur.id.ctxid])

include hgot in
/-- A launch at whose collective fence a thread has arrived is there. -/
theorem State.launch_ne_empty_of_arrived : s.launchOf s.cur.id.launch ≠ Launch.empty := by
  intro h
  rw [State.launch, h] at hgot
  cases hgot

include hgot in
/-- The thread sent back to its collective fence tries it again, and its node has no arrival (R204; log entry 129). -/
theorem State.sendBack_self : (s.sendBack s.cur.id.launch key [s.cur.id.ctxid]).cur = { s.cur with stalled := false } ∧
    (s.sendBack s.cur.id.launch key [s.cur.id.ctxid]).mem = s.mem ∧
    Tab.get (s.sendBack s.cur.id.launch key [s.cur.id.ctxid]).launch.arrived key = some [] := by
  have hback : s.sendBack s.cur.id.launch key [s.cur.id.ctxid] = s.retries.modLaunch s.cur.id.launch (Launch.sentBack key [s.cur.id.ctxid]) :=
    congrArg (fun u : State => u.modLaunch s.cur.id.launch (Launch.sentBack key [s.cur.id.ctxid])) (if_pos rfl)
  have hlaunch : (s.retries.modLaunch s.cur.id.launch (Launch.sentBack key [s.cur.id.ctxid])).launch = s.launch.sentBack key [s.cur.id.ctxid] :=
    State.launchOf_modLaunch (State.find_launchOf (State.launch_ne_empty_of_arrived hgot)) _ fun _ => rfl
  have hnone : [s.cur.id.ctxid].filter (fun c => !([s.cur.id.ctxid].contains c)) = [] := by simp
  rw [hback]
  refine ⟨rfl, rfl, ?_⟩
  rw [hlaunch, Launch.sentBack, tab_get_set_same, hgot, Option.getD_some, hnone]

include harrived hgot

/-- The node of one thread whose buffered stores meet a poisoned line sends it back to its collective fence (R204; log entry 129). -/
theorem detEpochDrain_sendsBack {va : Word} (hpoison : s.detPoison = some va) : ∃ t, exec (.detEpochDrain s.cur.id.launch key) s = .next t ∧
    t.cur.det = s.cur.det ∧ t.mem = s.mem ∧ t.cur.stalled = false ∧ Tab.get t.launch.arrived key = some [] := by
  have hx : exec (.detEpochDrain s.cur.id.launch key) s = execDetEpochDrain s.cur.id.launch key s := rfl
  have hof : s.launchOf s.cur.id.launch = s.launch := rfl
  have hback : ([s.cur.id.ctxid].filter fun c => ((s.focus c).bind fun u => u.detPoison).isSome) = [s.cur.id.ctxid] :=
    List.filter_cons_of_pos (by rw [State.focus_self, Option.bind_some, hpoison, Option.isSome_some])
  obtain ⟨hcur, hmem, hnone⟩ := State.sendBack_self hgot
  rw [hx, execDetEpochDrain]
  dsimp only
  rw [hof, hgot, Option.getD_some, hback, harrived]
  exact ⟨_, rfl, by rw [hcur], hmem, by rw [hcur], hnone⟩

/-- A node of one thread drains its stores, and the thread goes on with memory as the drain leaves it (R110, R111). -/
theorem detEpochDrain_drains (hrun : s.cur.st = .running)
    (hnode : (s.threads.filter fun t => decide (t.id.launch = s.cur.id.launch) && [s.cur.id.ctxid].contains t.id.ctxid) = [s.cur])
    (hclean : s.detPoison = none) : ∃ t, exec (.detEpochDrain s.cur.id.launch key) s = .next t ∧ t.cur.det = [] ∧ t.mem = s.drainMember.mem ∧
      t.cur.snap = t.mem ∧ t.cur.wait = some (.epoch (key / 2 ^ 64 % 8) true) ∧ t.cur.g = s.cur.g := by
  have hx : exec (.detEpochDrain s.cur.id.launch key) s = execDetEpochDrain s.cur.id.launch key s := rfl
  have hof : s.launchOf s.cur.id.launch = s.launch := rfl
  have hback : ([s.cur.id.ctxid].filter fun c => ((s.focus c).bind fun u => u.detPoison).isSome) = [] :=
    List.filter_cons_of_neg (by rw [State.focus_self, Option.bind_some, hclean]; decide)
  obtain ⟨hspared, hdet, hst⟩ := s.drainMember_spec
  have hid : s.drainMember.cur.id = s.cur.id := congrArg Spared.id hspared
  have hg : s.drainMember.cur.g = s.cur.g := congrArg Spared.g hspared
  rw [hx, execDetEpochDrain]
  dsimp only
  rw [hof, hgot, Option.getD_some, hback, harrived, hnode, byLthr, List.mergeSort_singleton, List.map_singleton]
  simp only [List.foldl_cons, List.foldl_nil]
  rw [State.withThread_self hid]
  generalize s.drainMember = u at hdet hst hid hg ⊢
  have hsettled : u.withThread s.cur.id.ctxid State.settlePts = u.settlePts := hid ▸ State.withThread_self rfl
  rw [hsettled]
  have hpassed := State.fencePassed_eq (s := u.settlePts) (hst.trans hrun) s.cur.id.launch (key / 2 ^ 64 % 8)
  have hctx : u.settlePts.cur.id.ctxid = s.cur.id.ctxid := congrArg Ident.ctxid hid
  rw [hctx] at hpassed
  dsimp only at hpassed
  rw [if_neg (by decide), if_neg (by decide), stepOr_some, finish_done, hpassed]
  exact ⟨_, rfl, hdet, rfl, rfl, rfl, hg⟩

end

end Sys2Proof.Machine

namespace Sys2Proof.Machine

/-- CAUSE of a debug stop: the breakpoint trap with DETAIL 2 (R26, R227). -/
theorem Trap.causeWord_stop (epc badva resume : Word) : (⟨false, 0x06, 2, epc, badva, resume⟩ : Trap).causeWord = 0x206 := by
  have hword : (0 : Word) ||| (2 : BitVec 8).setWidth 64 <<< 8 ||| (0x06 : BitVec 8).setWidth 64 = 0x206 := by decide
  rw [Trap.causeWord, if_neg Bool.false_ne_true]
  exact hword

/-- Settles O60: a stop and a trap that waited are delivered, a checkpoint joins its partition's, a press that fails again traps with its accumulator
NaN, markers and messages act on the launch's rings, barriers and fences, and a collective fence of one thread drains its stores or sends it back. -/
theorem eventsBetweenInstructions : Obligations.EventsBetweenInstructions := by
  unfold Obligations.EventsBetweenInstructions
  rintro s c rfl
  refine ⟨fun hrun hq hsave => ⟨fun htrap hstop => ?_, fun k htrap hvs => ?_⟩, fun p hrun hdue hp => ?_,
    fun q a hrun hq hacc => ⟨?_, fun h hsave hshare ha => exec_pressErrorRerun_again hrun hq hacc hsave hshare ha⟩,
    fun q k i hrun hq hop hmay hl hid => ⟨_, exec_postMarkerFire hrun hq hop hmay, State.firePost_posts hl hid⟩, fun l b e node pts hin he _ => ?_,
    fun l b node gen ts hin hl hid => barrierComplete_releases hin hl hid, fun l key n hin hl hid => barrierEpoch_counts hin hl hid,
    fun key hrun harrived hgot hnode => ⟨fun va hpoison => detEpochDrain_sendsBack harrived hgot hpoison, fun hclean => ?_⟩⟩
  · obtain ⟨t, ht, htrapped, hnone⟩ := exec_retiredCountStop hrun hq hsave htrap hstop
    exact ⟨t, ht, htrapped.cause.trans (Trap.causeWord_stop _ _ _), htrapped.badva, htrapped.state, htrapped.resume, hnone, htrapped.g⟩
  · obtain ⟨t, ht, htrapped, hnone⟩ := exec_trapDelivery hrun hq hsave htrap
    refine ⟨t, ht, htrapped.cause.trans ?_, htrapped.badva, htrapped.state, htrapped.resume, hnone, htrapped.g⟩
    rw [Trap.causeWord, hvs, if_neg Bool.false_ne_true]
    exact congrArg (· ||| k.code.setWidth 64) BitVec.zero_or
  · obtain ⟨t, ht, hpart, hcur, hmem⟩ := exec_checkpoint hrun hdue hp
    exact ⟨t, _, _, ht, hpart, rfl, rfl, rfl, rfl, rfl, rfl, hcur, hmem⟩
  · rw [exec_pressErrorRerun hrun hq hacc, if_neg Bool.false_ne_true, finish_done]
  · obtain ⟨t, ht, hpc, hmem, hbar⟩ := barrierArrival_counts hin he
    refine ⟨t, ht, hpc, hmem, hbar.trans (congrArg some ?_)⟩
    rw [BarInst.counted]
    split
    next hfull => exact (if_neg (Nat.not_lt.2 hfull)).symm
    next hless => exact (if_pos (Nat.not_le.1 hless)).symm
  · obtain ⟨t, ht, hdet, hmem, hsnap, hwait, hg⟩ := detEpochDrain_drains harrived hgot hrun hnode hclean
    exact ⟨t, ht, hdet, hmem, hsnap, hwait, hg, fun d hone hloc hquiet _ => hmem.trans (State.drainMember_single hone hloc hquiet)⟩

end Sys2Proof.Machine

namespace Sys2Proof.Machine

/-! ### What the end of a thread leaves (R99, R145, R151, R158, R225) -/

/-- Who the current thread is, and what its entry in the thread table is found by: the memory of the module, where each partition has its table, and
the partition of each launch (R220). -/
def State.tables (s : State) : Ident × (List Nat × Cxl) × List (Nat × Word) × List (Nat × Nat) :=
  (s.cur.id, s.board, s.parts.map fun p => (p.idx, p.k.ttbase), s.launches.map fun l => (l.id, l.part))

/-- Those, with the current thread's queue, the cores, and the commands of the engines and banks: what neither a store nor a rebase changes. -/
def State.standing (s : State) : (Ident × (List Nat × Cxl) × List (Nat × Word) × List (Nat × Nat)) × List QEntry × Tab Core ×
    List (Nat × Nat × Nat × Bool) × List BankCmd :=
  (s.tables, s.queue, s.cores, s.cmds.map Cmd.tag, s.banks)

/-- The partition of a launch is known from the launches' identifiers and partitions. -/
theorem State.launchOf_part (s : State) (i : Nat) :
    (s.launchOf i).part = (((s.launches.map fun l => (l.id, l.part)).find? fun x => x.1 == i).map fun x => x.2).getD 0 := by
  rw [State.launchOf, List.find?_map]
  have hkey : ((fun x : Nat × Nat => x.1 == i) ∘ fun l : Launch => (l.id, l.part)) = fun l => l.id == i := rfl
  rw [hkey]
  cases s.launches.find? fun l => l.id == i <;> rfl

/-- The place of a partition's thread table is known from the partitions' indexes and tables. -/
theorem State.part?_ttbase (s : State) (i : Nat) :
    (s.part? i).map (fun p => p.k.ttbase) = ((s.parts.map fun p => (p.idx, p.k.ttbase)).find? fun x => x.1 == i).map fun x => x.2 := by
  rw [State.part?, List.find?_map, Option.map_map]
  rfl

/-- A thread's entry in the thread table stays in memory as long as its tables stay where they are (R220). -/
theorem State.entry_of_tables {s t : State} (h : t.tables = s.tables) {p : Part} {c : Nat} (hp : s.curPart = some p)
    (hthere : s.isMemory (p.tableEntry c) = true) : ∃ q, t.curPart = some q ∧ t.isMemory (q.tableEntry c) = true := by
  simp only [State.tables, Prod.mk.injEq] at h
  obtain ⟨hid, hboard, hparts, hlaunches⟩ := h
  have hpart : t.launch.part = s.launch.part := by
    rw [State.launch, State.launch, State.launchOf_part, State.launchOf_part, hlaunches, hid]
  have hbase := (t.part?_ttbase s.launch.part).trans ((congrArg (fun l : List (Nat × Word) => (l.find? fun x => x.1 == s.launch.part).map fun x => x.2)
    hparts).trans (s.part?_ttbase s.launch.part).symm)
  rw [State.curPart] at hp
  rw [hp, Option.map_some] at hbase
  obtain ⟨q, hq, htable⟩ := Option.map_eq_some_iff.1 hbase
  refine ⟨q, by rw [State.curPart, hpart, hq], ?_⟩
  rw [Part.tableEntry, htable, ← Part.tableEntry, State.isMemory_of_board hboard]
  exact hthere

@[simp] theorem State.setLine_standing (s : State) (l : Nat) (r : Line) : (s.setLine l r).standing = s.standing := rfl

@[simp] theorem State.cacheWrite_standing (s : State) (pa : Nat) (bs : List Byte) : (s.cacheWrite pa bs).standing = s.standing :=
  (congrArg State.standing (s.cacheWrite_exceptMem pa bs) :)

@[simp] theorem State.sysStore_standing (s : State) (pa : Nat) (bs : List Byte) : (s.sysStore pa bs).standing = s.standing :=
  (congrArg State.standing (s.sysStore_exceptMem pa bs) :)

/-- A change of a partition that leaves its thread table where it is. -/
theorem State.modPart_standing (s : State) (i : Nat) {f : Part → Part} (hf : ∀ p, (f p).idx = p.idx ∧ (f p).k.ttbase = p.k.ttbase) :
    (s.modPart i f).standing = s.standing := by
  have hparts : (s.modPart i f).parts.map (fun p => (p.idx, p.k.ttbase)) = s.parts.map fun p => (p.idx, p.k.ttbase) := by
    rw [State.modPart_parts, List.map_map]
    refine List.map_congr_left fun p _ => ?_
    rw [Function.comp_apply]
    split
    · rw [(hf p).1, (hf p).2]
    · rfl
  exact congrArg (fun x : List (Nat × Word) => ((s.cur.id, s.board, x, s.launches.map fun l => (l.id, l.part)), s.queue, s.cores, s.cmds.map Cmd.tag,
    s.banks)) hparts

/-- A change of a launch that leaves it in its partition. -/
theorem State.modLaunch_standing (s : State) (i : Nat) {f : Launch → Launch} (hf : ∀ l, (f l).id = l.id ∧ (f l).part = l.part) :
    (s.modLaunch i f).standing = s.standing := by
  have hlaunches : (s.modLaunch i f).launches.map (fun l => (l.id, l.part)) = s.launches.map fun l => (l.id, l.part) := by
    rw [State.modLaunch_launches, List.map_map]
    refine List.map_congr_left fun l _ => ?_
    rw [Function.comp_apply]
    split
    · rw [(hf l).1, (hf l).2]
    · rfl
  exact congrArg (fun x : List (Nat × Nat) => ((s.cur.id, s.board, s.parts.map fun p => (p.idx, p.k.ttbase), x), s.queue, s.cores, s.cmds.map Cmd.tag,
    s.banks)) hlaunches

/-- A change of a thread that leaves its identity and its queue. -/
theorem State.modThread_standing (s : State) (c : Nat) {f : Thread → Thread} (hf : ∀ t, (f t).id = t.id ∧ (f t).vec.queue = t.vec.queue) :
    (s.modThread c f).standing = s.standing := by
  unfold State.modThread
  split
  · exact congrArg (fun x : Ident × List QEntry => ((x.1, s.board, s.parts.map fun p => (p.idx, p.k.ttbase), s.launches.map fun l => (l.id, l.part)), x.2,
      s.cores, s.cmds.map Cmd.tag, s.banks)) 
      (show ((f s.cur).id, (f s.cur).vec.queue) = (s.cur.id, s.cur.vec.queue) by rw [(hf s.cur).1, (hf s.cur).2])
  · rfl

theorem State.shiftTs_standing (s : State) (p : Part) (up down : Nat) : (s.shiftTs p up down).standing = s.standing := by
  have hmap : ∀ {α β : Type} (l : List α) (f : α → α) (g : α → β), (∀ x, g (f x) = g x) → (l.map f).map g = l.map g :=
    fun l f g h => by rw [List.map_map]; exact List.map_congr_left fun x _ => h x
  unfold State.standing State.tables State.shiftTs State.queue
  dsimp only
  rw [hmap s.parts _ _ fun x => by split <;> rfl, hmap s.launches _ _ fun x => by split <;> rfl, hmap s.cmds _ _ fun x => by split <;> rfl]
  split <;> rfl

@[simp] theorem State.rebase_standing (s : State) (p : Nat) : (s.rebase p).standing = s.standing := by
  unfold State.rebase
  split
  · rfl
  · exact (State.modPart_standing _ _ fun _ => ⟨by rfl, by rfl⟩).trans (s.shiftTs_standing _ _ _)

@[simp] theorem State.rebaseFor_standing (s : State) (p ts : Nat) : (s.rebaseFor p ts).standing = s.standing := by
  unfold State.rebaseFor
  split
  · exact s.rebase_standing p
  · rfl

@[simp] theorem State.rebaseWith_standing (s : State) (p high pts : Nat) : (s.rebaseWith p high pts).2.standing = s.standing := by
  rw [State.rebaseWith_state, State.rebaseFor_standing]

@[simp] theorem State.record_standing (s : State) (p : Nat) (o : OldLine) (f : Debug → Option Debug) : (s.record p o f).standing = s.standing := by
  unfold State.record
  split
  · rfl
  · split
    · rfl
    · dsimp only
      split
      · exact State.modPart_standing _ _ fun _ => ⟨by rfl, by rfl⟩
      · split
        · exact (State.cacheWrite_standing _ _ _).trans (State.modPart_standing _ _ fun _ => ⟨by rfl, by rfl⟩)
        · exact State.modPart_standing _ _ fun _ => ⟨by rfl, by rfl⟩

@[simp] theorem State.captureOld_standing (s : State) (launch : Nat) (o : OldLine) : (s.captureOld launch o).standing = s.standing := by
  unfold State.captureOld
  split
  · rfl
  · rw [State.record_standing, State.record_standing]

@[simp] theorem State.storeAt_standing (s : State) (launch cl pa : Nat) (bs : List Byte) (ts : Nat) :
    (s.storeAt launch cl pa bs ts).standing = s.standing := by
  have h : (s.storeAt launch cl pa bs ts).standing = ((s.capture launch (pa / 128)).cacheWrite pa bs).standing := rfl
  rw [h, State.cacheWrite_standing, State.capture, State.captureOld_standing]

@[simp] theorem State.unitWrite_standing (s : State) (p launch pts : Nat) (ws : List (Nat × List Byte)) :
    (s.unitWrite p launch pts ws).2.standing = s.standing := by
  unfold State.unitWrite
  dsimp only
  refine List.foldlRecOn _ _ (motive := fun t : State => t.standing = s.standing) (s.rebaseFor_standing _ _) fun t ht w _ => ?_
  rw [State.setLine_standing, State.storeAt_standing, ht]

theorem State.leaseWriteBy_standing (s : State) (vec : Bool) (pol : BitVec 3) (pa : Nat) (bs : List Byte) :
    (s.leaseWriteBy vec pol pa bs).standing = s.standing := by
  unfold State.leaseWriteBy
  dsimp only
  have hu := s.rebaseFor_standing s.launch.part (max s.cur.sys.pts ((s.line (pa / 128)).rts + 1))
  generalize s.rebaseFor s.launch.part (max s.cur.sys.pts ((s.line (pa / 128)).rts + 1)) = u at hu ⊢
  have hw : (if vec = true then u.evictL1 s.cur.id.place.cluster (pa / 128) else u).standing = s.standing := by split <;> exact hu
  generalize (if vec = true then u.evictL1 s.cur.id.place.cluster (pa / 128) else u) = w at hw ⊢
  generalize max w.cur.sys.pts ((w.line (pa / 128)).rts + 1) = ts
  have hv := w.storeAt_standing w.cur.id.launch s.cur.id.place.cluster pa bs ts
  generalize w.storeAt w.cur.id.launch s.cur.id.place.cluster pa bs ts = v at hv ⊢
  rw [(State.install_copies _ _ _ _ _ _).choose_spec]
  exact hv.trans hw

theorem State.locWriteAt_standing (s : State) (launch cl off : Nat) (bs : List Byte) : (s.locWriteAt launch cl off bs).standing = s.standing := by
  unfold State.locWriteAt
  dsimp only
  refine (State.modLaunch_standing _ _ fun _ => ⟨by rfl, by rfl⟩).trans ?_
  exact List.foldlRecOn (linesOf off bs.length) _ (motive := fun t : State => t.standing = s.standing) rfl
    fun t ht _ _ => (t.captureOld_standing _ _).trans ht

theorem State.seeLoc_standing (s : State) (off n : Nat) : (s.seeLoc off n).standing = s.standing := by
  unfold State.seeLoc
  split <;> rfl

/-! ### Locks that pass (R158) -/

theorem State.rmwWrite_standing (s : State) (vec : Bool) (w : Where) (n v : Nat) : (s.rmwWrite vec w n v).standing = s.standing := by
  cases w with
  | phys pa => exact s.leaseWriteBy_standing vec s.policy pa _
  | loc off => exact (State.locWriteAt_standing _ _ _ _ _).trans (s.seeLoc_standing off n)
  | host pa => rfl
  | bad k d => rfl

theorem State.keyWrite_standing (s : State) (k v : Nat) : (s.keyWrite k v).standing = s.standing := by
  unfold State.keyWrite
  split
  · exact s.rmwWrite_standing _ _ _ _
  · split
    · exact s.rmwWrite_standing _ _ _ _
    · exact s.locWriteAt_standing _ _ _ _

theorem State.handOver_standing (s : State) (k : Nat) (code : Word) : (s.handOver k code).standing = s.standing := by
  unfold State.handOver
  dsimp only
  split
  · exact s.keyWrite_standing _ _
  · exact (State.modThread_standing _ _ fun _ => ⟨by rfl, by rfl⟩).trans (s.keyWrite_standing _ _)

theorem State.inherit_standing (s : State) : s.inherit.standing = s.standing := by
  obtain ⟨r, e, n, a, k, os, h⟩ := s.inherit_eq
  rw [h]
  rfl

theorem State.passLocks_standing (s : State) : s.passLocks.standing = s.standing := by
  unfold State.passLocks
  dsimp only
  rw [State.inherit_standing]
  refine List.foldlRecOn _ _ (motive := fun t : State => t.standing = s.standing) rfl fun t ht l _ => ?_
  split
  · exact (t.handOver_standing _ _).trans ht
  · exact ht

/-! ### The end of a launch (R145, R151) -/

theorem State.sysRmw_standing {s t : State} {l : Launch} {va : Word} {f : Word → Word} (h : s.sysRmw l va f = .ok t) : t.standing = s.standing := by
  unfold State.sysRmw at h
  split at h
  · split at h
    · cases h
    · cases h
      exact (State.unitWrite_standing _ _ _ _ _).trans (s.rebaseWith_standing _ _ _)
  all_goals cases h

theorem State.closeQueues_standing (s : State) (id stage : Nat) : (s.closeQueues id stage).standing = s.standing := by
  unfold State.closeQueues
  refine List.foldlRecOn _ _ (motive := fun t : State => t.standing = s.standing) rfl fun t ht q _ => ?_
  split
  · next u hu => exact (State.sysRmw_standing hu).trans ht
  · exact ht

theorem State.drainLeft_standing (s : State) (id : Nat) : (s.drainLeft id).standing = s.standing := by
  unfold State.drainLeft
  refine List.foldlRecOn _ _ (motive := fun t : State => t.standing = s.standing) rfl fun t ht d _ => ?_
  dsimp only
  split
  · exact ht
  · exact (State.modLaunch_standing _ _ fun _ => ⟨by rfl, by rfl⟩).trans ((State.unitWrite_standing t _ _ _ _).trans ht)

theorem State.hostEvent_ite_standing (s : State) (p : Prop) [Decidable p] (e : HostEv) : (if p then s.hostEvent e else s).standing = s.standing := by
  split <;> rfl

theorem State.endLaunch_standing (s : State) (id : Nat) : (s.endLaunch id).standing = s.standing := by
  unfold State.endLaunch
  dsimp only
  have hdrain := s.drainLeft_standing id
  generalize s.drainLeft id = u at hdrain ⊢
  have hover := (u.modLaunch_standing id (f := fun x => { x with finished := true, stores := [], allocs := [], bars := [], rings := [], arrived := []
                                                                 snap := [], left := [] }) fun _ => ⟨by rfl, by rfl⟩).trans hdrain
  rw [State.hostEvent_ite_standing]
  split
  · exact hover
  · split
    · next t ht => exact (State.sysRmw_standing ht).trans hover
    · exact (State.modPart_standing _ _ fun _ => ⟨by rfl, by rfl⟩).trans hover

theorem State.countEnded_standing (s : State) (id stage n : Nat) : (s.countEnded id stage n).standing = s.standing := by
  have hcount := s.modLaunch_standing id (f := fun l => { l with ended := bump l.ended stage n }) fun _ => ⟨by rfl, by rfl⟩
  have hclose : ∀ (u : State) (b : Bool), (if b = true then u.closeQueues id stage else u).standing = u.standing := fun u b => by
    split
    · exact u.closeQueues_standing id stage
    · rfl
  unfold State.countEnded
  dsimp only
  split
  · exact (State.endLaunch_standing _ _).trans ((hclose _ _).trans hcount)
  · exact (hclose _ _).trans hcount

end Sys2Proof.Machine

namespace Sys2Proof.Machine

/-! ### The lanes of a thread that leaves (R11, R154, R155) -/

theorem firstBest_mem (e : Nat → Nat) {l : List Nat} {d : Nat} (h : l.foldl (firstBest e) none = some d) : d ∈ l := by
  cases l using List.reverseRecOn with
  | nil => cases h
  | append_singleton l c =>
    obtain ⟨x, hx, -, -, hin⟩ := foldl_firstBest_concat e l c
    cases Option.some.inj (hx.symm.trans h)
    rcases hin with hin | ⟨rfl, -⟩
    · exact List.mem_append_left _ hin
    · exact List.mem_append_right _ List.mem_cons_self

/-- The lanes go to a context that lent them or waits for them. -/
theorem State.nextForLanes_mem {s : State} {k : Core} {d : Nat} (h : s.nextForLanes k = some d) : d ∈ k.lenders ∨ d ∈ k.waiters := by
  cases hback : s.lenderBack k with
  | none =>
    rw [State.nextForLanes_waiters hback] at h
    exact .inr (firstBest_mem _ h)
  | some l =>
    cases Option.some.inj ((State.nextForLanes_lender hback).symm.trans h)
    exact .inl (List.mem_of_find?_eq_some hback)

theorem State.nextForLanes_without (s : State) (k : Core) (c : Nat) : s.nextForLanes (k.without c) ≠ some c := fun h => by
  rcases State.nextForLanes_mem h with hin | hin <;> exact absurd rfl (of_decide_eq_true (List.mem_filter.mp hin).2)

theorem Core.without_holder (k : Core) (c : Nat) : (k.without c).holder ≠ some c := by
  unfold Core.without
  dsimp only
  split
  · exact nofun
  · assumption

/-- A thread that has released the lanes is not the one that receives them. -/
theorem State.releaseLanes_holder (s : State) : (s.releaseLanes.core s.cur.id.place).holder ≠ some s.cur.id.ctxid := by
  unfold State.releaseLanes State.passLanes
  dsimp only
  rw [State.setCore_core]
  split
  · next d _ hnext =>
    rw [State.setCore_core]
    intro hgiven
    exact State.nextForLanes_without _ _ _ (hnext.trans hgiven)
  · rw [State.setCore_core]
    exact Core.without_holder _ _

/-! ### The commands of a killed thread (R112, R225, R358) -/

theorem State.sendEnd_tables (s : State) (c : Cmd) : (s.sendEnd c).tables = s.tables := by
  obtain ⟨k, h⟩ := s.sendEnd_link c
  rw [h]
  rfl

theorem State.sendEnd_cmds (s : State) (c : Cmd) : (s.sendEnd c).cmds = s.cmds := by
  obtain ⟨k, h⟩ := s.sendEnd_link c
  rw [h]

theorem State.tables_of_standing {s t : State} (h : t.standing = s.standing) : t.tables = s.tables := congrArg Prod.fst h

theorem State.advanceXfd_standing (s : State) (owner ch : Nat) : (s.advanceXfd owner ch).standing = s.standing := by
  unfold State.advanceXfd
  exact State.modThread_standing _ _ fun _ => ⟨by rfl, by rfl⟩

theorem State.endCmd_tables (s : State) (c : Cmd) : (s.endCmd c).tables = s.tables := by
  rw [State.endCmd, State.tables_of_standing (State.advanceXfd_standing _ _ _)]
  rfl

/-- One command of a killed context cancelled. -/
def State.cancelCmd (s : State) (c : Cmd) : State := ((s.cancelLines c.key).sendEnd c).endCmd c

theorem State.cancelCmds_eq (s : State) (owner : Nat) :
    s.cancelCmds owner = (s.cmds.filter fun c => decide (c.owner = owner) && !c.ended).foldl State.cancelCmd s := rfl

theorem State.cancelCmd_tables (s : State) (c : Cmd) : (s.cancelCmd c).tables = s.tables :=
  (State.endCmd_tables _ _).trans (State.sendEnd_tables (s.cancelLines c.key) c)

/-- A command that has not ended once another is cancelled is a command of before, and not the one that was cancelled. -/
theorem State.cancelCmd_live {s : State} {c y : Cmd} (h : y ∈ (s.cancelCmd c).cmds) (hlive : y.ended = false) : y ∈ s.cmds ∧ y.key ≠ c.key := by
  rw [State.cancelCmd, State.endCmd_cmds] at h
  obtain ⟨x, hx, hxy⟩ := List.mem_map.mp h
  rw [State.sendEnd_cmds] at hx
  split at hxy
  · rw [← hxy] at hlive
    cases hlive
  · next hkey =>
    subst hxy
    exact ⟨hx, hkey⟩

theorem foldl_cancelCmd_live {l : List Cmd} {s : State} {y : Cmd} (h : y ∈ (l.foldl State.cancelCmd s).cmds) (hlive : y.ended = false) :
    y ∈ s.cmds ∧ ∀ c ∈ l, y.key ≠ c.key := by
  induction l generalizing s with
  | nil => exact ⟨h, nofun⟩
  | cons c l ih =>
    obtain ⟨hin, hkeys⟩ := ih h
    obtain ⟨hbefore, hkey⟩ := State.cancelCmd_live hin hlive
    exact ⟨hbefore, List.forall_mem_cons.mpr ⟨hkey, hkeys⟩⟩

/-- Every command of a context has ended once they are cancelled (R225). -/
theorem State.cancelCmds_ended {s : State} {owner : Nat} {y : Cmd} (h : y ∈ (s.cancelCmds owner).cmds) (howner : y.owner = owner) :
    y.ended = true := by
  by_contra hnot
  have hlive := eq_false_of_ne_true hnot
  rw [State.cancelCmds_eq] at h
  obtain ⟨hin, hkeys⟩ := foldl_cancelCmd_live h hlive
  exact hkeys y (List.mem_filter.mpr ⟨hin, by rw [howner, hlive, decide_eq_true rfl]; rfl⟩) rfl

theorem State.cancelCmds_tables (s : State) (owner : Nat) : (s.cancelCmds owner).tables = s.tables := by
  rw [State.cancelCmds_eq]
  exact List.foldlRecOn _ _ (motive := fun t : State => t.tables = s.tables) rfl fun t ht c _ => (t.cancelCmd_tables c).trans ht

theorem State.cancelBanks_ended {s : State} {owner : Nat} {y : BankCmd} (h : y ∈ (s.cancelBanks owner).banks) (howner : y.owner = owner) :
    y.ended = true := by
  obtain ⟨k, -, hk⟩ := List.mem_map.mp h
  subst hk
  split
  · rfl
  · next hnot =>
    rw [if_neg hnot] at howner
    by_contra hlive
    exact hnot ⟨howner, by rw [eq_false_of_ne_true hlive]; rfl⟩

/-! ### What a kill does before the thread is gone (R112, R225) -/

/-- Every command and bank command of a context has ended. -/
def State.overFor (s : State) (c : Nat) : Prop := (∀ x ∈ s.cmds, x.owner = c → x.ended = true) ∧ ∀ x ∈ s.banks, x.owner = c → x.ended = true

/-- A killed thread's commands cancelled, its lineages freed, its share given back, and the replay of its loop stopped. -/
def State.stripped (s : State) : State :=
  let c := s.cur.id.ctxid
  let s := (s.cancelCmds c).cancelBanks c
  let s := s.ownLins.foldl (fun (s : State) n => s.dropLin n.1) s
  let s := if s.cur.share.isSome then s.detach else s
  match s.cur.loop with
  | some l => (s.freeSlot l.slot).setLoop none (if s.cur.sys.lstate = 2 then 0 else s.cur.sys.lstate) s.cur.sys.lwhy
  | none => s

theorem State.kill_eq (s : State) : s.kill = s.stripped.gone true := rfl

theorem State.detach_spares (s : State) : s.detach.tables = s.tables ∧ s.detach.cmds = s.cmds ∧ s.detach.banks = s.banks := by
  unfold State.detach
  dsimp only
  split <;> exact ⟨rfl, rfl, rfl⟩

theorem State.stripped_spares (s : State) : s.stripped.tables = s.tables ∧ s.stripped.overFor s.cur.id.ctxid := by
  have hcancelled : ((s.cancelCmds s.cur.id.ctxid).cancelBanks s.cur.id.ctxid).overFor s.cur.id.ctxid :=
    ⟨fun _ hx ho => State.cancelCmds_ended hx ho, fun _ hx ho => State.cancelBanks_ended hx ho⟩
  have htables : ((s.cancelCmds s.cur.id.ctxid).cancelBanks s.cur.id.ctxid).tables = s.tables := s.cancelCmds_tables _
  unfold State.stripped
  dsimp only
  generalize (s.cancelCmds s.cur.id.ctxid).cancelBanks s.cur.id.ctxid = u at hcancelled htables ⊢
  have hlins : ∃ v : State, u.ownLins.foldl (fun (s : State) n => s.dropLin n.1) u = v ∧ v.tables = s.tables ∧ v.overFor s.cur.id.ctxid :=
    ⟨_, rfl, List.foldlRecOn u.ownLins _ (motive := fun v : State => v.tables = s.tables ∧ v.overFor s.cur.id.ctxid) ⟨htables, hcancelled⟩
      fun v hv _ _ => hv⟩
  obtain ⟨v, hv, hvtables, hvover⟩ := hlins
  rw [hv]
  have hshare : ∃ w : State, (if v.cur.share.isSome then v.detach else v) = w ∧ w.tables = s.tables ∧ w.overFor s.cur.id.ctxid := by
    obtain ⟨hdt, hdc, hdb⟩ := v.detach_spares
    split
    · exact ⟨_, rfl, hdt.trans hvtables, by rw [State.overFor, hdc, hdb]; exact hvover⟩
    · exact ⟨_, rfl, hvtables, hvover⟩
  obtain ⟨w, hw, hwspares⟩ := hshare
  rw [hw]
  split
  · exact hwspares
  · exact hwspares

/-! ### The thread is gone (R112, R225, R358, R368) -/

/-- The state of a thread that is gone before its table entry is written: its locks and lanes have passed, its sends and its ended commands are
forgotten, and its launch has its last timestamp and what it leaves. -/
def State.forgotten (s : State) (killed : Bool) : State :=
  let id := s.cur.id
  let s := (s.setPts s.ptsNow).passLocks.releaseLanes
  let s : State :=
    { s with
      sends := s.sends.map (fun x => if x.owner = id.ctxid then { x with live := false } else x)
      cmds := s.cmds.filter (fun x => decide (x.owner ≠ id.ctxid) || !x.ended)
      banks := s.banks.filter (fun x => decide (x.owner ≠ id.ctxid) || !x.ended) }
  s.modLaunch id.launch fun l =>
    { l with
      arrived := (l.arrived.map fun a => (a.1, a.2.filter fun c => decide (c ≠ id.ctxid))).filter (fun a => !a.2.isEmpty)
      finalPts := max l.finalPts s.cur.sys.pts
      dead := if killed then l.dead ++ [(id.stage, id.lthr)] else l.dead
      left := if killed || s.cur.det.isEmpty then l.left else Tab.set l.left (id.stage * 2 ^ 32 + id.lthr) s.cur.det }

theorem State.gone_forgotten (s : State) : s.gone true =
    ((s.forgotten true).freeEntry s.cur.id.ctxid).seq fun t => done (t.freed.countEnded s.cur.id.launch s.cur.id.stage 1) := rfl

theorem State.freeEntry_writes {s : State} {p : Part} {c : Nat} (hp : s.curPart = some p) (hthere : s.isMemory (p.tableEntry c) = true) :
    s.freeEntry c = done (s.sysStore (p.tableEntry c) (natBytes 8 (setBits (s.mem.word (p.tableEntry c)) 60 3 TState.free.code).toNat)) := by
  rw [State.freeEntry, hp]
  exact State.putTState_writes hthere .free

/-- A thread that is gone has left its tables where they are, no command, and not the lanes. -/
theorem State.forgotten_spares {s : State} (hover : s.overFor s.cur.id.ctxid) : (s.forgotten true).tables = s.tables ∧
    ((s.forgotten true).core s.cur.id.place).holder ≠ some s.cur.id.ctxid ∧ (∀ x ∈ (s.forgotten true).cmds, x.owner ≠ s.cur.id.ctxid) ∧
    ∀ x ∈ (s.forgotten true).banks, x.owner ≠ s.cur.id.ctxid := by
  have hlocks : (s.setPts s.ptsNow).passLocks.standing = s.standing := State.passLocks_standing _
  unfold State.forgotten
  dsimp only
  generalize (s.setPts s.ptsNow).passLocks = u at hlocks ⊢
  have htables : u.tables = s.tables := State.tables_of_standing hlocks
  have hcmds : u.cmds.map Cmd.tag = s.cmds.map Cmd.tag := congrArg (fun x => x.2.2.2.1) hlocks
  have hbanks : u.banks = s.banks := congrArg (fun x => x.2.2.2.2) hlocks
  have hid : u.cur.id = s.cur.id := congrArg Prod.fst htables
  have hholder := u.releaseLanes_holder
  obtain ⟨ks, hks⟩ := u.releaseLanes_cores
  rw [hks] at hholder ⊢
  refine ⟨?_, ?_, fun x hx howner => ?_, fun x hx howner => ?_⟩
  · exact (State.tables_of_standing (State.modLaunch_standing _ _ fun _ => ⟨by rfl, by rfl⟩)).trans htables
  · rw [hid] at hholder
    exact hholder
  · obtain ⟨hin, hkept⟩ := List.mem_filter.mp hx
    obtain ⟨y, hy, htag⟩ := cmd_of_tags hcmds.symm hin
    have hyowner : y.owner = x.owner := congrArg (fun z => z.2.1) htag
    have hended : x.ended = true := (congrArg (fun z => z.2.2.2) htag).symm.trans (hover.1 y hy (hyowner.trans howner))
    rw [howner, hended, decide_eq_false (fun h => h rfl)] at hkept
    cases hkept
  · obtain ⟨hin, hkept⟩ := List.mem_filter.mp hx
    rw [howner, hover.2 x (hbanks ▸ hin) howner, decide_eq_false (fun h => h rfl)] at hkept
    cases hkept

/-- What an ended thread with a table entry in memory leaves (R204, R225): a free context with an empty queue, which neither holds the lanes of its core
nor has a command. -/
structure State.EndedAs (s t : State) : Prop where
  st : t.cur.st = .free
  queue : t.cur.vec.queue = []
  holder : (t.core s.cur.id.place).holder ≠ some s.cur.id.ctxid
  cmds : ∀ x ∈ t.cmds, x.owner ≠ s.cur.id.ctxid
  banks : ∀ x ∈ t.banks, x.owner ≠ s.cur.id.ctxid

/-- What a thread leaves once its context is free and its launch has counted it. -/
theorem State.freed_ends {s u v : State} (hstanding : v.standing = u.standing) (hholder : (u.core s.cur.id.place).holder ≠ some s.cur.id.ctxid)
    (hcmds : ∀ x ∈ u.cmds, x.owner ≠ s.cur.id.ctxid) (hbanks : ∀ x ∈ u.banks, x.owner ≠ s.cur.id.ctxid) (l g : Nat) :
    s.EndedAs (v.freed.countEnded l g 1) := by
  have hcount := v.freed.countEnded_standing l g 1
  have hst := v.freed.countEnded_st l g 1
  generalize v.freed.countEnded l g 1 = t at hcount hst ⊢
  simp only [State.standing, Prod.mk.injEq] at hcount hstanding
  obtain ⟨-, hqueue, hcores, htags, hbanksame⟩ := hcount
  obtain ⟨-, -, hcores', htags', hbanksame'⟩ := hstanding
  refine ⟨hst, hqueue, ?_, fun x hx howner => ?_, fun x hx => hbanks x (hbanksame' ▸ hbanksame ▸ hx)⟩
  · rw [State.core, hcores, State.freed]
    dsimp only
    rw [hcores']
    exact hholder
  · obtain ⟨y, hy, htag⟩ := cmd_of_tags (htags.trans htags').symm hx
    exact hcmds y hy ((congrArg (fun z => z.2.1) htag).trans howner)

theorem State.gone_ends {s : State} {p : Part} (hp : s.curPart = some p) (hthere : s.isMemory (p.tableEntry s.cur.id.ctxid) = true)
    (hover : s.overFor s.cur.id.ctxid) : ∃ t, s.gone true = done t ∧ s.EndedAs t := by
  obtain ⟨htables, hholder, hcmds, hbanks⟩ := State.forgotten_spares hover
  obtain ⟨q, hq, hqthere⟩ := State.entry_of_tables htables hp hthere
  rw [State.gone_forgotten, State.freeEntry_writes hq hqthere, seq_done]
  exact ⟨_, rfl, State.freed_ends (State.sysStore_standing _ _ _) hholder hcmds hbanks _ _⟩

/-- A thread killed, with its table entry in memory, ends with its commands and its lanes (R204, R225). -/
theorem State.kill_ends {s : State} {p : Part} (hp : s.curPart = some p) (hthere : s.isMemory (p.tableEntry s.cur.id.ctxid) = true) :
    ∃ t, s.kill = done t ∧ s.EndedAs t := by
  obtain ⟨htables, hover⟩ := s.stripped_spares
  obtain ⟨q, hq, hqthere⟩ := State.entry_of_tables htables hp hthere
  have hid : s.stripped.cur.id = s.cur.id := congrArg Prod.fst htables
  rw [← hid] at hqthere hover
  obtain ⟨t, ht, st, queue, holder, cmds, banks⟩ := State.gone_ends hq hqthere hover
  rw [hid] at holder cmds banks
  exact ⟨t, ht, st, queue, holder, cmds, banks⟩

end Sys2Proof.Machine

namespace Sys2Proof.Machine

/-! ### The word that starts a command, and the bits of KCMD (R213) -/

theorem kcmdWord_toNat {op : Nat} (hop : op < 16) (c ch : Nat) :
    (kcmdWord op c ch).toNat = 2 ^ 63 + ch % 8 * 2 ^ 24 + op * 65536 + c % 65536 := by
  rw [kcmdWord, BitVec.toNat_ofNat]
  exact Nat.mod_eq_of_lt (by omega)

theorem kcmdWord_op {op : Nat} (hop : op < 16) (c ch : Nat) : bitsOf (kcmdWord op c ch) 16 4 = op := by
  rw [bitsOf, kcmdWord_toNat hop]
  omega

theorem kcmdWord_ctxid {op c : Nat} (hop : op < 16) (hc : c < 65536) (ch : Nat) : bitsOf (kcmdWord op c ch) 0 16 = c := by
  rw [bitsOf, kcmdWord_toNat hop]
  omega

theorem kcmdWord_ch {op : Nat} (hop : op < 16) (c ch : Nat) : bitsOf (kcmdWord op c ch) 24 3 = ch % 8 := by
  rw [bitsOf, kcmdWord_toNat hop]
  omega

/-! ### A command started (R213) -/

/-- KCMD written, with the command kept apart from it. -/
def State.commanded (s : State) (p : Part) (v : Word) : State :=
  s.modPart p.idx fun x => { x with k := { x.k.putKcmd v with kact := v &&& kcmdFields } }

theorem kcmdStep_command {s : State} {p : Part} (hp : s.part? p.idx = some p) (hbusy : p.kcmdBusy = false) (op c ch : Nat) :
    kcmdStep s p.idx op c ch = finish ((s.commanded p (kcmdWord op c ch)).kcmdAct p (kcmdWord op c ch)) := by
  rw [kcmdStep, hp, Option.bind_some, hbusy, Bool.not_false, if_pos rfl, stepOr_some]
  rfl

theorem State.kcmdFlags_standing (s : State) (p : Nat) (busy ref : Bool) : (s.kcmdFlags p busy ref).standing = s.standing :=
  State.modPart_standing _ _ fun _ => ⟨rfl, rfl⟩

theorem State.commanded_standing (s : State) (p : Part) (v : Word) : (s.commanded p v).standing = s.standing :=
  State.modPart_standing _ _ fun _ => ⟨rfl, rfl⟩

/-- The current thread is one of its partition's. -/
theorem State.threadIn_self {s : State} {p : Nat} (hlive : s.cur.st ≠ .free) (hpart : s.launch.part = p) :
    s.threadIn p s.cur.id.ctxid = some s.cur := by
  have hlaunch : (s.launchOf s.cur.id.launch).part = p := hpart
  rw [State.threadIn, State.thread?, if_pos rfl, Option.filter_some, decide_eq_true hlive, decide_eq_true hlaunch]
  rfl

theorem State.threadIn_none {s : State} {c : Nat} (h : s.thread? c = none) (p : Nat) : s.threadIn p c = none := by
  rw [State.threadIn, h]
  rfl

/-! ### What each command does (R213) -/

section
variable {s : State} {p : Part} {v : Word} {c : Nat} (hctxid : bitsOf v 0 16 = c)
include hctxid

theorem State.kcmdAct_kill (hop : bitsOf v 16 4 = 2) (hcur : s.cur.id.ctxid = c) (hlive : s.cur.st ≠ .free) (hpart : s.launch.part = p.idx) :
    s.kcmdAct p v = (s.kcmdFlags p.idx false false).kill := by
  subst hcur
  have hin : (s.kcmdFlags p.idx false false).threadIn p.idx s.cur.id.ctxid = some s.cur := State.threadIn_self hlive hpart
  have hfocus : (s.kcmdFlags p.idx false false).focus s.cur.id.ctxid = some (s.kcmdFlags p.idx false false) := State.focus_self _
  unfold State.kcmdAct
  dsimp only
  rw [hop, hctxid, hin, hfocus]
  rfl

theorem State.kcmdAct_save (hop : bitsOf v 16 4 = 3) (hcur : s.cur.id.ctxid = c) (hrun : s.cur.st = .running) (hpart : s.launch.part = p.idx) :
    s.kcmdAct p v =
      vacateAll (s.kcmdFlags p.idx true false).residentGang (s.kcmdFlags p.idx true false) fun u => done (u.kcmdFlags p.idx false false) := by
  subst hcur
  have hlive : s.cur.st ≠ .free := fun h => TState.noConfusion (hrun.symm.trans h)
  have hin : (s.kcmdFlags p.idx true false).threadIn p.idx s.cur.id.ctxid = some s.cur := State.threadIn_self hlive hpart
  have hfocus : (s.kcmdFlags p.idx true false).focus s.cur.id.ctxid = some (s.kcmdFlags p.idx true false) := State.focus_self _
  have hfound : (((s.kcmdFlags p.idx true false).threadIn p.idx s.cur.id.ctxid).bind fun t =>
      if t.st = .running then (s.kcmdFlags p.idx true false).focus s.cur.id.ctxid else none) = some (s.kcmdFlags p.idx true false) := by
    rw [hin, Option.bind_some, if_pos hrun, hfocus]
  unfold State.kcmdAct
  dsimp only
  rw [hop, hctxid, hfound]
  rfl

theorem State.kcmdAct_engres {x : Cmd} (hop : bitsOf v 16 4 = 4) (h : s.pausedCmd p.idx c (bitsOf v 24 3) p.k.karg = some x) :
    s.kcmdAct p v = done ((s.kcmdFlags p.idx false false).putCmd { x with paused := none }) := by
  have hpaused : (s.kcmdFlags p.idx false false).pausedCmd p.idx c (bitsOf v 24 3) p.k.karg = some x := h
  unfold State.kcmdAct
  dsimp only
  rw [hop, hctxid, hpaused]
  rfl

theorem State.kcmdAct_engabt {x : Cmd} (hop : bitsOf v 16 4 = 5) (h : s.pausedCmd p.idx c (bitsOf v 24 3) p.k.karg = some x) :
    s.kcmdAct p v = done ((s.kcmdFlags p.idx false false).abortCmd x 4) := by
  have hpaused : (s.kcmdFlags p.idx false false).pausedCmd p.idx c (bitsOf v 24 3) p.k.karg = some x := h
  unfold State.kcmdAct
  dsimp only
  rw [hop, hctxid, hpaused]
  rfl

/-- A command that names neither a thread, nor a command, nor a push is refused (log entry 61). -/
theorem State.kcmdAct_refused (hthread : s.thread? c = none) (hcmds : ∀ x ∈ s.cmds, x.owner ≠ c) (hheld : s.link.held = []) :
    s.kcmdAct p v = done (s.kcmdFlags p.idx false true) := by
  have hin : ∀ busy, (s.kcmdFlags p.idx busy false).threadIn p.idx c = none := fun _ => State.threadIn_none hthread _
  have hpaused : (s.kcmdFlags p.idx false false).pausedCmd p.idx c (bitsOf v 24 3) p.k.karg = none := by
    refine List.find?_eq_none.mpr fun x hx hfound => ?_
    simp only [Bool.and_eq_true, decide_eq_true_eq] at hfound
    exact hcmds x hx hfound.1.1.1
  have hpush : (s.kcmdFlags p.idx false false).heldPush p.idx c (bitsOf v 24 3) p.k.karg = none := congrArg (List.find? _) hheld
  unfold State.kcmdAct
  dsimp only
  rw [hctxid]
  split
  · rw [hin, Option.bind_none]
  · rw [hin, Option.bind_none]
  · rw [hin, Option.bind_none]
  · rw [hpaused, hpush]
  · rw [hpaused, hpush]
  · rfl

end

/-! ### KILL and SAVE (R204, R216, R225) -/

theorem State.curPart_of_part? {s : State} {p : Part} (hp : s.part? p.idx = some p) (hpart : s.launch.part = p.idx) : s.curPart = some p := by
  rw [State.curPart, hpart, hp]

theorem exec_kcmdKill {s : State} {p : Part} {c : Nat} (hp : s.part? p.idx = some p) (hbusy : p.kcmdBusy = false) (hc : c < 65536)
    (hcur : s.cur.id.ctxid = c) (hlive : s.cur.st ≠ .free) (hpart : s.launch.part = p.idx) (hthere : s.isMemory (p.tableEntry c) = true) :
    ∃ t, exec (.kcmdKill p.idx c) s = .next t ∧ s.EndedAs t := by
  have htables : ((s.commanded p (kcmdWord 2 c 0)).kcmdFlags p.idx false false).tables = s.tables :=
    State.tables_of_standing ((State.kcmdFlags_standing _ _ _ _).trans (s.commanded_standing _ _))
  obtain ⟨q, hq, hqthere⟩ := State.entry_of_tables htables (State.curPart_of_part? hp hpart) hthere
  obtain ⟨t, ht, st, queue, holder, cmds, banks⟩ := State.kill_ends hq (by rw [← hcur] at hqthere; exact hqthere)
  refine ⟨t, ?_, st, queue, holder, cmds, banks⟩
  have hx : exec (.kcmdKill p.idx c) s = kcmdStep s p.idx 2 c 0 := rfl
  rw [hx, kcmdStep_command hp hbusy, State.kcmdAct_kill (s := s.commanded p _) (kcmdWord_ctxid (by decide) hc 0) (kcmdWord_op (by decide) c 0) hcur hlive
    hpart, ht, finish_done]

theorem exec_contextStateError {s : State} {p : Part} {c : Nat} (hp : s.curPart = some p) (hcur : s.cur.id.ctxid = c) (hlive : s.cur.st ≠ .free)
    (hthere : s.isMemory (p.tableEntry c) = true) : ∃ t, exec (.contextStateError c) s = .next t ∧ s.EndedAs t := by
  subst hcur
  obtain ⟨t, ht, hended⟩ := State.kill_ends hp hthere
  refine ⟨t, ?_, hended⟩
  have hx : exec (.contextStateError s.cur.id.ctxid) s = execContextStateError s.cur.id.ctxid s := rfl
  rw [hx, execContextStateError, State.focus_self, Option.bind_some, if_neg hlive, stepOr_some, ht, finish_done]

/-- A thread that leaves its context does not keep the lanes (R154). -/
theorem State.saveCur_holder {s t : State} {st : TState} (h : s.canSave) (ht : s.saveCur st = done t) :
    (t.core s.cur.id.place).holder ≠ some s.cur.id.ctxid := by
  obtain ⟨v, p, hv, hframe⟩ := State.saveCur_left h st
  obtain ⟨lp, ls, lw, sl, hleaving⟩ := s.leaving_eq
  rw [hleaving] at hframe
  have hid : v.cur.id = s.cur.id := (congrArg (fun x : State => x.cur.id) hframe :)
  have hholder := v.releaseLanes_holder
  rw [hid] at hholder
  rw [hv] at ht
  injection ht with _ ht
  subst ht
  exact hholder

/-- A lone thread that runs is saved without the lanes, and then what waited for it follows (R149, R154, R216). -/
theorem vacateAll_saved {s : State} (hrun : s.cur.st = .running) (h : s.alone) (hsave : s.canSave) (f : State → Res Unit) :
    ∃ t, vacateAll s.residentGang s f = f t ∧ s.Leaves t (if s.cur.waiting then .savedWaiting else .saved) ∧
      (t.core s.cur.id.place).holder ≠ some s.cur.id.ctxid := by
  obtain ⟨t, ht, hleaves⟩ := State.saveCur_leaves hsave (if s.cur.waiting then .savedWaiting else .saved)
  refine ⟨t, ?_, hleaves, State.saveCur_holder hsave ht⟩
  obtain ⟨hgang, hqueue, htrap⟩ := h
  rw [hgang, vacateAll, drainAll_alone hqueue, saveAll, State.focus_self]
  dsimp only
  rw [if_pos hrun, State.saveDrained, htrap]
  dsimp only
  rw [ht]
  rfl

theorem State.canSave.modPart {s : State} (h : s.canSave) (i : Nat) {f : Part → Part} (hf : ∀ p, (f p).idx = p.idx ∧ (f p).k.ttbase = p.k.ttbase) :
    (s.modPart i f).canSave := by
  refine h.of_frame (f := fun x => if x.idx = i then f x else x) rfl rfl rfl rfl rfl (fun p => ?_) fun p => ?_
  · split
    · exact (hf p).1
    · rfl
  · split
    · exact (hf p).2
    · rfl

theorem exec_kcmdSave {s : State} {p : Part} {c : Nat} (hp : s.part? p.idx = some p) (hbusy : p.kcmdBusy = false) (hc : c < 65536)
    (hcur : s.cur.id.ctxid = c) (hrun : s.cur.st = .running) (hpart : s.launch.part = p.idx) (halone : s.alone) (hsave : s.canSave) :
    ∃ t, exec (.kcmdSave p.idx c) s = .next t ∧ t.cur.st = (if s.cur.waiting = true then TState.savedWaiting else .saved) ∧
      t.cur.resume = s.cur.pc ∧ t.cur.g = s.cur.g ∧ (t.core s.cur.id.place).holder ≠ some c := by
  have hbusied : ((s.commanded p (kcmdWord 3 c 0)).kcmdFlags p.idx true false).canSave :=
    (hsave.modPart p.idx fun _ => ⟨by rfl, by rfl⟩).modPart p.idx fun _ => ⟨by rfl, by rfl⟩
  obtain ⟨t, ht, hleaves, hholder⟩ := vacateAll_saved (s := (s.commanded p (kcmdWord 3 c 0)).kcmdFlags p.idx true false) hrun halone hbusied
    fun u => done (u.kcmdFlags p.idx false false)
  have hx : exec (.kcmdSave p.idx c) s = kcmdStep s p.idx 3 c 0 := rfl
  refine ⟨t.kcmdFlags p.idx false false, ?_, hleaves.state, hleaves.resume, hleaves.g, hcur ▸ hholder⟩
  rw [hx, kcmdStep_command hp hbusy, State.kcmdAct_save (s := s.commanded p _) (kcmdWord_ctxid (by decide) hc 0) (kcmdWord_op (by decide) c 0) hcur hrun
    hpart, ht, finish_done]

end Sys2Proof.Machine

namespace Sys2Proof.Machine

/-! ### ENGRES and ENGABT (R213, R222) -/

theorem State.pausedCmd_spec {s : State} {p c ch : Nat} {id : Word} {x : Cmd} (h : s.pausedCmd p c ch id = some x) : x ∈ s.cmds ∧ x.ended = false := by
  have hfound := List.find?_some h
  simp only [Bool.and_eq_true, Bool.not_eq_true'] at hfound
  exact ⟨List.mem_of_find?_eq_some h, hfound.2⟩

theorem exec_kcmdEngres {s : State} {p : Part} {c ch : Nat} {x : Cmd} (hp : s.part? p.idx = some p) (hbusy : p.kcmdBusy = false) (hc : c < 65536)
    (hch : ch < 8) (h : s.pausedCmd p.idx c ch p.k.karg = some x) :
    ∃ t, exec (.kcmdEngres p.idx c ch) s = .next t ∧ (t.cmds.find? fun y => decide (y.key = x.key)) = some { x with paused := none } ∧
      t.mem = s.mem ∧ t.cur = s.cur := by
  have hpaused : (s.commanded p (kcmdWord 4 c ch)).pausedCmd p.idx c (bitsOf (kcmdWord 4 c ch) 24 3) p.k.karg = some x := by
    rw [kcmdWord_ch (by decide), Nat.mod_eq_of_lt hch]
    exact h
  have hx : exec (.kcmdEngres p.idx c ch) s = kcmdStep s p.idx 4 c ch := rfl
  refine ⟨_, ?_, State.putCmd_find (s := (s.commanded p (kcmdWord 4 c ch)).kcmdFlags p.idx false false) (c := { x with paused := none }) rfl
    ⟨x, (State.pausedCmd_spec h).1, rfl⟩, rfl, rfl⟩
  rw [hx, kcmdStep_command hp hbusy, State.kcmdAct_engres (kcmdWord_ctxid (by decide) hc ch) (kcmdWord_op (by decide) c ch) hpaused, finish_done]

/-- A command that names neither a sync word nor a record ends with its status alone, settled or not, and wherever it was paused (R222, R347). -/
theorem endWith_silent {s : State} {c : Cmd} {k : Nat} (hk : k ≠ 0) (hsync : s.syncOf c = none) (hrec : c.desc.crec = 0) (bad : Option Word) :
    ∃ (u : State) (x : Cmd), endWith (c, s) k bad = .ended (u.endCmd x) ∧ u.cmds = s.cmds ∧ u.mem = s.mem ∧ x.key = c.key ∧ x.status = k := by
  have hnone : (s.cancelLines c.key).syncOf { c with status := k } = none := (State.syncOf_cancelLines s c.key _).trans hsync
  obtain ⟨l, hl⟩ := (s.cancelLines c.key).sendEnd_link { c with status := k }
  have herr : setErr ({ c with status := k }, s.cancelLines c.key) bad = .ok ({ c with status := k }, { s.cancelLines c.key with link := l }) := by
    unfold setErr
    dsimp only
    rw [hnone, ← hl]
  have hw : ∀ u : State, writeRecord ({ c with status := k, settled := true }, u) bad = .ok ({ c with status := k, settled := true }, u) :=
    fun u => if_pos (.inl hrec)
  unfold endWith
  dsimp only
  rw [if_neg hk, if_neg hk, herr]
  cases c.settled with
  | true =>
    rw [if_pos rfl]
    dsimp only
    rw [hw]
    exact ⟨_, _, rfl, rfl, rfl, rfl, rfl⟩
  | false =>
    rw [if_neg Bool.false_ne_true]
    dsimp only
    rw [hw]
    exact ⟨_, _, rfl, rfl, rfl, rfl, rfl⟩

/-- An aborted command that names neither a sync word nor a record ends (R222). -/
theorem State.abortCmd_silent {s : State} {c : Cmd} {k : Nat} (hk : k ≠ 0) (hsync : s.syncOf c = none) (hrec : c.desc.crec = 0) :
    ∃ (u : State) (x : Cmd), s.abortCmd c k = u.endCmd x ∧ u.cmds = s.cmds ∧ u.mem = s.mem ∧ x.key = c.key ∧ x.status = k := by
  obtain ⟨u, x, hend, hspares⟩ := endWith_silent (s := s) (c := { c with paused := none, settled := c.settled && decide (c.status ≠ 0) }) hk hsync hrec
    (c.paused.map fun f => f.2.2)
  refine ⟨u, x, ?_, hspares⟩
  unfold State.abortCmd
  rw [hend]

theorem exec_kcmdEngabt {s : State} {p : Part} {c ch : Nat} {x : Cmd} (hp : s.part? p.idx = some p) (hbusy : p.kcmdBusy = false) (hc : c < 65536)
    (hch : ch < 8) (h : s.pausedCmd p.idx c ch p.k.karg = some x) (hsync : s.syncOf x = none) (hrec : x.desc.crec = 0) :
    ∃ t y, exec (.kcmdEngabt p.idx c ch) s = .next t ∧ (t.cmds.find? fun y => decide (y.key = x.key)) = some y ∧ y.ended = true ∧ y.status = 4 ∧
      t.mem = s.mem := by
  have hpaused : (s.commanded p (kcmdWord 5 c ch)).pausedCmd p.idx c (bitsOf (kcmdWord 5 c ch) 24 3) p.k.karg = some x := by
    rw [kcmdWord_ch (by decide), Nat.mod_eq_of_lt hch]
    exact h
  have hx : exec (.kcmdEngabt p.idx c ch) s = kcmdStep s p.idx 5 c ch := rfl
  obtain ⟨u, y, hend, hcmds, hmem, hkey, hst⟩ :=
    State.abortCmd_silent (s := (s.commanded p (kcmdWord 5 c ch)).kcmdFlags p.idx false false) (k := 4) (by decide) hsync hrec
  refine ⟨u.endCmd y, _, ?_, State.endCmd_find hkey ⟨x, hcmds ▸ (State.pausedCmd_spec h).1, rfl⟩, rfl, hst, (u.endCmd_mem y).trans hmem⟩
  rw [hx, kcmdStep_command hp hbusy, State.kcmdAct_engabt (kcmdWord_ctxid (by decide) hc ch) (kcmdWord_op (by decide) c ch) hpaused, finish_done, hend]

/-! ### A command that names nothing (log entry 61) -/

/-- A refused command leaves REF set and GO clear. -/
theorem State.kcmdFlags_refused {s : State} {i : Nat} {p : Part} (hp : s.part? i = some p) : ∃ q, (s.kcmdFlags i false true).part? i = some q ∧
    q.k.kcmd.getLsbD 61 = true ∧ q.k.kcmd.getLsbD 63 = false := by
  refine ⟨_, State.part?_modPart hp fun _ => rfl, ?_, ?_⟩
  · dsimp only
    rw [if_neg Bool.false_ne_true, if_pos rfl, BitVec.getLsbD_or]
    exact Bool.or_true _
  · have hgo : kcmdFields.getLsbD 63 = false := by decide
    dsimp only
    rw [if_neg Bool.false_ne_true, if_pos rfl, BitVec.getLsbD_or, BitVec.getLsbD_or, BitVec.getLsbD_and, hgo, Bool.and_false]
    rfl

theorem kcmdStep_refused {s : State} {p : Part} {op c : Nat} (hp : s.part? p.idx = some p) (hbusy : p.kcmdBusy = false) (hop : op < 16) (hc : c < 65536)
    (hthread : s.thread? c = none) (hcmds : ∀ x ∈ s.cmds, x.owner ≠ c) (hheld : s.link.held = []) (ch : Nat) :
    ∃ t q, kcmdStep s p.idx op c ch = .next t ∧ t.part? p.idx = some q ∧ q.k.kcmd.getLsbD 61 = true ∧ q.k.kcmd.getLsbD 63 = false ∧
      t.cur = s.cur ∧ t.mem = s.mem := by
  obtain ⟨z, hz⟩ : ∃ z, (s.commanded p (kcmdWord op c ch)).part? p.idx = some z := ⟨_, State.part?_modPart hp fun _ => rfl⟩
  obtain ⟨q, hq, href, hgo⟩ := State.kcmdFlags_refused hz
  refine ⟨_, q, ?_, hq, href, hgo, rfl, rfl⟩
  rw [kcmdStep_command hp hbusy, State.kcmdAct_refused (s := s.commanded p _) (kcmdWord_ctxid hop hc ch) hthread hcmds hheld, finish_done]

/-- Settles O55: KILL through what a kill leaves of a thread whose table entry is in memory, SAVE through the leaving of a lone thread, ENGRES and ENGABT
through the paused command that they name, and a command that names nothing through the lookups that all fail. -/
theorem theKernelCommands : Obligations.TheKernelCommands := by
  intro s p c hp hbusy hc
  refine ⟨fun hcur hlive hpart hthere i hi => ?_, exec_kcmdSave hp hbusy hc, fun ch x hch h => ?_, fun hthread hcmds hheld ch i hi => ?_⟩
  · have hends : ∃ t, exec i s = .next t ∧ s.EndedAs t := by
      rcases List.mem_pair.mp hi with rfl | rfl
      · exact exec_kcmdKill hp hbusy hc hcur hlive hpart hthere
      · exact exec_contextStateError (State.curPart_of_part? hp hpart) hcur hlive hthere
    obtain ⟨t, ht, st, queue, holder, cmds, banks⟩ := hends
    rw [hcur] at holder cmds banks
    exact ⟨t, ht, st, queue, holder, cmds, banks⟩
  · obtain ⟨t, ht, hfind, hmem, hcur⟩ := exec_kcmdEngres hp hbusy hc hch h
    exact ⟨⟨t, _, ht, hfind, rfl, rfl, (State.pausedCmd_spec h).2, hmem, hcur⟩, exec_kcmdEngabt hp hbusy hc hch h⟩
  · have hrefused := fun (op : Nat) (hop : op < 16) (ch : Nat) => kcmdStep_refused hp hbusy hop hc hthread hcmds hheld ch
    simp only [List.mem_cons, List.not_mem_nil, or_false] at hi
    rcases hi with rfl | rfl | rfl | rfl | rfl
    · exact hrefused 1 (by decide) 0
    · exact hrefused 2 (by decide) 0
    · exact hrefused 3 (by decide) 0
    · exact hrefused 4 (by decide) ch
    · exact hrefused 5 (by decide) ch

end Sys2Proof.Machine
